-- ==== Sys2Proof/Word.lean ====
section
/-! DEFINITION. Words, tags and the plain data that commands and state share (00 R10, R13; 02 R48–R51). -/

namespace Sys2Proof

/-- A 32-bit payload (R10). -/
abbrev Word := BitVec 32

/-- One byte. -/
abbrev Byte := BitVec 8

/-- A type code of Table 02-2: bits [5:0] of the tag byte (R48). Codes that the table does not list are reserved. -/
abbrev Ty := BitVec 6

/-- A physical address: NODE [52:37], LOCAL [36:0] (R381). -/
abbrev PA := BitVec 53

/-- CTXID [9:0]: context [1:0], core in the lantern [4:2], lantern [9:5] (Table 07-5). -/
abbrev CtxId := BitVec 10

namespace Ty
def unset : Ty := 0x00
def fix : Ty := 0x01
def flt : Ty := 0x02
def bcd : Ty := 0x03
def char : Ty := 0x04
def bool : Ty := 0x05
def nil : Ty := 0x06
def raw : Ty := 0x07
def time : Ty := 0x08
def hit0 : Ty := 0x09
def hit1 : Ty := 0x0A
def chid : Ty := 0x0B
def cons : Ty := 0x10
def vec : Ty := 0x11
def rec_ : Ty := 0x12
def str : Ty := 0x13
def big : Ty := 0x14
def sym : Ty := 0x15
def code : Ty := 0x16
def hitv : Ty := 0x17
def ext : Ty := 0x18
def hdr : Ty := 0x20
def fwd : Ty := 0x21
def pte : Ty := 0x22
def save : Ty := 0x23
def ret : Ty := 0x24
def poison : Ty := 0x3E
end Ty

/-- A value: TYPE and payload, as registers hold it (R49). -/
structure TWord where
  ty : Ty
  val : Word
  deriving DecidableEq, Repr

/-- A memory word: payload and tag byte TYPE [5:0], IMM [6], MARK [7] (R48, R49). -/
structure MWord where
  ty : Ty
  imm : Bool
  mark : Bool
  val : Word
  deriving DecidableEq, Repr

/-- UNSET with payload 0, what the wipe leaves (R61). -/
def TWord.unset : TWord := ⟨Ty.unset, 0⟩
def TWord.raw (v : Word) : TWord := ⟨Ty.raw, v⟩
def TWord.fix (v : Word) : TWord := ⟨Ty.fix, v⟩
def TWord.nil : TWord := ⟨Ty.nil, 0⟩
def TWord.bool (b : Bool) : TWord := ⟨Ty.bool, if b then 1 else 0⟩
/-- A POISON word of a source of Table 02-4. -/
def TWord.poison (src : BitVec 4) : TWord := ⟨Ty.poison, src ++ (0 : BitVec 28)⟩

def MWord.unset : MWord := ⟨Ty.unset, false, false, 0⟩
/-- TYPE and payload of a memory word: what a load puts into a register (R49). -/
def MWord.t (m : MWord) : TWord := ⟨m.ty, m.val⟩
/-- A fresh memory word with IMM and MARK clear. -/
def TWord.m (t : TWord) : MWord := ⟨t.ty, false, false, t.val⟩
def MWord.poison (src : BitVec 4) : MWord := (TWord.poison src).m
/-- The tag byte (Table 02-1). -/
def MWord.tag (m : MWord) : Byte :=
  (if m.mark then (1 : BitVec 1) else 0) ++ (if m.imm then (1 : BitVec 1) else 0) ++ m.ty
def MWord.ofTag (tag : Byte) (val : Word) : MWord :=
  ⟨tag.setWidth 6, tag.getLsbD 6, tag.getLsbD 7, val⟩

/-- The 16 words of a line (R10), word 0 first; a missing word reads UNSET. -/
abbrev Line := List MWord

/-- Word i of a line. -/
def lineWord (l : Line) (i : Nat) : MWord := l.getD i MWord.unset

/-- A line of 16 copies of one word. -/
def lineOf (m : MWord) : Line := List.replicate 16 m

/-- L2 line states (Table 13-3). -/
inductive Moesi where
  | M | O | E | S | I
  deriving DecidableEq, Repr

/-- A sparse table from numbers to values, kept in one canonical form: keys strictly rising (Tab.set keeps it). -/
abbrev Tab (α : Type) := List (Nat × α)

/-- The value at a key, or the given default. -/
def Tab.get {α : Type} (d : α) (t : Tab α) (k : Nat) : α :=
  match t with
  | [] => d
  | (j, v) :: r => if j = k then v else Tab.get d r k

/-- The table without a key. -/
def Tab.erase {α : Type} (t : Tab α) (k : Nat) : Tab α :=
  match t with
  | [] => []
  | (j, w) :: r => if j = k then Tab.erase r k else (j, w) :: Tab.erase r k

/-- Puts a key that the table does not hold in its place. -/
def Tab.insert {α : Type} (t : Tab α) (k : Nat) (v : α) : Tab α :=
  match t with
  | [] => [(k, v)]
  | (j, w) :: r => if j < k then (j, w) :: Tab.insert r k v else (k, v) :: (j, w) :: r

/-- The table with a key set to a value; a value equal to the default leaves no entry. -/
def Tab.set {α : Type} [DecidableEq α] (d : α) (t : Tab α) (k : Nat) (v : α) : Tab α :=
  if v = d then Tab.erase t k else Tab.insert (Tab.erase t k) k v

/-- The canonical form of a table: keys strictly rising, no entry equal to the default. -/
def Tab.wf {α : Type} [DecidableEq α] (d : α) : Tab α → Bool
  | [] => true
  | [(_, v)] => decide (v ≠ d)
  | (j, v) :: (k, w) :: r => decide (v ≠ d) && decide (j < k) && Tab.wf d ((k, w) :: r)

/-- The place of a packet in the receive buffer of a port (14 R440): its port and VC, and how many of its flits lie in places
reserved for the VC and in shared ones; none of them once the packet has been routed. -/
structure RxFlits where
  port : Nat
  vc : Nat
  own : Nat
  shared : Nat
  deriving DecidableEq, Repr

/-- A packet of the Breas fabric (Tables 14-3, 14-4): destination, source, TXID, OP, TTL, whether it has moved to lane b,
whether it is at its source node, the payload of its HEAD flit and of its BODY flits, the port that it came in by, with its
place there, and the tick in which it reached its destination. -/
structure Pkt where
  dest : BitVec 16
  src : BitVec 16
  txid : BitVec 16
  op : BitVec 8
  ttl : BitVec 7
  laneB : Bool
  atSource : Bool
  head : List MWord
  body : List MWord
  rx : Option RxFlits
  tick : BitVec 64
  deriving DecidableEq, Repr

/-- KIND of a flit (Table 14-3). -/
inductive FlitKind where
  | idle | head | body | link
  deriving DecidableEq, Repr

/-- A flit of a Breas port (Table 14-3): header fields and the payload words with their tags. -/
structure Flit where
  kind : FlitKind
  vc : BitVec 4
  bodys : BitVec 3
  ttl : BitVec 7
  dest : BitVec 16
  src : BitVec 16
  txid : BitVec 16
  op : BitVec 8
  fseq : BitVec 12
  ack : BitVec 12
  words : List MWord
  deriving DecidableEq, Repr

/-- Replace the i-th element of a list. -/
def setNth {α : Type} (l : List α) (i : Nat) (v : α) : List α := l.set i v

end Sys2Proof
end

