-- ==== Sys2Proof/Syntax.lean ====
section
/-! DEFINITION. The commands that act on the module, one constructor for each row of opcode_table.json, and the plain
data they carry. A command of a core instruction is the decoded instruction at a context's PC; the words that come from
outside the module (frames, packets, host data, readings) are operands. -/

namespace Sys2Proof

/-- A 5-bit register field (R271, R324). -/
abbrev R5 := BitVec 5
/-- A 3-bit predicate field (R271). -/
abbrev P3 := BitVec 3
/-- A lantern number. -/
abbrev Lan := BitVec 5
/-- A core number: core in the lantern [2:0], lantern [7:3]. -/
abbrev CoreId := BitVec 8


/-- A memory error that an access meets, found by the codes of the caches and controllers (R407, R411, R425, R426). -/
inductive CacheErr where
  | none
  | l1Corr | l1Key | l1Uncorr
  | l2Corr | l2Uncorr | l2Key
  | homeCorr | homeUncorr
  | tagUncorr
  deriving DecidableEq, Repr

/-- The error that an instruction meets (log entry 76): in the L1 I line of its fetch, in the line of its first data
access, or in the n-th microword that it fetches, corrected or not (R352, R364). -/
inductive Upset where
  | none
  | fetch (e : CacheErr)
  | data (e : CacheErr)
  | micro (n : Nat) (uncorr : Bool)
  deriving DecidableEq, Repr

/-- Where and in what form a core instruction issues: the context, whether it is a short form, the guard fields GP and GI
of a long form (R268, R272, R275), and the error that it meets. -/
structure Iss where
  ctx : CtxId
  short : Bool
  gp : P3
  gi : Bool
  upset : Upset := .none
  deriving DecidableEq, Repr

/-- What a walk meets (R390): nothing, an uncorrectable error in the line of the n-th pair that it reads, or a pair that it
read n times torn before its second word was written. -/
inductive WalkMet where
  | none
  | ecc (n : Nat)
  | torn (n : Nat)
  deriving DecidableEq, Repr

/-- What an uncorrectable error was found in (R337): a return-stack entry (0 the top), a control register by number, or
CSTAT. -/
inductive McheckAt where
  | rs (i : Nat)
  | creg (n : R5)
  | cstat
  deriving DecidableEq, Repr

/-- Kinds of access that translate (Table 12-4, R397); mark: mark work and evacuation. -/
inductive AccKind where
  | load | store | rmw | fetch
  | mark
  | specFetch | specLoad
  deriving DecidableEq, Repr

/-- What a table-mode write changes: a control-store word or a hook entry (Table 11-8). -/
inductive UcWrite where
  | word (a : BitVec 13) (w : BitVec 144)
  | hook (i : BitVec 6) (e : BitVec 32)
  deriving DecidableEq, Repr

/-- Who walks: a context of a core, or a Taper engine with an address space and a level (R389). -/
inductive WalkAgent where
  | ctx (c : CtxId)
  | taper (e : BitVec 3) (asid : BitVec 12) (priv : BitVec 2)
  deriving DecidableEq, Repr

/-- Why a decode or a fetch is illegal: a reserved or malformed encoding, or a fetched word of another TYPE (R269,
R296); first: the parcel before that word, where the word is the second that a long form needs. -/
inductive IllCause where
  | enc
  | fetchTag (ty : Ty) (first : Option (BitVec 16))
  deriving DecidableEq, Repr

/-- Who reads a register over BAR0, the device region or the management processor (15 R469): a PCIe function, the
management processor, or a core. -/
inductive Reader where
  | fn (n : BitVec 5)
  | mgmt
  | core (k : CoreId)
  deriving DecidableEq, Repr

/-- What an access of the host or the management processor reaches: BAR0, of which the management processor and the cores use
the PF's offsets; BAR2, with the access's size in bytes; or configuration space (16 R479, R482, R483, R491). -/
inductive RegSpace where
  | bar0
  | bar2 (size : Nat)
  | config
  deriving DecidableEq, Repr

/-- What XREP carries: the word, or the cause (14 R450). -/
inductive XReply where
  | word (w : TWord)
  | cause (c : BitVec 8)
  deriving DecidableEq, Repr

/-- What a host DMA access of a ring was for, when it fails (16 Table 16-3). -/
inductive RingDma where
  | fetch | entry | status
  deriving DecidableEq, Repr

/-- A descriptor as fetched: Q0–Q5 (16 Table 16-4). -/
structure Desc where
  q0 : BitVec 64
  q1 : BitVec 64
  q2 : BitVec 64
  q3 : BitVec 64
  q4 : BitVec 64
  q5 : BitVec 64
  deriving DecidableEq, Repr

/-- The commands: one constructor for each row of the table of operations and events. -/
inductive Instr where
  /-- ADD: Generic addition (R77). -/
  | add (iss : Iss) (rd rs rt : R5)
  /-- SUB: Generic subtraction (R77). -/
  | sub (iss : Iss) (rd rs rt : R5)
  /-- MUL: Generic multiplication (R77). -/
  | mul (iss : Iss) (rd rs rt : R5)
  /-- DIV: Generic division (R77). -/
  | div (iss : Iss) (rd rs rt : R5)
  /-- REM: Generic remainder (R77). -/
  | rem (iss : Iss) (rd rs rt : R5)
  /-- NEG: Generic negation (R82). -/
  | neg (iss : Iss) (rd rs : R5)
  /-- ABS: Generic absolute value (R82). -/
  | abs (iss : Iss) (rd rs : R5)
  /-- AND: Logical AND of like-tagged operands (R83). -/
  | and (iss : Iss) (rd rs rt : R5)
  /-- OR: Logical OR (R83). -/
  | or (iss : Iss) (rd rs rt : R5)
  /-- XOR: Logical XOR (R83). -/
  | xor (iss : Iss) (rd rs rt : R5)
  /-- ANDN: rs AND NOT rt (R83). -/
  | andn (iss : Iss) (rd rs rt : R5)
  /-- NOT: Logical NOT (R83). -/
  | not (iss : Iss) (rd rs : R5)
  /-- SHL: Shift left by a FIX count (R83). -/
  | shl (iss : Iss) (rd rs rt : R5)
  /-- SHR: Logical shift right (R83). -/
  | shr (iss : Iss) (rd rs rt : R5)
  /-- SAR: Arithmetic shift right (R83). -/
  | sar (iss : Iss) (rd rs rt : R5)
  /-- MOV: Copies TYPE and payload, carrying UNSET and POISON (R301). -/
  | mov (iss : Iss) (rd rs : R5)
  /-- MOVP: Writes a predicate as a BOOL (R301). -/
  | movp (iss : Iss) (rd : R5) (ps : P3)
  /-- DADJ: Decimal adjust add of seven-digit fields with carry to a predicate (R81). -/
  | dadj (iss : Iss) (rd rs rt : R5) (pd : P3)
  /-- ADDI: Adds a signed FIX immediate (R302). -/
  | addi (iss : Iss) (rd rs : R5) (imm : BitVec 16)
  /-- ADDQ: Short form adding a 5-bit FIX immediate (R273). -/
  | addq (iss : Iss) (rd : R5) (imm : BitVec 5)
  /-- ANDI: ANDs a FIX with a FIX immediate (R302). -/
  | andi (iss : Iss) (rd rs : R5) (imm : BitVec 10)
  /-- SHI: Shift by an immediate count (R302). -/
  | shi (iss : Iss) (rd rs : R5) (k : BitVec 2) (n : BitVec 5)
  /-- MOVI: Loads a FIX immediate (R302). -/
  | movi (iss : Iss) (rd : R5) (imm : BitVec 16)
  /-- MOVQ: Short form loading a 5-bit FIX immediate (R273). -/
  | movq (iss : Iss) (rd : R5) (imm : BitVec 5)
  /-- NOP: No effect (R301). -/
  | nop (iss : Iss)
  /-- EQ: Numeric equality to a predicate (R85). -/
  | eq (iss : Iss) (pd rs rt : R5)
  /-- NE: Numeric inequality to a predicate (R85). -/
  | ne (iss : Iss) (pd rs rt : R5)
  /-- LT: Numeric less-than to a predicate (R85). -/
  | lt (iss : Iss) (pd rs rt : R5)
  /-- LE: Numeric less-or-equal to a predicate (R85). -/
  | le (iss : Iss) (pd rs rt : R5)
  /-- GT: Numeric greater-than to a predicate (R85). -/
  | gt (iss : Iss) (pd rs rt : R5)
  /-- GE: Numeric greater-or-equal to a predicate (R85). -/
  | ge (iss : Iss) (pd rs rt : R5)
  /-- EQI: Identity compare of TYPE and payload (R84). -/
  | eqi (iss : Iss) (pd rs rt : R5)
  /-- PAND: Predicate AND (R303). -/
  | pand (iss : Iss) (pd ps pt : P3)
  /-- POR: Predicate OR (R303). -/
  | por (iss : Iss) (pd ps pt : P3)
  /-- PXOR: Predicate XOR (R303). -/
  | pxor (iss : Iss) (pd ps pt : P3)
  /-- PANDN: Predicate AND NOT (R303). -/
  | pandn (iss : Iss) (pd ps pt : P3)
  /-- PNOT: Predicate NOT (R303). -/
  | pnot (iss : Iss) (pd ps : P3)
  /-- PSET: Sets a predicate from a BOOL (R303). -/
  | pset (iss : Iss) (pd : P3) (rs : R5)
  /-- LD: Word load, opening a load-delay slot (R304). -/
  | ld (iss : Iss) (rd rs : R5) (d : BitVec 16)
  /-- ST: Word store with the tag, ownership and barrier checks (R305). -/
  | st (iss : Iss) (rd rs : R5) (d : BitVec 16)
  /-- LBS: Sign-extended byte load (R304). -/
  | lbs (iss : Iss) (rd rs rt : R5)
  /-- LBU: Zero-extended byte load (R304). -/
  | lbu (iss : Iss) (rd rs rt : R5)
  /-- LHS: Sign-extended halfword load (R304). -/
  | lhs (iss : Iss) (rd rs rt : R5)
  /-- LHU: Zero-extended halfword load (R304). -/
  | lhu (iss : Iss) (rd rs rt : R5)
  /-- SB: Byte store into a RAW or UNSET word (R60). -/
  | sb (iss : Iss) (rd rs rt : R5)
  /-- SH: Halfword store into a RAW or UNSET word (R60). -/
  | sh (iss : Iss) (rd rs rt : R5)
  /-- LDX: Indexed word load (R304). -/
  | ldx (iss : Iss) (rd rs rt : R5)
  /-- STX: Indexed word store (R304). -/
  | stx (iss : Iss) (rd rs rt : R5)
  /-- LDP: Pair load (R304). -/
  | ldp (iss : Iss) (rd rs : R5) (d : BitVec 10)
  /-- STP: Pair store as one unit, the only store of PTE words (R305). -/
  | stp (iss : Iss) (rd rs : R5) (d : BitVec 10)
  /-- LD_B: Bank-addressed word load (R279). -/
  | ldB (iss : Iss) (r : R5) (b : BitVec 2) (d : BitVec 10)
  /-- ST_B: Bank-addressed word store (R279). -/
  | stB (iss : Iss) (r : R5) (b : BitVec 2) (d : BitVec 10)
  /-- LDP_B: Bank-addressed pair load (R279). -/
  | ldpB (iss : Iss) (r : R5) (b : BitVec 2) (d : BitVec 10)
  /-- STP_B: Bank-addressed pair store (R279). -/
  | stpB (iss : Iss) (r : R5) (b : BitVec 2) (d : BitVec 10)
  /-- CAS: Compare-and-swap (R308). -/
  | cas (iss : Iss) (rd rs rt : R5)
  /-- XCHG: Exchange (R308). -/
  | xchg (iss : Iss) (rd rs rt : R5)
  /-- CAR: Loads the car of a cell (R86). -/
  | car (iss : Iss) (rd rs : R5)
  /-- CDR: Loads the cdr of a cell (R86). -/
  | cdr (iss : Iss) (rd rs : R5)
  /-- LDNF: Privileged word load without FWD redirect (R304). -/
  | ldnf (iss : Iss) (rd rs rt : R5)
  /-- LDL: PC-relative load of a RAW code word (R304). -/
  | ldl (iss : Iss) (rd : R5) (d : BitVec 10)
  /-- CONS: Allocates a new cons cell (R86). -/
  | cons (iss : Iss) (rd rs rt : R5)
  /-- SETCAR: Writes the car of a cell (R86). -/
  | setcar (iss : Iss) (rs rt : R5)
  /-- SETCDR: Writes the cdr of a cell (R86). -/
  | setcdr (iss : Iss) (rs rt : R5)
  /-- NULL: Tests for NIL (R86). -/
  | null (iss : Iss) (pd rs : R5)
  /-- CONSP: Tests for CONS (R86). -/
  | consp (iss : Iss) (pd rs : R5)
  /-- VLEN: Returns an object's LENGTH (R86). -/
  | vlen (iss : Iss) (rd rs : R5)
  /-- VREF: Bounds-checked body-word load (R86). -/
  | vref (iss : Iss) (rd rs rt : R5)
  /-- VSET: Bounds-checked body-word store (R86). -/
  | vset (iss : Iss) (rd rs rt : R5)
  /-- ALLOCV: Allocates a VEC (R86). -/
  | allocv (iss : Iss) (rd rs rt : R5)
  /-- ALLOCR: Allocates a REC (R86). -/
  | allocr (iss : Iss) (rd rs rt : R5)
  /-- ALLOCS: Allocates a STR (R86). -/
  | allocs (iss : Iss) (rd rs rt : R5)
  /-- FREEZE: Sets IMM on every word of an object (R74). -/
  | freeze (iss : Iss) (rs : R5)
  /-- TAGOF: Returns a register's TYPE as FIX (R86). -/
  | tagof (iss : Iss) (rd rs : R5)
  /-- TAGOF_MEM: Returns the tag byte of a memory word without redirect (R309). -/
  | tagofMem (iss : Iss) (rd rs : R5)
  /-- RETAG: Changes a value's TYPE within the privilege rules (R70). -/
  | retag (iss : Iss) (rd rs rt : R5)
  /-- BR: Branch, conditional under a guard (R310). -/
  | br (iss : Iss) (d : BitVec 20)
  /-- BRS: Short branch (R310). -/
  | brs (iss : Iss) (d : BitVec 10)
  /-- CALL: Advances the window, writes the return address and pushes the return stack (R245). -/
  | call (iss : Iss) (d : BitVec 20)
  /-- JR: Jump to a CODE register (R311). -/
  | jr (iss : Iss) (rs : R5)
  /-- CALLR: Call through a CODE register (R311). -/
  | callr (iss : Iss) (rs : R5)
  /-- RET: Checked return through w7 (R260). -/
  | ret (iss : Iss)
  /-- DBNZ: Decrement and branch if not zero (R292). -/
  | dbnz (iss : Iss) (rc : R5) (d : BitVec 15)
  /-- GUARD: Guards the next one to four instructions with a predicate (R276). -/
  | guard (iss : Iss) (p : P3) (inv : Bool) (cm1 : BitVec 2)
  /-- RMOV: Block move of tagged words (R288). -/
  | rmov (iss : Iss) (rd rs rt : R5)
  /-- RFILL: Block fill (R288). -/
  | rfill (iss : Iss) (rd rs rt : R5)
  /-- RSCAN: Block scan for an identical word (R288). -/
  | rscan (iss : Iss) (rd rs rt : R5) (pd : P3)
  /-- FADD: binary32 addition (R313). -/
  | fadd (iss : Iss) (fd fs ft : R5)
  /-- FSUB: binary32 subtraction (R313). -/
  | fsub (iss : Iss) (fd fs ft : R5)
  /-- FMUL: binary32 multiplication (R313). -/
  | fmul (iss : Iss) (fd fs ft : R5)
  /-- FDIV: binary32 division (R313). -/
  | fdiv (iss : Iss) (fd fs ft : R5)
  /-- FSQRT: binary32 square root (R313). -/
  | fsqrt (iss : Iss) (fd fs : R5)
  /-- FMIN: IEEE minimum (R313). -/
  | fmin (iss : Iss) (fd fs ft : R5)
  /-- FMAX: IEEE maximum (R313). -/
  | fmax (iss : Iss) (fd fs ft : R5)
  /-- FMA: Fused multiply-add (R313). -/
  | fma (iss : Iss) (fd fs ft : R5)
  /-- FNEG: Inverts the sign bit (R313). -/
  | fneg (iss : Iss) (fd fs : R5)
  /-- FABS: Clears the sign bit (R313). -/
  | fabs (iss : Iss) (fd fs : R5)
  /-- FEQ: FP equality to a predicate (R313). -/
  | feq (iss : Iss) (pd : P3) (fs ft : R5)
  /-- FLT: FP less-than to a predicate (R313). -/
  | flt (iss : Iss) (pd : P3) (fs ft : R5)
  /-- FLE: FP less-or-equal to a predicate (R313). -/
  | fle (iss : Iss) (pd : P3) (fs ft : R5)
  /-- FUN: FP unordered test (R313). -/
  | fun (iss : Iss) (pd : P3) (fs ft : R5)
  /-- FMV: FP register copy (R313). -/
  | fmv (iss : Iss) (fd fs : R5)
  /-- MTF: Moves a FLT word into an FP register (R314). -/
  | mtf (iss : Iss) (fd rs : R5)
  /-- MFF: Moves an FP register into a FLT word (R313). -/
  | mff (iss : Iss) (rd fs : R5)
  /-- CVTIF: Converts FIX or BIG to binary32 (R313). -/
  | cvtif (iss : Iss) (fd rs : R5)
  /-- CVTFI: Converts binary32 to FIX (R314). -/
  | cvtfi (iss : Iss) (rd fs : R5)
  /-- FLD: Loads a FLT word into an FP register (R314). -/
  | fld (iss : Iss) (fd : BitVec 4) (rs : R5) (d : BitVec 10)
  /-- FST: Stores an FP register as a FLT word (R313). -/
  | fst (iss : Iss) (fd : BitVec 4) (rs : R5) (d : BitVec 10)
  /-- DECIDE: Sends a decision request for the task's event and waits for the answer (R196). -/
  | decide (iss : Iss) (pd : P3) (rs rt ru : R5)
  /-- CGROW: Grants further spans to the task's candle (R104). -/
  | cgrow (iss : Iss) (rs : R5)
  /-- SPAWN: Requests an instance of a named template (R182). -/
  | spawn (iss : Iss) (rs rt : R5)
  /-- WAITJ: Waits for a Taper job (R316). -/
  | waitj (iss : Iss) (rs : R5)
  /-- WAITR: Becomes the listener of a ring and waits for a delivery (R316). -/
  | waitr (iss : Iss) (rs : R5)
  /-- EXIT: Ends the task and frees its context (R186). -/
  | exit (iss : Iss)
  /-- YIELD: Yields the core to another runnable context (R195). -/
  | yield (iss : Iss)
  /-- TSUB: Submits a Taper job record (R221). -/
  | tsub (iss : Iss) (rd rs : R5)
  /-- MSEND: Copies an object into the core's send buffer as a fabric message (R317). -/
  | msend (iss : Iss) (rd rs rt : R5)
  /-- XLD: Remote body-word load through an EXT handle (R318). -/
  | xld (iss : Iss) (rd rs rt : R5)
  /-- XST: Posted remote body-word store through an EXT handle (R318). -/
  | xst (iss : Iss) (rd rs rt : R5)
  /-- CLEAN: Writes a dirty line home and keeps it valid (R319). -/
  | clean (iss : Iss) (rs : R5)
  /-- INV: Discards a line from L1 D and L2 without write-back (R319). -/
  | inv (iss : Iss) (rs : R5)
  /-- CLINV: Clean then invalidate one line (R319). -/
  | clinv (iss : Iss) (rs : R5)
  /-- IINV: Discards a line from the L1 I (R319). -/
  | iinv (iss : Iss) (rs : R5)
  /-- CRNG_CLEAN: Queues a range clean on the lantern's range engine (R423). -/
  | crngClean (iss : Iss) (rs rt : R5)
  /-- CRNG_INVALIDATE: Queues a range invalidate (R423). -/
  | crngInvalidate (iss : Iss) (rs rt : R5)
  /-- CRNG_CLEAN_INVALIDATE: Queues a range clean-and-invalidate (R423). -/
  | crngCleanInvalidate (iss : Iss) (rs rt : R5)
  /-- CSYNC: Waits until the range engine is idle (R319). -/
  | csync (iss : Iss)
  /-- TLBINV: Invalidates the translations of a page node-wide (R320). -/
  | tlbinv (iss : Iss) (rs rt : R5)
  /-- TLBASID: Retires an ASID from every TLB and walk cache (R395). -/
  | tlbasid (iss : Iss) (rt : R5)
  /-- TLBALL: Invalidates every TLB entry (R320). -/
  | tlball (iss : Iss)
  /-- WCINV: Invalidates walk-cache entries of a region (R320). -/
  | wcinv (iss : Iss) (rs rt : R5)
  /-- WCALL: Invalidates every walk-cache entry (R320). -/
  | wcall (iss : Iss)
  /-- FENCE: Orders the selected kinds of access (R287). -/
  | fence (iss : Iss) (m : BitVec 4)
  /-- IFENCE: Invalidates the L1 I so that later fetches see earlier stores (R287). -/
  | ifence (iss : Iss)
  /-- MFC: Reads a control register (R249). -/
  | mfc (iss : Iss) (rd cr : R5)
  /-- MTC: Writes a control register, including a mode change (R250). -/
  | mtc (iss : Iss) (cr rs : R5)
  /-- XGET: Reads a register of a resident context through XBANK (R263). -/
  | xget (iss : Iss) (rd : R5)
  /-- XPUT: Writes a register of a resident context through XBANK (R263). -/
  | xput (iss : Iss) (rs : R5)
  /-- SAVEL: Pushes the lower context frame and empties the return stack (R253). -/
  | savel (iss : Iss)
  /-- SAVEH: Pushes the eight-line ring frame (R253). -/
  | saveh (iss : Iss)
  /-- RSTL: Pops and checks the lower frame and resumes at its PC (R256). -/
  | rstl (iss : Iss)
  /-- RSTH: Pops the ring frame (R253). -/
  | rsth (iss : Iss)
  /-- SPILL: Pushes the oldest resident frame to the save list (R322). -/
  | spill (iss : Iss)
  /-- FILL: Pops a spill frame back into the ring (R322). -/
  | fill (iss : Iss)
  /-- RFE: Checks and restores the state saved at exception entry (R344). -/
  | rfe (iss : Iss)
  /-- TRAP: Raises the system-call exception with code n (R326). -/
  | trap (iss : Iss) (n : BitVec 5)
  /-- BRK: Raises the breakpoint exception (R326). -/
  | brk (iss : Iss)
  /-- MCVER: Returns a microcode identity word (R377). -/
  | mcver (iss : Iss) (rd rs : R5)
  /-- RDTB: Reads TB_TIME or its latched high half (R323). -/
  | rdtb (iss : Iss) (rd rs : R5)
  /-- ZEKIEF_BT: Zekief branch if BOOL true (R324). -/
  | zekiefBt (iss : Iss) (xd : R5) (d : BitVec 16)
  /-- ZEKIEF_BF: Zekief branch if BOOL false (R324). -/
  | zekiefBf (iss : Iss) (xd : R5) (d : BitVec 16)
  /-- ZEKIEF_J: Zekief jump (R324). -/
  | zekiefJ (iss : Iss) (d : BitVec 26)
  /-- ZCALL: Zekief call through x31 and the return stack (R247). -/
  | zcall (iss : Iss) (d : BitVec 26)
  /-- ZRET: Zekief checked return (R247). -/
  | zret (iss : Iss)
  /-- ZDECIDE: Zekief DECIDE whose result is discarded (R324). -/
  | zdecide (iss : Iss) (xd xs xt : R5)
  /-- CUSTOMER_INSTRUCTION: A customer-block opcode runs its microcode from the live bank (R294). -/
  | customerInstruction (iss : Iss) (op : BitVec 3) (cidx rd rs rt : R5) (ecc : Option (Nat × Bool)) (words : Option Nat)
  /-- MARKER_IDLE: An IDLE marker word is decoded on the timing input and has no effect (R462). -/
  | markerIdle (w : BitVec 40)
  /-- ACCEPT: An ACCEPT marker word is decoded; the HUB extends its BX to a crossing number and makes an open request in accept-driven mode (R463). -/
  | accept (w : BitVec 40)
  /-- MARKER_ORBIT: An ORBIT marker is decoded, and at the next crossing edge TB_BX becomes 0 and TB_ORBIT advances, with a slip counted if no wrap was due (R467). -/
  | markerOrbit (w : BitVec 40)
  /-- MARKER_CROSSING: A CROSSING marker is decoded and its BX is compared with the edge's BX, resynchronising TB_BX when RESYNC is set (R467). -/
  | markerCrossing (w : BitVec 40)
  /-- MARKER_RESET: A RESET marker zeroes TB_BX and TB_ORBIT and clears the HUB's record of the highest crossing opened (R467). -/
  | markerReset (w : BitVec 40)
  /-- ALIGN_LOSS: Four consecutive marker words without K28.5 clear ALIGNED, count ALIGN_LOSS and restart the search (R462). -/
  | alignLoss (ws : List (BitVec 40))
  /-- CROSSING_EDGE: At each crossing edge TB_BX increments and wraps at TB_ORBITLEN, advancing TB_ORBIT (R467). -/
  | crossingEdge
  /-- REF_ACQUIRED: The reference signal is present and word-aligned, so the loop measures the frequency and enters ACQUIRE (R464). -/
  | refAcquired (khz : BitVec 16)
  /-- PLL_LOCKED: The phase stays within one tick for 1 ms; the loop enters LOCKED and, on the first lock, TB_TIME starts counting (R464). -/
  | pllLocked
  /-- REF_LOSS: Loss of signal or 64 discarded words within 1 ms drops the loop to NOREF or HOLDOVER (R464). -/
  | refLoss
  /-- REF_RETURN: The reference returns in HOLDOVER and the loop re-enters ACQUIRE, setting REFRANGE if the frequency changed (R464). -/
  | refReturn (khz : BitVec 16)
  /-- COMPARE_FIRE: A compare channel reaches its value, sets its FIRED bit and, for channels 0–60, issues a wake-up or interrupt (R474). -/
  | compareFire (n : BitVec 6)
  /-- TB_SNAP: SNAP latches TB_TIME, TB_BX and TB_ORBIT from one HUB cycle (R470). -/
  | tbSnap
  /-- TB_TIME_LOW_READ: A read of TB_TIME's low half latches its high half for the reader (R469). -/
  | tbTimeLowRead (r : Reader)
  /-- TB_CFG_COMMIT: CFG_COMMIT copies TB_ORBITLEN and TB_MCFG at the next crossing edge (R477). -/
  | tbCfgCommit
  /-- TB_CMP_COMMIT: A channel commit bit copies the channel's shadow CTRL and VAL at the next tick, arming or restarting it (R471). -/
  | tbCmpCommit (n : BitVec 6)
  /-- TB_CNTCLR: CNTCLR clears the time-base counters (R478). -/
  | tbCntclr
  /-- OPEN_REQUEST: The HUB registers an open request, stamps T0 and either grants a slot or decides the event NOCANDLE (R28). -/
  | openRequest
  /-- OPEN_NOTIFICATION: A wick receives an open notification, sets the close mask, queues held frames and applies a pending map exchange (R159). -/
  | openNotification (n : BitVec 3)
  /-- WINDOW_TIMEOUT: Channel 61 fires for an event and the HUB closes its window by timeout (R34). -/
  | windowTimeout
  /-- CLOSE_REPORT: A wick's close report reaches the HUB; when all six are in, the window close is registered (R161). -/
  | closeReport (n : BitVec 3)
  /-- DROP_NOTICE: A wick's drop notice reaches the HUB and marks the event for TRUNC (R161). -/
  | dropNotice (n : BitVec 3)
  /-- DECIDE_REQUEST: A DECIDE request reaches the HUB and is arbitrated; the first fixes the record and later ones count as late (R197). -/
  | decideRequest (cs : List CtxId)
  /-- DECIDE_ANSWER: The HUB's answer to a DECIDE reaches the context, writing pd and making it runnable (R196). -/
  | decideAnswer (c : CtxId)
  /-- DEADLINE_WARNING: Channel 62 fires for an undecided event, setting WARNED and issuing WARN wake-ups (R200). -/
  | deadlineWarning
  /-- HARD_DEADLINE: Channel 63 fires for an event: an undecided event gets the DEADLINE fallback, and a decided one has its remaining tasks killed (R38). -/
  | hardDeadline
  /-- FAULT_REPORT: A FAULTED context's report reaches the HUB and is arbitrated into a POISON or FAULT fallback (R348). -/
  | faultReport (n : Nat)
  /-- RETIRE_START: The retirement conditions hold, so the slot becomes RETIRING and its hard-deadline entry is removed (R40). -/
  | retireStart (idx : BitVec 11)
  /-- EVAC_JOB_QUEUE: The outstanding-escape count reaches 0, the cursors are dropped and the evacuation job is queued (R122). -/
  | evacJobQueue (idx : BitVec 11)
  /-- EVAC_JOB_START: An engine starts a queued evacuation job, preempting any graph, move or mark job (R231). -/
  | evacJobStart (e : BitVec 3)
  /-- EVAC_JOB_DONE: Evacuation completes; the spans go to COOLING and the slot becomes FREE (R122). -/
  | evacJobDone (e : BitVec 3)
  /-- COOLING_EXPIRY: The head COOLING span reaches its expiry and becomes FREE, or RETIRED if RETPEND is set (R98). -/
  | coolingExpiry
  /-- DECISION_RECORD_SEND: A fixed record is sent on a decision lane in the committed order, and copied to the decision ring when HOSTCOPY is set (R207). -/
  | decisionRecordSend
  /-- BEAT: A lane idle for 1 µs sends a BEAT control block (R207). -/
  | beat (l : BitVec 3)
  /-- ALLOC_CHUNK_REFILL: An allocation that does not fit its cursor obtains a new chunk, granting a new span if needed (R102). -/
  | allocChunkRefill (l : Lan) (slot : BitVec 11)
  /-- CN_SPAN_CLAIM: CN_SPAN_CMD CLAIM makes a FREE span PERSISTENT (R97). -/
  | cnSpanClaim (now : Bool)
  /-- CN_SPAN_RELEASE: CN_SPAN_CMD RELEASE moves a PERSISTENT span to COOLING (R97). -/
  | cnSpanRelease
  /-- CN_SPAN_RETIRE: CN_SPAN_CMD RETIRE moves a FREE or PERSISTENT span to RETIRED (R97). -/
  | cnSpanRetire
  /-- MARK_START: START inverts SENSE, turns on the snapshot barrier and marks the open slots PRECYCLE (R131). -/
  | markStart
  /-- MARK_FINISH: FINISH while QUIESCENT turns off the snapshot barrier and begins the sweep (R131). -/
  | markFinish
  /-- MARK_TRACE_START: No slot remains PRECYCLE, so mark jobs are submitted for the root vector and the phase becomes TRACE (R131). -/
  | markTraceStart
  /-- MARK_SWEEP_DONE: Every PERSISTENT span has been counted; dead spans are released under AUTOFREE and the phase returns to IDLE (R131). -/
  | markSweepDone
  /-- CN_ENABLE_WRITE: A write to CN_CTRL.ENABLE enables serving of opens, or is refused before the time base counts (R466). -/
  | cnEnableWrite (v : Bool)
  /-- CN_RUN_COMMIT: RUN_COMMIT copies the run group between two open requests (R20). -/
  | cnRunCommit
  /-- CN_POOL_COMMIT: POOL_COMMIT requests a pool-group copy, checked against the bank rules (R93). -/
  | cnPoolCommit
  /-- CN_POOL_COMMIT_APPLY: Once ENABLE is 0 and IDLE is 1, the pending pool group becomes live and the changed banks are freed (R93). -/
  | cnPoolCommitApply
  /-- CN_CNTCLR: CNTCLR clears the candle-manager counters (R139). -/
  | cnCntclr
  /-- BARRIER_BUFFER_DRAIN: The next barrier-buffer entry is written to the escape log, or to the overflow ring (R115). -/
  | barrierBufferDrain (k : CoreId)
  /-- STORE_WAIT_RESUME: A store waiting at issue for barrier, log or buffer space proceeds when space appears (R121). -/
  | storeWaitResume (c : CtxId)
  /-- LANE_CLOCK_RECOVERED: A lane in ACQUIRE recovers clock with signal present and starts the sync-header search (R143). -/
  | laneClockRecovered (n : BitVec 3) (p : BitVec 4)
  /-- LANE_SYNC_LOCKED: After 64 consecutive valid sync headers the lane enters ALIGN (R143). -/
  | laneSyncLocked (n : BitVec 3) (p : BitVec 4)
  /-- LANE_ALIGNED: After 16 consecutive IDLE blocks the lane clears its sequence reference and enters UP (R143). -/
  | laneAligned (n : BitVec 3) (p : BitVec 4) (blocks : List (BitVec 66))
  /-- LANE_LOCK_LOST: Sixteen invalid headers within 64 blocks drop the lane from UP to ACQUIRE (R143). -/
  | laneLockLost (n : BitVec 3) (p : BitVec 4)
  /-- LANE_LOSS_OF_SIGNAL: Loss of signal returns the lane to ACQUIRE and removes it from the close masks (R143). -/
  | laneLossOfSignal (n : BitVec 3) (p : BitVec 4)
  /-- FRAME_HEADER: A frame header arrives, is checked for format and length, and reserves burst-buffer space or drops the frame (R168). -/
  | frameHeader (n : BitVec 3) (p : BitVec 4) (blocks : List (BitVec 66))
  /-- FRAME_EOF: The EOF of a frame arrives; the frame is checked, counted, sequence-compared and entered in the crossing table (R149). -/
  | frameEof (n : BitVec 3) (p : BitVec 4) (blocks : List (BitVec 66))
  /-- HOLD_EXPIRY: The hold of a HELD entry expires and its frames are dropped as ORPHAN (R157). -/
  | holdExpiry (n : BitVec 3) (x : BitVec 48)
  /-- WICK_CLOSE_TIMEOUT: A timeout close reaches a wick, which writes the passed frames and the final HDR and reports the close (R157). -/
  | wickCloseTimeout (n : BitVec 3)
  /-- WICK_CLOSE_DECISION: A decision close reaches a wick, which stops writing, drops the rest as LATE and reports the close (R157). -/
  | wickCloseDecision (n : BitVec 3)
  /-- FRAME_WRITE: The wick's writer maps and writes a frame's hits into the event's extent with stash hints (R164). -/
  | frameWrite (n : BitVec 3) (x : BitVec 48)
  /-- WK_MAP_LOAD: WK_MAP_CMD.LOAD starts copying a channel map from memory into the shadow map (R153). -/
  | wkMapLoad (n : BitVec 3)
  /-- MAP_LOAD_DONE: The map load finishes and MAP_BUSY clears (R153). -/
  | mapLoadDone (n : BitVec 3)
  /-- WK_MAP_COMMIT: MAP_COMMIT requests the exchange of the live and shadow maps (R154). -/
  | wkMapCommit (n : BitVec 3)
  /-- WK_LANE_COMMIT: LANE_COMMIT copies the lane configurations at the next open notification (R177). -/
  | wkLaneCommit (n : BitVec 3)
  /-- WK_EVENT_COMMIT: EVENT_COMMIT copies the event group between two open requests (R177). -/
  | wkEventCommit
  /-- WK_ENABLE_WRITE: A write to WK_GCTRL.ENABLE enables or disables the wicks and applies pending commits (R178). -/
  | wkEnableWrite (v : Bool)
  /-- WK_MAP_DATA_ACCESS: A WK_MAP_DATA access reaches a shadow map entry and increments WK_MAP_SEL under AUTOINC (R153). -/
  | wkMapDataAccess (n : BitVec 3) (v : Option Word)
  /-- WK_CNTCLR: CNTCLR clears the wick and lane counters and WK_BUF_HWM (R177). -/
  | wkCntclr (n : BitVec 3)
  /-- TASK_DISPATCH: A lantern with a free context dispatches the head of its queue (R192). -/
  | taskDispatch (l : Lan)
  /-- PREEMPTION: A higher-level queued task preempts a task of a numerically greater level, which is saved to its save area (R194). -/
  | preemption (l : Lan)
  /-- MIGRATION: An idle lantern takes the head non-PINNED task of the busiest masked lantern (R193). -/
  | migration (l : Lan)
  /-- DEFER_DRAIN: As space frees, deferred instances are made from the defer ring by level (R189). -/
  | deferDrain
  /-- SPAWN_REQUEST: A SPAWN request reaches the HUB and instantiates the named template, unless the event has been killed (R182). -/
  | spawnRequest
  /-- CONTEXT_TIMESLICE: After 4,096 cycles with another runnable context of the same level waiting, the core changes context (R251). -/
  | contextTimeslice (k : CoreId)
  /-- LL_MENU_COMMIT: MENU_COMMIT starts loading the template table into the shadow store (R179). -/
  | llMenuCommit
  /-- MENU_COMMIT_APPLY: The loaded templates and the menu group become live between two open requests (R179). -/
  | menuCommitApply
  /-- LL_POOL_COMMIT: The Lamplighter POOL_COMMIT requests a pool-group copy (R214). -/
  | llPoolCommit
  /-- LL_POOL_COMMIT_APPLY: Once ENABLE is 0 and IDLE is 1, the pending Lamplighter pool group becomes live (R214). -/
  | llPoolCommitApply
  /-- LL_ENABLE_WRITE: A write to LL_CTRL.ENABLE starts or stops instantiation and dispatch (R215). -/
  | llEnableWrite (v : Bool)
  /-- LL_CNTCLR: LL_CTRL.CNTCLR clears the LL_ and SN_ counters (R214). -/
  | llCntclr
  /-- SN_CNTCLR: SN_CTRL.CNTCLR clears the SN_ counters (R214). -/
  | snCntclr
  /-- DP_OUT_COMMIT: OUT_COMMIT copies the output group between two records (R210). -/
  | dpOutCommit
  /-- DP_CNTCLR: DP_CTRL.CNTCLR clears the DP_ counters and DP_ROB_HWM (R214). -/
  | dpCntclr
  /-- GRAPH_JOB_START: An engine starts a graph job, reading the record and headers and checking its inputs (R224). -/
  | graphJobStart (e : BitVec 3)
  /-- MOVE_JOB_START: An engine starts a MOVE job, copying a persistent object and leaving FWD words (R230). -/
  | moveJobStart (e : BitVec 3)
  /-- JOB_COMPLETE: A graph or move job writes its completion words and frees its entry (R222). -/
  | jobComplete (e : BitVec 3)
  /-- MARK_POP: A marking engine pops a mark-stack entry and marks, forwards or requests remotely (R233). -/
  | markPop (e : BitVec 3)
  /-- MARK_LOG_CONSUME: Taper pushes a mark-log entry onto the mark stack with its ASID (R232). -/
  | markLogConsume
  /-- MARK_REQUEST: A remote mark request arrives in the SYS class and is pushed with its own ASID (R234). -/
  | markRequest (w : TWord) (asid : BitVec 12)
  /-- ENGINE_KILL: A kill reaches an engine; the event's jobs complete KILLED with no wake-up (R236). -/
  | engineKill (e : BitVec 3)
  /-- TP_MARK_COMMIT: MARK_COMMIT requests a copy of the mark-stack group (R240). -/
  | tpMarkCommit
  /-- TP_MARK_COMMIT_APPLY: Once the mark phase is IDLE, the pending mark group becomes live (R240). -/
  | tpMarkCommitApply
  /-- TP_CNTCLR: CNTCLR clears the TP_ counters (R241). -/
  | tpCntclr
  /-- LOAD_DATA_RETURN: An outstanding load's value is written to its register, releasing the scoreboard or a stalled context (R280). -/
  | loadDataReturn (c : CtxId)
  /-- EXCEPTION_ENTRY: After outstanding loads finish, the context saves EPC and ESTAT, fills the shadow registers and jumps to the vector (R331). -/
  | exceptionEntry (c : CtxId)
  /-- MACHINE_CHECK: An uncorrectable error in a return-stack entry or a control register raises MCHECK at MONITOR (R337). -/
  | machineCheck (c : CtxId) (what : McheckAt)
  /-- DEBUG_INTERRUPT: A pending debug request is taken when the target context can accept it (R338). -/
  | debugInterrupt (c : CtxId)
  /-- TABLE_WALK: A TLB miss walks the tables and installs an entry or raises a translation fault (R389). -/
  | tableWalk (a : WalkAgent) (va : Word) (kind : AccKind) (m : WalkMet) (enc : Word)
  /-- RANGE_OP_DONE: The range engine finishes a range and starts the next queued one (R423). -/
  | rangeOpDone (l : Lan)
  /-- UC_CORE_COMMIT: A core with no customer instruction in its sequencer makes its shadow bank live (R376). -/
  | ucCoreCommit (k : CoreId)
  /-- CSTORE_REWRITE: A patch or customer word hit by an uncorrectable error is rewritten and the sequencer returns to SERVICE (R364). -/
  | cstoreRewrite (k : CoreId)
  /-- UC_ROM_CHECK: Table-mode opcode 0x01 checks the ROM CRC (R364). -/
  | ucRomCheck (k : CoreId) (ok : Bool)
  /-- UC_RAM_TEST: Table-mode opcode 0x02 pattern-tests and wipes the control-store RAM (R364). -/
  | ucRamTest (k : CoreId) (ok : Bool)
  /-- UC_WORD_WRITE: Table-mode opcode 0x03 writes a control-store word or hook entry (R364). -/
  | ucWordWrite (k : CoreId) (what : UcWrite)
  /-- UC_WORD_READ: Table-mode opcode 0x04 reads back a control-store word (R364). -/
  | ucWordRead (k : CoreId) (a : BitVec 13)
  /-- UC_BANK_SWAP: Table-mode opcode 0x05 swaps the shadow and live customer banks (R364). -/
  | ucBankSwap (k : CoreId)
  /-- MM_ROOT_COMMIT: ROOT_COMMIT makes a new root table live between walks, or is refused (R403). -/
  | mmRootCommit
  /-- MM_CNTCLR: CNTCLR clears the MM_ counters (R404). -/
  | mmCntclr
  /-- MM_LASTF_CLR: LASTF_CLR clears the last-fault registers (R404). -/
  | mmLastfClr
  /-- SHARED_READ: A home agent serves a shared-read request (R414). -/
  | sharedRead (node : BitVec 16) (l : Lan) (txid : BitVec 16) (pa : PA) (err : CacheErr)
  /-- OWN_READ: A home agent serves an own-read request and invalidates the other copies (R414). -/
  | ownRead (node : BitVec 16) (l : Lan) (txid : BitVec 16) (pa : PA) (err : CacheErr)
  /-- UPGRADE: A home agent serves an upgrade from S to M (R414). -/
  | upgrade (node : BitVec 16) (l : Lan) (txid : BitVec 16) (pa : PA) (err : CacheErr)
  /-- WRITE_BACK: A home agent takes a write-back of M or O data (R414). -/
  | writeBack (node : BitVec 16) (l : Lan) (pa : PA) (words : List MWord)
  /-- EVICTION_NOTICE: A home agent takes an eviction notice for an E or S line (R414). -/
  | evictionNotice (node : BitVec 16) (l : Lan) (pa : PA)
  /-- HINTED_WRITE: A hinted write gathers the line and places it in the named lantern's L2 in M (R421). -/
  | hintedWrite (l : Lan) (pa : PA) (ws : List (BitVec 4 × MWord))
  /-- UNCACHED_WRITE: A host or fabric write without a hint is merged at home (R414). -/
  | uncachedWrite (node txid : BitVec 16) (pa : PA) (ws : List (BitVec 4 × MWord))
  /-- EXCHANGE_AT_HOME: A MARK test-and-set is performed at the home agent (R234). -/
  | exchangeAtHome (node txid : BitVec 16) (pa : PA) (idx : BitVec 4) (tag : Byte)
  /-- FORWARD_SHARED: A lantern L2 receives a forward for shared and supplies its data (R416). -/
  | forwardShared (l : Lan) (pa : PA) (txid : BitVec 16) (err : CacheErr)
  /-- FORWARD_OWN: A lantern L2 receives a forward for own, supplies its data and invalidates (R416). -/
  | forwardOwn (l : Lan) (pa : PA) (txid : BitVec 16) (err : CacheErr)
  /-- INVALIDATE: A lantern L2 receives an invalidation and acknowledges it (R418). -/
  | invalidate (pa : PA) (txid : BitVec 16)
  /-- DATA_RESPONSE: A requester receives line data with its granted state, or discards it when it arrives late (R416). -/
  | dataResponse (txid : BitVec 16) (pa : PA) (st : Moesi) (words : List MWord)
  /-- ACK_RESPONSE: A requester receives a completion acknowledgement (R438). -/
  | ackResponse (txid : BitVec 16)
  /-- NODATA_RESPONSE: A home agent receives NODATA and writes the line at home as POISON (R448). -/
  | nodataResponse (txid : BitVec 16)
  /-- ERR_RESPONSE: A requester receives ERR and completes the request with an error (R447). -/
  | errResponse (txid : BitVec 16)
  /-- XREP: An XLD reply writes the word, or raises the remote cause in the issuing context (R450). -/
  | xrep (txid : BitVec 16) (a : XReply)
  /-- MERGE_BUFFER_DRAIN: The oldest merging-buffer entry is written into the lantern L2 (R406). -/
  | mergeBufferDrain (k : CoreId) (uncorr : Bool)
  /-- SCRUB_READ: A controller scrubs its next line, correcting or poisoning it (R427). -/
  | scrubRead (n : BitVec 2) (err : CacheErr)
  /-- HBM_WIPE_DONE: A controller finishes its wipe, clears WIPE_BUSY and releases waiting requests (R428). -/
  | hbmWipeDone (n : BitVec 2)
  /-- MC_TEST_READ: MC_TEST_CMD READ reads a line with its tags and check bytes (R429). -/
  | mcTestRead (n : BitVec 2)
  /-- MC_TEST_WRITE: MC_TEST_CMD WRITE writes a line, injecting check bytes under RAWCHK (R429). -/
  | mcTestWrite (n : BitVec 2)
  /-- MC_LASTE_LOW_READ: A read of MC_LASTE's low half latches its high half (R426). -/
  | mcLasteLowRead (n : BitVec 2) (reader : Reader)
  /-- CC_CNTCLR: CNTCLR clears the CC_ counters (R432). -/
  | ccCntclr
  /-- MC_CNTCLR: CNTCLR clears the MC_ counters and MC_LASTE (R432). -/
  | mcCntclr (n : BitVec 2)
  /-- PORT_PHY_LOCK: A port gains clock and FEC lock on all lanes and enters ALIGN (R434). -/
  | portPhyLock (p : BitVec 4)
  /-- PHY_LOCK_TIMEOUT: No lock within 100 ms counts TRAIN_FAIL and tries the other rate under auto (R434). -/
  | phyLockTimeout (p : BitVec 4)
  /-- PORT_LANES_ALIGNED: The lanes are deskewed and the port enters NEGOT (R434). -/
  | portLanesAligned (p : BitVec 4)
  /-- CAPABILITY: A capability LINK flit is received and a link version is chosen or the port is isolated (R435). -/
  | capability (p : BitVec 4) (versions : BitVec 2) (node : BitVec 16) (port : BitVec 4) (half : Bool) (credits : List (BitVec 12))
  /-- CAPABILITY_TIMER: In NEGOT the port sends a capability flit every 1 µs (R435). -/
  | capabilityTimer (p : BitVec 4)
  /-- NEGOT_TIMEOUT: No capability for 10 ms returns the port to PHY (R434). -/
  | negotTimeout (p : BitVec 4)
  /-- BL_LOSS_OF_SIGNAL: Loss of signal on a receive lane starts a retrain (R455). -/
  | blLossOfSignal (p : BitVec 4)
  /-- FEC_LIMIT: More than UNC_TH uncorrectable codewords in 1 ms starts a retrain (R455). -/
  | fecLimit (p : BitVec 4) (corr unc : Word)
  /-- RETRAIN_COMPLETE: A retrain with the same peer completes and the port replays from the peer's ACK (R434). -/
  | retrainComplete (p : BitVec 4) (ack : BitVec 12)
  /-- RETRAIN_FAILED: A retrain attempt fails or finds a changed peer, possibly isolating the port (R434). -/
  | retrainFailed (p : BitVec 4)
  /-- BL_RETRAIN: BL_PCTRL.RETRAIN starts a retrain of an UP port (R455). -/
  | blRetrain (p : BitVec 4)
  /-- BL_ISOLATE: BL_PCTRL.ISOLATE isolates the port and empties its buffers (R456). -/
  | blIsolate (p : BitVec 4)
  /-- BL_RELEASE: BL_PCTRL.RELEASE returns an isolated port to PHY (R434). -/
  | blRelease (p : BitVec 4)
  /-- POWERFAIL_NOTICE: A peer's POWERFAIL notice isolates the port with reason PEERFAIL (R434). -/
  | powerfailNotice (p : BitVec 4)
  /-- FLIT_RECEIVED: A HEAD or BODY flit is accepted when its CRC and FSEQ are right, or discarded with a NAK (R439). -/
  | flitReceived (p : BitVec 4) (bytes : List Byte)
  /-- NAK: A NAK makes the sender replay from the named FSEQ (R439). -/
  | nak (p : BitVec 4) (fseq ack : BitVec 12)
  /-- LINK_CREDIT_ACK: A credit and ACK LINK flit returns credits and releases retry-buffer flits (R440). -/
  | linkCreditAck (p : BitVec 4) (credits : List (BitVec 12)) (ack : BitVec 12)
  /-- ACK_TIMER: A LINK flit carrying ACK is sent at least every 256 ns (R439). -/
  | ackTimer (p : BitVec 4)
  /-- PACKET_ROUTE: A HEAD flit is routed to a sink, a port or an alternate, or dropped (R444). -/
  | packetRoute
  /-- MSG_SEND_TAKE: A port takes a message from a core's send buffer and sends it as one MSG packet (R451). -/
  | msgSendTake (k : Option CoreId)
  /-- REMOTE_REQUEST_TIMEOUT: A remote request with no response within BL_TIMEOUT completes with an error (R447). -/
  | remoteRequestTimeout (txid : BitVec 16)
  /-- XLD_REQUEST: The home fabric agent checks and serves an XLD and replies with XREP (R450). -/
  | xldRequest (node txid : BitVec 16) (w0 w1 idx : TWord)
  /-- XST_REQUEST: The home fabric agent checks and performs an XST (R450). -/
  | xstRequest (node txid : BitVec 16) (w0 w1 idx v : TWord)
  /-- MSG_DELIVERY: A message is written into its ring slot, PROD advances and an MSG wake-up follows (R453). -/
  | msgDelivery
  /-- BL_RT_LOAD: BL_RT_CMD.LOAD starts loading the shadow routing table from memory (R445). -/
  | blRtLoad
  /-- RT_LOAD_DONE: The routing-table load finishes (R445). -/
  | rtLoadDone
  /-- BL_RT_COMMIT: RT_COMMIT exchanges the routing tables between two lookups (R445). -/
  | blRtCommit
  /-- BL_NODE_COMMIT: NODE_COMMIT copies the node ID while every port is OFF (R459). -/
  | blNodeCommit
  /-- BL_PORT_COMMIT: PORT_COMMIT copies the port configurations at once, restarting changed ports (R459). -/
  | blPortCommit
  /-- BL_RING_COMMIT: RING_COMMIT copies the ring group between two deliveries (R459). -/
  | blRingCommit
  /-- BL_CNTCLR: CNTCLR clears the BL_ counters (R459). -/
  | blCntclr
  /-- DB_PROD: A DB_PROD doorbell advances a host-to-device ring's producer (R491). -/
  | dbProd (r : BitVec 10) (v : Word) (fn : BitVec 5)
  /-- DB_CONS: A DB_CONS doorbell advances a device-to-host ring's consumer (R491). -/
  | dbCons (r : BitVec 10) (v : Word) (fn : BitVec 5)
  /-- DB_ARM: DB_ARM arms the ring's interrupt (R492). -/
  | dbArm (r : BitVec 10) (fn : BitVec 5)
  /-- DESCRIPTOR_NOP: A NOP descriptor completes OK (R495). -/
  | descriptorNop (r : BitVec 10) (d : Desc)
  /-- COPY_IN: Copies host data into device words, raw or tagged (R497). -/
  | copyIn (r : BitVec 10) (d : Desc) (data : List Byte) (poisoned : Bool)
  /-- COPY_OUT: Copies device words to host memory (R498). -/
  | copyOut (r : BitVec 10) (d : Desc) (fail : Option Word)
  /-- MENU_LOAD: Checks and loads a menu image into device memory (R501). -/
  | menuLoad (r : BitVec 10) (d : Desc) (data : List Byte) (poisoned : Bool)
  /-- REPLAY: Hands frame images to a replay lane under pacing (R499). -/
  | replay (r : BitVec 10) (d : Desc) (data : List Byte) (poisoned : Bool)
  /-- SEND: Sends one fabric message from the host (R500). -/
  | send (r : BitVec 10) (d : Desc) (data : List Byte) (poisoned : Bool)
  /-- RING_ENABLE: An EN write of 1 starts the ring, or is refused (R489). -/
  | ringEnable (r : BitVec 10) (fn : BitVec 5) (cfg : Word)
  /-- RING_DISABLE: An EN write of 0 drains or disables the ring (R489). -/
  | ringDisable (r : BitVec 10) (fn : BitVec 5) (cfg : Word) (irqs : List Bool)
  /-- RING_DRAIN_DONE: The last completion and status block are written and the ring becomes DISABLED (R489). -/
  | ringDrainDone (r : BitVec 10)
  /-- HI_IFVER_WRITE: A write of HI_IFVER.REQ selects the host interface version, or is refused (R486). -/
  | hiIfverWrite (req : BitVec 2)
  /-- FUNCTION_LEVEL_RESET: An FLR disables the function's rings and clears its MSI-X table (R485). -/
  | functionLevelReset (fn : BitVec 5)
  /-- PCIE_FUNDAMENTAL_RESET: PERST# resets the host interface as a PF FLR and retrains the link (R516). -/
  | pcieFundamentalReset (speed : BitVec 4) (width : BitVec 5)
  /-- IRQ_HOLDOFF_EXPIRY: HOLDOFF expires and the armed ring sends its MSI-X vector (R492). -/
  | irqHoldoffExpiry (r : BitVec 10)
  /-- HOST_DMA_TIMEOUT: A host read gets no completion within 10 ms and fails (R480). -/
  | hostDmaTimeout (r : BitVec 10) (what : RingDma) (poisoned : Bool)
  /-- BAR0_BAD_ACCESS: A BAR0 access of the wrong size or alignment is refused and counted (R481). -/
  | bar0BadAccess (isRead : Bool)
  /-- WINDOW_READ_COMPLETION: The completion of a host-window load returns its value or POISON (R507). -/
  | windowReadCompletion (c : CtxId) (v : Option (BitVec 64)) (poisoned : Bool)
  /-- HI_CNTCLR: CNTCLR clears the HI_ counters (R511). -/
  | hiCntclr
  /-- MG_MS_TICK: Each millisecond the management processor samples sensors, steps DVFS and adds the error sums (R513). -/
  | mgMsTick (readings : List (BitVec 16)) (late : Bool)
  /-- MB_TELEM: Mailbox TELEM returns a sensor reading (R526). -/
  | mbTelem
  /-- MB_RESET: Mailbox RESET resets the module (R516). -/
  | mbReset
  /-- LC_NONCE: Returns a fresh 32-byte nonce (R521). -/
  | lcNonce
  /-- LC_SET: A signed life-cycle transition (R521). -/
  | lcSet
  /-- KEY_ENROLL: Writes a customer key into a free slot (R520). -/
  | keyEnroll
  /-- KEY_REVOKE: Marks a customer key revoked (R520). -/
  | keyRevoke
  /-- UC_LOAD: Checks and loads a microcode image (R374). -/
  | ucLoad
  /-- UC_COMMIT: Makes the shadow customer bank live on every core (R376). -/
  | ucCommit
  /-- UC_FLOOR: Raises a rollback floor (R374). -/
  | ucFloor
  /-- FW_STAGE: Writes and verifies a firmware image in the inactive slot (R524). -/
  | fwStage
  /-- FW_ACTIVATE: Makes the staged slot active from the next reset (R524). -/
  | fwActivate
  /-- MB_DEBUG_REQ: Requests a DEBUG interrupt of a context in SERVICE (R338). -/
  | mbDebugReq
  /-- LCEIL: Sets lantern clock ceilings (R514). -/
  | lceil
  /-- MG_THERM_COMMIT: THERM_COMMIT copies MG_THERM at the next sample (R531). -/
  | mgThermCommit
  /-- MG_CNTCLR: CNTCLR clears the management counters and sums (R531). -/
  | mgCntclr
  /-- I2C_STATUS: Returns the status, life-cycle state, temperature and power (R527). -/
  | i2cStatus (addr : BitVec 7) (byte : Byte)
  /-- I2C_TELEM: Returns a sensor reading (R527). -/
  | i2cTelem (addr : BitVec 7) (n : Byte)
  /-- I2C_ERRSUM: Returns the error sums (R527). -/
  | i2cErrsum (addr : BitVec 7)
  /-- I2C_RECORD: Returns a recorder record by sequence number (R541). -/
  | i2cRecord (addr : BitVec 7) (seq : Option (BitVec 48))
  /-- I2C_RESET: Resets the module (R527). -/
  | i2cReset (addr : BitVec 7) (a b : Byte)
  /-- I2C_SLOT: Selects the firmware slot for the next boot (R527). -/
  | i2cSlot (addr : BitVec 7) (a : Byte)
  /-- BYPASS: JTAG BYPASS instruction (R528). -/
  | bypass (tdi : List Bool)
  /-- IDCODE: JTAG IDCODE instruction (R528). -/
  | idcode (tdi : List Bool)
  /-- SAMPLE_PRELOAD: JTAG SAMPLE/PRELOAD instruction (R528). -/
  | samplePreload (pins preload : List Bool)
  /-- EXTEST: JTAG EXTEST instruction (R528). -/
  | extest (pins preload : List Bool)
  /-- CLAMP: JTAG CLAMP instruction (R528). -/
  | clamp (tdi : List Bool)
  /-- HIGHZ: JTAG HIGHZ instruction (R528). -/
  | highz (tdi : List Bool)
  /-- JTAG_PRIVATE: Private instructions 0x20–0x2F, active only in SERVICE and otherwise BYPASS (R528). -/
  | jtagPrivate (code : BitVec 4) (tdi : List Bool)
  /-- RESET_PIN: RESET# asserted for 10 µs or more resets the module (R516). -/
  | resetPin (high : Bool)
  /-- BOOT_READY: Boot completes, releases the cores and sets READY, or sets BOOTERR (R525). -/
  | bootReady (fail : Option (BitVec 4)) (speed : BitVec 4) (width : BitVec 5)
  /-- INPUT_POWER_UP: The input rises, the rails come up and reset is released (R551). -/
  | inputPowerUp (straps : BitVec 3) (high : Bool)
  /-- POWER_FAIL_WARNING: The input bus leaves range and the module sheds load, issues POWERFAIL decisions and flushes the recorder (R553). -/
  | powerFailWarning
  /-- INPUT_DROPOUT: The bus reaches the 28 V dropout and records not yet in MRAM are lost (R556). -/
  | inputDropout
  /-- STANDBY_RELEASE: The input stays good for 100 ms after a power-fail, and a module reset follows (R555). -/
  | standbyRelease
  /-- RECORD_HANDOVER: A block hands over a record, which takes a SEQ or coalesces into an open record (R533). -/
  | recordHandover
  /-- RECORD_CLOSE: A record's 1 ms open window ends and it closes, going to the log rings (R534). -/
  | recordClose (seq : BitVec 48)
  /-- FLUSH_AGE_EXPIRY: 100 ms after the oldest unflushed record, a flush starts (R538). -/
  | flushAgeExpiry
  /-- RECORDER_FLUSH_DONE: The flush ends, with the PF_WARN record written last when power fails (R539). -/
  | recorderFlushDone
  /-- ER_FETCH: FETCH copies record s into ER_RD_DATA with a status (R540). -/
  | erFetch
  /-- ER_WIDE_LOW_READ: A read of a 48-bit register's low half latches its high half (R544). -/
  | erWideLowRead (which : BitVec 2) (reader : Reader)
  /-- ER_CNTCLR: CNTCLR clears the recorder counters (R544). -/
  | erCntclr
  /-- REGISTER_WRITE: A write to a register field without a row of its own acts under its access code (R17). -/
  | registerWrite (who : Reader) (space : RegSpace) (off : BitVec 25) (v : Option Word)
  /-- MARKER_WORD_DISCARDED: A marker word with a code-group, disparity or character-0 error, or with an unlisted TYPE, is discarded and counted in CODE_ERR or UNKNOWN (R462). -/
  | markerWordDiscarded (w : BitVec 40)
  /-- MARKER_ALIGNMENT_GAINED: The timing receiver finds K28.5 in character 0 again after a search and sets TB_STATUS.ALIGNED (R462). -/
  | markerAlignmentGained (w : BitVec 40)
  /-- INVALID_SYNC_HEADER: A block with sync header 0b00 or 0b11 arrives on a lane, counts SYNC_ERR, slips the boundary in LOCKING or is discarded outside a frame (R142). -/
  | invalidSyncHeader (n : BitVec 3) (p : BitVec 4) (block : BitVec 66)
  /-- FRAMING_ERROR_BLOCK: A block that breaks the framing rules (unknown type, data outside a frame, SOF or non-EOF control inside a frame) arrives, dropping any frame in progress and counting FRAMING (R144). -/
  | framingErrorBlock (n : BitVec 3) (p : BitVec 4) (block : BitVec 66)
  /-- ILLEGAL_INSTRUCTION: A core decodes a reserved opcode, function, SUB or SOP value, the halfword 0x0000 or GP 0 with GI 1 and raises ILL_ENC (R296). -/
  | illegalInstruction (c : CtxId) (why : IllCause) (word : Word)
  deriving DecidableEq, Repr

end Sys2Proof
end

