-- ==== Sys2Proof/Config.lean ====
section
/-! DEFINITION. What an implementation fixes and the values and choices that the spec leaves open: constants without a
body, so that nothing can be proved of their values (log entry 1). The numbered free values are applied to the state's
counter of draws. -/

namespace Sys2Proof.Config

/-- A free payload: a value the spec does not state. -/
opaque freeWord : Nat → BitVec 32
/-- A free wide value. -/
opaque freeWide : Nat → BitVec 64
/-- A free choice among alternatives the spec does not order: the position is taken modulo their number. -/
opaque freePick : Nat → Nat
/-- The pseudo-LRU victim of a full L2 set (R410), as a position among its lines. -/
opaque l2Victim : Nat → Nat
/-- The set of a directory that holds a line, of its 32,768 (R417). -/
opaque dirSet : Nat → Fin 32768
/-- The set of a tag cache that holds a tag line, of its 512 (R425). -/
opaque tagSet : Nat → Fin 512
/-- Bytes that are left open in the check bytes of R424 (log entry 95). -/
opaque eccKey : Nat → BitVec 8
/-- ROM identity and revision of the control-store ROM (R377). -/
opaque romId : BitVec 16
opaque romRev : BitVec 8
/-- The words of the control-store ROM (R351). -/
opaque romWord : Nat → BitVec 144
/-- Whether the C flag of a subtraction is its borrow, or the carry of A + ~B + 1 (Table 11-4 names neither). -/
opaque subBorrow : Bool
/-- Silicon revision in HI_ID_BUILD (Table 16-11). -/
opaque siliconRev : BitVec 8
/-- The vendor key in the module's ROM (R372). -/
opaque vendorKey : List Byte
/-- The 16 bytes of the module's serial number (17 R521). -/
opaque serial : List Byte

/-- What the regions 0 to 3 of the SPI NOR hold as the module is made: firmware slots A and B and vendor patch slots A and B
(17 Table 17-5). -/
opaque norFactory : Nat → List (BitVec 8)
/-- The codes of the TAP's IDCODE, SAMPLE/PRELOAD, EXTEST, CLAMP and HIGHZ, which the spec does not give (17 R528). -/
opaque irCode : Nat → BitVec 6

end Sys2Proof.Config
end

