-- ==== Sys2Proof/Machine/StateCore.lean ====
section
/-! DEFINITION. The state of contexts, cores, lanterns, translation and home agents (07, 08, 10, 11, 12, 13). -/

namespace Sys2Proof.Machine

/-- Resident context states (Table 07-6). -/
inductive CtxSt where
  | empty | runnable | running | stalled | waiting
  deriving DecidableEq, Repr

/-- What a STALLED context waits for (R251, R252, R406; Table 13-1 of a remote home). -/
inductive StallOn where
  | none
  /-- a store wait at issue: merging-buffer space (R406) -/
  | store
  /-- an escaping store that waits for barrier-buffer or log space (R115, R121) -/
  | escape
  /-- a store that waits for mark-log space (R133) -/
  | mlog
  /-- the answer of DECIDE (R196) -/
  | decide
  /-- the reply of XLD (R318) -/
  | xld
  /-- line data from another node (R420) -/
  | remote
  /-- a value through a host window (R507) -/
  | window
  /-- the lantern's range engine (R319, R423) -/
  | range
  /-- a load that missed the lantern L2, whose register the next instruction names (R251, R280) -/
  | load
  deriving DecidableEq, Repr

/-- CSTAT (Table 07-4). -/
structure Cstat where
  priv : BitVec 2
  mode : Bool
  ie : Bool
  gcnt : BitVec 3
  gpred : BitVec 3
  ginv : Bool
  ldf : Bool
  rpt : Bool
  rsmode : Bool
  fpa : Bool
  fpv : Bool
  rm : BitVec 2
  fflags : BitVec 5
  zbank : BitVec 2
  shadow : Bool
  deriving DecidableEq, Repr

/-- CSTAT after reset: 0x0000_0000 (Table 07-3). -/
def Cstat.reset : Cstat :=
  ⟨0, false, false, 0, 0, false, false, false, false, false, false, 0, 0, 0, false⟩

/-- WPTR (Table 07-5). -/
structure Wptr where
  cwp : BitVec 3
  resw : BitVec 3
  unchk : BitVec 8
  wspill : BitVec 10
  deriving DecidableEq, Repr

/-- WPTR after reset: 0x0000_0008 (Table 07-3). -/
def Wptr.reset : Wptr := ⟨0, 1, 0, 0⟩

/-- XBANK (Table 07-11). -/
structure Xbank where
  ctx : BitVec 2
  space : BitVec 3
  index : BitVec 7
  inc : Bool
  deriving DecidableEq, Repr

def Xbank.reset : Xbank := ⟨0, 0, 0, false⟩

/-- A register that a load may be about to write: a ring cell, a global, a shadow register or an f register. -/
inductive Loc where
  | ring (n : Nat)
  | glob (n : Nat)
  | shad (n : Nat)
  | fp (n : Nat)
  deriving DecidableEq, Repr

/-- A load that has been performed and has not yet written its register; slot: the next instruction is its delay
slot (R280); late: it missed the lantern L2, and its value arrives by LOAD_DATA_RETURN (R251). -/
structure PLoad where
  loc : Loc
  val : TWord
  slot : Bool
  late : Bool := false
  deriving DecidableEq, Repr

/-- A synchronous cause with its vector and the words of Table 10-4. -/
structure Trap where
  vec : BitVec 6
  cause : BitVec 8
  w0 : Word
  w1 : TWord
  deriving DecidableEq, Repr

/-- An exception raised and not yet entered (R331): cause, address and encoding of the raising instruction; slot: it
was in a load-delay slot; msh: it was in a mode-change shadow, with the address of the second instruction. -/
structure Raised where
  trap : Trap
  pc : Word
  enc : Word
  slot : Bool
  msh : Option Word
  deriving DecidableEq, Repr

/-- The sequencer's registers of a context (R355, R362, R365, R366): microregisters with the TYPE that RETAG gave a value
its own from (R357), MDR, the product and the products still to appear, micro-stack, flags, micro-counter, the value for
RD, and the word the tag unit examined last. late: the cycles until the value of a load is in MDR (R358). at_: where an
instruction that waits goes on, the cycles it has run, whether it waits for its memory operations to be performed (WAITM, R360), and whether it has waited there. -/
structure Micro where
  m : Tab (TWord × Option Ty)
  mdr : TWord
  mulh : Word
  mull : Word
  mulq : List (Nat × BitVec 64)
  stack : List (BitVec 13)
  n : Bool
  z : Bool
  c : Bool
  v : Bool
  tm : Bool
  cnt : BitVec 16
  rd : Option (TWord × Option Ty)
  last : TWord
  late : Nat
  at_ : Option (BitVec 13)
  words : Nat
  waitm : Bool
  waited : Bool
  deriving DecidableEq, Repr

/-- The sequencer's registers at dispatch (R365, R366). -/
def Micro.start : Micro :=
  ⟨[], TWord.unset, 0, 0, [], [], false, false, false, false, false, 0, none, TWord.unset, 0, none, 0, false, false⟩

/-- A store's target: its address, its physical address, its old word and the candle that the value leads into. -/
structure Target where
  va : Word
  pa : PA
  old : MWord
  dst : Option (Nat × BitVec 8)
  deriving DecidableEq, Repr

/-- One resident context (Table 07-1). -/
structure Ctx where
  st : CtxSt
  stall : StallOn
  task : Option Nat
  pc : Word
  asid : BitVec 12
  ring : Tab TWord
  g : Tab TWord
  b : Tab TWord
  shadow : Tab TWord
  p : BitVec 8
  cstat : Cstat
  epc : TWord
  estat : TWord
  xbank : Xbank
  savep : TWord
  saveb : TWord
  ssp : TWord
  wptr : Wptr
  /-- return stack, top first: address and checked bit (R259) -/
  rs : List (Word × Bool)
  /-- the latch of RDTB (R323) -/
  rdtb : Word
  loads : List PLoad
  /-- the new mode after an MTC, while its shadow has not run (R293) -/
  msh : Option Bool
  raised : Option Raised
  /-- a pending DEBUG request (R338) -/
  dbg : Bool
  /-- a line of another node whose read ended in an error: its words read POISON source 5 once (R447) -/
  poisonLine : Option Nat
  /-- the words answered to a load through a host window, taken when the instruction issues again (R507) -/
  answer : List TWord
  micro : Micro
  /-- an allocation whose stores wait: the address of its object, and the words still to be written, with their targets, all
  of which have passed their checks (R88, R103) -/
  alloc : Option (Word × List (Target × TWord))
  /-- machine checks that have been found and not yet taken, oldest first: cause and erroneous word (R330, R337) -/
  mcheck : List (BitVec 8 × TWord)
  /-- a load of the instruction in progress has missed the lantern L2 (R251) -/
  missed : Bool
  deriving DecidableEq, Repr

/-- A context after reset (R61, R266). -/
def Ctx.reset : Ctx :=
  ⟨.empty, .none, none, 0, 0, [], [], [], [], 0, Cstat.reset, TWord.unset, TWord.unset, Xbank.reset,
   TWord.unset, TWord.unset, TWord.unset, Wptr.reset, [], 0, [], none, none, false, none, [], Micro.start, none, [], false⟩

/-- A TLB entry (R393). -/
structure Tlb where
  asid : BitVec 12
  g : Bool
  vbase : Word
  size : Nat
  pbase : PA
  r : Bool
  w : Bool
  x : Bool
  u : Bool
  d : Bool
  deriving DecidableEq, Repr

/-- A walk-cache entry: the level-1 pair of SIZE 1 of an ASID and 4 MiB region, as its level-2 table (R395). -/
structure WcEnt where
  asid : BitVec 12
  region : BitVec 10
  table : PA
  deriving DecidableEq, Repr

/-- A merging-buffer entry: the line number and the words written, by index (R406). -/
structure MergeEnt where
  line : Nat
  words : Tab TWord
  deriving DecidableEq, Repr

/-- A barrier-buffer entry: the candle it is logged for, the target, and whether its store has been performed
(R115, R116). -/
structure BarEnt where
  slot : Nat
  gen : BitVec 8
  pa : PA
  performed : Bool
  deriving DecidableEq, Repr

/-- A message in a core's send buffer (R317, R318): destination, crossing of the sender's event, the pointer's TYPE and
the object's words; owner: the event whose kill discards it (Table 05-5). -/
structure SendMsg where
  node : BitVec 16
  ring : BitVec 10
  crossing : Option (BitVec 48)
  ty : Ty
  words : List MWord
  owner : Option (BitVec 19)
  ctx : CtxId
  deriving DecidableEq, Repr

/-- Sequencer modes (Table 11-7). -/
inductive UcMode where
  | table | service | failed
  deriving DecidableEq, Repr

/-- A customer bank with its dispatch table and identity (R351, R353, Table 11-16): words and entries that are not
loaded are absent. -/
structure UcBank where
  words : Tab (Option (BitVec 144))
  disp : Tab (Option (BitVec 16))
  version : BitVec 16
  keyid : BitVec 16
  valid : Bool
  deriving DecidableEq, Repr

def UcBank.empty : UcBank := ⟨[], [], 0, 0, false⟩

/-- The control store and sequencer of one core (11). -/
structure Uc where
  mode : UcMode
  patch : Tab (Option (BitVec 144))
  hooks : Tab (Option (BitVec 32))
  patchVersion : BitVec 16
  patchValid : Bool
  live : UcBank
  shadow : UcBank
  /-- a shadow bank has been loaded since the last commit (Table 11-14) -/
  shadowLoaded : Bool
  /-- a commit waits for the sequencer (R376) -/
  commit : Bool
  /-- a word hit by an uncorrectable error waits to be rewritten (R364) -/
  rewrite : Option (BitVec 13)
  deriving DecidableEq, Repr

def Uc.reset : Uc := ⟨.table, [], [], 0, false, UcBank.empty, UcBank.empty, false, false, none⟩

/-- What a code finds at its next read (R405, R410, R424): no error, one that it corrects, one that it does not, or, of a
line of the stack, one in its tag group in the tag cache (R425). -/
inductive CellErr where
  | clean | corr | uncorr | key
  deriving DecidableEq, Repr

/-- A line of an L1 D or L1 I: its line number, its 16 words with their tags, what the code of each word finds, by index,
and whether the parity of its key fails (R405). -/
structure L1Line where
  line : Nat
  words : Line
  errs : Tab CellErr := []
  keyErr : Bool := false
  deriving DecidableEq, Repr

/-- Words of a line with some replaced, by index. -/
def putWords (ws : Tab (Option MWord)) (l : Line) : Line :=
  (List.range 16).map fun i => (Tab.get none ws i).getD (lineWord l i)

/-- The errors of a line's words once some are written. -/
def clearErrs (ws : Tab (Option MWord)) (t : Tab CellErr) : Tab CellErr :=
  t.filter fun e => (Tab.get none ws e.1).isNone

/-- Words written into a line of a first-level cache, with valid codes. -/
def L1Line.write (x : L1Line) (ws : Tab (Option MWord)) : L1Line :=
  { x with words := putWords ws x.words, errs := clearErrs ws x.errs }

/-- One core: the state its four contexts share (Table 07-1) and its first-level structures. -/
structure CoreSt where
  fp : Tab Word
  /-- owning context and its task's root area (R257) -/
  fpOwner : Option (BitVec 2 × Word)
  fpDirty : Bool
  barrier : List BarEnt
  /-- entries written to a log whose store is not yet performed (R116) -/
  escWait : List BarEnt
  merge : List MergeEnt
  dtlb : List Tlb
  itlb : List Tlb
  /-- the line at each of the 512 indexes of the L1 D and L1 I (R405) -/
  l1d : Tab (Option L1Line)
  l1i : Tab (Option L1Line)
  send : List SendMsg
  running : Option (BitVec 2)
  uc : Uc
  deriving DecidableEq, Repr

def CoreSt.reset : CoreSt := ⟨[], none, false, [], [], [], [], [], [], [], [], none, Uc.reset⟩

/-- An L2 line: its state, its words, what the code of each word finds, by index, and what that of its key with its state
finds (R410). -/
structure L2Line where
  st : Moesi
  words : Line
  errs : Tab CellErr := []
  key : CellErr := .clean
  deriving DecidableEq, Repr

def L2Line.none : L2Line := ⟨.I, [], [], .clean⟩

/-- Words written into a line of an L2, with valid codes. -/
def L2Line.write (x : L2Line) (st : Moesi) (ws : Tab (Option MWord)) : L2Line :=
  { x with st := st, words := putWords ws x.words, errs := clearErrs ws x.errs }

inductive RangeOp where
  | clean | invalidate | cleanInvalidate
  deriving DecidableEq, Repr

/-- A queued range of a lantern's engine (R423). -/
structure RangeReq where
  ctx : CtxId
  asid : BitVec 12
  priv : BitVec 2
  base : Word
  len : Nat
  op : RangeOp
  deriving DecidableEq, Repr

/-- One allocation cursor (R102): candle, next free byte and end of the chunk, as virtual addresses; the last chunk ends at
2^32. -/
structure Cursor where
  slot : Nat
  next : Nat
  stop : Nat
  deriving DecidableEq, Repr

/-- One lantern: L2, walk cache, range engine and allocation cursors (R102, R395, R410, R423); lists are most recently
used first. -/
structure LanSt where
  l2 : Tab L2Line
  /-- the line used last of each set, which pseudo-LRU never gives up (R410) -/
  recent : Tab (Option Nat)
  wc : List WcEnt
  ranges : List RangeReq
  cursors : List Cursor
  /-- next-line prefetches that wait for their line: line number, core, and whether the L1 I takes it (R408) -/
  fills : List (Nat × BitVec 8 × Bool)
  deriving DecidableEq, Repr

def LanSt.reset : LanSt := ⟨[], [], [], [], [], []⟩

/-- A holder of a line: node and lantern (R417). -/
structure Holder where
  node : BitVec 16
  lan : BitVec 5
  deriving DecidableEq, Repr

/-- A directory entry (R417); coarse: the group vector once the entry has turned coarse. -/
structure DirEnt where
  owner : Option Holder
  sharers : List Holder
  coarse : Option (BitVec 64)
  /-- order of last use, for the eviction of R419 -/
  used : Nat
  deriving DecidableEq, Repr

def DirEnt.none : DirEnt := ⟨Option.none, [], Option.none, 0⟩

/-- One memory controller with its home agent and directory (13 R417, R424–R429). -/
structure McSt where
  dir : Tab DirEnt
  dirClock : Nat
  /-- tag lines in the tag cache, most recently used first (R425) -/
  tagc : List Nat
  scrubEn : Bool
  hours : BitVec 16
  scrubPos : BitVec 28
  scrubDone : Bool
  cfgerr : Bool
  wipeBusy : Bool
  testBusy : Bool
  /-- a test access of the sidecar that waits for the end of the wipe: a write or a read, and its LOCAL address (R428) -/
  testHeld : Option (Bool × Nat)
  laste : BitVec 64
  /-- latched high halves of MC_LASTE, per reader (R426) -/
  lasteLatch : Tab Word
  testAddr : BitVec 37
  rawchk : Bool
  testData : Tab Word
  testTag : Tab Byte
  testChk : BitVec 64
  /-- check bytes stored as given by a test write under RAWCHK, by line (R429) -/
  rawChecks : Tab (Option (BitVec 64))
  /-- what the code finds in a line of the stack, by line of LOCAL (R424) -/
  cells : Tab CellErr
  deriving DecidableEq, Repr

/-- A controller after reset (Table 13-6). -/
def McSt.reset : McSt :=
  ⟨[], 0, [], true, 8, 0, false, false, true, false, none, 0, [], 0, false, [], [], 0, [], []⟩

/-- The MM_ block (Tables 12-8, 12-9) beside its counters. -/
structure MmSt where
  rootSh : BitVec 53
  enSh : Bool
  root : BitVec 53
  en : Bool
  cfgerr : Bool
  lastVa : Word
  lastInfo : Word
  deriving DecidableEq, Repr

def MmSt.reset : MmSt := ⟨0, false, 0, false, false, 0, 0⟩

/-- CC_CTRL (Table 13-6). -/
structure CcSt where
  prefetchD : Bool
  prefetchI : Bool
  hints : Bool
  deriving DecidableEq, Repr

def CcSt.reset : CcSt := ⟨true, true, true⟩

end Sys2Proof.Machine
end

