-- ==== Sys2Proof/Machine/StateCandle.lean ====
section
/-! DEFINITION. Shadowed register groups (00 R17, R20, R21) and the state of the candle manager (03). -/

namespace Sys2Proof.Machine

/-- A group of RWC fields: the shadow copy that software writes, the live copy that the block acts on, and the commit
bit, which reads 1 from the write until the copy is made (R17, R20). -/
structure Rwc (α : Type) where
  sh : α
  lv : α
  pend : Bool
  deriving DecidableEq, Repr

/-- A group after reset: both copies at the reset values. -/
def Rwc.reset {α : Type} (a : α) : Rwc α := ⟨a, a, false⟩

/-- Candle slot states (CN_SLOT_STAT.STATE, Table 03-13; 01 Table 01-3). -/
inductive SlotSt where
  | free | opened | closed | decided | snuffed | retiring
  deriving DecidableEq, Repr

/-- Span states (Table 03-1). -/
inductive SpanSt where
  | free | persistent | candle | cooling | retired
  deriving DecidableEq, Repr

/-- A span table entry (Table 03-1). -/
structure SpanEnt where
  st : SpanSt
  slot : BitVec 11
  gen : BitVec 8
  newborn : Bool
  retpend : Bool
  deriving DecidableEq, Repr

def SpanEnt.free : SpanEnt := ⟨.free, 0, 0, false, false⟩

/-- A candle slot (R90, R91, R102, R116, R118, R119, Table 03-13). -/
structure CnSlot where
  st : SlotSt
  gen : BitVec 8
  bank : BitVec 5
  /-- span table indices held, in order of grant -/
  spans : List Nat
  elogOvf : Bool
  precycle : Bool
  /-- STALL: contexts whose escaping or logging store waits for this slot's logs (Table 03-13) -/
  stall : List (BitVec 10)
  escCount : Nat
  elogFill : Nat
  /-- current span and the next unused byte in it (R102) -/
  cur : Option (Nat × Nat)
  /-- spans granted and not yet drawn from, in order of grant (R104) -/
  fresh : List Nat
  deriving DecidableEq, Repr

def CnSlot.reset : CnSlot := ⟨.free, 0, 0, [], false, false, [], 0, 0, none, []⟩

/-- The run group (Table 03-12). -/
structure CnRun where
  initSpans : BitVec 9
  growSpans : BitVec 9
  chunk : BitVec 3
  coolExtra : Word
  deriving DecidableEq, Repr

def CnRun.reset : CnRun := ⟨1, 1, 2, 0⟩

/-- CN_BANKn (Table 03-12). -/
structure CnBank where
  base : BitVec 17
  spans : BitVec 12
  en : Bool
  deriving DecidableEq, Repr

def CnBank.reset : CnBank := ⟨0, 0, false⟩

/-- The pool group (Table 03-12). -/
structure CnPool where
  asid : BitVec 12
  elogBase : BitVec 53
  elogSize : BitVec 4
  eovfBase : BitVec 53
  eovfSize : BitVec 5
  evacBase : BitVec 53
  evacSize : BitVec 4
  mlogBase : BitVec 53
  mlogSize : BitVec 5
  banks : Tab CnBank
  deriving DecidableEq, Repr

def CnPool.reset : CnPool := ⟨0, 0, 8, 0, 16, 0, 8, 0, 16, []⟩

/-- Mark cycle phases (Table 03-8). -/
inductive MarkPhase where
  | idle | grace | trace | sweep
  deriving DecidableEq, Repr

/-- The evacuation span being filled (R125): LOCAL span index, virtual base in 1 MiB units, bytes used. -/
structure EvacSpan where
  loc : Nat
  vbase : BitVec 12
  off : Nat
  deriving DecidableEq, Repr

/-- An overflow-ring entry not yet passed by the head: the candle it belongs to (R119, R120). -/
structure EovfEnt where
  slot : Nat
  gen : BitVec 8
  done : Bool
  deriving DecidableEq, Repr

/-- The candle manager (03). The entries of its rings and logs are in memory. -/
structure CnSt where
  enable : Bool
  cfgerr : Bool
  run : Rwc CnRun
  pool : Rwc CnPool
  slots : Tab CnSlot
  /-- slots freeNext to 0x7FF have not been granted since reset and head the free list; freeTail follows (R91) -/
  freeNext : Nat
  freeTail : List Nat
  spans : Tab SpanEnt
  spanLive : Tab Nat
  /-- COOLING spans in the order they entered it, with expiry (R98) -/
  cooling : List (Nat × BitVec 64)
  evacProd : BitVec 13
  evacCons : BitVec 13
  evacLow : BitVec 13
  evac : Option EvacSpan
  /-- the last comparison of R126, for its record at each crossing -/
  evacWasLow : Bool
  eovf : List EovfEnt
  eovfHead : Nat
  mlogHead : Nat
  mlogUsed : Nat
  phase : MarkPhase
  sense : Bool
  reqIn : BitVec 16
  autofree : Bool
  rootVa : Word
  rootAsid : BitVec 12
  spanSel : BitVec 16
  spanResult : BitVec 2
  slotSel : BitVec 11
  freeMin : BitVec 16
  deriving DecidableEq, Repr

/-- After reset every slot and span is FREE and the pool is empty (R91, R137, Tables 03-11 to 03-13). -/
def CnSt.reset : CnSt :=
  ⟨false, false, Rwc.reset CnRun.reset, Rwc.reset CnPool.reset, [], 0, [], [], [], [], 0, 0, 4, none, false, [], 0, 0, 0,
   .idle, false, 0, false, 0, 0, 0, 0, 0, 0⟩

/-- The spans of a bank: 0 in the field stands for 2,048 (Table 03-12). -/
def CnBank.size (b : CnBank) : Nat := if b.spans = 0 then 2048 else b.spans.toNat

end Sys2Proof.Machine
end

