-- ==== Sys2Proof/Machine/StateTask.lean ====
section
/-! DEFINITION. The state of the Lamplighter, the Snuffer and the decision port (05). -/

namespace Sys2Proof.Machine

/-- Task states (Table 05-4). -/
inductive TaskSt where
  | free | ready | running | waiting
  deriving DecidableEq, Repr

/-- The class of a task's ready-store entry (R187). -/
inductive ReadyClass where
  | level0 | level1 | shared
  deriving DecidableEq, Repr

/-- A task descriptor (Table 05-2), with whether the task is saved off the core and the class of its entry. -/
structure TaskD where
  st : TaskSt
  prio : BitVec 2
  priv : BitVec 2
  affinity : BitVec 2
  pin : BitVec 5
  lan : BitVec 5
  rsv : Bool
  tmpl : BitVec 8
  handle : Option (BitVec 19)
  deadline : BitVec 64
  asid : BitVec 12
  entry : TWord
  args : List TWord
  waitKind : BitVec 3
  waitId : BitVec 16
  pend : Bool
  saved : Bool
  cls : ReadyClass
  ctx : Option CtxId
  deriving DecidableEq, Repr

def TaskD.free : TaskD :=
  ⟨.free, 0, 0, 0, 0, 0, false, 0, none, 0, 0, TWord.unset, [], 0, 0, false, false, .shared, none⟩

/-- A task template (Table 05-1); en: no field disables it (R179). -/
structure Templ where
  entry : TWord
  kind : BitVec 3
  prio : BitVec 2
  priv : BitVec 2
  affinity : BitVec 2
  pin : BitVec 5
  sel : BitVec 8
  count : BitVec 4
  rel : BitVec 24
  args : List TWord
  en : Bool
  deriving DecidableEq, Repr

def Templ.off : Templ := ⟨TWord.unset, 0, 0, 0, 0, 0, 0, 0, 0, [], false⟩

/-- One instance to be made of a template (R182): event, level, deadline and w1. -/
structure Inst where
  tmpl : Nat
  t : Templ
  level : BitVec 2
  handle : Option (BitVec 19)
  deadline : BitVec 64
  w1 : TWord
  deriving DecidableEq, Repr

/-- The Lamplighter's pool group (Table 05-12). -/
structure LlPool where
  taskBase : BitVec 53
  taskLog2 : BitVec 5
  resv : BitVec 3
  saveBase : BitVec 53
  deferBase : BitVec 53
  deferLog2 : BitVec 5
  deriving DecidableEq, Repr

def LlPool.reset : LlPool := ⟨0, 13, 2, 0, 0, 10⟩

/-- The menu group of LL_ and SN_ fields (Tables 05-12, 05-13). -/
structure LlMenu where
  tmplBase : BitVec 53
  version : BitVec 16
  tmpls : BitVec 9
  deadline : BitVec 24
  warn : BitVec 24
  policy : BitVec 2
  prescale : BitVec 16
  deriving DecidableEq, Repr

def LlMenu.reset : LlMenu := ⟨0, 0, 0, 1280000, 128000, 0, 1⟩

/-- A SPAWN request on its way to the HUB (R182, R185). -/
structure SpawnReq where
  tmpl : Nat
  arg : TWord
  handle : Option (BitVec 19)
  deadline : BitVec 64
  deriving DecidableEq, Repr

/-- A DECIDE request on its way to the HUB (R196, R197): the context that waits, its task, the event, outcome, trigger
bits, and the predicate written (none for Zekief). -/
structure DecideReq where
  ctx : CtxId
  task : Nat
  handle : BitVec 19
  outcome : BitVec 4
  trigger : BitVec 64
  pd : Option (BitVec 3)
  /-- the context still waits with this DECIDE -/
  live : Bool := true
  deriving DecidableEq, Repr

/-- The HUB's answer on its way to a context (R196). -/
structure DecideAns where
  ctx : CtxId
  task : Nat
  pd : Option (BitVec 3)
  won : Bool
  live : Bool := true
  deriving DecidableEq, Repr

/-- A FAULTED context's report on its way to the HUB (R348). -/
structure FaultRep where
  handle : BitVec 19
  poison : Bool
  deriving DecidableEq, Repr

/-- The Lamplighter (05). -/
structure LlSt where
  enable : Bool
  homemode : Bool
  cfgerr : Bool
  pool : Rwc LlPool
  menu : Rwc LlMenu
  /-- a menu commit has loaded the shadow store and waits to become live (R179) -/
  menuLoaded : Bool
  templ : Tab Templ
  templSh : Tab Templ
  tasks : Tab TaskD
  /-- pending level-1 instances of all slots, oldest request first (R188) -/
  pendL1 : List Inst
  /-- the defer ring, and the position of its oldest entry in memory (R189) -/
  defer : List Inst
  deferHead : Nat
  listeners : Tab (Option Nat)
  prevHome : BitVec 5
  lanmask : Word
  migMin : BitVec 8
  migEn : Bool
  spawns : List SpawnReq
  decides : List DecideReq
  answers : List DecideAns
  faults : List FaultRep
  deriving DecidableEq, Repr

/-- After reset every descriptor is FREE and the stores and lists are empty (R190, R212, Table 05-12). -/
def LlSt.reset : LlSt :=
  ⟨false, false, false, Rwc.reset LlPool.reset, Rwc.reset LlMenu.reset, false, [], [], [], [], [], 0, [], 31, 0xFFFFFFFF, 4,
   true, [], [], [], []⟩

/-- The Snuffer beside its menu group and lists (Table 05-13). -/
structure SnSt where
  cfgerr : Bool
  prescaleCnt : BitVec 16
  deriving DecidableEq, Repr

def SnSt.reset : SnSt := ⟨false, 0⟩

/-- The content of a decision record before RSEQ and CRC are given to it (Table 05-6); seq: its place in the order of
R208. -/
structure DRec where
  crossing : BitVec 48
  outcome : BitVec 4
  reason : BitVec 4
  winto : Bool
  trunc : Bool
  warned : Bool
  ooo : Bool
  openwin : Bool
  trigger : BitVec 64
  latency : BitVec 24
  menu : BitVec 16
  handle : BitVec 19
  seq : Option Nat
  deriving DecidableEq, Repr

/-- The output group (Table 05-13). -/
structure DpCfg where
  order : Bool
  lanemode : Bool
  hostcopy : Bool
  beat : Bool
  lanes : BitVec 8
  pol : BitVec 8
  deriving DecidableEq, Repr

def DpCfg.reset : DpCfg := ⟨false, false, false, true, 0, 0⟩

/-- The decision port (R207–R210). -/
structure DpSt where
  cfg : Rwc DpCfg
  cfgerr : Bool
  /-- records fixed and ready to be sent, in send order -/
  queue : List DRec
  /-- the reorder buffer -/
  rob : List DRec
  /-- the open sequence number that is next in the order -/
  next : Nat
  /-- places of the order that a record sent out of order has left (R208) -/
  skipped : List Nat
  rseq : BitVec 16
  lane : Nat
  hwm : BitVec 12
  deriving DecidableEq, Repr

def DpSt.reset : DpSt := ⟨Rwc.reset DpCfg.reset, false, [], [], 0, [], 0, 0, 0⟩

end Sys2Proof.Machine
end

