-- ==== Sys2Proof/Machine/StateEvent.lean ====
section
/-! DEFINITION. The state of an event and of the HUB's lists (01; 05 R198–R201, R208; 04 R161). -/

namespace Sys2Proof.Machine

/-- What the HUB and the Snuffer hold for the event of a slot, beside the candle manager's slot entry. -/
structure EvSt where
  crossing : BitVec 48
  t0 : BitVec 64
  deadline : BitVec 24
  warn : BitVec 24
  policy : BitVec 2
  prescale : BitVec 16
  menu : BitVec 16
  /-- EXT_UNITS live at the grant (04 R162) -/
  extUnits : BitVec 6
  home : BitVec 5
  /-- the window is open (R34) -/
  window : Bool
  warned : Bool
  winto : Bool
  /-- a wick's drop notice has reached the HUB (R161, R205) -/
  trunc : Bool
  /-- wicks whose close report has reached the HUB, with the hits written -/
  reports : List (Nat × Nat)
  /-- a record has been fixed -/
  decided : Bool
  /-- its place in the order of R208, for an event opened under ORDER 1 -/
  seq : Option Nat
  /-- the drop of R188 has been logged -/
  l1Logged : Bool
  /-- the event has been killed (R203) -/
  killed : Bool
  deriving DecidableEq, Repr

def EvSt.none : EvSt :=
  ⟨0, 0, 0, 0, 0, 0, 0, 0, 0, false, false, false, false, [], false, Option.none, false, false⟩

/-- What asked for an open: an accept marker or a frame (R27). -/
structure OpenReq where
  crossing : BitVec 48
  accept : Bool
  deriving DecidableEq, Repr

/-- An armed limit: its time and the event's handle (R32, R199). -/
structure Limit where
  time : BitVec 64
  handle : BitVec 19
  deriving DecidableEq, Repr

/-- The HUB: open requests, the record of the highest crossing opened, and the three ordered lists (R28, R32, R199). -/
structure HubSt where
  openReqs : List OpenReq
  highest : Option (BitVec 48)
  dupAccept : Word
  windows : List Limit
  warnings : List Limit
  hards : List Limit
  /-- next open sequence number (R208) -/
  openSeq : Nat
  /-- accept markers that arrived after the power-fail warning (R45) -/
  pfAccepts : Word
  /-- the value that the HUB last loaded into channels 61–63, while their list is empty (15 R471) -/
  lastVal : Tab Word
  deriving DecidableEq, Repr

def HubSt.reset : HubSt := ⟨[], none, 0, [], [], [], 0, 0, []⟩

end Sys2Proof.Machine
end

