-- ==== Sys2Proof/Machine/StateWick.lean ====
section
/-! DEFINITION. The state of a wick (04). -/

namespace Sys2Proof.Machine

/-- Lane states (Table 04-2). -/
inductive LaneStep where
  | off | acquire | locking | align | up
  deriving DecidableEq, Repr

/-- WK_LCFG (Table 04-12). -/
structure LaneCfg where
  en : Bool
  fmt : Bool
  src : Bool
  pol : Bool
  deriving DecidableEq, Repr

def LaneCfg.reset : LaneCfg := ⟨false, true, false, false⟩

/-- The frame in progress on a lane (R144, R149, R168): its header words as they came, the format live at its SOF, whether
rule 1 or 2 has failed it, the time base at its header, its burst-buffer units, 0 where the buffer was too full, and the data
blocks that have followed the header. -/
structure RxFrame where
  h0 : Option (BitVec 64)
  h1 : Option (BitVec 64)
  fmt2 : Bool
  failed : Bool
  orbit : BitVec 32
  bx : BitVec 16
  units : Nat
  noRoom : Bool
  hits : List (BitVec 64)
  deriving DecidableEq, Repr

/-- A lane. -/
structure LaneRx where
  st : LaneStep
  los : Bool
  lockLost : Bool
  lastLseq : BitVec 16
  /-- the lane sequence reference (R150) -/
  ref : Option (BitVec 16)
  rx : Option RxFrame
  /-- blocks are discarded until the next SOF (R144) -/
  skip : Bool
  /-- the descrambler: the last 58 payload bits received, the newest in bit 57 (R142) -/
  descr : BitVec 58
  deriving DecidableEq, Repr

def LaneRx.reset : LaneRx := ⟨.off, false, false, 0, none, none, false, 0⟩

/-- A frame in the burst buffer: lane, format 2, hit words and 64-byte units. -/
structure HeldFrame where
  lane : Nat
  fmt2 : Bool
  hits : List (BitVec 64)
  units : Nat
  deriving DecidableEq, Repr

/-- A crossing table entry (R157): HELD while it has no handle. -/
structure XEntry where
  crossing : BitVec 48
  handle : Option (BitVec 19)
  home : BitVec 5
  /-- LOCAL span index and virtual base of the candle's first span, as the notification gave them (R159) -/
  span : Nat
  virt : Word
  mask : BitVec 16
  eoc : BitVec 16
  /-- held frames, or frames queued for writing, in arrival order -/
  frames : List HeldFrame
  hold : BitVec 64
  hits : Nat
  /-- hits written at the last batch (R166) -/
  lastBatch : Nat
  drop : Bool
  /-- a drop notice has been sent (R161) -/
  noticed : Bool
  /-- a frame with hits has sent the open request -/
  asked : Bool
  /-- a lane of format 2, and a lane of format 1, has contributed a hit (R165) -/
  fmt2 : Bool
  fmt1 : Bool
  /-- the event uses the map that was live before a pending exchange (R154) -/
  oldMap : Bool
  /-- the root word has been written (R166) -/
  rootDone : Bool
  deriving DecidableEq, Repr

/-- An entry just made for a crossing. -/
def XEntry.new (crossing : BitVec 48) (hold : BitVec 64) : XEntry :=
  { crossing := crossing, handle := none, home := 0, span := 0, virt := 0, mask := 0, eoc := 0, frames := [], hold := hold, hits := 0,
    lastBatch := 0, drop := false, noticed := false, asked := false, fmt2 := false, fmt1 := false, oldMap := false,
    rootDone := false }

/-- What the HUB tells a wick (R31, R34, R159); of an open, also the LOCAL span index and the virtual base of the candle's
first span. -/
inductive WkNote where
  | opened (crossing : BitVec 48) (handle : BitVec 19) (home : BitVec 5) (span : Nat) (virt : Word)
  | timeout (handle : BitVec 19)
  | decided (handle : BitVec 19)
  deriving DecidableEq, Repr

/-- A close report on its way to the HUB (R161). -/
structure WkReport where
  handle : BitVec 19
  hits : Nat
  drop : Bool
  deriving DecidableEq, Repr

/-- One wick. -/
structure WkSt where
  stash : Bool
  autoinc : Bool
  cfgerr : Bool
  maperr : Bool
  /-- words of a map that is being loaded (R153) -/
  loading : Option (BitVec 53)
  lanes : Tab LaneRx
  lcfg : Rwc (Tab LaneCfg)
  map : Tab Word
  mapSh : Tab Word
  /-- MAP_COMMIT is pending; the exchange has been made (R154) -/
  mapPend : Bool
  mapDone : Bool
  mapSel : BitVec 16
  mapSrc : BitVec 53
  entries : List XEntry
  /-- the 16 most recently dropped crossings, newest first (R158) -/
  dropped : List (BitVec 48)
  /-- crossings of open events whose notification found the table full (R158) -/
  lost : List (BitVec 48)
  /-- the highest crossing of which the wick has been told -/
  told : Option (BitVec 48)
  notes : List WkNote
  reports : List WkReport
  notices : List (BitVec 19)
  bufHwm : BitVec 16
  deriving DecidableEq, Repr

def WkSt.reset : WkSt :=
  ⟨true, false, false, false, none, [], Rwc.reset [], [], [], false, false, 0, 0, [], [], [], none, [], [], [], 0⟩

/-- The event group of wick 0 (Table 04-11). -/
structure WkEvent where
  mode : Bool
  extUnits : BitVec 6
  winto : BitVec 18
  hold : BitVec 16
  batch : BitVec 5
  deriving DecidableEq, Repr

def WkEvent.reset : WkEvent := ⟨false, 8, 16000, 6400, 10⟩

/-- The six wicks, and what wick 0 holds for all. -/
structure WksSt where
  wicks : Tab WkSt
  enable : Bool
  event : Rwc WkEvent
  deriving DecidableEq, Repr

def WksSt.reset : WksSt := ⟨[], false, Rwc.reset WkEvent.reset⟩

end Sys2Proof.Machine
end

