-- ==== Sys2Proof/Machine/StateRest.lean ====
section
/-! DEFINITION. The state of the recorder (18) and of requests to other nodes (14 R447), and what leaves the module. -/

namespace Sys2Proof.Machine

/-- A record as a block hands it over (Table 18-1): severity, source, reason, time and arguments. -/
structure Rec where
  sev : BitVec 2
  src : BitVec 8
  reason : BitVec 16
  time : BitVec 64
  a0 : BitVec 64
  a1 : BitVec 64
  a2 : BitVec 64
  a3 : BitVec 64
  a4 : BitVec 32
  deriving DecidableEq, Repr

/-- What leaves the module, newest first (the model's own field, log entry 6). -/
inductive Out where
  /-- an MSI-X message: function and vector (16 R492, R493) -/
  | msix (fn : Nat) (vec : BitVec 8)
  /-- a read of host memory for a context that loads through a window: address and bytes (16 R507) -/
  | winRead (ctx : CtxId) (addr : BitVec 64) (bytes : Nat)
  /-- a posted write to host memory through a window (16 R507) -/
  | winWrite (addr : BitVec 64) (bytes : List Byte)
  /-- the value of a register read (15 R469) -/
  | readValue (v : BitVec 32)
  /-- a read request to host memory by a ring (16 R480) -/
  | hostRead (addr : BitVec 64) (bytes : Nat)
  /-- a posted write to host memory by a ring (16 R490, R494, R498, R503) -/
  | hostWrite (addr : BitVec 64) (bytes : List Byte)
  /-- a BAR0 read that completes with UR (16 R481) -/
  | badRead
  /-- a block on a lane of the decision port: whether it is transmitted inverted, its type (none: a data
  block) and its bytes (05 R207) -/
  | dpBlock (lane : Nat) (inverted : Bool) (control : Option Byte) (bytes : List Byte)
  /-- the result of an I2C command, its length first (17 R527) -/
  | i2c (bytes : List Byte)
  /-- bits shifted out at TDO, first bit first (17 R528) -/
  | tdo (bits : List Bool)
  /-- the 96 bytes of a flit on a Breas port (14 Table 14-3) -/
  | flit (port : Nat) (bytes : List Byte)
  /-- a marker word sent back on the timing input's transmit fibre (15 R461) -/
  | timing (word : BitVec 40)
  /-- a control-store word read back over the test path; none: not loaded (11 Table 11-8) -/
  | ucWord (core : BitVec 8) (addr : BitVec 13) (word : Option (BitVec 144))
  deriving DecidableEq, Repr

/-- What a graph or move job does, read when it starts (R221, R224, R226, R230). -/
structure JobPlan where
  kind : BitVec 3
  hops : Nat
  status : BitVec 3
  /-- its completion words can be written (R223) -/
  writable : Bool
  vtx : Word
  edge : Word
  lab : Word
  v : Nat
  e : Nat
  seedth : Word
  growth : Word
  deriving DecidableEq, Repr

/-- A job submitted by TSUB (R219–R221): record, ASID, level, owner, submitting task while it exists and its
deadline, engine, and its
plan once it has started. -/
structure Job where
  gen : BitVec 6
  record : Word
  asid : BitVec 12
  priv : BitVec 2
  owner : Option (BitVec 19)
  task : Option Nat
  deadline : BitVec 64
  eng : BitVec 3
  plan : Option JobPlan
  /-- its event has been killed while it ran (R236) -/
  killed : Bool
  deriving DecidableEq, Repr

/-- An engine (R218, R229, R231): the running graph or move job, held while an evacuation runs, the evacuation that runs
the queued evacuations, by their job entries, the TLB (R217), and whether its mark job waits for a line of memory. -/
structure EngSt where
  tlb : List Tlb
  run : Option Nat
  evac : Option Nat
  evacQ : List Nat
  mark : Bool
  deriving DecidableEq, Repr

def EngSt.reset : EngSt := ⟨[], none, none, [], false⟩

/-- The mark group (Table 06-9). -/
structure TpMark where
  base : BitVec 53
  log2 : BitVec 5
  deriving DecidableEq, Repr

def TpMark.reset : TpMark := ⟨0, 16⟩

/-- Taper (06). The entries of the mark stack are in memory. -/
structure TpSt where
  engines : Tab EngSt
  /-- entries 128 to 1,023 of the job table (R219) -/
  jobs : Tab (Option Job)
  /-- entries 0 to 127: the candle of an evacuation job (R219, R220) -/
  evacs : Tab (Option (BitVec 19))
  /-- the generation of each entry (R219) -/
  gens : Tab (BitVec 6)
  graphMask : BitVec 8
  markMask : BitVec 8
  cfgerr : Bool
  incomplete : Bool
  mark : Rwc TpMark
  mstkHead : Nat
  mstkUsed : Nat
  deriving DecidableEq, Repr

def TpSt.reset : TpSt := ⟨[], [], [], [], 0xFF, 0xFF, false, false, Rwc.reset TpMark.reset, 0, 0⟩

/-- What has occurred in the present millisecond and is recorded at its end (R189, R209, R447), and the control-store corrections not
yet summed (R352). -/
structure MsSt where
  deferDrop : Nat
  nodest : Nat
  blTimeout : Nat
  cstoreCorr : Nat
  deriving DecidableEq, Repr

def MsSt.reset : MsSt := ⟨0, 0, 0, 0⟩

end Sys2Proof.Machine
end

