-- ==== Sys2Proof/Machine/StateHost.lean ====
section
/-! DEFINITION. The state of the host interface (16), the management plane (17), the recorder (18), power (19) and the
TAP (17 R528). -/

namespace Sys2Proof.Machine

/-- Ring states (Table 16-3). -/
inductive RingStep where
  | disabled | running | draining | error
  deriving DecidableEq, Repr

/-- A descriptor that has started and not completed (R494): its IRQ flag and what it will write; the lines whose words are not
yet performed (R505); msg: its message has not been taken (R500); aborts: once the ring drains, the IRQ flags of the posted
descriptors that follow it. -/
structure Going where
  irq : Bool
  status : BitVec 16
  detail : BitVec 16
  done : Nat
  lines : List Nat
  msg : Bool
  aborts : List Bool
  deriving DecidableEq, Repr

/-- A descriptor ring: HI_RCFG, HI_RBASE, HI_RSB and HI_RMOD, its state, and its indexes modulo twice its size (R488,
R489). -/
structure RingSt where
  ty : BitVec 3
  log2 : BitVec 4
  func : BitVec 5
  vector : BitVec 8
  irqen : Bool
  rbase : BitVec 64
  rsb : BitVec 64
  holdoff : BitVec 16
  count : BitVec 8
  st : RingStep
  err : BitVec 4
  prod : Nat
  cons : Nat
  armed : Bool
  /-- completions or entries since the last interrupt, and whether HOLDOFF has passed since the first (R492) -/
  since : Nat
  held : Bool
  /-- writes of the status block (R490) -/
  blocks : BitVec 32
  going : Option Going
  deriving DecidableEq, Repr

/-- A ring after reset (Table 16-11). -/
def RingSt.reset : RingSt := ⟨0, 4, 0, 0, false, 0, 0, 0, 1, .disabled, 0, 0, 0, false, 0, false, 0, none⟩

/-- What PCIe configuration space holds that the module acts under (R479, R480, R486): the codes of the maximum payload and
read request sizes, 128 bytes doubled as often; SR-IOV VF Enable; and the functions whose AER status reports a poisoned TLP. -/
structure PcieSt where
  mps : BitVec 3
  mrrs : BitVec 3
  vfEn : Bool
  aer : List Nat
  deriving DecidableEq, Repr

/-- As PCI Express gives it after reset: 128 and 512 bytes, no VF enabled (PRESUMED, log entry 98). -/
def PcieSt.reset : PcieSt := ⟨0, 2, false, []⟩

/-- The host interface (16). -/
structure HiSt where
  cfgerr : Bool
  speed : BitVec 4
  width : BitVec 5
  /-- HI_IFVER (R486) -/
  req : BitVec 2
  active : BitVec 2
  /-- HI_SVEC and HI_SVEC_EN (R493) -/
  svec : Word
  svecEn : BitVec 4
  /-- MSI-X table entries by function × 256 + vector: address, data and vector control -/
  msix : Tab (BitVec 128)
  /-- pending bits, by function × 256 + vector -/
  pba : List Nat
  /-- HI_WIN_LO and HI_WIN_HI of window w (R507) -/
  winLo : Tab Word
  winHi : Tab Word
  /-- HI_VFAP_LO and HI_VFAP_HI of VF v (R484) -/
  vfapLo : Tab (BitVec 17)
  vfapHi : Tab (BitVec 17)
  rings : Tab RingSt
  pcie : PcieSt
  /-- the host's send path: messages that no port has taken, with the rings of their descriptors (R500) -/
  sendq : List (Nat × SendMsg)
  deriving DecidableEq, Repr

/-- An MSI-X table entry after reset: masked, as PCI Express gives it (log entry 4). -/
def msixReset : BitVec 128 := (1 : BitVec 128) <<< 96

/-- The host interface after reset (R509, Table 16-11). -/
def HiSt.reset : HiSt := ⟨false, 0, 0, 1, 1, 0, 0, [], [], [], [], [], [], [], PcieSt.reset, []⟩

/-- Life-cycle states (Table 17-4). -/
inductive LcState where
  | blank | provisioned | operational | service | retired
  deriving DecidableEq, Repr

/-- A customer key slot in fuses (R520). -/
structure KeySlot where
  id : BitVec 16
  key : List Byte
  revoked : Bool
  deriving DecidableEq, Repr

/-- What fuses, floors and the SPI NOR hold across every reset (R518, R520, R522–R524): the life-cycle state, the key
slots, the floors by kind and key, the active firmware slot (true: B) with the attempt flags, and what has been written into
the regions of Table 17-5: 0 and 1 firmware slots A and B, 2 and 3 vendor patch slots A and B. -/
structure MgStored where
  lc : LcState
  keys : List KeySlot
  floors : Tab (BitVec 16)
  slotB : Bool
  attemptA : Bool
  attemptB : Bool
  images : Tab (Option (List Byte))
  /-- the slot that FW_ACTIVATE has made active and no boot has tried (R524) -/
  fresh : Option Bool
  deriving DecidableEq, Repr

/-- What a region of the NOR holds: what has been written, and before that what it was made with (log entry 97). -/
def MgStored.region (m : MgStored) (i : Nat) : List Byte := (Tab.get none m.images i).getD (Config.norFactory i)

/-- The module leaves the factory in BLANK (R518; log entry 3). -/
def MgStored.factory : MgStored := ⟨.blank, [], [], false, false, false, [], none⟩

/-- The management plane (17). -/
structure MgSt where
  stored : MgStored
  ready : Bool
  /-- the slot that boot runs from: the active one until boot takes the other (R523) -/
  bootB : Bool
  /-- the active slot's attempt flag was set when this boot began (R523) -/
  skip : Bool
  /-- no slot verifies, and only the boot ROM runs (R523) -/
  romOnly : Bool
  fallback : Bool
  booterr : Bool
  cfgerr : Bool
  /-- VERSION of the running firmware (R522) -/
  fwVersion : BitVec 16
  /-- a staged image waits for FW_ACTIVATE (R524) -/
  staged : Bool
  code : BitVec 8
  go : Bool
  /-- the code of the running command, which a write of CODE leaves (R526, R531) -/
  cmd : BitVec 8
  /-- the running command waits for every core to commit (R376) -/
  ucWait : Bool
  status : BitVec 8
  detail : BitVec 16
  args : Tab Word
  res : Tab Word
  therm : Rwc (BitVec 8)
  /-- CEIL and NOW of MG_LFREQ -/
  ceil : Tab (BitVec 5)
  freq : Tab (BitVec 5)
  sensors : Tab (BitVec 16)
  sampled : BitVec 64
  /-- sensors at or above their trip limit in the last sample (R515) -/
  hot : List Nat
  /-- the nonce last drawn, as the first of eight free values, and whether LC_NONCE has returned it and no LC_SET has used
  it (R521) -/
  nonce : Nat
  nonceTold : Bool
  /-- block counters as the last sums saw them, and what counters held beyond that when they were cleared (R513) -/
  seen : Tab Word
  unsummed : Tab Nat
  /-- the record that a RECORD command of I2C has named and whose read has not come (R527, R543) -/
  i2cSeq : Option (BitVec 48)
  deriving DecidableEq, Repr

/-- The management plane after reset (Table 17-11), from what is stored, with a new nonce (R521). -/
def MgSt.boot (m : MgStored) (nonce : Nat) : MgSt :=
  ⟨{ m with fresh := none }, false, m.slotB,
   (if m.slotB then m.attemptB else m.attemptA) && !decide (m.fresh = some m.slotB), false, false, false, false, 0, false, 0, false, 0, false, 0, 0,
   [], [], Rwc.reset 95, [], [], [], 0, [], nonce, false, [], [], none⟩

/-- A record that has its SEQ (R533, R534): NODE, COUNT and OPEN, and whether its present content is in MRAM. -/
structure ErRec where
  seq : Nat
  r : Rec
  node : BitVec 16
  count : BitVec 16
  opened : Bool
  flushed : Bool
  /-- the ER vector has been sent for it (R542) -/
  reported : Bool
  deriving DecidableEq, Repr

/-- The sequence header of MRAM: the mark M, the last-assigned value E and its valid bit (R533). -/
structure SeqHeader where
  mark : Nat
  last : Nat
  valid : Bool
  deriving DecidableEq, Repr

/-- MRAM: the header, absent until it is written, and the record slots (R537). -/
structure MramSt where
  hdr : Option SeqHeader
  slots : Tab (Option ErRec)
  deriving DecidableEq, Repr

def MramSt.empty : MramSt := ⟨none, []⟩

/-- The recorder (18). -/
structure ErSt where
  logmin : BitVec 2
  irqmin : BitVec 2
  mram : MramSt
  /-- the next SEQ, once boot has read and raised the header (R533) -/
  next : Option Nat
  /-- the header as read at boot (R533) -/
  atBoot : Option SeqHeader
  /-- the volatile buffer in SEQ order (R536) -/
  buf : List ErRec
  flushing : Bool
  /-- the highest SEQ written to MRAM (R538) -/
  written : Nat
  rdSel : BitVec 48
  rdStat : BitVec 2
  rdData : List Word
  /-- latched high halves, by reader × 4 + register (0 SEQ_NEXT, 1 FLUSHED, 2 RD_SEL) -/
  latch : Tab Word
  /-- SEQ from which closed records have not yet gone to the log rings (R542) -/
  logNext : Nat
  /-- the ER vector has been sent in this millisecond (R542) -/
  irqSent : Bool
  deriving DecidableEq, Repr

/-- The recorder after reset (Table 18-7), over what MRAM holds. -/
def ErSt.boot (m : MramSt) : ErSt :=
  ⟨1, 2, m, none, m.hdr, [], false, ((m.slots.filterMap Prod.snd).map ErRec.seq).foldl Nat.max 0, 0, 0, [], [], 0, false⟩

/-- What the module's supply lets it do (R515, R529, R551–R556). -/
inductive PwStage where
  /-- no input, or below the dropout -/
  | off
  /-- PWRGD high, and the module's own reset held until RESET# is high (R551) -/
  | held
  /-- out of its own reset: booting or running -/
  | run
  /-- shedding, until the flush ends -/
  | shed
  | standby
  deriving DecidableEq, Repr

/-- Power (19): trip: the sequence was begun by a thermal trip; warned: by a power-fail warning; straps ADDR1, ADDR0 and
LANEORD as sampled (R562); pin: the level of RESET#. -/
structure PwSt where
  stage : PwStage
  trip : Bool
  warned : Bool
  /-- POWERFAIL records issued (ARG0 of PF_WARN, Table 18-3) -/
  issued : Nat
  straps : BitVec 3
  pin : Bool
  deriving DecidableEq, Repr

/-- Every strap open and RESET# high (R562; log entry 3). -/
def PwSt.reset : PwSt := ⟨.run, false, false, 0, 7, true⟩

/-- The 7-bit address of the I2C target: 0x58 + ADDR1 × 2 + ADDR0 (17 R527, 19 R561). -/
def PwSt.i2cAddress (p : PwSt) : BitVec 7 := 0x58 + (p.straps.extractLsb' 0 2).setWidth 7

/-- The PCIe lane that a lane of the mezzanine carries: in order while LANEORD is open, reversed while it is tied to GND (19
R561, R562). -/
def PwSt.laneOf (p : PwSt) (pos : BitVec 4) : BitVec 4 := if p.straps.getLsbD 2 then pos else 15 - pos

/-- What drives the mezzanine pins under the TAP (R528). -/
inductive JtagPins where
  | functional | boundary | highz
  deriving DecidableEq, Repr

/-- What the 6-bit instruction register of the TAP holds (R528). -/
inductive TapIr where
  | bypass | idcode | sample | extest | clamp | highz
  | priv (n : BitVec 4)
  deriving DecidableEq, Repr

/-- Its code: private instructions from 0x20 on; BYPASS all ones, as IEEE 1149.1 gives it (PRESUMED, log entry 97); the
others are not given. -/
def TapIr.code : TapIr → BitVec 6
  | .bypass => 0x3F
  | .priv n => (2 : BitVec 2) ++ n
  | .idcode => Config.irCode 0
  | .sample => Config.irCode 1
  | .extest => Config.irCode 2
  | .clamp => Config.irCode 3
  | .highz => Config.irCode 4

/-- The TAP: its instruction register, the boundary register as last loaded, and what drives the pins. -/
structure TapSt where
  ir : TapIr
  boundary : List Bool
  pins : JtagPins
  deriving DecidableEq, Repr

/-- After reset IDCODE stands in the instruction register, as IEEE 1149.1 gives it (PRESUMED, log entry 97). -/
def TapSt.reset : TapSt := ⟨.idcode, [], .functional⟩

end Sys2Proof.Machine
end

