-- ==== Sys2Proof/Machine/StateTime.lean ====
section
/-! DEFINITION. The state of the time base (15). -/

namespace Sys2Proof.Machine

/-- Lock states (Table 15-3). -/
inductive LockStep where
  | noref | acquire | locked | holdover
  deriving DecidableEq, Repr

/-- A marker that acts at the next crossing edge (R467). -/
inductive EdgeMark where
  | orbit
  | crossing (arg : BitVec 16)
  | reset
  deriving DecidableEq, Repr

/-- The config group (Table 15-6). -/
structure TbCfg where
  len : BitVec 16
  acceptEn : Bool
  resetEn : Bool
  chkbx : Bool
  resync : Bool
  pol : Bool
  deriving DecidableEq, Repr

def TbCfg.reset : TbCfg := ⟨3564, true, true, true, false, false⟩

/-- TB_CMP_CTRL and TB_CMP_VAL of a channel (Table 15-6). -/
structure CmpCfg where
  en : Bool
  mode : Bool
  wake : Bool
  irq : Bool
  val : BitVec 32
  deriving DecidableEq, Repr

def CmpCfg.reset : CmpCfg := ⟨false, false, false, false, 0⟩

/-- A compare channel; due: it has reached its value and has not yet acted, with the WAKE and IRQ that were live then
(R472, R473, Table 15-4). -/
structure CmpCh where
  cfg : Rwc CmpCfg
  armed : Bool
  cnt : BitVec 32
  due : Option (Bool × Bool)
  deriving DecidableEq, Repr

def CmpCh.reset : CmpCh := ⟨Rwc.reset CmpCfg.reset, false, 0, none⟩

/-- The time base beside TB_TIME; latch: the high halves of TB_TIME by reader (R469). -/
structure TbSt where
  lock : LockStep
  aligned : Bool
  refrange : Bool
  cfgerr : Bool
  khz : BitVec 16
  /-- the reference frequency when the loop was last LOCKED (R465) -/
  lockKhz : BitVec 16
  /-- TB_TIME has first counted (R464) -/
  counting : Bool
  /-- running disparity of the 8b/10b receiver: positive (R461) -/
  rd : Bool
  /-- consecutive words without a K28.5 in character 0 (R462) -/
  miss : Nat
  bx : BitVec 16
  orbit : BitVec 32
  mark : Option EdgeMark
  cfg : Rwc TbCfg
  snapTime : BitVec 64
  snapBx : BitVec 16
  snapOrbit : BitVec 32
  latch : Tab (BitVec 32)
  fired : BitVec 64
  ch : Tab CmpCh
  deriving DecidableEq, Repr

/-- The time base after reset (R464, R476, Table 15-6). -/
def TbSt.reset : TbSt :=
  ⟨.noref, false, false, false, 0, 0, false, false, 0, 0, 0, none, Rwc.reset TbCfg.reset, 0, 0, 0, [], 0, []⟩

end Sys2Proof.Machine
end

