-- ==== Sys2Proof/Machine/State.lean ====
section
/-! DEFINITION. The state of the module, the state after reset, and the reasons a step can stop. -/

namespace Sys2Proof.Machine

/-- The two builds of Table 00-1. -/
inductive Build where
  | h64 | h32
  deriving DecidableEq, Repr

/-- Kinds of requests to another node (R420, R450); write: an uncached write, an exchange or an XST, for which nothing
waits. -/
inductive ReqKind where
  | readShared | readOwn | upgrade | xld | write
  deriving DecidableEq, Repr

/-- What an XLD waits with: the register it writes, the virtual address at the home, and what its trap would save (R318,
R450), with the number of guarded instructions that it leaves (R340) and its index, which fails a check of BOUNDS. -/
structure XldWait where
  loc : Loc
  va : Word
  at_ : Raised
  gcnt : BitVec 3
  idx : TWord
  deriving DecidableEq, Repr

/-- A request of this node to another that has no response yet (R447): the lantern that made it, the context that
waits, the line number, and its kind. -/
structure RemReq where
  txid : BitVec 16
  kind : ReqKind
  lan : Lan
  ctx : Option CtxId
  line : Nat
  xld : Option XldWait
  deriving DecidableEq, Repr

/-- Who asks a home agent: node, lantern and the TXID of its request, or the context of this node that waits. -/
structure Requester where
  node : BitVec 16
  lan : Lan
  txid : BitVec 16
  ctx : Option CtxId
  deriving DecidableEq, Repr

/-- What a home agent is asked for (R414); words: the words written, by index; keep: they keep
their IMM (02 R74); exchange: a write of Taper, which sets MARK
too (R124, R234); retag: the tag byte that an exchange at home gives a word (R234). -/
inductive HomeKind where
  | shared
  | own
  | upgrade
  | uncached (keep : Bool) (words : Tab (Option MWord))
  | hinted (lan : Lan) (keep : Bool) (words : Tab (Option MWord))
  | exchange (words : Tab (Option MWord))
  | retag (i : Nat) (tag : Byte)
  | recall
  /-- a scrub read (R427) -/
  | scrub
  /-- a test access of a controller's registers (R429) -/
  | test (c : Nat) (write : Bool)
  deriving DecidableEq, Repr

/-- A request that a home agent has begun to serve and that waits for lanterns of other nodes (R414, R418). -/
structure HomeTxn where
  id : BitVec 16
  line : Nat
  req : Requester
  kind : HomeKind
  waitData : Bool
  acks : Nat
  data : Option Line
  deriving DecidableEq, Repr

/-- A request that waits its turn for a line, in arrival order (R414). -/
structure HomeReq where
  line : Nat
  req : Requester
  kind : HomeKind
  deriving DecidableEq, Repr

/-- Port states (Table 14-2). -/
inductive PortStep where
  | off | phy | align | negot | up | retrain | isolated
  deriving DecidableEq, Repr

/-- BL_PCFG (Table 14-12). -/
structure PortCfg where
  en : Bool
  rate : BitVec 2
  vmask : BitVec 2
  loop : Bool
  uncTh : BitVec 8
  deriving DecidableEq, Repr

def PortCfg.reset : PortCfg := ⟨false, 0, 3, false, 16⟩

/-- A port (14 R434–R442, R455, R456). -/
structure PortSt where
  st : PortStep
  half : Bool
  version : BitVec 2
  reason : BitVec 3
  peerNode : BitVec 16
  peerPort : BitVec 4
  /-- the peer's rate, as last negotiated: the fallback one -/
  peerHalf : Bool
  /-- during RETRAIN: whether the peer whose capabilities have arrived is the one of before (Table 14-2) -/
  same : Option Bool
  /-- packets queued for the port, in arrival order -/
  txq : List Pkt
  fseq : BitVec 12
  /-- flits sent and not acknowledged, oldest first -/
  retry : List Flit
  /-- the FSEQ named by the last NAKs and their number (R455) -/
  nakAt : BitVec 12
  naks : Nat
  rxNext : BitVec 12
  /-- packets of which not every flit has arrived, by VC -/
  partials : Tab (List Flit)
  /-- credits freed and not yet returned, by VC, with 10 for shared -/
  owed : Tab Nat
  /-- reserved flits of a VC that its packets have used and that have not been returned (R440) -/
  used : Tab Nat
  /-- credits held for the peer's buffer, by VC, with 10 for shared -/
  credits : Tab Nat
  /-- retrain attempts that have failed in succession (Table 14-2) -/
  attempts : Nat
  /-- packets sent since the last MSG packet (R442) -/
  sinceMsg : Nat
  deriving DecidableEq, Repr

def PortSt.reset : PortSt :=
  ⟨.off, false, 0, 0, 0, 0, false, none, [], 0, [], 0, 0, 0, [], [], [], [], 0, 0⟩

/-- The ring group (Table 14-12). -/
structure BlRing where
  timeout : BitVec 16
  base : BitVec 53
  cnt : BitVec 11
  deriving DecidableEq, Repr

def BlRing.reset : BlRing := ⟨100, 0, 0⟩

/-- The fabric (14): its registers, ports, packets waiting to be routed, packets sunk at this node, requests and home
transactions. -/
structure BlSt where
  cfgerr : Bool
  ttl : BitVec 7
  nodeSh : BitVec 16
  ring : Rwc BlRing
  rt : Tab (BitVec 16)
  rtSh : Tab (BitVec 16)
  rtSel : BitVec 16
  rtSrc : BitVec 53
  /-- the source of a LOAD that runs (R445) -/
  rtLoad : Option (BitVec 53)
  rtPend : Bool
  pcfg : Rwc (Tab PortCfg)
  ports : Tab PortSt
  pkts : List Pkt
  inbox : List Pkt
  reqs : List RemReq
  /-- requests whose time has passed, with what they asked for (R447) -/
  lateReqs : List RemReq
  /-- lines whose read for Taper or a block of the HUB has ended in an error: they read POISON source 5 once (R447) -/
  failed : List Nat
  /-- the next TXID; 0 marks packets that need no response -/
  txNext : BitVec 16
  txns : List HomeTxn
  homeWait : List HomeReq
  deriving DecidableEq, Repr

def BlSt.reset : BlSt :=
  ⟨false, 64, 0, Rwc.reset BlRing.reset, [], [], 0, 0, none, false, Rwc.reset [], [], [], [], [], [], [], 1, [], []⟩

/-- The module. -/
structure State where
  /-- the commands that wait, oldest first -/
  pending : List Instr
  /-- which build it is (R1, Table 00-1) -/
  build : Build
  /-- the live node ID (14 R443, Table 14-12) -/
  node : BitVec 16
  /-- TB_TIME, in ticks (15 R464): one value for every island. R25 lets the stamps that different islands give to one instant differ by up to 4
  ticks and fixes no difference: the model takes none (skew 0; DESIGN CHOICE, log entry 93) -/
  time : BitVec 64
  /-- the time base beside TB_TIME (15) -/
  tb : TbSt
  /-- every counter register, by its BAR0 offset; 0 where not listed -/
  cnt : Tab Word
  /-- the 1,024 resident contexts, by CTXID [9:0] (07 Table 07-1) -/
  ctxs : Tab Ctx
  /-- what the contexts of each of the 256 cores share, by CTXID [9:2] (07, 08, 11, 13) -/
  cores : Tab CoreSt
  /-- the 32 lanterns: L2, walk cache, range engine, allocation cursors (03, 12, 13) -/
  lans : Tab LanSt
  /-- the bytes of HBM with the tag sidecar, by LOCAL address, in the form of Memory.wf (02 R56–R58) -/
  hbm : List Host.Cell
  /-- the four memory controllers with their home agents and directories (13) -/
  mcs : Tab McSt
  /-- the MM_ block (12) -/
  mm : MmSt
  /-- CC_CTRL (13) -/
  cc : CcSt
  /-- the candle manager (03) -/
  cn : CnSt
  /-- the Lamplighter (05) -/
  ll : LlSt
  /-- the Snuffer (05) -/
  sn : SnSt
  /-- the decision port (05) -/
  dp : DpSt
  /-- the HUB's lists (01; 05) -/
  hub : HubSt
  /-- the event of each candle slot (01) -/
  ev : Tab EvSt
  /-- the Breas fabric (14) -/
  bl : BlSt
  /-- Taper (06) -/
  tp : TpSt
  /-- the wicks (04) -/
  wk : WksSt
  /-- what has occurred in the present millisecond -/
  ms : MsSt
  /-- the host interface (16) -/
  hi : HiSt
  /-- the management plane, with what fuses and the SPI NOR hold (17) -/
  mg : MgSt
  /-- the event recorder with its MRAM (18) -/
  er : ErSt
  /-- power (19) -/
  pw : PwSt
  /-- the TAP (17 R528) -/
  tap : TapSt
  /-- the power-fail warning has been given and not yet cleared (R45, R138) -/
  pf : Bool
  /-- what has left the module, newest first: the model's own field (log entry 6) -/
  out : List Out
  /-- records handed over and not yet taken by the recorder, oldest first (18 R532) -/
  recs : List Rec
  /-- the error that the next access of the instruction meets, from its command: the model's own field (log entry 76) -/
  strike : CacheErr
  /-- the line that a block of the HUB or Taper could not yet read, or write in M: the model's own field, none between
  commands (log entry 77) -/
  miss : Option (Nat × Bool)
  /-- how many free values have been drawn: the model's own field (log entry 1) -/
  freeCtr : Nat
  deriving DecidableEq, Repr

/-- The module right after reset, with what fuses, NOR and MRAM hold, when ctr free values have been drawn before: the new
nonce takes eight (R16, R61, R212, R238, R431, R458, R476, R509, R521). -/
def State.boot (build : Build) (stored : MgStored) (mram : MramSt) (pw : PwSt) (ctr : Nat) : State :=
  { pending := [], build := build, node := 0, time := 0, tb := TbSt.reset, cnt := [], ctxs := [], cores := [], lans := [],
    hbm := [], mcs := [], mm := MmSt.reset, cc := CcSt.reset, cn := CnSt.reset, ll := LlSt.reset, sn := SnSt.reset,
    dp := DpSt.reset, hub := HubSt.reset, ev := [], bl := BlSt.reset, tp := TpSt.reset, wk := WksSt.reset,
    ms := MsSt.reset, hi := HiSt.reset, mg := MgSt.boot stored ctr, er := ErSt.boot mram, pw := pw, tap := TapSt.reset,
    pf := false, out := [], recs := [], strike := .none, miss := none, freeCtr := ctr + 8 }

/-- The module right after the reset of its first power-up: the H64 build in the state in which it leaves the factory
(log entry 3). -/
def State.reset : State := State.boot .h64 MgStored.factory MramSt.empty PwSt.reset 0

/-- Reasons to stop with a fault: none arises. -/
inductive Fault where
  /-- raised by nobody: every command that the spec gives an effect answers a next state; safe -/
  | unreached
  deriving DecidableEq, Repr

/-- Reasons to stop with a refusal. -/
inductive Refusal where
  /-- raised by an arm that has no meaning yet; safe -/
  | notModelled (mnemonic : String)
  /-- raised by JTAG_PRIVATE in SERVICE, whose effect the spec does not describe (17 R528); safe -/
  | privateJtag
  deriving DecidableEq, Repr

abbrev Outcome := Host.Outcome State Fault Refusal

end Sys2Proof.Machine
end

