-- ==== Sys2Proof/Machine/Regs.lean ====
section
/-! DEFINITION. Counter registers by BAR0 offset (00 R13, R15; the counter tables of each chapter), and the operations of a
shadowed register group (00 R17, R20, R21). -/

namespace Sys2Proof.Machine

namespace Cnt
/-- CN_CNT_OPEN (Table 03-14). -/
def cnOpen : Nat := 0x3000C0
/-- CN_CNT_NOCANDLE (Table 03-14). -/
def cnNocandle : Nat := 0x3000C4
/-- CN_CNT_STALE (Table 03-14). -/
def cnStale : Nat := 0x3000C8
/-- CN_CNT_FOREIGN (Table 03-14). -/
def cnForeign : Nat := 0x3000CC
/-- CN_CNT_ELOG_OVF (Table 03-14). -/
def cnElogOvf : Nat := 0x3000D0
/-- CN_CNT_ESKIP (Table 03-14). -/
def cnEskip : Nat := 0x3000D4
/-- CN_CNT_EVAC_WORDS (Table 03-14). -/
def cnEvacWords : Nat := 0x3000D8
/-- CN_CNT_EVAC_LOST (Table 03-14). -/
def cnEvacLost : Nat := 0x3000DC
/-- CN_CNT_EVAC_POISON (Table 03-14). -/
def cnEvacPoison : Nat := 0x3000E0
/-- CN_CNT_LATE_WRITE (Table 03-14). -/
def cnLateWrite : Nat := 0x3000E4
/-- CN_CNT_ESC_ABANDON (Table 03-14). -/
def cnEscAbandon : Nat := 0x3000E8
/-- CN_CNT_MLOG_ABANDON (Table 03-14). -/
def cnMlogAbandon : Nat := 0x3000EC
/-- CN_CNT_MARK_ERR (Table 03-14). -/
def cnMarkErr : Nat := 0x3000F0
/-- CN_CNT_STALE_HANDLE (Table 03-14). -/
def cnStaleHandle : Nat := 0x3000F4
/-- Wick counter MASKED (Table 04-13). -/
def wkMasked (n : Nat) : Nat := 0x100000 + 0x10000 * n + 0x050
/-- Wick counter EXTENT_DROP (Table 04-13). -/
def wkExtentDrop (n : Nat) : Nat := 0x100000 + 0x10000 * n + 0x054
/-- Wick counter TABLE_FULL (Table 04-13). -/
def wkTableFull (n : Nat) : Nat := 0x100000 + 0x10000 * n + 0x058
/-- Wick counter OPENREQ (Table 04-13). -/
def wkOpenreq (n : Nat) : Nat := 0x100000 + 0x10000 * n + 0x05C
/-- Lane counter FRAMES of lane p of wick n (Table 04-13). -/
def wkFrames (n p : Nat) : Nat := 0x100100 + 0x10000 * n + 0x40 * p + 0x08
/-- Lane counter HITS of lane p of wick n (Table 04-13). -/
def wkHits (n p : Nat) : Nat := 0x100100 + 0x10000 * n + 0x40 * p + 0x0C
/-- Lane counter CRC of lane p of wick n (Table 04-13). -/
def wkCrc (n p : Nat) : Nat := 0x100100 + 0x10000 * n + 0x40 * p + 0x10
/-- Lane counter LEN of lane p of wick n (Table 04-13). -/
def wkLen (n p : Nat) : Nat := 0x100100 + 0x10000 * n + 0x40 * p + 0x14
/-- Lane counter FMT of lane p of wick n (Table 04-13). -/
def wkFmt (n p : Nat) : Nat := 0x100100 + 0x10000 * n + 0x40 * p + 0x18
/-- Lane counter FRAMING of lane p of wick n (Table 04-13). -/
def wkFraming (n p : Nat) : Nat := 0x100100 + 0x10000 * n + 0x40 * p + 0x1C
/-- Lane counter SEQ_GAP of lane p of wick n (Table 04-13). -/
def wkSeqGap (n p : Nat) : Nat := 0x100100 + 0x10000 * n + 0x40 * p + 0x20
/-- Lane counter LATE of lane p of wick n (Table 04-13). -/
def wkLate (n p : Nat) : Nat := 0x100100 + 0x10000 * n + 0x40 * p + 0x24
/-- Lane counter ORPHAN of lane p of wick n (Table 04-13). -/
def wkOrphan (n p : Nat) : Nat := 0x100100 + 0x10000 * n + 0x40 * p + 0x28
/-- Lane counter DROP_HITS of lane p of wick n (Table 04-13). -/
def wkDropHits (n p : Nat) : Nat := 0x100100 + 0x10000 * n + 0x40 * p + 0x2C
/-- Lane counter SYNC_ERR of lane p of wick n (Table 04-13). -/
def wkSyncErr (n p : Nat) : Nat := 0x100100 + 0x10000 * n + 0x40 * p + 0x30
/-- Lane counter LOCK_LOSS of lane p of wick n (Table 04-13). -/
def wkLockLoss (n p : Nat) : Nat := 0x100100 + 0x10000 * n + 0x40 * p + 0x34
/-- LL_CNT_TASKS (Table 05-14). -/
def llTasks : Nat := 0x200060
/-- LL_CNT_DISPATCH (Table 05-14). -/
def llDispatch : Nat := 0x200064
/-- LL_CNT_PREEMPT (Table 05-14). -/
def llPreempt : Nat := 0x200068
/-- LL_CNT_MIGRATE (Table 05-14). -/
def llMigrate : Nat := 0x20006C
/-- LL_CNT_DEFER (Table 05-14). -/
def llDefer : Nat := 0x200070
/-- LL_CNT_DEFER_DROP (Table 05-14). -/
def llDeferDrop : Nat := 0x200074
/-- LL_CNT_L1_DROP (Table 05-14). -/
def llL1Drop : Nat := 0x200078
/-- LL_CNT_KILL (Table 05-14). -/
def llKill : Nat := 0x20007C
/-- LL_CNT_WAKE_LATE (Table 05-14). -/
def llWakeLate : Nat := 0x200080
/-- LL_CNT_MSG_DROP (Table 05-14). -/
def llMsgDrop : Nat := 0x200084
/-- LL_CNT_TMPL_ERR (Table 05-14). -/
def llTmplErr : Nat := 0x200088
/-- SN_CNT_MENU (Table 05-14). -/
def snMenu : Nat := 0x204040
/-- SN_CNT_DEADLINE (Table 05-14). -/
def snDeadline : Nat := 0x204044
/-- SN_CNT_NOCANDLE (Table 05-14). -/
def snNocandle : Nat := 0x204048
/-- SN_CNT_POISON (Table 05-14). -/
def snPoison : Nat := 0x20404C
/-- SN_CNT_FAULT (Table 05-14). -/
def snFault : Nat := 0x204050
/-- SN_CNT_POWERFAIL (Table 05-14). -/
def snPowerfail : Nat := 0x204054
/-- SN_CNT_LATE_DECIDE (Table 05-14). -/
def snLateDecide : Nat := 0x204058
/-- SN_CNT_WARN (Table 05-14). -/
def snWarn : Nat := 0x20405C
/-- DP_CNT_RECORDS (Table 05-14). -/
def dpRecords : Nat := 0x208040
/-- DP_CNT_OOO (Table 05-14). -/
def dpOoo : Nat := 0x208044
/-- DP_CNT_NODEST (Table 05-14). -/
def dpNodest : Nat := 0x208048
/-- DP_CNT_HOSTDROP (Table 05-14). -/
def dpHostdrop : Nat := 0x20804C
/-- DP_LSENT of lane l (Table 05-14). -/
def dpLsent (l : Nat) : Nat := 0x208060 + 4 * l
/-- TP_CNT_JOBS (Table 06-10). -/
def tpJobs : Nat := 0x400040
/-- TP_CNT_WORDS (Table 06-10). -/
def tpWords : Nat := 0x400044
/-- TP_CNT_FULL (Table 06-10). -/
def tpFull : Nat := 0x400048
/-- TP_CNT_KILLED (Table 06-10). -/
def tpKilled : Nat := 0x40004C
/-- TP_CNT_ERR (Table 06-10). -/
def tpErr : Nat := 0x400050
/-- TP_CNT_POISON (Table 06-10). -/
def tpPoison : Nat := 0x400054
/-- TP_CNT_MSTK_OVF (Table 06-10). -/
def tpMstkOvf : Nat := 0x400058
/-- TP_CNT_MARK_STALE (Table 06-10). -/
def tpMarkStale : Nat := 0x40005C
/-- TP_CNT_REMOTE_OUT (Table 06-10). -/
def tpRemoteOut : Nat := 0x400060
/-- MM_CNT_WALKS (Table 12-10). -/
def mmWalks : Nat := 0x880040
/-- MM_CNT_WCHIT (Table 12-10). -/
def mmWchit : Nat := 0x880044
/-- MM_CNT_RETRY (Table 12-10). -/
def mmRetry : Nat := 0x880048
/-- MM_CNT_TORN (Table 12-10). -/
def mmTorn : Nat := 0x88004C
/-- MM_CNT_ECC (Table 12-10). -/
def mmEcc : Nat := 0x880050
/-- MM_CNT_DEV (Table 12-10). -/
def mmDev : Nat := 0x880054
/-- MM_CNT_BADDESC (Table 12-10). -/
def mmBaddesc : Nat := 0x880058
/-- MM_CNT_SPECDROP (Table 12-10). -/
def mmSpecdrop : Nat := 0x88005C
/-- MM_CNT_FAULTS (Table 12-10). -/
def mmFaults : Nat := 0x880060
/-- CC_CNT_L1_CORR (Table 13-7). -/
def ccL1Corr : Nat := 0x700040
/-- CC_CNT_L1_KEYPAR (Table 13-7). -/
def ccL1Keypar : Nat := 0x700044
/-- CC_CNT_L1_REFILL (Table 13-7). -/
def ccL1Refill : Nat := 0x700048
/-- CC_CNT_MB_UNCORR (Table 13-7). -/
def ccMbUncorr : Nat := 0x70004C
/-- CC_CNT_L2_CORR (Table 13-7). -/
def ccL2Corr : Nat := 0x700050
/-- CC_CNT_L2_UNCORR (Table 13-7). -/
def ccL2Uncorr : Nat := 0x700054
/-- CC_CNT_PREFETCH (Table 13-7). -/
def ccPrefetch : Nat := 0x700058
/-- CC_CNT_HINT (Table 13-7). -/
def ccHint : Nat := 0x70005C
/-- CC_CNT_HINT_SKIP (Table 13-7). -/
def ccHintSkip : Nat := 0x700060
/-- CC_CNT_COARSE (Table 13-7). -/
def ccCoarse : Nat := 0x700064
/-- CC_CNT_RECALL (Table 13-7). -/
def ccRecall : Nat := 0x700068
/-- CC_CNT_RSKIP (Table 13-7). -/
def ccRskip : Nat := 0x70006C
/-- MC_CNT_CORR of controller c (Table 13-7). -/
def mcCorr (c : Nat) : Nat := 0x800000 + 0x10000 * c + 0x0A0
/-- MC_CNT_UNCORR of controller c (Table 13-7). -/
def mcUncorr (c : Nat) : Nat := 0x800000 + 0x10000 * c + 0x0A4
/-- MC_CNT_SCRUB_CORR of controller c (Table 13-7). -/
def mcScrubCorr (c : Nat) : Nat := 0x800000 + 0x10000 * c + 0x0A8
/-- MC_CNT_SCRUB_UNCORR of controller c (Table 13-7). -/
def mcScrubUncorr (c : Nat) : Nat := 0x800000 + 0x10000 * c + 0x0AC
/-- MC_CNT_UNPOP of controller c (Table 13-7). -/
def mcUnpop (c : Nat) : Nat := 0x800000 + 0x10000 * c + 0x0B0
/-- MC_CNT_TAGC_HIT of controller c (Table 13-7). -/
def mcTagcHit (c : Nat) : Nat := 0x800000 + 0x10000 * c + 0x0B4
/-- MC_CNT_TAGC_MISS of controller c (Table 13-7). -/
def mcTagcMiss (c : Nat) : Nat := 0x800000 + 0x10000 * c + 0x0B8
/-- BL_CNT_NOROUTE (Table 14-13). -/
def blNoroute : Nat := 0x600040
/-- BL_CNT_TTL (Table 14-13). -/
def blTtl : Nat := 0x600044
/-- BL_CNT_TIMEOUT (Table 14-13). -/
def blTimeout : Nat := 0x600048
/-- BL_CNT_LATE (Table 14-13). -/
def blLate : Nat := 0x60004C
/-- BL_CNT_NOCOPY (Table 14-13). -/
def blNocopy : Nat := 0x600050
/-- BL_CNT_XFAIL (Table 14-13). -/
def blXfail : Nat := 0x600054
/-- BL_CNT_V1_REFUSE (Table 14-13). -/
def blV1Refuse : Nat := 0x600058
/-- BL_CNT_NORING (Table 14-13). -/
def blNoring : Nat := 0x60005C
/-- BL_CNT_RINGFULL (Table 14-13). -/
def blRingfull : Nat := 0x600060
/-- BL_CNT_MSG_TX (Table 14-13). -/
def blMsgTx : Nat := 0x600064
/-- BL_CNT_MSG_RX (Table 14-13). -/
def blMsgRx : Nat := 0x600068
/-- Port counter FLITS_TX (Table 14-13). -/
def blFlitsTx (p : Nat) : Nat := 0x600100 + 0x40 * p + 0x10
/-- Port counter FLITS_RX (Table 14-13). -/
def blFlitsRx (p : Nat) : Nat := 0x600100 + 0x40 * p + 0x14
/-- Port counter FEC_CORR (Table 14-13). -/
def blFecCorr (p : Nat) : Nat := 0x600100 + 0x40 * p + 0x18
/-- Port counter FEC_UNC (Table 14-13). -/
def blFecUnc (p : Nat) : Nat := 0x600100 + 0x40 * p + 0x1C
/-- Port counter CRC (Table 14-13). -/
def blCrc (p : Nat) : Nat := 0x600100 + 0x40 * p + 0x20
/-- Port counter REPLAY (Table 14-13). -/
def blReplay (p : Nat) : Nat := 0x600100 + 0x40 * p + 0x24
/-- Port counter RETRAIN (Table 14-13). -/
def blRetrain (p : Nat) : Nat := 0x600100 + 0x40 * p + 0x28
/-- Port counter TRAIN_FAIL (Table 14-13). -/
def blTrainFail (p : Nat) : Nat := 0x600100 + 0x40 * p + 0x2C
/-- Port counter LOST (Table 14-13). -/
def blLost (p : Nat) : Nat := 0x600100 + 0x40 * p + 0x30
/-- Port counter CREDIT_STALL (Table 14-13). -/
def blCreditStall (p : Nat) : Nat := 0x600100 + 0x40 * p + 0x34
/-- Port counter V1_DROP (Table 14-13). -/
def blV1Drop (p : Nat) : Nat := 0x600100 + 0x40 * p + 0x38
/-- Port counter ISOLATE (Table 14-13). -/
def blIsolate (p : Nat) : Nat := 0x600100 + 0x40 * p + 0x3C
/-- CODE_ERR (Table 15-7). -/
def tbCodeErr : Nat := 0x500050
/-- ALIGN_LOSS (Table 15-7). -/
def tbAlignLoss : Nat := 0x500054
/-- UNKNOWN (Table 15-7). -/
def tbUnknown : Nat := 0x500058
/-- ACCEPTS (Table 15-7). -/
def tbAccepts : Nat := 0x50005C
/-- RESETS (Table 15-7). -/
def tbResets : Nat := 0x500060
/-- ORBIT_SLIP (Table 15-7). -/
def tbOrbitSlip : Nat := 0x500064
/-- BX_MISMATCH (Table 15-7). -/
def tbBxMismatch : Nat := 0x500068
/-- LOCK_LOSS (Table 15-7). -/
def tbLockLoss : Nat := 0x50006C
/-- HI_CNT_DESC (Table 16-12). -/
def hiDesc : Nat := 0x010040
/-- HI_CNT_ERR (Table 16-12). -/
def hiErr : Nat := 0x010044
/-- HI_CNT_DBDROP (Table 16-12). -/
def hiDbdrop : Nat := 0x010048
/-- HI_CNT_BADACC (Table 16-12). -/
def hiBadacc : Nat := 0x01004C
/-- HI_CNT_IRQ (Table 16-12). -/
def hiIrq : Nat := 0x010050
/-- HI_CNT_LOGDROP (Table 16-12). -/
def hiLogdrop : Nat := 0x010054
/-- HI_CNT_WINERR (Table 16-12). -/
def hiWinerr : Nat := 0x010058
/-- HI_CNT_DMAERR (Table 16-12). -/
def hiDmaerr : Nat := 0x01005C
/-- MG_SUM_MEMCORR (Table 17-12). -/
def mgSumMemcorr : Nat := 0x900200
/-- MG_SUM_MEMUNC (Table 17-12). -/
def mgSumMemunc : Nat := 0x900204
/-- MG_SUM_LANE (Table 17-12). -/
def mgSumLane : Nat := 0x900208
/-- MG_SUM_FABRIC (Table 17-12). -/
def mgSumFabric : Nat := 0x90020C
/-- MG_SUM_FALLBACK (Table 17-12). -/
def mgSumFallback : Nat := 0x900210
/-- MG_CNT_LATE (Table 17-12). -/
def mgLate : Nat := 0x900214
/-- MG_CNT_TRIP (Table 17-12). -/
def mgTrip : Nat := 0x900218
/-- ER_CNT_DROP (Table 18-8). -/
def erDrop : Nat := 0xA00080
/-- ER_CNT_OVERWRITE (Table 18-8). -/
def erOverwrite : Nat := 0xA00084
/-- ER_CNT_COALESCE (Table 18-8). -/
def erCoalesce : Nat := 0xA00088
/-- ER_CNT_FLUSH (Table 18-8). -/
def erFlush : Nat := 0xA0008C
end Cnt

/-- The value of a counter. -/
def State.counter (s : State) (off : Nat) : Word := Tab.get 0 s.cnt off

/-- Adds n to a counter; it saturates at 0xFFFF_FFFF. -/
def bumpBy (off n : Nat) (s : State) : State :=
  { s with cnt := Tab.set 0 s.cnt off (BitVec.ofNat 32 (min 0xFFFFFFFF ((s.counter off).toNat + n))) }

/-- Counts one happening. -/
def bump (off : Nat) (s : State) : State := bumpBy off 1 s

/-- Adds to a counter that wraps or is written as a whole. -/
def setCounter (off : Nat) (v : Word) (s : State) : State := { s with cnt := Tab.set 0 s.cnt off v }

/-- What a counter has counted since the management processor's sums last saw it, or since it was cleared (17 R513). -/
def sinceSeen (s : State) (off : Nat) : Nat := (s.counter off).toNat - (Tab.get 0 s.mg.seen off).toNat

/-- CNTCLR: every counter with an offset from lo to hi reads 0; what the sums have not seen stays to be summed (17 R513, log
entry 66). -/
def clearCounters (lo hi : Nat) (s : State) : State :=
  let gone := s.cnt.filter fun e => lo ≤ e.1 && e.1 ≤ hi
  { s with
    cnt := s.cnt.filter fun e => e.1 < lo || hi < e.1
    mg := { s.mg with
      seen := s.mg.seen.filter fun e => e.1 < lo || hi < e.1
      unsummed := gone.foldl (fun t e => Tab.set 0 t e.1 (Tab.get 0 t e.1 + sinceSeen s e.1)) s.mg.unsummed } }

/-- A write of the shadow copy; ignored while COMMIT reads 1 (R17, R21). -/
def Rwc.write {α : Type} (f : α → α) (r : Rwc α) : Rwc α := if r.pend then r else { r with sh := f r.sh }

/-- A write of 1 to COMMIT (R20). -/
def Rwc.request {α : Type} (r : Rwc α) : Rwc α := { r with pend := true }

/-- The copy: the live copy takes every shadow field in one step and COMMIT reads 0 (R20). -/
def Rwc.commit {α : Type} (r : Rwc α) : Rwc α := { r with lv := r.sh, pend := false }

/-- A refused commit copies nothing and COMMIT reads 0. -/
def Rwc.refuse {α : Type} (r : Rwc α) : Rwc α := { r with pend := false }

end Sys2Proof.Machine
end

