-- ==== Sys2Proof/Machine/Ops.lean ====
section
/-! DEFINITION. The named operations over the state: contexts, cores and lanterns, records and free values; the registers
of a context (07 R243, R244, R247); the control registers as words (Tables 07-4, 07-5, 07-11); scheduling of a core's
contexts (R251); taking an exception (R331–R334, R346–R348) and returning from one (R344, R345). -/

namespace Sys2Proof.Machine

/-! ### Parts of the state -/

def State.ctx (s : State) (c : CtxId) : Ctx := Tab.get Ctx.reset s.ctxs c.toNat
def State.setCtx (s : State) (c : CtxId) (x : Ctx) : State := { s with ctxs := Tab.set Ctx.reset s.ctxs c.toNat x }
def State.core (s : State) (k : CoreId) : CoreSt := Tab.get CoreSt.reset s.cores k.toNat
def State.setCore (s : State) (k : CoreId) (x : CoreSt) : State := { s with cores := Tab.set CoreSt.reset s.cores k.toNat x }
def State.lan (s : State) (l : Lan) : LanSt := Tab.get LanSt.reset s.lans l.toNat
def State.setLan (s : State) (l : Lan) (x : LanSt) : State := { s with lans := Tab.set LanSt.reset s.lans l.toNat x }
def State.mc (s : State) (c : Nat) : McSt := Tab.get McSt.reset s.mcs c
def State.setMc (s : State) (c : Nat) (x : McSt) : State := { s with mcs := Tab.set McSt.reset s.mcs c x }
def State.task (s : State) (i : Nat) : TaskD := Tab.get TaskD.free s.ll.tasks i
def State.slot (s : State) (i : Nat) : CnSlot := Tab.get CnSlot.reset s.cn.slots i
def State.setSlot (s : State) (i : Nat) (x : CnSlot) : State :=
  { s with cn := { s.cn with slots := Tab.set CnSlot.reset s.cn.slots i x } }
def State.event (s : State) (i : Nat) : EvSt := Tab.get EvSt.none s.ev i
def State.setEvent (s : State) (i : Nat) (x : EvSt) : State := { s with ev := Tab.set EvSt.none s.ev i x }
def State.modCtx (s : State) (c : CtxId) (f : Ctx → Ctx) : State := s.setCtx c (f (s.ctx c))
def State.modCore (s : State) (k : CoreId) (f : CoreSt → CoreSt) : State := s.setCore k (f (s.core k))
def State.modLan (s : State) (l : Lan) (f : LanSt → LanSt) : State := s.setLan l (f (s.lan l))
def State.modMc (s : State) (c : Nat) (f : McSt → McSt) : State := s.setMc c (f (s.mc c))
def State.modSlot (s : State) (i : Nat) (f : CnSlot → CnSlot) : State := s.setSlot i (f (s.slot i))
def State.modEvent (s : State) (i : Nat) (f : EvSt → EvSt) : State := s.setEvent i (f (s.event i))
def State.modTask (s : State) (i : Nat) (f : TaskD → TaskD) : State :=
  { s with ll := { s.ll with tasks := Tab.set TaskD.free s.ll.tasks i (f (s.task i)) } }

/-- The core of a context: CTXID [9:2] (Table 07-5). -/
def coreOf (c : CtxId) : CoreId := c.extractLsb' 2 8
/-- The lantern of a context: CTXID [9:5]. -/
def lanOf (c : CtxId) : Lan := c.extractLsb' 5 5
/-- The lantern of a core. -/
def lanOfCore (k : CoreId) : Lan := k.extractLsb' 3 5
/-- A resident context of a core. -/
def ctxOf (k : CoreId) (n : BitVec 2) : CtxId := k ++ n

/-- Slot [10:0] and generation [18:11] of a candle handle (R90). -/
def hSlot (h : BitVec 19) : Nat := (h.extractLsb' 0 11).toNat
def hGen (h : BitVec 19) : BitVec 8 := h.extractLsb' 11 8
def mkHandle (slot : Nat) (gen : BitVec 8) : BitVec 19 := gen ++ BitVec.ofNat 11 slot

/-- A handle is stale when its generation is not the slot's present one (R92). -/
def State.stale (s : State) (h : BitVec 19) : Bool := decide ((s.slot (hSlot h)).gen ≠ hGen h)

/-- Hands the recorder a record with the time of now (R532, R533). -/
def record (sev : BitVec 2) (src : BitVec 8) (reason : BitVec 16) (a0 a1 a2 a3 : BitVec 64) (a4 : BitVec 32) (s : State) :
    State :=
  { s with recs := s.recs ++ [⟨sev, src, reason, s.time, a0, a1, a2, a3, a4⟩] }

/-- A handle as an argument of a record: [18:0], with [19] set when it is valid (R535). -/
def handleArg : Option (BitVec 19) → BitVec 64
  | some h => (h.setWidth 64) ||| 0x80000
  | none => 0

/-- Draws a free payload (log entry 1). -/
def State.draw (s : State) : Word × State := (Config.freeWord s.freeCtr, { s with freeCtr := s.freeCtr + 1 })

/-- Draws n free payloads. -/
def drawWords : Nat → State → List Word × State
  | 0, s => ([], s)
  | n + 1, s =>
    let (w, s) := s.draw
    let (r, s) := drawWords n s
    (w :: r, s)

/-- Draws a position below n (log entry 1); with one alternative there is no choice. -/
def State.pick (s : State) (n : Nat) : Nat × State :=
  if n ≤ 1 then (0, s) else (Config.freePick s.freeCtr % n, { s with freeCtr := s.freeCtr + 1 })

/-! ### Control registers as words -/

def bit (b : Bool) : BitVec 1 := if b then 1 else 0

/-- CSTAT as a word (Table 07-4). -/
def Cstat.pack (c : Cstat) : Word :=
  (0 : BitVec 6) ++ bit c.shadow ++ c.zbank ++ c.fflags ++ c.rm ++ bit c.fpv ++ bit c.fpa ++ bit c.rsmode ++ bit c.rpt ++
    bit c.ldf ++ bit c.ginv ++ c.gpred ++ c.gcnt ++ bit c.ie ++ bit c.mode ++ c.priv

/-- Every field of CSTAT from a word, as a restored frame carries it (R253). -/
def Cstat.unpack (w : Word) : Cstat :=
  { priv := w.extractLsb' 0 2, mode := w.getLsbD 2, ie := w.getLsbD 3, gcnt := w.extractLsb' 4 3,
    gpred := w.extractLsb' 7 3, ginv := w.getLsbD 10, ldf := w.getLsbD 11, rpt := w.getLsbD 12, rsmode := w.getLsbD 13,
    fpa := w.getLsbD 14, fpv := w.getLsbD 15, rm := w.extractLsb' 16 2, fflags := w.extractLsb' 18 5,
    zbank := w.extractLsb' 23 2, shadow := w.getLsbD 25 }

/-- WPTR as a word (Table 07-5). -/
def Wptr.pack (p : Wptr) : Word := (0 : BitVec 8) ++ p.wspill ++ p.unchk ++ p.resw ++ p.cwp

/-- WPTR from a word; a RESW of 0 is taken as 1 (Table 07-5). -/
def Wptr.unpack (w : Word) : Wptr :=
  { cwp := w.extractLsb' 0 3, resw := if w.extractLsb' 3 3 = 0 then 1 else w.extractLsb' 3 3,
    unchk := w.extractLsb' 6 8, wspill := w.extractLsb' 14 10 }

/-- XBANK as a word and from a word (Table 07-11). -/
def Xbank.pack (b : Xbank) : Word := (0 : BitVec 19) ++ bit b.inc ++ b.index ++ b.space ++ b.ctx
def Xbank.unpack (w : Word) : Xbank :=
  { ctx := w.extractLsb' 0 2, space := w.extractLsb' 2 3, index := w.extractLsb' 5 7, inc := w.getLsbD 12 }

/-- CTXID as a word (Table 07-5). -/
def ctxidWord (node : BitVec 16) (c : CtxId) : Word := node ++ (0 : BitVec 6) ++ c

/-! ### Object headers (Table 02-4) -/

/-- LENGTH and SUB of an HDR payload (R66). -/
def hdrLen (h : Word) : Nat := (h.extractLsb' 0 24).toNat
def hdrSub (h : Word) : BitVec 8 := h.extractLsb' 24 8
def mkHdr (sub : BitVec 8) (len : Nat) : TWord := ⟨Ty.hdr, sub ++ BitVec.ofNat 24 len⟩

/-- The HDR of an object of a kind keeps Table 02-5. -/
def hdrOk (t : Ty) (h : Word) : Bool :=
  let sub := hdrSub h
  if t = Ty.vec then sub ≤ 0x0B
  else if t = Ty.str then sub.extractLsb' 2 6 = 0 && (hdrLen h ≠ 0 || sub = 0)
  else if t = Ty.big then sub = 0 && 1 ≤ hdrLen h && hdrLen h ≤ 64
  else if t = Ty.sym then sub = 0 && hdrLen h = 4
  else if t = Ty.hitv then
    (sub.extractLsb' 0 3).toNat ≤ 5 && (sub.extractLsb' 4 2).toNat ≤ 1 && sub.extractLsb' 6 2 = 0 && hdrLen h % 2 = 0
  else true

/-! ### Results of an instruction -/

/-- What a piece of an instruction answers: a value, a trap, or a wait at issue. -/
inductive Res (α : Type) where
  | ok (a : α) (s : State)
  | trap (t : Trap) (s : State)
  | wait (on : StallOn) (s : State)

/-- Goes on with the value. -/
def Res.bind {α β : Type} (r : Res α) (f : α → State → Res β) : Res β :=
  match r with
  | .ok a s => f a s
  | .trap t s => .trap t s
  | .wait o s => .wait o s

/-- Where execution goes after an instruction: on, to a target, on while the context leaves the core's issue (R195, R251),
on after the others of its level (YIELD), where the instruction itself has put the context, again with the next iteration
of a repeat (R291), or on within the instruction itself (R369). -/
inductive Flow where
  | next
  | jump (pc : Word)
  | away (st : CtxSt) (on : StallOn)
  | yielded
  | placed
  | again
  | held
  deriving DecidableEq, Repr

namespace Cause
def unsetUse : BitVec 8 := 0x01
def reservedTag : BitVec 8 := 0x02
def tagMismatch : BitVec 8 := 0x03
def badPayload : BitVec 8 := 0x04
def immStore : BitVec 8 := 0x05
def hdrMissing : BitVec 8 := 0x06
def elemType : BitVec 8 := 0x07
def storeClass : BitVec 8 := 0x08
def retagPriv : BitVec 8 := 0x09
def align : BitVec 8 := 0x0A
def bounds : BitVec 8 := 0x0B
def arithDiv0 : BitVec 8 := 0x0C
def decOverflow : BitVec 8 := 0x0D
def bigLimit : BitVec 8 := 0x0E
def snan : BitVec 8 := 0x20
def stale : BitVec 8 := 0x30
def foreign : BitVec 8 := 0x31
def staleValue : BitVec 8 := 0x32
def candleFull : BitVec 8 := 0x38
def poolEmpty : BitVec 8 := 0x39
def poolFrag : BitVec 8 := 0x3A
def noArea : BitVec 8 := 0x3B
def poison : BitVec 8 := 0x3E
def noEvent : BitVec 8 := 0x40
def badTemplate : BitVec 8 := 0x41
def badTarget : BitVec 8 := 0x48
def rsMismatch : BitVec 8 := 0x49
def rsEmpty : BitVec 8 := 0x4A
def ssFault : BitVec 8 := 0x4B
def ssCorrupt : BitVec 8 := 0x4C
def frameEmpty : BitVec 8 := 0x4D
def badEstat : BitVec 8 := 0x4E
def illEnc : BitVec 8 := 0x50
def guardRule : BitVec 8 := 0x51
def illOperand : BitVec 8 := 0x52
def custUndef : BitVec 8 := 0x53
def fetchTag : BitVec 8 := 0x54
def illAlign : BitVec 8 := 0x55
def privOp : BitVec 8 := 0x58
def xbReach : BitVec 8 := 0x59
def privEsc : BitVec 8 := 0x5A
def saveFull : BitVec 8 := 0x5C
def saveEmpty : BitVec 8 := 0x5D
def saveFmt : BitVec 8 := 0x5E
def saveAccess : BitVec 8 := 0x5F
def noMap : BitVec 8 := 0x60
def rights : BitVec 8 := 0x61
def accessMark : BitVec 8 := 0x62
def dirtyMark : BitVec 8 := 0x63
def walkTorn : BitVec 8 := 0x64
def walkEcc : BitVec 8 := 0x65
def walkDev : BitVec 8 := 0x66
def wovf : BitVec 8 := 0x70
def wunf : BitVec 8 := 0x71
def brk : BitVec 8 := 0x72
def rsEcc : BitVec 8 := 0x74
def cregEcc : BitVec 8 := 0x75
def vecBad : BitVec 8 := 0x76
def cstatEcc : BitVec 8 := 0x77
def debugReq : BitVec 8 := 0x78
def cstoreEcc : BitVec 8 := 0x79
def ucodeFault : BitVec 8 := 0x7A
end Cause

/-- The vector of a synchronous cause (Table 10-1); 0 for a cause without a vector. -/
def vecOf (c : BitVec 8) : BitVec 6 :=
  if 0x01 ≤ c ∧ c ≤ 0x0E then 1
  else if c = 0x3E then 2
  else if c = 0x20 then 3
  else if 0x50 ≤ c ∧ c ≤ 0x55 then 4
  else if 0x58 ≤ c ∧ c ≤ 0x5A then 5
  else if 0x48 ≤ c ∧ c ≤ 0x4E then 6
  else if c = 0x70 then 7
  else if c = 0x71 then 8
  else if 0x5C ≤ c ∧ c ≤ 0x5F then 9
  else if c = 0x62 then 11
  else if c = 0x63 then 12
  else if 0x60 ≤ c ∧ c ≤ 0x66 then 10
  else if 0x30 ≤ c ∧ c ≤ 0x32 then 13
  else if 0x38 ≤ c ∧ c ≤ 0x3B then 14
  else if c = 0x40 ∨ c = 0x41 then 15
  else if 0x80 ≤ c ∧ c ≤ 0x9F then 16
  else if c = 0x72 then 17
  else if c = 0x74 ∨ c = 0x75 then 32
  else if c = 0x78 then 33
  else 0

/-- A trap of a cause with the address for w0 and the word for w1; w0 holds the address only for the causes that
Table 10-4 names. -/
def mkTrap (c : BitVec 8) (va : Word) (w : TWord) : Trap :=
  { vec := vecOf c, cause := c,
    w0 := if c = 0x0A ∨ c = 0x0B ∨ (0x30 ≤ c ∧ c ≤ 0x32) ∨ (0x5C ≤ c ∧ c ≤ 0x66) then va else 0,
    w1 := w }

/-- A trap on an operand. -/
def trapW {α : Type} (c : BitVec 8) (w : TWord) (s : State) : Res α := .trap (mkTrap c 0 w) s
/-- A trap at an address. -/
def trapA {α : Type} (c : BitVec 8) (va : Word) (w : TWord) (s : State) : Res α := .trap (mkTrap c va w) s
/-- A trap with no word. -/
def trapN {α : Type} (c : BitVec 8) (s : State) : Res α := .trap (mkTrap c 0 TWord.unset) s

/-! ### Registers -/

/-- The register that a field names: Zekief names under R247, the shadow bank under R243, ring cells under Table 07-2. -/
def regLoc (x : Ctx) (f : R5) : Loc :=
  if x.cstat.mode then .ring (32 * x.cstat.zbank.toNat + f.toNat)
  else if 24 ≤ f.toNat then .glob (f.toNat - 24)
  else if x.cstat.shadow ∧ f.toNat < 16 then .shad f.toNat
  else if f.toNat < 8 then .ring (16 * ((x.wptr.cwp.toNat + 7) % 8) + 8 + f.toNat)
  else .ring (16 * x.wptr.cwp.toNat + (f.toNat - 8))

def Ctx.readLoc (x : Ctx) : Loc → TWord
  | .ring n => Tab.get TWord.unset x.ring n
  | .glob n => Tab.get TWord.unset x.g n
  | .shad n => Tab.get TWord.unset x.shadow n
  | .fp _ => TWord.unset

def Ctx.writeLoc (x : Ctx) (v : TWord) : Loc → Ctx
  | .ring n => { x with ring := Tab.set TWord.unset x.ring n v }
  | .glob n => { x with g := Tab.set TWord.unset x.g n v }
  | .shad n => { x with shadow := Tab.set TWord.unset x.shadow n v }
  | .fp _ => x

/-- The value of a named register. -/
def Ctx.reg (x : Ctx) (f : R5) : TWord := x.readLoc (regLoc x f)

/-- Writes a named register; a load still pending to it is discarded (R281). -/
def Ctx.setReg (x : Ctx) (f : R5) (v : TWord) : Ctx :=
  { x.writeLoc v (regLoc x f) with loads := x.loads.filter fun p => p.loc ≠ regLoc x f }

/-- Predicate n; p0 reads 1 (Table 07-1). -/
def Ctx.pred (x : Ctx) (n : P3) : Bool := decide (n = 0) || x.p.getLsbD n.toNat

/-- Writes a predicate; a write to p0 has no effect. -/
def Ctx.setPred (x : Ctx) (n : P3) (v : Bool) : Ctx :=
  if n = 0 then x
  else { x with p := if v then x.p ||| ((1 : BitVec 8) <<< n.toNat) else x.p &&& ~~~((1 : BitVec 8) <<< n.toNat) }

def Ctx.bank (x : Ctx) (n : BitVec 2) : TWord := Tab.get TWord.unset x.b n.toNat

/-- Writes the value of a performed load into its register; an f register takes the payload (R280). -/
def writeLoad (c : CtxId) (p : PLoad) (s : State) : State :=
  match p.loc with
  | .fp n =>
    s.modCore (coreOf c) fun k =>
      if (k.fpOwner.map Prod.fst) = some (c.extractLsb' 0 2)
      then { k with fp := Tab.set 0 k.fp n p.val.val, fpDirty := true } else k
  | l => s.modCtx c fun x => x.writeLoc p.val l

/-- Writes every load of a list, oldest first. -/
def writeLoads (c : CtxId) : List PLoad → State → State
  | [], s => s
  | p :: r, s => writeLoads c r (writeLoad c p s)

/-- A value that a reply brings takes its register; an earlier load still pending to it is discarded (R281). -/
def replyLoad (c : CtxId) (l : Loc) (v : TWord) (s : State) : State :=
  writeLoad c ⟨l, v, false, false⟩ (s.modCtx c fun x => { x with loads := x.loads.filter fun p => p.loc ≠ l })

/-- Every outstanding load of the context writes its register (wait_loads of R331). -/
def waitLoads (c : CtxId) (s : State) : State :=
  (writeLoads c (s.ctx c).loads s).modCtx c fun x => { x with loads := [] }

/-- The loads that are not in front of their slot write their registers, but for those that missed the lantern L2 (R251,
R280). -/
def retireLoads (c : CtxId) (s : State) : State :=
  (writeLoads c ((s.ctx c).loads.filter fun p => !p.slot && !p.late) s).modCtx c fun x =>
    { x with loads := x.loads.filter fun p => p.slot || p.late }

/-! ### Scheduling of resident contexts -/

/-- The level of a context's task; a context without one ranks last. -/
def ctxLevel (s : State) (c : CtxId) : Nat := match (s.ctx c).task with | some i => (s.task i).prio.toNat | none => 3
def ctxDeadline (s : State) (c : CtxId) : Nat := match (s.ctx c).task with | some i => (s.task i).deadline.toNat | none => 0

/-- Level, then deadline, then context number (R251). -/
def ranksBefore (s : State) (a b : CtxId) : Bool :=
  ctxLevel s a < ctxLevel s b ||
    (ctxLevel s a == ctxLevel s b && (ctxDeadline s a < ctxDeadline s b || (ctxDeadline s a == ctxDeadline s b && a < b)))

/-- The first of a list of contexts in the order of R251. -/
def bestCtx (s : State) : List CtxId → Option CtxId
  | [] => none
  | c :: r => match bestCtx s r with
    | none => some c
    | some d => if ranksBefore s d c then some d else some c

def ctxsOf (k : CoreId) : List CtxId := [ctxOf k 0, ctxOf k 1, ctxOf k 2, ctxOf k 3]

/-- The runnable contexts of a core. -/
def runnables (s : State) (k : CoreId) : List CtxId := (ctxsOf k).filter fun c => (s.ctx c).st = .runnable

/-- The context becomes the running one. -/
def runCtx (c : CtxId) (s : State) : State :=
  (s.modCtx c fun x => { x with st := .running, stall := .none }).modCore (coreOf c) fun k =>
    { k with running := some (c.extractLsb' 0 2) }

/-- The core chooses the context it runs: the best runnable one when none runs, or one of a numerically lower level than
the running one (R251). A core whose sequencer is not in service mode runs none (R364). -/
def resched (k : CoreId) (s : State) : State :=
  if (s.core k).uc.mode ≠ .service then s else
  match bestCtx s (runnables s k) with
  | none => s
  | some c =>
    match (s.core k).running with
    | none => runCtx c s
    | some r =>
      if ctxLevel s c < ctxLevel s (ctxOf k r)
      then runCtx c (s.modCtx (ctxOf k r) fun x => { x with st := .runnable })
      else s

/-- The running context leaves with a new state, and the core chooses again (Table 07-6). -/
def leave (c : CtxId) (st : CtxSt) (on : StallOn) (s : State) : State :=
  resched (coreOf c) ((s.modCtx c fun x => { x with st := st, stall := on }).modCore (coreOf c) fun k =>
    if k.running = some (c.extractLsb' 0 2) then { k with running := none } else k)

/-- A change of context that puts the leaving one after every other of its level (R251: YIELD, 4,096 cycles). -/
def rotate (c : CtxId) (s : State) : State :=
  match bestCtx s ((runnables s (coreOf c)).filter fun d => ctxLevel s d ≤ ctxLevel s c) with
  | none => s
  | some d => runCtx d (s.modCtx c fun x => { x with st := .runnable })

/-- A context's store waits for no log (STALL, Table 03-13). -/
def dropStall (c : CtxId) (s : State) : State :=
  { s with cn := { s.cn with slots := s.cn.slots.map fun (e : Nat × CnSlot) => (e.1, { e.2 with stall := e.2.stall.filter (· ≠ c) }) } }

/-- A STALLED or WAITING context becomes runnable (Table 07-6); a store of it that waited for a log waits no longer. -/
def wakeCtx (c : CtxId) (s : State) : State :=
  resched (coreOf c) ((dropStall c s).modCtx c fun x => { x with st := .runnable, stall := .none })

/-- The core drops FP ownership without writing the file (R258). -/
def dropFp (c : CtxId) (s : State) : State :=
  s.modCore (coreOf c) fun k =>
    if (k.fpOwner.map Prod.fst) = some (c.extractLsb' 0 2) then { k with fpOwner := none, fpDirty := false } else k

/-- The context becomes EMPTY (Table 07-6): FP ownership dropped, outstanding loads discarded, its requests to other
nodes and its DECIDEs answer nobody, its store waits for no log (Table 03-13), and the core chooses again. A DEBUG request
that has not been taken stays (R338). -/
def emptyCtx (c : CtxId) (s : State) : State :=
  let s := dropFp c (dropStall c s)
  let s := s.modCore (coreOf c) fun k =>
    if k.running = some (c.extractLsb' 0 2) then { k with running := none } else k
  let gone (r : Requester) : Requester := if r.ctx = some c then { r with ctx := none } else r
  let s := { s with
    bl := { s.bl with
      reqs := s.bl.reqs.map fun (r : RemReq) => if r.ctx = some c then { r with ctx := none } else r,
      txns := s.bl.txns.map fun (t : HomeTxn) => { t with req := gone t.req },
      homeWait := s.bl.homeWait.map fun (q : HomeReq) => { q with req := gone q.req } },
    ll := { s.ll with
      decides := s.ll.decides.map fun (q : DecideReq) => if q.ctx = c then { q with live := false } else q,
      answers := s.ll.answers.map fun (a : DecideAns) => if a.ctx = c then { a with live := false } else a } }
  resched (coreOf c) (s.modCtx c fun x =>
    { x with st := .empty, stall := .none, task := none, loads := [], msh := none, raised := none, mcheck := [],
             rs := [], cstat := { x.cstat with shadow := false, fpa := false }, answer := [], poisonLine := none,
             micro := { x.micro with at_ := none }, alloc := none })

/-- What leaves the module is added to the model's list (log entry 6). -/
def emit (o : Out) (s : State) : State := { s with out := o :: s.out }

/-- The bytes of a word, least significant first. -/
def wordBytes (v : Word) : List Byte := (List.range 4).map fun i => v.extractLsb' (8 * i) 8

end Sys2Proof.Machine
end

