-- ==== Sys2Proof/Machine/Memory.lean ====
section
/-! DEFINITION. Physical addresses and the bytes of HBM: regions of LOCAL (Tables 02-3, 12-1), the tag sidecar (R56, R57),
home agents (R413), tag caches (R425) and the handling of unpopulated accesses (R2, R58). -/

namespace Sys2Proof.Machine

/-- What a byte of HBM that nothing has written reads as: the wipe leaves every byte 0 (R61). -/
def Memory.unlisted : Byte := 0

/-- Reads one byte of HBM by its LOCAL address. -/
def Memory.read (m : List Host.Cell) (a : Nat) : Byte := Tab.get Memory.unlisted m a

/-- Writes one byte of HBM; the canonical form is kept. -/
def Memory.write (m : List Host.Cell) (a : Nat) (b : Byte) : List Host.Cell := Tab.set Memory.unlisted m a b

/-- The canonical form: addresses strictly rising, no entry equal to what an unlisted address reads as. -/
def Memory.wf (m : List Host.Cell) : Bool := Tab.wf Memory.unlisted m

def nodeOf (pa : PA) : BitVec 16 := pa.extractLsb' 37 16
def localOf (pa : PA) : Nat := (pa.extractLsb' 0 37).toNat
/-- A physical address of this node. -/
def mkPa (node : BitVec 16) (loc : Nat) : PA := node ++ BitVec.ofNat 37 loc

/-- SIDECAR_BASE of the build (Table 02-3). -/
def sidecarBase : Build → Nat
  | .h64 => 0x0CCCCCCC00
  | .h32 => 0x0666666600

/-- The LOCAL address belongs to the tagged data region (Table 02-3). -/
def inData (s : State) (loc : Nat) : Bool := loc < sidecarBase s.build

/-- The device region of LOCAL (R382). -/
def inDevice (loc : Nat) : Bool := 0x1000000000 ≤ loc

/-- The sidecar address of the tag of the word at a LOCAL address (R57). -/
def tagAt (s : State) (loc : Nat) : Nat :=
  sidecarBase s.build + (loc / 64 / 4) * 64 + (loc / 64 % 4) * 16 + loc / 4 % 16

/-- The home agent and controller of an address (R413). -/
def homeAgent (pa : Nat) : Nat := ((pa >>> 8) ^^^ (pa >>> 10) ^^^ (pa >>> 12) ^^^ (pa >>> 14)) &&& 3

/-- A word of HBM with its tag. -/
def hbmWord (s : State) (loc : Nat) : MWord :=
  let b (i : Nat) : Byte := Memory.read s.hbm (loc + i)
  MWord.ofTag (Memory.read s.hbm (tagAt s loc)) (b 3 ++ b 2 ++ b 1 ++ b 0)

/-- Writes a word of HBM with its tag. -/
def setHbmWord (loc : Nat) (w : MWord) (s : State) : State :=
  let m := Memory.write s.hbm loc (w.val.extractLsb' 0 8)
  let m := Memory.write m (loc + 1) (w.val.extractLsb' 8 8)
  let m := Memory.write m (loc + 2) (w.val.extractLsb' 16 8)
  let m := Memory.write m (loc + 3) (w.val.extractLsb' 24 8)
  { s with hbm := Memory.write m (tagAt s loc) w.tag }

/-- The 16 words of a line of HBM. -/
def hbmLine (s : State) (loc : Nat) : Line := (List.range 16).map fun i => hbmWord s (loc + 4 * i)

/-- Writes words of a line of HBM in order from an address. -/
def setHbmWords (loc : Nat) : Line → State → State
  | [], s => s
  | w :: r, s => setHbmWords (loc + 4) r (setHbmWord loc w s)

/-- A line of HBM written as one unit with its tags and valid check bytes (R56, R424). -/
def setHbmLine (loc : Nat) (l : Line) (s : State) : State :=
  (setHbmWords loc l s).modMc (homeAgent loc) fun m =>
    { m with rawChecks := Tab.set none m.rawChecks (loc / 64) none, cells := Tab.set CellErr.clean m.cells (loc / 64) .clean }

/-- A data access finds its tag line in the tag cache or brings it there (R425): 8 ways, 512 sets. -/
def touchTag (c loc : Nat) (s : State) : State :=
  let t := loc / 256
  let m := s.mc c
  if m.tagc.contains t then
    bump (Cnt.mcTagcHit c) (s.setMc c { m with tagc := t :: m.tagc.filter (· ≠ t) })
  else
    let peers := if m.tagc.length < 8 then [] else m.tagc.filter fun u => Config.tagSet u = Config.tagSet t
    let keep := if peers.length < 8 then m.tagc else m.tagc.filter fun u => some u ≠ peers.getLast?
    bump (Cnt.mcTagcMiss c) (s.setMc c { m with tagc := t :: keep })

/-- The home writes a line of this node's HBM. -/
def homeWrite (loc : Nat) (l : Line) (s : State) : State := setHbmLine loc l (touchTag (homeAgent loc) loc s)

/-- The latch of a core for the high half of MC_LASTE (R426). -/
def coreLatch (k : CoreId) : Nat := 64 + k.toNat

/-- MC_LASTE's low half is read, and its high half latched for the reader (R426). -/
def latchLaste (c r : Nat) (s : State) : State :=
  s.modMc c fun m => { m with lasteLatch := Tab.set 0 m.lasteLatch r ((m.laste >>> 32).setWidth 32) }

/-! ### The code of a controller (R424)

The spec gives what the code corrects and detects, and not the code. This one is the model's (log entry 95): the 80 bytes of a
line and its tag group are weighted by the powers 0 to 3 of their positions 1 to 80 and added modulo 257; the four sums take
two check bytes each. Two lines that differ in n bytes of at most three differ in at least 4 − n check bytes. What each check
byte shows of its part is left open. -/

/-- The 80 bytes of a line: those of its words, then its tags. -/
def eccBytes (l : Line) : List Byte :=
  ((List.range 16).flatMap fun i => wordBytes (lineWord l i).val) ++ (List.range 16).map fun i => (lineWord l i).tag

/-- A weighted sum of bytes, from a position on. -/
def eccSum (j : Nat) : Nat → List Byte → Nat
  | _, [] => 0
  | i, b :: r => (i ^ j * b.toNat + eccSum j (i + 1) r) % 257

/-- Check byte k, with the bytes of it that are left open. -/
def eccByte (l : Line) (k : Nat) : Byte :=
  let sum := eccSum (k / 2) 1 (eccBytes l)
  let part : Byte := BitVec.ofNat 8 (if k % 2 = 0 then sum % 256 else sum / 256)
  (2 * Config.eccKey k + 1) * part + Config.eccKey (8 + k)

/-- The check bytes of a line with its tag group. -/
def eccCheck (l : Line) : BitVec 64 :=
  eccByte l 7 ++ eccByte l 6 ++ eccByte l 5 ++ eccByte l 4 ++ eccByte l 3 ++ eccByte l 2 ++ eccByte l 1 ++ eccByte l 0

/-- What reading a code word gives: its data, data with one symbol corrected, or an error that is not corrected. -/
inductive EccOut where
  | clean
  | fixed (l : Line)
  | bad

/-- The two differ in one 8-bit symbol at most. -/
def oneSymbol (a b : BitVec 64) : Bool :=
  ((List.range 8).filter fun i => a.extractLsb' (8 * i) 8 ≠ b.extractLsb' (8 * i) 8).length ≤ 1

/-- The lines that differ from one in one byte of data or of tags. -/
def symbolVariants (l : Line) : List Line :=
  (List.range 16).flatMap fun i => (List.range 256).flatMap fun v =>
    let w := lineWord l i
    let b : Byte := BitVec.ofNat 8 v
    let put (x : MWord) : Line := (List.range 16).map fun j => if j = i then x else lineWord l j
    put (MWord.ofTag b w.val) :: (List.range 4).map fun k =>
      put { w with val := (w.val &&& ~~~((0xFF : Word) <<< (8 * k))) ||| (b.setWidth 32 <<< (8 * k)) }

/-- The code corrects an error confined to one symbol, of the check bytes or of the line, and detects any error in two
symbols (R424). -/
def eccDecode (l : Line) (chk : BitVec 64) : EccOut :=
  let k := eccCheck l
  if k = chk then .clean
  else if oneSymbol k chk then .fixed l
  else match (symbolVariants l).find? fun v => eccCheck v = chk with
    | some v => .fixed v
    | none => .bad

/-- An access to HBM that does not reach tagged data is counted and leaves a record (R2, R58, Table 18-3). -/
def unpopulated (pa : PA) (s : State) : State :=
  let c := homeAgent pa.toNat
  record 1 (0x80 + BitVec.ofNat 8 c) 0x61 (pa.setWidth 64) 0 0 0 0 (bump (Cnt.mcUnpop c) s)

end Sys2Proof.Machine
end

