-- ==== Sys2Proof/Machine/Pool.lean ====
section
/-! DEFINITION. The span pool (03 R93–R98) and the ownership of spans (R107). -/

namespace Sys2Proof.Machine

def CnSt.bank (cn : CnSt) (n : Nat) : CnBank := Tab.get CnBank.reset cn.pool.lv.banks n
def CnSt.span (cn : CnSt) (i : Nat) : SpanEnt := Tab.get SpanEnt.free cn.spans i

/-- The bank of a list that holds a LOCAL span index. -/
def findBank (cn : CnSt) (sp : Nat) : List Nat → Option Nat
  | [] => none
  | n :: r =>
    let b := cn.bank n
    if b.en ∧ b.base.toNat ≤ sp ∧ sp < b.base.toNat + b.size then some (n * 2048 + (sp - b.base.toNat))
    else findBank cn sp r

/-- The span table index of a physical address that lies in the pool (R93, R96). -/
def poolIndex (s : State) (pa : PA) : Option Nat :=
  if nodeOf pa = s.node ∧ localOf pa < sidecarBase s.build
  then findBank s.cn (localOf pa / 0x100000) (List.range 24) else none

/-- LOCAL base of a span of the pool. -/
def spanLocal (s : State) (idx : Nat) : Nat := ((s.cn.bank (idx / 2048)).base.toNat + idx % 2048) * 0x100000
/-- Virtual base of a span in its bank's candle window (R94). -/
def spanVirt (idx : Nat) : Word := 0x80000000 + BitVec.ofNat 32 ((idx % 2048) * 0x100000)

def setSpan (i : Nat) (e : SpanEnt) (s : State) : State :=
  { s with cn := { s.cn with spans := Tab.set SpanEnt.free s.cn.spans i e } }

/-- FREE spans of a bank. -/
def bankFree (cn : CnSt) (n : Nat) : Nat :=
  let b := cn.bank n
  if b.en then b.size - (cn.spans.filter fun e => e.1 / 2048 = n ∧ e.1 % 2048 < b.size ∧ e.2.st ≠ .free).length else 0

/-- FREE spans of every enabled bank (CN_FREE_SPANS). -/
def freeSpans (cn : CnSt) : Nat := ((List.range 24).map (bankFree cn)).sum

/-- The enabled bank with the most FREE spans, the lower-numbered on a tie (R100). -/
def bestBank (cn : CnSt) : Nat → Nat
  | 0 => 0
  | n + 1 => let m := bestBank cn n; if bankFree cn m < bankFree cn (n + 1) then n + 1 else m

/-- The event that a context's task is bound to. -/
def handleOf (s : State) (c : CtxId) : Option (BitVec 19) :=
  match (s.ctx c).task with | some i => (s.task i).handle | none => none

/-- The span belongs to the candle of a handle. -/
def ownedBy (e : SpanEnt) (h : BitVec 19) : Bool := decide (e.st = .candle ∧ e.slot.toNat = hSlot h ∧ e.gen = hGen h)

/-- A STALE or STALE_VALUE fault is counted, and a FOREIGN fault (Table 03-14). -/
def ownFault {α : Type} (c : BitVec 8) (va : Word) (w : TWord) (s : State) : Res α :=
  trapA c va w (bump (if c = Cause.foreign then Cnt.cnForeign else Cnt.cnStale) s)

/-- The ownership check of a core access at issue (Table 03-5). -/
def checkOwner (c : CtxId) (va : Word) (pa : PA) (s : State) : Res Unit :=
  match poolIndex s pa with
  | none => .ok () s
  | some i =>
    let e := s.cn.span i
    match e.st with
    | .cooling | .retired | .free => ownFault Cause.stale va TWord.unset s
    | .persistent => .ok () s
    | .candle =>
      match handleOf s c with
      | none => .ok () s
      | some h => if ownedBy e h then .ok () s else ownFault Cause.foreign va TWord.unset s

end Sys2Proof.Machine
end

