-- ==== Sys2Proof/Machine/Coherence.lean ====
section
/-! DEFINITION. Lantern L2s, home agents and directories (13 R410–R422; 14 R446–R448): how a lantern obtains a line, how a
home agent serves a request, and what each copy's holder does. -/

namespace Sys2Proof.Machine

/-! ### Lines -/

/-- The line number of a physical address. -/
def lineNo (pa : PA) : Nat := pa.toNat / 64
/-- The physical address of a line. -/
def linePa (ln : Nat) : PA := BitVec.ofNat 53 (ln * 64)
def lineNode (ln : Nat) : BitVec 16 := nodeOf (linePa ln)
def lineLocal (ln : Nat) : Nat := localOf (linePa ln)
/-- The controller and home agent of a line (R413). -/
def lineAgent (ln : Nat) : Nat := homeAgent (ln * 64)

def State.l2 (s : State) (l : Lan) (ln : Nat) : L2Line := Tab.get L2Line.none (s.lan l).l2 ln
def setL2 (l : Lan) (ln : Nat) (x : L2Line) (s : State) : State :=
  s.modLan l fun a => { a with l2 := Tab.set L2Line.none a.l2 ln x }
def State.dirEnt (s : State) (ln : Nat) : DirEnt := Tab.get DirEnt.none (s.mc (lineAgent ln)).dir ln
/-- Writes a directory entry; an entry with no holder is free (R417). -/
def setDir (ln : Nat) (e : DirEnt) (s : State) : State :=
  s.modMc (lineAgent ln) fun m =>
    let e := if e.owner = none ∧ e.sharers = [] ∧ e.coarse = none then DirEnt.none else { e with used := m.dirClock + 1 }
    { m with dir := Tab.set DirEnt.none m.dir ln e, dirClock := m.dirClock + 1 }

/-- The cores of a lantern. -/
def coresOf (l : Lan) : List CoreId := (List.range 8).map fun i => l ++ BitVec.ofNat 3 i

/-! ### L1 D and L1 I -/

/-- The line in a first-level cache, if it is there: direct-mapped, by the low 9 bits of its number (R405). -/
def l1Find (t : Tab (Option L1Line)) (ln : Nat) : Option L1Line :=
  match Tab.get none t (ln % 512) with
  | some x => if x.line = ln then some x else none
  | none => none
/-- A line takes its place; the line it displaces leaves. -/
def l1Put (t : Tab (Option L1Line)) (x : L1Line) : Tab (Option L1Line) := Tab.set none t (x.line % 512) (some x)
/-- A line leaves a first-level cache. -/
def l1Drop (t : Tab (Option L1Line)) (ln : Nat) : Tab (Option L1Line) :=
  if (l1Find t ln).isSome then Tab.set none t (ln % 512) none else t

/-- The line leaves every L1 D of the lantern (R410). -/
def dropL1d (l : Lan) (ln : Nat) (s : State) : State :=
  (coresOf l).foldl (fun s k =>
    if (l1Find (s.core k).l1d ln).isSome then s.modCore k fun c => { c with l1d := l1Drop c.l1d ln } else s) s

/-- The line leaves every L1 I of the lantern. -/
def dropL1i (l : Lan) (ln : Nat) (s : State) : State :=
  (coresOf l).foldl (fun s k =>
    if (l1Find (s.core k).l1i ln).isSome then s.modCore k fun c => { c with l1i := l1Drop c.l1i ln } else s) s

/-- The words of a core's merging buffer over a line (R406). -/
def overlay (ms : List MergeEnt) (ln : Nat) (l : Line) : Line :=
  match ms.find? fun m => m.line = ln with
  | none => l
  | some m => (List.range 16).map fun i =>
      match m.words.find? fun e => e.1 = i with
      | some e => ⟨e.2.ty, false, (lineWord l i).mark, e.2.val⟩
      | none => lineWord l i

/-- The line is the one that the lantern has used last in its set (R410). -/
def touchL2 (l : Lan) (ln : Nat) (s : State) : State :=
  s.modLan l fun a => { a with recent := Tab.set none a.recent (ln % 2048) (some ln) }

/-- Words written into a line of an L2, by index, reach the L1 Ds of the lantern that hold it, under their cores' pending
words (R406, R410). -/
def writeL2 (l : Lan) (ln : Nat) (st : Moesi) (ws : Tab (Option MWord)) (s : State) : State :=
  let x := (s.l2 l ln).write st ws
  (coresOf l).foldl (fun s k =>
    match l1Find (s.core k).l1d ln with
    | some y => s.modCore k fun c =>
        { c with l1d := l1Put c.l1d { y.write ws with words := overlay c.merge ln x.words } }
    | none => s) (touchL2 l ln (setL2 l ln x s))

/-- A first-level cache of a core takes a line that its L2 holds (R406, R408). -/
def fillL1 (k : CoreId) (code : Bool) (ln : Nat) (s : State) : State :=
  let x := s.l2 (lanOfCore k) ln
  if x.st = .I then s
  else s.modCore k fun c =>
    if code then { c with l1i := l1Put c.l1i { line := ln, words := x.words } }
    else { c with l1d := l1Put c.l1d { line := ln, words := overlay c.merge ln x.words } }

/-- A packet of this node enters routing with a TTL (R444). -/
def post (dest : BitVec 16) (txid : BitVec 16) (op : BitVec 8) (head body : List MWord) (s : State) : State :=
  { s with bl := { s.bl with pkts := s.bl.pkts ++ [⟨dest, s.node, txid, op, s.bl.ttl, false, true, head, body, none, 0⟩] } }

def rawM (w : Word) : MWord := ⟨Ty.raw, false, false, w⟩
/-- A physical address as two payload words (R438). -/
def paWords (pa : PA) : List MWord := [rawM (pa.extractLsb' 0 32), rawM ((pa.extractLsb' 32 21).setWidth 32)]
def lanWord (l : Lan) : MWord := rawM (l.setWidth 32)
/-- State granted as a payload word of DATA: the code is the position of the state in M, O, E, S, I (log entry 8). -/
def stateWord : Moesi → MWord
  | .M => rawM 0 | .O => rawM 1 | .E => rawM 2 | .S => rawM 3 | .I => rawM 4
/-- The state that such a word names. -/
def stateOfWord (w : MWord) : Moesi :=
  if w = stateWord .M then .M else if w = stateWord .O then .O else if w = stateWord .E then .E
  else if w = stateWord .S then .S else .I

/-! ### Directory -/

/-- Adds a sharer; a fifth turns the entry coarse (R417, R418). -/
def addSharer (h : Holder) (e : DirEnt) : DirEnt × Bool :=
  let group (n : BitVec 16) : BitVec 64 := (1 : BitVec 64) <<< (n.extractLsb' 10 6).toNat
  match e.coarse with
  | some v => ({ e with coarse := some (v ||| group h.node) }, false)
  | none =>
    let l := if e.sharers.contains h then e.sharers else e.sharers ++ [h]
    if l.length ≤ 4 then ({ e with sharers := l }, false)
    else ({ e with sharers := [], coarse := some (l.foldl (fun v x => v ||| group x.node) 0) }, true)

/-- Nodes of a group whose live routing entry is VALID (R446). -/
def groupNodes (s : State) (g : Nat) : List (BitVec 16) :=
  (s.bl.rt.filter fun e => e.1 / 1024 = g ∧ e.2.getLsbD 10).map fun e => BitVec.ofNat 16 e.1

def markedGroups (v : BitVec 64) : List Nat := (List.range 64).filter fun g => v.getLsbD g

/-- Lanterns of this node that an invalidation of an entry reaches, and lanterns or whole nodes of other nodes. -/
def localHolders (s : State) (e : DirEnt) : List Lan :=
  let all := e.sharers ++ e.owner.toList
  let near := (all.filter fun h => h.node = s.node).map Holder.lan
  match e.coarse with
  | some v => if v.getLsbD (s.node.extractLsb' 10 6).toNat then (List.range 32).map (BitVec.ofNat 5) else near
  | none => near

/-- The other nodes that an invalidation reaches, for a request of a holder: each once. -/
def remoteHolders (s : State) (e : DirEnt) (req : Option Holder) : List (BitVec 16) :=
  match e.coarse with
  | some v => (((markedGroups v).flatMap (groupNodes s)).filter (· ≠ s.node)).dedup
  | none => ((e.sharers.filter fun h => h.node ≠ s.node ∧ some h ≠ req).map Holder.node).dedup

/-- The next TXID; 0 and the two highest values are left to packets that need no response. -/
def nextTx (x : BitVec 16) : BitVec 16 := if 0xFFFD ≤ x.toNat then 1 else x + 1

/-- The TXID of a write-back, which no response matches, says which state the holder keeps (log entry 49). -/
def keepTx : Moesi → BitVec 16
  | .E => 0xFFFE
  | .S => 0xFFFF
  | _ => 0
/-- The state that such a TXID names. -/
def keptBy (txid : BitVec 16) : Moesi := if txid = 0xFFFE then .E else if txid = 0xFFFF then .S else .I

/-- A request leaves for another node, under the next TXID; r: what waits for its response (R447). -/
def request (r : BitVec 16 → RemReq) (dest : BitVec 16) (op : BitVec 8) (head body : List MWord) (s : State) : State :=
  let id := s.bl.txNext
  let s := post dest id op head body s
  { s with bl := { s.bl with txNext := nextTx id, reqs := s.bl.reqs ++ [r id] } }

/-- A write leaves for another node: nothing waits for its acknowledgement. -/
def requestWrite (ln : Nat) (dest : BitVec 16) (op : BitVec 8) (head body : List MWord) (s : State) : State :=
  request (fun id => ⟨id, .write, 0, none, ln, none⟩) dest op head body s

/-! ### L2 replacement -/

/-- A sharer joins the entry of a line; a change to coarse is counted (R418). -/
def shareDir (h : Holder) (ln : Nat) (e : DirEnt) (s : State) : State :=
  let (e, turned) := addSharer h e
  setDir ln e (if turned then bump Cnt.ccCoarse s else s)

/-- A home agent of this node takes a write-back (R414): the line is written at home. The owner pointer is emptied, unless
the holder keeps a clean copy, as its owner or as a sharer (Table 13-3). -/
def homeWriteBack (l : Holder) (ln : Nat) (data : Line) (keeps : Moesi) (s : State) : State :=
  let e := s.dirEnt ln
  if e.owner = some l then
    let s := homeWrite (lineLocal ln) data s
    match keeps with
    | .E => setDir ln e s
    | .S => shareDir l ln { e with owner := none } s
    | _ => setDir ln { e with owner := none } s
  else s

/-- A home agent of this node takes an eviction notice: an owner leaves, and a sharer of a precise entry (R417, Table
13-3). -/
def homeNotice (l : Holder) (ln : Nat) (s : State) : State :=
  let e := s.dirEnt ln
  setDir ln { e with
    sharers := if e.coarse = none then e.sharers.filter (· ≠ l) else e.sharers,
    owner := if e.owner = some l then none else e.owner } s

/-- The lantern gives up a line as it stands: write-back of M or O data, or an eviction notice (R410, Table 13-3). An S line
of a coarse entry leaves without notice (R418). The entry of a line of another node is not in this node's state, so whether it
is coarse is a free value (log entry 49). -/
def leaveL2 (l : Lan) (ln : Nat) (s : State) : State :=
  let x := s.l2 l ln
  let s' := setL2 l ln L2Line.none (dropL1d l ln s)
  let h : Holder := ⟨s.node, l⟩
  let notice (s : State) : State := post (lineNode ln) 0 0x05 (paWords (linePa ln) ++ [lanWord l]) [] s
  match x.st with
  | .I => s
  | .M | .O =>
    if lineNode ln = s.node then homeWriteBack h ln x.words .I s'
    else post (lineNode ln) 0 0x04 (paWords (linePa ln)) x.words s'
  | .E => if lineNode ln = s.node then homeNotice h ln s' else notice s'
  | .S =>
    if lineNode ln = s.node then homeNotice h ln s'
    else
      let (coarse, s') := s'.pick 2
      if coarse = 1 then s' else notice s'

/-! ### Errors (R411, R424–R426) -/

/-- The span of an uncorrectable line is reported to the candle manager (R97, R426). -/
def reportSpan (pa : PA) (s : State) : State :=
  match poolIndex s pa with
  | some i => setSpan i { s.cn.span i with retpend := true } s
  | none => s

/-- An uncorrectable code word found at home (R63, R426): every word becomes POISON source 1, with its counter, MC_LASTE,
record and span; src: 1 demand, 2 scrub, 3 tag cache. -/
def homeUncorrectable (ln : Nat) (src : BitVec 3) (s : State) : State :=
  let c := lineAgent ln
  let loc := lineLocal ln
  let s := setHbmLine loc (lineOf (MWord.poison 1)) (bump (Cnt.mcUncorr c) s)
  let s := s.modMc c fun m =>
    { m with laste := (1 : BitVec 1) ++ (0 : BitVec 23) ++ src ++ BitVec.ofNat 37 (loc / 64 * 64) }
  reportSpan (linePa ln) (record 2 (0x80 + BitVec.ofNat 8 c) 0x60 (BitVec.ofNat 64 loc) (src.setWidth 64) 0 0 0 s)

/-- What a read of a line of HBM meets (R424–R426): a correctable error is corrected and written back, counted in corr; an
uncorrectable one acts under R426, counted in uncorr too. -/
def meetHome (src : BitVec 3) (corr : Option Nat) (uncorr : Option Nat) (loc : Nat) (s : State) : State :=
  let c := homeAgent loc
  let m := s.mc c
  let ln := lineNo (mkPa s.node loc)
  let count (k : Option Nat) (s : State) : State := match k with | some k => bump k s | none => s
  let bad (src : BitVec 3) (s : State) : State := homeUncorrectable ln src (count uncorr s)
  match (Tab.get none m.rawChecks (loc / 64)).map (eccDecode (hbmLine s loc)) with
  | some (.fixed l) => count corr (setHbmLine loc l s)
  | some .bad => bad src s
  | _ =>
    match Tab.get CellErr.clean m.cells (loc / 64) with
    | .clean => s
    | .corr => count corr (setHbmLine loc (hbmLine s loc) s)
    | .uncorr => bad src s
    | .key => bad 3 s

/-- The home reads a line of this node's HBM. -/
def homeRead (loc : Nat) (s : State) : Line × State :=
  let s := meetHome 1 (some (Cnt.mcCorr (homeAgent loc))) none loc (touchTag (homeAgent loc) loc s)
  (hbmLine s loc, s)

/-- All 16 words, by index. -/
def allWords (w : MWord) : Tab (Option MWord) := (List.range 16).map fun i => (i, some w)

/-- Words of a line whose code finds an error of a kind. -/
def countErrs (t : Tab CellErr) (e : CellErr) : Nat := (t.filter fun x => x.2 = e).length

/-- What a read of a line of an L2 meets (R411): an error in its key first, then those of its words; each one corrected is
counted. -/
def meetL2 (l : Lan) (ln : Nat) (s : State) : State :=
  let x := s.l2 l ln
  let corrected : Nat := countErrs x.errs .corr + (if x.key = .corr then 1 else 0)
  let note (s : State) : State := record 2 (0xC0 + (l.setWidth 8)) 0x62 (BitVec.ofNat 64 (ln * 64))
    ((stateWord x.st).val.setWidth 64) 0 0 0 (bump Cnt.ccL2Uncorr s)
  if x.st = .I ∨ (x.errs = [] ∧ x.key = .clean) then s
  else if x.key = .uncorr then
    match x.st with
    | .M | .O => setL2 l ln L2Line.none (dropL1d l ln (note s))
    | _ => leaveL2 l ln (note s)
  else if countErrs x.errs .uncorr ≠ 0 then
    match x.st with
    | .M | .O => writeL2 l ln x.st (allWords (MWord.poison 2)) (setL2 l ln { x with key := .clean } (note s))
    | _ => leaveL2 l ln (note s)
  else setL2 l ln { x with errs := [], key := .clean } (bumpBy Cnt.ccL2Corr corrected s)

/-- The lantern gives up a line (R410, Table 13-3). -/
def evict (l : Lan) (ln : Nat) (s : State) : State := leaveL2 l ln (meetL2 l ln s)

/-- An error strikes word i of a line, or its key, where it lies: in an L1 D, in the L2, in the stack or in the tag cache of
its home (R407, R411, R425, R426). An error in a place that does not hold the line has no effect. -/
def strikeLine (l : Lan) (k : Option CoreId) (ln i : Nat) (e : CacheErr) (s : State) : State :=
  let atL1 (f : L1Line → L1Line) : State :=
    match k with
    | some k =>
      match l1Find (s.core k).l1d ln with
      | some x => s.modCore k fun y => { y with l1d := l1Put y.l1d (f x) }
      | none => s
    | none => s
  let atL2 (f : L2Line → L2Line) : State := if (s.l2 l ln).st = .I then s else setL2 l ln (f (s.l2 l ln)) s
  let atHome (c : CellErr) : State :=
    if lineNode ln = s.node ∧ inData s (lineLocal ln) then
      s.modMc (lineAgent ln) fun m => { m with cells := Tab.set CellErr.clean m.cells (lineLocal ln / 64) c }
    else s
  match e with
  | .none => s
  | .l1Corr => atL1 fun x => { x with errs := Tab.set CellErr.clean x.errs i .corr }
  | .l1Key => atL1 fun x => { x with keyErr := true }
  | .l1Uncorr => atL1 fun x => { x with errs := Tab.set CellErr.clean x.errs i .uncorr }
  | .l2Corr => atL2 fun x => { x with errs := Tab.set CellErr.clean x.errs i .corr }
  | .l2Uncorr => atL2 fun x => { x with errs := Tab.set CellErr.clean x.errs i .uncorr }
  | .l2Key => atL2 fun x => { x with key := .uncorr }
  | .homeCorr => atHome .corr
  | .homeUncorr => atHome .uncorr
  | .tagUncorr =>
    if (s.mc (lineAgent ln)).tagc.contains (lineLocal ln / 256) then atHome .key else s

/-- The error that a read of a whole line meets: which word of it lies in is a free choice (log entry 1). -/
def strikeSome (l : Lan) (ln : Nat) (e : CacheErr) (s : State) : State :=
  match e with
  | .none => s
  | e => let (i, s) := s.pick 16; strikeLine l none ln i e s

/-- The error that serving a request meets: in the owner's L2 (R411), or in HBM or the tag cache when no lantern owns the
line (R425, R426). -/
def serveError (ln : Nat) (err : CacheErr) (s : State) : State :=
  match (s.dirEnt ln).owner, err with
  | some o, .l2Corr | some o, .l2Uncorr | some o, .l2Key => if o.node = s.node then strikeSome o.lan ln err s else s
  | none, .homeCorr | none, .homeUncorr | none, .tagUncorr => strikeSome 0 ln err s
  | _, _ => s

/-- The prefetches that wait for a line take it (R408). -/
def runFills (l : Lan) (ln : Nat) (s : State) : State :=
  let mine := (s.lan l).fills.filter fun f => f.1 = ln
  if mine = [] then s
  else mine.foldl (fun s f => fillL1 f.2.1 f.2.2 ln s)
    (s.modLan l fun a => { a with fills := a.fills.filter fun f => f.1 ≠ ln })

/-- Installs a line in an L2; a full set of 16 gives up its pseudo-LRU victim (R410): a line other than the one used last, by
a choice that the spec leaves open (log entry 1). -/
def install (l : Lan) (ln : Nat) (st : Moesi) (words : Line) (s : State) : State :=
  let set := (s.lan l).l2.filter fun e => e.1 % 2048 = ln % 2048 ∧ e.1 ≠ ln
  let old := set.filter fun e => Tab.get none (s.lan l).recent (ln % 2048) ≠ some e.1
  let s :=
    if set.length < 16 then s
    else
      match old[Config.l2Victim s.freeCtr % old.length]? with
      | some v => evict l v.1 { s with freeCtr := s.freeCtr + 1 }
      | none => s
  runFills l ln (touchL2 l ln (setL2 l ln { st := st, words := words } s))

/-! ### Serving a request at home -/

/-- A poisoned line (R63). -/
def poisonLineOf (src : BitVec 4) : Line := lineOf (MWord.poison src)

/-- A lantern of this node supplies its data for a forward (Table 13-3): M and O stay or become O, E becomes S; an own
forward takes the copy. -/
def supply (l : Lan) (ln : Nat) (own : Bool) (s : State) : Option Line × State :=
  let x := s.l2 l ln
  match x.st with
  | .I | .S => (none, if own then setL2 l ln L2Line.none (dropL1d l ln s) else s)
  | .M | .O => (some x.words, if own then setL2 l ln L2Line.none (dropL1d l ln s) else setL2 l ln { x with st := .O } s)
  | .E => (some x.words, if own then setL2 l ln L2Line.none (dropL1d l ln s) else setL2 l ln { x with st := .S } s)

/-- An invalidation reaches a lantern of this node (R418). -/
def invalidate (l : Lan) (ln : Nat) (s : State) : State := setL2 l ln L2Line.none (dropL1d l ln s)

/-- Written words take the MARK that the line holds, since only Taper and the wipe write MARK (02 R48, R50), and its IMM where
they keep it (02 R74). -/
def keepMarks (keep : Bool) (ws : Tab (Option MWord)) (l : Line) : Tab (Option MWord) :=
  ws.map fun (e : Nat × Option MWord) => (e.1, e.2.map fun w =>
    { w with imm := if keep then (lineWord l e.1).imm else w.imm, mark := (lineWord l e.1).mark })

/-- Contexts of a lantern that wait for line data issue again (Table 07-6). -/
def wakeRemote (l : Lan) (s : State) : State :=
  ((coresOf l).flatMap ctxsOf).foldl (fun s c =>
    if (s.ctx c).st = .stalled ∧ (s.ctx c).stall = .remote then wakeCtx c s else s) s

/-- The requester receives the line: a lantern of this node installs it, another node is sent DATA (R446). -/
def grant (r : Requester) (ln : Nat) (st : Moesi) (words : Line) (s : State) : State :=
  if r.node = s.node then wakeRemote r.lan (install r.lan ln st words s)
  else post r.node r.txid 0x20 (paWords (linePa ln) ++ [stateWord st]) words s

/-- An acknowledgement of a completed write goes to the requester of another node. -/
def ackTo (r : Requester) (ln : Nat) (s : State) : State :=
  if r.node = s.node then s else post r.node r.txid 0x21 (paWords (linePa ln)) [] s

/-- The line's words at the moment of completion: those a holder supplied, or those of HBM. -/
def txnData (t : HomeTxn) (s : State) : Line × State :=
  match t.data with
  | some d => (d, s)
  | none => homeRead (lineLocal t.line) s

/-- A write of all 16 words gathers no data (R421); the MARK bits stay. -/
def wholeLine (t : HomeTxn) (s : State) : Line × State :=
  (t.data.getD (hbmLine s (lineLocal t.line)), touchTag (lineAgent t.line) (lineLocal t.line) s)

/-- A write at home of a line of which the old words have been gathered: HBM is accessed once for both unless a holder
supplied them (R425). -/
def gatheredWrite (t : HomeTxn) (d : Line) (s : State) : State :=
  if t.data.isSome then homeWrite (lineLocal t.line) d s else setHbmLine (lineLocal t.line) d s

/-- A test access of a line of HBM from the test registers of a controller (R429): check bytes are those stored as given, or
those of the code. -/
def testAccess (c : Nat) (write : Bool) (loc : Nat) (s : State) : State :=
  let m := s.mc c
  let raw := (s.mc (homeAgent loc)).rawChecks
  if write then
    let l : Line := (List.range 16).map fun i => MWord.ofTag (Tab.get 0 m.testTag i) (Tab.get 0 m.testData i)
    let s := setHbmLine loc l s
    if m.rawchk then
      s.modMc (homeAgent loc) fun x => { x with rawChecks := Tab.set none x.rawChecks (loc / 64) (some m.testChk) }
    else s
  else
    let l := hbmLine s loc
    s.modMc c fun x => { x with
      testData := (List.range 16).foldl (fun t i => Tab.set 0 t i (lineWord l i).val) []
      testTag := (List.range 16).foldl (fun t i => Tab.set 0 t i (lineWord l i).tag) []
      testChk := (Tab.get none raw (loc / 64)).getD (eccCheck l) }

/-- The controller that holds a sidecar line: the home agent of the lines whose tags it holds (R413). -/
def sidecarAgent (s : State) (loc : Nat) : Nat := homeAgent ((loc - sidecarBase s.build) / 64 * 256)

/-- The 64 bytes of a sidecar line as 16 words. -/
def sidecarLine (s : State) (loc : Nat) : List Word :=
  (List.range 16).map fun i =>
    let b (j : Nat) : Byte := Memory.read s.hbm (loc + 4 * i + j)
    b 3 ++ b 2 ++ b 1 ++ b 0

/-- A test access of the sidecar, which no other access reaches: its 64 bytes are data; what its tag bytes and check bytes
read as is free (log entry 1). -/
def testSidecar (c : Nat) (write : Bool) (loc : Nat) (s : State) : State :=
  let m := s.mc c
  let home := sidecarAgent s loc
  if write then
    let bytes := (List.range 16).flatMap fun i => wordBytes (Tab.get 0 m.testData i)
    let s := { s with hbm := bytes.zipIdx.foldl (fun h (e : Byte × Nat) => Memory.write h (loc + e.2) e.1) s.hbm }
    s.modMc home fun x => { x with
      rawChecks := Tab.set none x.rawChecks (loc / 64) (if m.rawchk then some m.testChk else none) }
  else
    let d := sidecarLine s loc
    let (ws, s) := drawWords 6 s
    let tags := (ws.take 4).flatMap wordBytes
    let chk := (Tab.get none (s.mc home).rawChecks (loc / 64)).getD (ws.getD 5 0 ++ ws.getD 4 0)
    s.modMc c fun x => { x with
      testData := (List.range 16).foldl (fun t i => Tab.set 0 t i (d.getD i 0)) []
      testTag := (List.range 16).foldl (fun t i => Tab.set 0 t i (tags.getD i 0)) []
      testChk := chk }

/-- The test accesses of the sidecar that waited for a controller's wipe are made (R428). -/
def heldTests (n : Nat) (s : State) : State :=
  (List.range 4).foldl (fun s c =>
    match (s.mc c).testHeld with
    | some (w, loc) =>
      if sidecarAgent s loc = n then
        (testSidecar c w loc s).modMc c fun m => { m with testHeld := none, testBusy := false }
      else s
    | none => s) s

/-- A scrub read of a line (R427): an error found there is corrected and the line rewritten, or handled under R426; copies are
not disturbed. -/
def scrubLine (ln : Nat) (s : State) : State :=
  let c := lineAgent ln
  meetHome 2 (some (Cnt.mcScrubCorr c)) (some (Cnt.mcScrubUncorr c)) (lineLocal ln) s

/-- A home agent completes a request whose copies have answered (R416–R421). -/
def homeFinish (t : HomeTxn) (s : State) : State :=
  let ln := t.line
  let e := s.dirEnt ln
  let h : Holder := ⟨t.req.node, t.req.lan⟩
  match t.kind with
  | .shared =>
    if t.data = none ∧ e.owner = none ∧ e.sharers = [] ∧ e.coarse = none then
      let (d, s) := homeRead (lineLocal ln) s
      grant t.req ln .E d (setDir ln { e with owner := some h } s)
    else
      let (d, s) := txnData t s
      grant t.req ln .S d (shareDir h ln e s)
  | .own | .upgrade =>
    let (d, s) := txnData t s
    grant t.req ln .M d (setDir ln { DirEnt.none with owner := some h } s)
  | .uncached keep ws =>
    let (d, s) := if ws.length = 16 then wholeLine t s else txnData t s
    let s := if ws.length = 16 then setHbmLine (lineLocal ln) (putWords (keepMarks keep ws d) d) s
      else gatheredWrite t (putWords (keepMarks keep ws d) d) s
    ackTo t.req ln (setDir ln DirEnt.none s)
  | .exchange ws =>
    let (d, s) := txnData t s
    setDir ln DirEnt.none (gatheredWrite t (putWords ws d) s)
  | .retag i tag =>
    let (d, s) := txnData t s
    let w := MWord.ofTag tag (lineWord d i).val
    ackTo t.req ln (setDir ln DirEnt.none (gatheredWrite t (putWords [(i, some w)] d) s))
  | .hinted l keep ws =>
    let (d, s) := if ws.length = 16 then wholeLine t s else txnData t s
    wakeRemote l (install l ln .M (putWords (keepMarks keep ws d) d) (setDir ln { DirEnt.none with owner := some ⟨s.node, l⟩ } s))
  | .recall =>
    match t.data with
    | some d => setDir ln DirEnt.none (homeWrite (lineLocal ln) d s)
    | none => setDir ln DirEnt.none s
  | .scrub => scrubLine ln s
  | .test c write =>
    let s := match t.data with
      | some d => setDir ln DirEnt.none (homeWrite (lineLocal ln) d s)
      | none => setDir ln DirEnt.none s
    (testAccess c write (lineLocal ln) s).modMc c fun m => { m with testBusy := false }

/-- The copies of this node answer at once: for a shared read the owner supplies; for every other request each copy is
taken and an owner's data kept. Answers the data, if any, and the entry that remains. -/
def takeLocal (req : Option Holder) (shared : Bool) (ln : Nat) (s : State) : Option Line × State :=
  let s := match (s.dirEnt ln).owner with
    | some o => if o.node = s.node then meetL2 o.lan ln s else s
    | none => s
  let e := s.dirEnt ln
  if shared then
    match e.owner with
    | some o =>
      if o.node = s.node then
        match supply o.lan ln false s with
        | (some d, s') =>
          let st := (s'.l2 o.lan ln).st
          (some d, if st = .S then shareDir o ln { e with owner := none } s' else s')
        | (none, s') =>
          -- the directory names an owner that has no copy: the words are lost (R411, R448)
          (none, setDir ln { e with owner := none } (homeWrite (lineLocal ln) (poisonLineOf 2) s'))
      else (none, s)
    | none => (none, s)
  else
    let data := match e.owner with
      | some o => if o.node = s.node then (supply o.lan ln true s).1 else none
      | none => none
    let mine := req.bind fun r => if r.node = s.node ∧ (s.l2 r.lan ln).st ≠ .I then some (s.l2 r.lan ln).words else none
    let lost : Bool := match e.owner with
      | some o => decide (o.node = s.node ∧ (s.l2 o.lan ln).st = .I)
      | none => false
    let s' := (localHolders s e).foldl (fun s l => invalidate l ln s) s
    let s' := if lost then homeWrite (lineLocal ln) (poisonLineOf 2) s' else s'
    (if data = none then mine else data, s')

/-- A lantern of another node that the directory names as owner reads the line again: it has lost the words (R411). -/
def lostOwner (req : Requester) (kind : HomeKind) (ln : Nat) (s : State) : State :=
  let e := s.dirEnt ln
  if req.node ≠ s.node ∧ e.owner = some ⟨req.node, req.lan⟩ ∧ (kind = .shared ∨ kind = .own) then
    setDir ln { e with owner := none } (homeWrite (lineLocal ln) (poisonLineOf 2) s)
  else s

/-- A request by which a lantern obtains the line; of any other, the requester keeps no copy (R414). -/
def forLantern : HomeKind → Bool
  | .shared | .own | .upgrade => true
  | _ => false

/-- A home agent begins to serve a request: copies of this node answer at once, lanterns of other nodes are sent
forwards or invalidations and the request waits for them (R414–R418, R446). -/
def homeServe (req : Requester) (kind : HomeKind) (ln : Nat) (s : State) : State :=
  let s := lostOwner req kind ln s
  let e := s.dirEnt ln
  let shared := decide (kind = .shared)
  let me : Option Holder := if forLantern kind then some ⟨req.node, req.lan⟩ else none
  let (data, s) := if kind = .scrub then (none, s) else takeLocal me shared ln s
  let e := if (s.dirEnt ln).owner = none then { e with owner := none } else e
  let id := s.bl.txNext
  let fwd : Option Holder := match e.owner with
    | some o => if o.node ≠ s.node ∧ some o ≠ me ∧ kind ≠ .scrub then some o else none
    | none => none
  let invs := if shared ∨ kind = .scrub then [] else remoteHolders s e me
  let t : HomeTxn := ⟨id, ln, req, kind, fwd.isSome, invs.length, data⟩
  if fwd = none ∧ invs = [] then homeFinish t s
  else
    let s := match fwd with
      | some o => post o.node id (if shared then 0x10 else 0x11)
          (paWords (linePa ln) ++ [rawM (req.node ++ (0 : BitVec 11) ++ req.lan)]) [] s
      | none => s
    let s := invs.foldl (fun s n => post n id 0x12 (paWords (linePa ln)) [] s) s
    { s with bl := { s.bl with txns := s.bl.txns ++ [t], txNext := nextTx s.bl.txNext } }

/-- The line that the agent gives up when a directory set of 16 is full: the least recently used (R419). -/
def dirVictim (s : State) (kind : HomeKind) (ln : Nat) : Option Nat :=
  let d := (s.mc (lineAgent ln)).dir
  let enters : Bool := match kind with
    | .shared | .own | .upgrade | .hinted _ _ _ => true
    | _ => false
  if !enters ∨ d.length < 16 ∨ s.dirEnt ln ≠ DirEnt.none then none
  else
    let peers := d.filter fun e => Config.dirSet e.1 = Config.dirSet ln
    if peers.length < 16 then none
    else (peers.foldl (fun (b : Option (Nat × DirEnt)) e =>
      match b with | none => some e | some x => if e.2.used < x.2.used then some e else some x) none).map Prod.fst

/-- One request, whichever context of the lantern waits for it. -/
def sameReq (a b : HomeReq) : Bool :=
  a.line = b.line && a.kind = b.kind && a.req.node = b.req.node && a.req.lan = b.req.lan && a.req.txid = b.req.txid

/-- A request waits its turn, in arrival order; a lantern's read that waits already is the same request, which the lantern
repeats when its context issues again. -/
def homeQueue (r : HomeReq) (s : State) : State :=
  if forLantern r.kind ∧ s.bl.homeWait.any (sameReq r) then s
  else { s with bl := { s.bl with homeWait := s.bl.homeWait ++ [r] } }

/-- Requests that a home agent serves (R414). -/
def inFlight (s : State) (a : Nat) : Nat := (s.bl.txns.filter fun t => lineAgent t.line = a).length

/-- A request for the line is in progress or waits before it, the agent has 1,024 requests in flight, or its controller
wipes (R414, R428). -/
def homeBusy (s : State) (r : HomeReq) : Bool :=
  (s.bl.txns.any fun t => t.line = r.line) ||
    (s.bl.homeWait.any fun q => q.line = r.line && !(forLantern r.kind && sameReq q r)) ||
    1024 ≤ inFlight s (lineAgent r.line) || (s.mc (lineAgent r.line)).wipeBusy

/-- A request arrives at its home agent of this node: it waits while another is served for the line, or while its
controller wipes its stack (R428); a full directory set first recalls a line, and the request waits for the recall (R414,
R419). -/
def homeRequest (req : Requester) (kind : HomeKind) (ln : Nat) (s : State) : State :=
  if homeBusy s ⟨ln, req, kind⟩ then homeQueue ⟨ln, req, kind⟩ s
  else
    match dirVictim s kind ln with
    | some v =>
      if s.bl.txns.any fun t => t.line = v then homeQueue ⟨ln, req, kind⟩ s
      else
        let s := homeServe ⟨s.node, 0, 0, none⟩ .recall v (bump Cnt.ccRecall s)
        if s.bl.txns.any fun t => t.line = v then homeQueue ⟨ln, req, kind⟩ s else homeServe req kind ln s
    | none => homeServe req kind ln s

/-- The requests that wait are tried again in arrival order (R414). -/
def homeRetry (s : State) : State :=
  s.bl.homeWait.foldl (fun s (r : HomeReq) => homeRequest r.req r.kind r.line s)
    { s with bl := { s.bl with homeWait := [] } }

/-- A transaction whose copies have all answered completes, and those behind it go on. -/
def homeEnd (t : HomeTxn) (s : State) : State :=
  homeRetry (homeFinish t { s with bl := { s.bl with txns := s.bl.txns.filter fun u => u.id ≠ t.id } })

/-! ### What a lantern asks for -/

/-- The lantern holds the line well enough for a load, or in M after a silent E (Table 13-3). -/
def holds (l : Lan) (ln : Nat) (own : Bool) (s : State) : Bool :=
  match (s.l2 l ln).st with
  | .I => false
  | .M | .E => true
  | .O | .S => !own

/-- The lantern makes sure that it holds a line, in M when own is set; a context waits while another node answers
(R406, R414, R420). -/
def acquire (l : Lan) (c : Option CtxId) (own : Bool) (ln : Nat) (s : State) : Res Unit :=
  let s := meetL2 l ln s
  let toM (s : State) : State := if own then setL2 l ln { s.l2 l ln with st := .M } s else s
  if holds l ln own s then .ok () (touchL2 l ln (toM s))
  else if lineNode ln = s.node then
    let kind : HomeKind := if !own then .shared else if (s.l2 l ln).st = .I then .own else .upgrade
    let s := homeRequest ⟨s.node, l, 0, c⟩ kind ln s
    if holds l ln own s then .ok () (toM s) else .wait .remote s
  else if s.bl.reqs.any fun r => r.line = ln ∧ r.lan = l ∧ r.kind ≠ .write then .wait .remote s
  else
    let kind : ReqKind := if !own then .readShared else if (s.l2 l ln).st = .I then .readOwn else .upgrade
    let op : BitVec 8 := match kind with | .readShared => 0x01 | .readOwn => 0x02 | _ => 0x03
    .wait .remote (request (fun id => ⟨id, kind, l, c, ln, none⟩) (lineNode ln) op (paWords (linePa ln) ++ [lanWord l]) [] s)

end Sys2Proof.Machine
end

