-- ==== Sys2Proof/Machine/Translate.lean ====
section
/-! DEFINITION. Address translation (12): descriptor pairs, the walk, TLBs and walk caches, rights and marks, the faults of
Table 12-6, speculative and value translations. -/

namespace Sys2Proof.Machine

/-- A leaf (Tables 12-2, 12-3). -/
structure Leaf where
  size : Nat
  pbase : PA
  r : Bool
  w : Bool
  x : Bool
  u : Bool
  g : Bool
  a : Bool
  d : Bool
  deriving DecidableEq, Repr

/-- What a pair says at its level: invalid or malformed, a cause of its own, a table, or a leaf. -/
inductive PairIs where
  | invalid
  | malformed
  | bad (cause : BitVec 8)
  | table (pa : PA)
  | leaf (l : Leaf)
  deriving DecidableEq, Repr

/-- The physical address of a pair: PA[52:25] and PA[24:10] (Table 12-2). -/
def pairPa (w0 w1 : Word) : PA := w1.extractLsb' 4 28 ++ w0.extractLsb' 17 15 ++ (0 : BitVec 10)

/-- The checks of R390 on a pair read at level 0 (root), 1 or 2, in their order, with the SIZE codes of Table 12-3. -/
def classifyPair (s : State) (level : Nat) (w0 w1 : MWord) : PairIs :=
  if w0.ty = Ty.poison ∨ w1.ty = Ty.poison then .bad Cause.walkEcc
  else if w0.ty = Ty.unset ∨ w1.ty = Ty.unset then .invalid
  else if w0.ty ≠ Ty.pte ∨ w1.ty ≠ Ty.pte then .malformed
  else if w0.val.extractLsb' 0 4 ≠ w1.val.extractLsb' 0 4 then .bad Cause.walkTorn
  else
    let size := (w0.val.extractLsb' 4 6).toNat
    let pa := pairPa w0.val w1.val
    if size = 0 then .invalid
    else if size = 1 ∧ level < 2 then
      let bytes := if level = 0 then 0x2000 else 0x8000
      if inDevice (localOf pa) then .bad Cause.walkDev
      else if nodeOf pa ≠ s.node ∨ pa.toNat % bytes ≠ 0 ∨ ¬ inData s (localOf pa + bytes - 1) then .malformed
      else .table pa
    else if (level = 1 ∧ 22 ≤ size ∧ size ≤ 32) ∨ (level = 2 ∧ 10 ≤ size ∧ size ≤ 21) then
      if pa.toNat % 2 ^ size ≠ 0 then .malformed
      else .leaf { size := size, pbase := pa, r := w0.val.getLsbD 10, w := w0.val.getLsbD 11, x := w0.val.getLsbD 12,
                   u := w0.val.getLsbD 13, g := w0.val.getLsbD 14, a := w0.val.getLsbD 15, d := w0.val.getLsbD 16 }
    else .malformed

/-! ### Lines read by blocks without an L2 -/

/-- The line lies, or its owner lies, on another node. -/
def readAway (s : State) (ln : Nat) : Bool :=
  decide (lineNode ln ≠ s.node) || (match (s.dirEnt ln).owner with | some o => decide (o.node ≠ s.node) | none => false)

/-- The home agent serves or holds back another request for the line, or its controller wipes (R414, R428). -/
def readBusy (s : State) (ln : Nat) : Bool := homeBusy s ⟨ln, ⟨s.node, 0, 0, none⟩, .uncached false []⟩

/-- The words of a line as a Taper engine, a block of the HUB or the host reads them: an owner of this node supplies them
(Table 13-3), else HBM. A line of another node, or that another node's L2 owns, or whose home agent serves another request,
is read through the L2 of lantern 0, whose request waits its turn (R414, R420, log entry 77). A line that cannot be read yet is
noted as missed, and its words do not count. -/
def snoopLine (ln : Nat) (s : State) : Line × State :=
  if s.bl.failed.contains ln then
    (poisonLineOf 5, { s with bl := { s.bl with failed := s.bl.failed.filter (· ≠ ln) } })
  else if holds 0 ln false s then
    let s := meetL2 0 ln s
    if holds 0 ln false s then ((s.l2 0 ln).words, s) else ([], { s with miss := some (ln, false) })
  else if readAway s ln || readBusy s ln then ([], { s with miss := some (ln, false) })
  else
    match takeLocal (some ⟨s.node, 0⟩) true ln s with
    | (some d, s) => (d, s)
    | (none, s) => homeRead (lineLocal ln) s

/-- A happening that reads lines by snoopLine: where a line could not be read yet, it has no effect but the request for
that line, and happens once the line is there (log entry 77). -/
def withLines (f : State → State) (s : State) : State :=
  let t := f { s with miss := none }
  match t.miss with
  | none => t
  | some (ln, own) =>
    match acquire 0 none own ln s with
    | .ok _ s => s
    | .trap _ s => s
    | .wait _ s => s

/-- As withLines, for a command's whole outcome. -/
def withLinesO (f : State → Outcome) (s : State) : Outcome :=
  match f { s with miss := none } with
  | .next t => if t.miss.isSome then .next (withLines (fun _ => t) s) else .next t
  | o => o

/-- A walker reads a pair through its lantern's L2, or coherently at home for a Taper engine (R389). -/
def readPair (l : Option Lan) (pa : PA) (s : State) : Res (MWord × MWord) :=
  let ln := lineNo pa
  let i := pa.toNat / 4 % 16
  match l with
  | some l => (acquire l none false ln s).bind fun _ s =>
      let w := (s.l2 l ln).words
      .ok (lineWord w i, lineWord w (i + 1)) s
  | none =>
    let (d, s) := snoopLine ln s
    if s.miss.isSome then .wait .remote s else .ok (lineWord d i, lineWord d (i + 1)) s

/-- A walk's answer: a leaf or the cause of Table 12-6. -/
abbrev WalkOut := Sum (BitVec 8) Leaf

/-- A failed walk counts what it met (R390, Table 12-10). -/
def walkFail (p : PairIs) (s : State) : Res WalkOut :=
  match p with
  | .bad c =>
    let s := if c = Cause.walkTorn then bumpBy Cnt.mmRetry 4 (bump Cnt.mmTorn s)
      else if c = Cause.walkEcc then bump Cnt.mmEcc s else bump Cnt.mmDev s
    .ok (.inl c) s
  | .malformed => .ok (.inl Cause.noMap) (bump Cnt.mmBaddesc s)
  | _ => .ok (.inl Cause.noMap) s

/-- Step 4: the level-2 pair. -/
def walkLevel2 (l : Option Lan) (table : PA) (va : Word) (s : State) : Res WalkOut :=
  (readPair l (table + ((va.extractLsb' 10 12).setWidth 53 <<< 3)) s).bind fun p s =>
    match classifyPair s 2 p.1 p.2 with
    | .leaf f => .ok (.inr f) s
    | q => walkFail q s

/-- A level-1 pair of SIZE 1 enters the lantern's walk cache (R395). -/
def putWc (l : Option Lan) (e : WcEnt) (s : State) : State :=
  match l with
  | some l => s.modLan l fun a => { a with wc := (e :: a.wc.filter (· ≠ e)).take 256 }
  | none => s

/-- The walk-cache entry of an address; Taper walks have no walk cache. -/
def wcFind (l : Option Lan) (asid : BitVec 12) (va : Word) (s : State) : Option WcEnt :=
  match l with
  | some l => (s.lan l).wc.find? fun e => e.asid = asid ∧ e.region = va.extractLsb' 22 10
  | none => none

/-- Steps 2 to 4 of Table 12-5. A level-1 pair is placed in the walk cache unless the walk ends in WALK_ECC (R390). -/
def walkRoot (l : Option Lan) (asid : BitVec 12) (va : Word) (s : State) : Res WalkOut :=
  let region := va.extractLsb' 22 10
  if !s.mm.en then .ok (.inl Cause.noMap) s
  else
    (readPair l (s.mm.root + (asid.setWidth 53 <<< 3)) s).bind fun p s =>
      match classifyPair s 0 p.1 p.2 with
      | .table t1 =>
        (readPair l (t1 + (region.setWidth 53 <<< 3)) s).bind fun p s =>
          match classifyPair s 1 p.1 p.2 with
          | .table t2 =>
            (walkLevel2 l t2 va s).bind fun o s =>
              .ok o (if o = .inl Cause.walkEcc then s else putWc l ⟨asid, region, t2⟩ s)
          | .leaf f => .ok (.inr f) s
          | q => walkFail q s
      | q => walkFail q s

/-- The walk of Table 12-5 for va in an ASID; it is counted when it ends. -/
def walk (l : Option Lan) (asid : BitVec 12) (va : Word) (s : State) : Res WalkOut :=
  match wcFind l asid va s with
  | some e =>
    (walkLevel2 l e.table va s).bind fun o s => .ok o (bump Cnt.mmWalks (bump Cnt.mmWchit (putWc l e s)))
  | none => (walkRoot l asid va s).bind fun o s => .ok o (bump Cnt.mmWalks s)

/-- The walk cache as it was: an access that is dropped and a translation of a value that fails fill nothing (R397,
R398). -/
def keepWc (l : Lan) (before : State) (s : State) : State := s.modLan l fun a => { a with wc := (before.lan l).wc }

/-! ### TLBs -/

def Tlb.hits (t : Tlb) (asid : BitVec 12) (va : Word) : Bool :=
  (t.g || t.asid = asid) && va.toNat / 2 ^ t.size = t.vbase.toNat / 2 ^ t.size

def Tlb.overlaps (t u : Tlb) : Bool :=
  t.vbase.toNat < u.vbase.toNat + 2 ^ u.size && u.vbase.toNat < t.vbase.toNat + 2 ^ t.size

/-- Installs an entry: overlapping entries of the ASID or global ones leave, all overlapping ones when the new one is
global; the entry used least recently is displaced (R393, R394). -/
def tlbInstall (cap : Nat) (t : Tlb) (l : List Tlb) : List Tlb :=
  (t :: l.filter fun u => !(u.overlaps t && (t.g || u.g || u.asid = t.asid))).take cap

/-- The entry of a leaf for an address (R386, R394). -/
def Leaf.tlb (f : Leaf) (asid : BitVec 12) (va : Word) : Tlb :=
  ⟨asid, f.g, BitVec.ofNat 32 (va.toNat / 2 ^ f.size * 2 ^ f.size), f.size, f.pbase, f.r, f.w, f.x, f.u, f.d⟩

/-- PA | (va & (2^s − 1)) (R386). -/
def Tlb.pa (t : Tlb) (va : Word) : PA := t.pbase ||| BitVec.ofNat 53 (va.toNat % 2 ^ t.size)

/-- Rights of Table 12-4, the U rule of R387 and the device rules of R382. -/
def rightsOk (s : State) (kind : AccKind) (priv : BitVec 2) (t : Tlb) (va : Word) : Bool :=
  let need := match kind with
    | .load | .specLoad => t.r
    | .store => t.w
    | .rmw => t.r && t.w
    | .fetch | .specFetch => t.x
    | .mark => t.r && t.w
  let dev := inDevice (localOf (t.pa va))
  need && (priv ≠ 0 || t.u) && !(dev && (priv = 0 || nodeOf (t.pa va) ≠ s.node))

def accWrites : AccKind → Bool
  | .store | .rmw => true
  | _ => false

/-- The outcome of an access through an entry: its address, or RIGHTS or DIRTY_MARK. -/
def useTlb (s : State) (kind : AccKind) (priv : BitVec 2) (t : Tlb) (va : Word) : Sum (BitVec 8) PA :=
  if !rightsOk s kind priv t va then .inl Cause.rights
  else if accWrites kind && !t.d then .inl Cause.dirtyMark
  else .inr (t.pa va)

/-- A walked leaf: R387, then R396. -/
def useLeaf (s : State) (kind : AccKind) (priv : BitVec 2) (f : Leaf) (asid : BitVec 12) (va : Word) :
    Sum (BitVec 8) PA :=
  if !rightsOk s kind priv (f.tlb asid va) va then .inl Cause.rights
  else if !f.a then .inl Cause.accessMark
  else if accWrites kind && !f.d then .inl Cause.dirtyMark
  else .inr ((f.tlb asid va).pa va)

/-- A speculative access (R397). -/
def isSpec : AccKind → Bool
  | .specFetch | .specLoad => true
  | _ => false

def accFetch : AccKind → Bool
  | .fetch | .specFetch => true
  | _ => false

def CoreSt.tlb (k : CoreSt) (fetch : Bool) : List Tlb := if fetch then k.itlb else k.dtlb
def CoreSt.setTlb (k : CoreSt) (fetch : Bool) (l : List Tlb) : CoreSt :=
  if fetch then { k with itlb := l } else { k with dtlb := l }

/-- DIRTY_MARK removes the core's DTLB entry of the page (R396). -/
def dropDirty (k : CoreId) (asid : BitVec 12) (va : Word) (c : BitVec 8) (s : State) : State :=
  if c = Cause.dirtyMark then s.modCore k fun x => { x with dtlb := x.dtlb.filter fun t => !t.hits asid va } else s

/-- Translates for a core at a level: the TLB, then a walk whose leaf is installed when it passes every check. -/
def xlate (k : CoreId) (asid : BitVec 12) (priv : BitVec 2) (kind : AccKind) (va : Word) (s : State) :
    Res (Sum (BitVec 8) PA) :=
  let l := (s.core k).tlb (accFetch kind)
  match l.find? fun t => t.hits asid va with
  | some t =>
    let s := s.modCore k fun x => x.setTlb (accFetch kind) (t :: l.filter (· ≠ t))
    match useTlb s kind priv t va with
    | .inr pa => .ok (.inr pa) s
    | .inl c => .ok (.inl c) (dropDirty k asid va c s)
  | none =>
    (walk (some (lanOfCore k)) asid va s).bind fun o s =>
      match o with
      | .inl c => .ok (.inl c) s
      | .inr f =>
        match useLeaf s kind priv f asid va with
        | .inr pa =>
          .ok (.inr pa) (s.modCore k fun x =>
            x.setTlb (accFetch kind) (tlbInstall (if accFetch kind then 16 else 32) (f.tlb asid va) (x.tlb (accFetch kind))))
        | .inl c => .ok (.inl c) (dropDirty k asid va c s)

/-- Translates a speculative access: one that would fault, or that reaches the device region, is dropped with no fill and
counted (R397). A walk that waits for a line of another node goes on without the access. -/
def specXlate (k : CoreId) (asid : BitVec 12) (priv : BitVec 2) (kind : AccKind) (va : Word) (s : State) :
    Option PA × State :=
  let drop (t : State) : Option PA × State :=
    (none, bump Cnt.mmSpecdrop ((keepWc (lanOfCore k) s t).modCore k fun x =>
      x.setTlb (accFetch kind) ((s.core k).tlb (accFetch kind))))
  match xlate k asid priv kind va s with
  | .ok (.inr pa) t => if inDevice (localOf pa) then drop t else (some pa, t)
  | .ok (.inl _) t => drop t
  | .trap _ t => (none, t)
  | .wait _ t => (none, t)

/-- A fault of Table 12-6 is recorded in MM_LASTF and counted (Tables 12-9, 12-10). -/
def recordFault (c : BitVec 8) (va : Word) (asid : BitVec 12) (src : BitVec 10) (taper : Bool) (s : State) : State :=
  bump Cnt.mmFaults
    { s with mm := { s.mm with lastVa := va, lastInfo := (1 : BitVec 1) ++ bit taper ++ src ++ asid ++ c } }

/-- Translates an access of a context at its own level; a failure raises its fault (R392). -/
def translate (c : CtxId) (kind : AccKind) (va : Word) (s : State) : Res PA :=
  let x := s.ctx c
  (xlate (coreOf c) x.asid x.cstat.priv kind va s).bind fun o s =>
    match o with
    | .inr pa => .ok pa s
    | .inl e => trapA e va TWord.unset (recordFault e va x.asid c false s)

/-- The translation of a pointer value (R398): no rights and no fault; an entry of the DTLB or a leaf that passes R390. -/
def valuePa (c : CtxId) (va : Word) (s : State) : Res (Option PA) :=
  let x := s.ctx c
  let l := (s.core (coreOf c)).dtlb
  match l.find? fun t => t.hits x.asid va with
  | some t => .ok (some (t.pa va)) (s.modCore (coreOf c) fun k => { k with dtlb := t :: l.filter (· ≠ t) })
  | none =>
    (walk (some (lanOf c)) x.asid va s).bind fun o t =>
      match o with
      | .inl _ => .ok none (keepWc (lanOf c) s t)
      | .inr f => .ok (some ((f.tlb x.asid va).pa va)) t

end Sys2Proof.Machine
end

