-- ==== Sys2Proof/Machine/Access.lean ====
section
/-! DEFINITION. Memory accesses of a core (02 R49–R74; 03 R107–R128, R132, R133; 09 R299, R305, R306; 13 R406, R415):
classes of TYPE, loads, stores with their checks and barriers, the merging and barrier buffers, and the words that blocks
of the HUB read and write by physical address. -/

namespace Sys2Proof.Machine

/-- The host address that a LOCAL address reaches through an enabled window (16 R507). -/
def winAddr (s : State) (loc : Nat) : Option (BitVec 64) :=
  let w := (loc - 0x1400000000) / 0x10000000
  let lo := Tab.get 0 s.hi.winLo w
  if lo.getLsbD 0 then
    some ((Tab.get 0 s.hi.winHi w ++ (lo &&& 0xFFFFF000)) + BitVec.ofNat 64 (loc % 0x10000000))
  else none

/-- A load through a window becomes one read of its width; the context waits for the answer (R507). -/
def winLoad (c : CtxId) (loc bytes : Nat) (s : State) : State :=
  match winAddr s loc with
  | some a => emit (.winRead c a bytes) s
  | none => s

/-- A store through a window becomes one posted write (R507). -/
def winStore (loc : Nat) (v : List Byte) (s : State) : State :=
  match winAddr s loc with
  | some a => emit (.winWrite a v) s
  | none => s

/-! ### Classes of TYPE (Table 02-2) -/

def isImmediate (t : Ty) : Bool := 0x01 ≤ t && t ≤ 0x0B
def isPointer (t : Ty) : Bool := 0x10 ≤ t && t ≤ 0x18
def isStructural (t : Ty) : Bool := 0x20 ≤ t && t ≤ 0x24
def isReservedTy (t : Ty) : Bool :=
  !(isImmediate t || isPointer t || isStructural t || t = Ty.unset || t = Ty.poison)
/-- A pointer to an object with an HDR word (R66). -/
def isObject (t : Ty) : Bool := (0x11 ≤ t && t ≤ 0x15) || t = Ty.hitv

/-- The checks of a word that an operation inspects: UNSET_USE, POISON, RESERVED_TAG (Table 09-1 row 4). -/
def checkUse (w : TWord) (s : State) : Res Unit :=
  if w.ty = Ty.unset then trapW Cause.unsetUse w s
  else if w.ty = Ty.poison then trapW Cause.poison w s
  else if isReservedTy w.ty then trapW Cause.reservedTag w s
  else .ok () s

/-- The payload rule of an immediate (Table 02-2, R52). -/
def payloadOk (w : TWord) : Bool :=
  if w.ty = Ty.bcd then
    (List.range 7).all (fun i => (w.val.extractLsb' (4 + 4 * i) 4).toNat ≤ 9) &&
      (w.val.extractLsb' 0 4 = 0xC || w.val.extractLsb' 0 4 = 0xD)
  else if w.ty = Ty.char then w.val.toNat ≤ 0xD7FF || (0xE000 ≤ w.val.toNat && w.val.toNat ≤ 0x10FFFF)
  else if w.ty = Ty.bool then w.val.toNat ≤ 1
  else if w.ty = Ty.nil then w.val = 0
  else true

/-- An operand of one of some TYPEs: row 4 of Table 09-1 in full. -/
def checkTy (ok : Ty → Bool) (w : TWord) (s : State) : Res Unit :=
  (checkUse w s).bind fun _ s =>
    if !ok w.ty then trapW Cause.tagMismatch w s
    else if !payloadOk w then trapW Cause.badPayload w s
    else .ok () s

/-- Which TYPEs a core may store as a value (Table 02-7); pair: by STP. -/
def storable (priv : BitVec 2) (pair : Bool) (t : Ty) : Bool :=
  isImmediate t || isPointer t || t = Ty.unset ||
    (priv ≠ 0 && (t = Ty.hdr || t = Ty.save || t = Ty.ret || (pair && t = Ty.pte)))

/-- The base of an access: a pointer, or RAW or FIX above USER (R71). -/
def checkBase (priv : BitVec 2) (w : TWord) (s : State) : Res Unit :=
  checkTy (fun t => (0x10 ≤ t && t ≤ 0x17) || (priv ≠ 0 && (t = Ty.raw || t = Ty.fix))) w s

/-! ### Lines and words as a core sees them -/

/-- The error of the instruction's command strikes the word of its first data access (log entry 76). -/
def takeStrike (c : CtxId) (ln i : Nat) (s : State) : State :=
  match s.strike with
  | .none => s
  | e => strikeLine (lanOf c) (some (coreOf c)) ln i e { s with strike := .none }

/-- The words of a line as the context's core sees them for an access to word i, obtained in S or better, or in M (R406, R415, R447). -/
def coreLine (c : CtxId) (own : Bool) (ln i : Nat) (s : State) : Res Line :=
  let s := takeStrike c ln i s
  let l := lanOf c
  if (s.ctx c).poisonLine = some ln ∧ !holds l ln own s then
    .ok (poisonLineOf 5) (s.modCtx c fun x => { x with poisonLine := none })
  else
    (acquire l (some c) own ln s).bind fun _ s => .ok (overlay (s.core (coreOf c)).merge ln (s.l2 l ln).words) s

/-- Word i of the line in the core's L1 D as a load reads it, with what the parity of its key and the word's code find (Table
13-1); none is a miss. -/
def l1Load (k : CoreId) (ln i : Nat) (s : State) : Option MWord × State :=
  match l1Find (s.core k).l1d ln with
  | none => (none, s)
  | some x =>
    let gone (s : State) : State := s.modCore k fun y => { y with l1d := l1Drop y.l1d ln }
    let fixed : L1Line := { x with errs := Tab.set CellErr.clean x.errs i .clean }
    if x.keyErr then (none, bump Cnt.ccL1Keypar (gone s))
    else match Tab.get CellErr.clean x.errs i with
      | .clean | .key => (some (lineWord x.words i), s)
      | .corr => (some (lineWord x.words i), bump Cnt.ccL1Corr (s.modCore k fun y => { y with l1d := l1Put y.l1d fixed }))
      | .uncorr => (none, bump Cnt.ccL1Refill (gone s))

/-- The address of the line after that of va. -/
def nextLineVa (va : Word) : Word := (va &&& 0xFFFFFFC0) + 64

/-- A miss also fetches the next line, at va; the line enters the cache when it arrives (R408). -/
def prefetch (c : CtxId) (code : Bool) (va : Word) (s : State) : State :=
  let k := coreOf c
  let x := s.ctx c
  if !(if code then s.cc.prefetchI else s.cc.prefetchD) then s
  else
    match specXlate k x.asid x.cstat.priv (if code then .specFetch else .specLoad) va s with
    | (none, s) => s
    | (some pa, s) =>
      let n := lineNo pa
      if (l1Find (if code then (s.core k).l1i else (s.core k).l1d) n).isSome then s
      else
        let s := bump Cnt.ccPrefetch s
        if nodeOf pa = s.node ∧ ¬ inData s (localOf pa) then unpopulated pa s
        else match acquire (lanOf c) none false n s with
          | .ok _ s => fillL1 k code n s
          | .trap _ s => s
          | .wait _ s => s.modLan (lanOf c) fun a => { a with fills := a.fills ++ [(n, k, code)] }

/-- A load miss brings the line into the core's L1 D (R406, R408). -/
def loadMiss (c : CtxId) (va : Word) (ln : Nat) (s : State) : State :=
  if (s.l2 (lanOf c) ln).st = .I then s
  else prefetch c false (nextLineVa va) (fillL1 (coreOf c) false ln s)

/-- A word of the tagged data region, or of another node's memory, as a load reads it: from the L1 D, or from the L2, which
the L1 D then holds. -/
def readPaWord (c : CtxId) (va : Word) (pa : PA) (s : State) : Res MWord :=
  let ln := lineNo pa
  let i := pa.toNat / 4 % 16
  match l1Load (coreOf c) ln i (takeStrike c ln i s) with
  | (some w, s) => .ok w s
  | (none, s) =>
    let missed : Bool := (s.l2 (lanOf c) ln).st = .I
    (coreLine c false ln i s).bind fun l s =>
      .ok (lineWord l i) ((loadMiss c va ln s).modCtx c fun x => { x with missed := x.missed || missed })

/-- The word that a store or an exchange will replace; it brings nothing into the L1 D (R406). -/
def readTarget (c : CtxId) (pa : PA) (s : State) : Res MWord :=
  let i := pa.toNat / 4 % 16
  (coreLine c false (lineNo pa) i s).bind fun l s => .ok (lineWord l i) s

/-- The region of LOCAL that a physical address of this node reaches. -/
inductive Region where
  | data | unpopulated | regs | window | reserved
  deriving DecidableEq, Repr

def regionOf (s : State) (pa : PA) : Region :=
  let a := localOf pa
  if nodeOf pa ≠ s.node then .data
  else if inData s a then .data
  else if a < 0x1000000000 then .unpopulated
  else if a < 0x1002000000 then .regs
  else if 0x1400000000 ≤ a ∧ a < 0x1800000000 ∧ (winAddr s a).isSome then .window
  else .reserved

/-! ### Loads -/

/-- The check of a loaded pointer value that lies in the candle window (R108). -/
def checkLoaded (c : CtxId) (va : Word) (pa : PA) (w : TWord) (s : State) : Res Unit :=
  match handleOf s c with
  | none => .ok () s
  | some h =>
    let own := match poolIndex s pa with | some i => ownedBy (s.cn.span i) h | none => false
    if !isPointer w.ty || w.val.toNat < 0x80000000 || own then .ok () s
    else
      (valuePa c w.val s).bind fun vp s =>
        match vp with
        | none => ownFault Cause.foreign va w s
        | some p =>
          match poolIndex s p with
          | none => ownFault Cause.foreign va w s
          | some i =>
            let e := s.cn.span i
            match e.st with
            | .candle => if ownedBy e h then .ok () s else ownFault Cause.foreign va w s
            | .persistent => ownFault Cause.foreign va w s
            | .cooling | .retired | .free => ownFault Cause.stale va w s

/-! ### Words by physical address -/

/-- A block of the HUB, a Taper engine or the host reads a word by physical address, within withLines. -/
def physRead (pa : PA) (s : State) : MWord × State :=
  if inDevice (localOf pa) then (MWord.poison 4, s)
  else if nodeOf pa = s.node ∧ !inData s (localOf pa) then (MWord.poison 4, unpopulated pa s)
  else
    let (l, s) := snoopLine (lineNo pa) s
    (lineWord l (pa.toNat / 4 % 16), s)

/-- Words read in order from a physical address. -/
def physReads (pa : PA) : Nat → State → List MWord × State
  | 0, s => ([], s)
  | n + 1, s =>
    let (w, s) := physRead pa s
    let (r, s) := physReads (pa + 4) n s
    (w :: r, s)

/-- Writes words of one line by physical address, as an uncached write (R414), or a hinted write when a lantern is named
and HINTS is 1 (R421, R422); keep: the words keep their IMM, as those of a host copy that is not TAGGED do (02 R74). -/
def physWriteKeep (keep : Bool) (hint : Option Lan) (ln : Nat) (ws : Tab (Option MWord)) (s : State) : State :=
  let pa := linePa ln
  if nodeOf pa ≠ s.node then
    let s := if hint.isSome then bump Cnt.ccHintSkip s else s
    let mask := (ws.map Prod.fst).foldl (fun (m : Word) i => m ||| ((1 : Word) <<< i)) 0
    requestWrite ln (nodeOf pa) 0x06 (paWords pa ++ [rawM mask]) (putWords ws []) s
  else if inDevice (localOf pa) then s
  else if !inData s (localOf pa) then unpopulated pa s
  else match hint with
    | some l =>
      if s.cc.hints then homeRequest ⟨s.node, l, 0, none⟩ (.hinted l keep ws) ln (bump Cnt.ccHint s)
      else homeRequest ⟨s.node, l, 0, none⟩ (.uncached keep ws) ln (bump Cnt.ccHintSkip s)
    | none => homeRequest ⟨s.node, 0, 0, none⟩ (.uncached keep ws) ln s

/-- The same, IMM as the words have it. -/
def physWriteLine (hint : Option Lan) (ln : Nat) (ws : Tab (Option MWord)) (s : State) : State := physWriteKeep false hint ln ws s

/-- Writes one word by physical address. -/
def physWrite (hint : Option Lan) (pa : PA) (w : MWord) (s : State) : State :=
  physWriteLine hint (lineNo pa) [(pa.toNat / 4 % 16, some w)] s

/-- Writes words in order from a physical address. -/
def physWrites (hint : Option Lan) (pa : PA) : List MWord → State → State
  | [], s => s
  | w :: r, s => physWrites hint (pa + 4) r (physWrite hint pa w s)

/-- Taper writes a word with its MARK, at its home agent (R124, R234); a word of another node, in the L2 of lantern 0 where it
holds the line in M, else by an exchange at its home where only the tag byte changes (R420, 14 Table 14-4). -/
def taperWrite (pa : PA) (w : MWord) (s : State) : State :=
  let ln := lineNo pa
  let i := pa.toNat / 4 % 16
  if inDevice (localOf pa) then s
  else if nodeOf pa ≠ s.node then
    let x := s.l2 0 ln
    if holds 0 ln true s then writeL2 0 ln .M [(i, some w)] s
    else if x.st ≠ .I ∧ (lineWord x.words i).val = w.val then
      requestWrite ln (nodeOf pa) 0x07 (paWords pa ++ [rawM (BitVec.ofNat 32 i), rawM (w.tag.setWidth 32)]) [] s
    else { s with miss := some (ln, true) }
  else if !inData s (localOf pa) then unpopulated pa s
  else homeRequest ⟨s.node, 0, 0, none⟩ (.exchange [(i, some w)]) ln s

/-- Writes words in order from a physical address, one write for each line that they touch. -/
def physRun (hint : Option Lan) (pa : PA) (cur : Tab (Option MWord)) : List MWord → State → State
  | [], s => if cur.isEmpty then s else physWriteLine hint (lineNo (pa - 4)) cur s
  | w :: r, s =>
    let cur := cur ++ [(pa.toNat / 4 % 16, some w)]
    if pa.toNat / 4 % 16 = 15 then physRun hint (pa + 4) [] r (physWriteLine hint (lineNo pa) cur s)
    else physRun hint (pa + 4) cur r s

/-! ### Stores -/

/-- The oldest merging-buffer entry is written into an L2 line held in M; MARK stays and IMM becomes 0 (R50, R406), and
escape entries of its line count as performed (R116). -/
def performLine (k : CoreId) (m : MergeEnt) (s : State) : State :=
  let l := lanOfCore k
  let x := s.l2 l m.line
  let s := writeL2 l m.line .M (m.words.map fun e => (e.1, some ⟨e.2.ty, false, (lineWord x.words e.1).mark, e.2.val⟩)) s
  let done := (s.core k).escWait.filter fun b => lineNo b.pa = m.line
  let s := done.foldl (fun s b => s.modSlot b.slot fun t => { t with escCount := t.escCount - 1 }) s
  s.modCore k fun x =>
    { x with merge := x.merge.filter fun e => e.line ≠ m.line,
             escWait := x.escWait.filter fun b => lineNo b.pa ≠ m.line,
             barrier := x.barrier.map fun b => if lineNo b.pa = m.line then { b with performed := true } else b }

/-- The core's merging-buffer entries are performed, oldest first, up to one of a line (R406); c: the context that waits
for a line of another node. -/
def drainTo (k : CoreId) (c : Option CtxId) (ln : Nat) : Nat → State → Res Unit
  | 0, s => .ok () s
  | n + 1, s =>
    match (s.core k).merge with
    | [] => .ok () s
    | m :: r =>
      if (m :: r).all fun m => m.line ≠ ln then .ok () s
      else (acquire (lanOfCore k) c true m.line s).bind fun _ s => drainTo k c ln n (performLine k m s)

/-- The line is held in M with every pending word of this core written into it, for an exchange of word i (R415). -/
def drainLine (c : CtxId) (ln i : Nat) (s : State) : Res Unit :=
  (drainTo (coreOf c) (some c) ln 8 (takeStrike c ln i s)).bind fun _ s => acquire (lanOf c) (some c) true ln s

/-- Every pending store of the core is performed (FENCE, Table 08-6). -/
def drainAll (c : CtxId) : Nat → State → Res Unit
  | 0, s => .ok () s
  | n + 1, s =>
    match (s.core (coreOf c)).merge with
    | [] => .ok () s
    | m :: _ => (drainTo (coreOf c) (some c) m.line 1 s).bind fun _ s => drainAll c n s

/-- Stores that other cores have issued to a line are performed (R76): they came before. While one waits for another node,
this instruction waits as a store does. -/
def drainOthers (c : CtxId) (ln : Nat) (s : State) : Res Unit :=
  let ks := (s.cores.map fun e => BitVec.ofNat 8 e.1).filter (· ≠ coreOf c)
  ks.foldl (fun r k => r.bind fun _ s =>
    match drainTo k none ln 8 s with
    | .wait _ s => .wait .store s
    | r => r) (.ok () s)

/-- A store enters the merging buffer: it merges into its line's entry, or takes a free one, or waits at issue; a line
in the L1 D is updated (R406). -/
def mergeStore (c : CtxId) (pa : PA) (v : TWord) (s : State) : Res Unit :=
  let k := coreOf c
  let ln := lineNo pa
  let i := pa.toNat / 4 % 16
  let ms := (s.core k).merge
  let put (m : MergeEnt) : MergeEnt := { m with words := Tab.insert (Tab.erase m.words i) i v }
  let l1 (t : Tab (Option L1Line)) : Tab (Option L1Line) :=
    match l1Find t ln with
    | some y => l1Put t (y.write [(i, some ⟨v.ty, false, (lineWord y.words i).mark, v.val⟩)])
    | none => t
  if ms.any fun m => m.line = ln then
    .ok () (s.modCore k fun x =>
      { x with l1d := l1 x.l1d, merge := x.merge.map fun m => if m.line = ln then put m else m })
  else if ms.length < 8 then
    .ok () (s.modCore k fun x => { x with l1d := l1 x.l1d, merge := x.merge ++ [put ⟨ln, []⟩] })
  else .wait .store s

/-- The candle that a pointer value leads into, after the check of R110: a value whose translation reaches a span that is
COOLING, RETIRED or FREE raises STALE_VALUE. -/
def valueCandle (c : CtxId) (va : Word) (v : TWord) (s : State) : Res (Option (Nat × BitVec 8)) :=
  if !isPointer v.ty then .ok none s
  else
    (valuePa c v.val s).bind fun vp s =>
      match vp.bind (poolIndex s) with
      | none => .ok none s
      | some i =>
        let e := s.cn.span i
        match e.st with
        | .cooling | .retired | .free => ownFault Cause.staleValue va v s
        | .candle => .ok (some (e.slot.toNat, e.gen)) s
        | .persistent => .ok none s

/-- The candle that a physical address lies in. -/
def targetCandle (s : State) (pa : PA) : Option (Nat × BitVec 8) :=
  match poolIndex s pa with
  | some i => let e := s.cn.span i; if e.st = .candle then some (e.slot.toNat, e.gen) else none
  | none => none

def elogFull (s : State) (slot : Nat) : Bool :=
  2 ^ s.cn.pool.lv.elogSize.toNat ≤ (s.slot slot).elogFill && 2 ^ s.cn.pool.lv.eovfSize.toNat ≤ s.cn.eovf.length

def mlogFull (s : State) : Bool := 2 ^ s.cn.pool.lv.mlogSize.toNat ≤ s.cn.mlogUsed

/-- A context's store waits for the logs of a slot (STALL, Table 03-13). -/
def addStall (c : CtxId) (slot : Nat) (s : State) : State :=
  s.modSlot slot fun t => { t with stall := if t.stall.contains c then t.stall else t.stall ++ [c] }

/-- An escaping store makes its entry at issue (R113–R116); it waits while the barrier buffer or the logs are full. done: the
store counts as performed at once, since it reaches no memory (R2). -/
def escapeEntry (c : CtxId) (dst : Option (Nat × BitVec 8)) (pa : PA) (done : Bool) (s : State) : Res Unit :=
  match dst with
  | none => .ok () s
  | some (slot, gen) =>
    if targetCandle s pa = some (slot, gen) then .ok () s
    else if 64 ≤ (s.core (coreOf c)).barrier.length ∨ elogFull s slot then
      .wait .escape (addStall c slot s)
    else
      .ok () ((s.modCore (coreOf c) fun k => { k with barrier := k.barrier ++ [⟨slot, gen, pa, done⟩] }).modSlot slot
        fun t => { t with escCount := t.escCount + 1 })

/-- One entry of the mark log (R133). -/
def mlogPush (v : TWord) (asid : BitVec 12) (isNew : Bool) (s : State) : State :=
  let p := s.cn.pool.lv
  let i := (s.cn.mlogHead + s.cn.mlogUsed) % 2 ^ p.mlogSize.toNat
  let s := physWrites none (p.mlogBase + BitVec.ofNat 53 (8 * i))
    [v.m, rawM ((0 : BitVec 19) ++ bit isNew ++ asid)] s
  { s with cn := { s.cn with mlogUsed := s.cn.mlogUsed + 1 } }

/-- The snapshot barrier is on in GRACE and TRACE (Table 03-8). -/
def snapshotOn (s : State) : Bool := s.cn.phase = .grace || s.cn.phase = .trace

/-- The values a store must log over a word of a PERSISTENT span (R132): the old one, and the new one for a task of a
PRECYCLE candle or of no event. A span of another node is taken as not PERSISTENT here: R132 does not say how a node sees the
state of another node's span (DESIGN CHOICE, log entry 88). -/
def snapshotLogs (c : CtxId) (pa : PA) (old v : TWord) (s : State) : List (TWord × Bool) :=
  let pers := match poolIndex s pa with | some i => decide ((s.cn.span i).st = .persistent) | none => false
  if !(snapshotOn s && pers && isPointer old.ty) then []
  else
    let early := match handleOf s c with | none => true | some h => (s.slot (hSlot h)).precycle
    (old, false) :: (if early && isPointer v.ty then [(v, true)] else [])

/-- A merging-buffer entry for the line, or a free one (R406). -/
def mergeRoom (k : CoreSt) (ln : Nat) : Bool := (k.merge.any fun m => m.line = ln) || k.merge.length < 8

/-- A word of the tagged data region is written with its barriers (R113, R132): into the merging buffer, or as an exchange
in the L2 when the snapshot barrier logs. A store that waits has made no entry. -/
def performStore (c : CtxId) (pa : PA) (v : TWord) (old : MWord) (dst : Option (Nat × BitVec 8)) (s : State) : Res Unit :=
  let logs := snapshotLogs c pa old.t v s
  (if logs = [] then .ok () s
    else (drainAll c 8 s).bind fun _ s => acquire (lanOf c) (some c) true (lineNo pa) s).bind fun _ s =>
    if !mergeRoom (s.core (coreOf c)) (lineNo pa) then .wait .store s
    else if logs ≠ [] ∧ 2 ^ s.cn.pool.lv.mlogSize.toNat < s.cn.mlogUsed + logs.length then
      match handleOf s c with
      | some h => .wait .mlog (addStall c (hSlot h) s)
      | none => .wait .mlog s
    else
      (escapeEntry c dst pa false s).bind fun _ s =>
        (mergeStore c pa v s).bind fun _ s =>
          if logs = [] then .ok () s
          else
            let asid := (s.ctx c).asid
            (drainLine c (lineNo pa) (pa.toNat / 4 % 16) s).bind fun _ s =>
              .ok () (logs.foldl (fun s (l : TWord × Bool) => mlogPush l.1 asid l.2 s) s)

/-- How a store is made: free: through a RAW or FIX base above USER, which IMM does not stop (R73); pair: by STP. -/
structure StoreHow where
  free : Bool
  pair : Bool

/-- The check of a word that is carried into a store: POISON and RESERVED_TAG (R62, R64; row 4). -/
def checkCarry (v : TWord) (s : State) : Res Unit :=
  if v.ty = Ty.poison then trapW Cause.poison v s
  else if isReservedTy v.ty then trapW Cause.reservedTag v s
  else .ok () s

/-- STORE_CLASS (R70; row 5). -/
def checkClass (priv : BitVec 2) (pair : Bool) (v : TWord) (s : State) : Res Unit :=
  if !storable priv pair v.ty then trapW Cause.storeClass v s else .ok () s

/-- The alignment rule of a pointer's payload (Table 02-2). -/
def ptrAligned (w : TWord) : Bool :=
  if w.ty = Ty.cons || w.ty = Ty.ext then w.val.extractLsb' 0 3 = 0
  else if isPointer w.ty then w.val.extractLsb' 0 2 = 0
  else true

/-- A pointer whose payload breaks its alignment rule, when an access at va is made through it (R53; row 5). -/
def checkDeref (base : TWord) (va : Word) (s : State) : Res Unit :=
  if ptrAligned base then .ok () s else trapA Cause.align va base s

/-- A base that carries RAW or FIX above USER is not stopped by IMM (R73). -/
def freeBase (w : TWord) : Bool := w.ty = Ty.raw || w.ty = Ty.fix

end Sys2Proof.Machine
end

