-- ==== Sys2Proof/Machine/Irq.lean ====
section
/-! DEFINITION. Interrupts to the host (16 R492, R493): MSI-X vectors and the device-wide sources; the low-water rule of
the evacuation ring (03 R126). -/

namespace Sys2Proof.Machine

/-- PCIe is up: it is shed with the other loads at the power-fail warning (R510; 19 Table 19-5 step 7). -/
def pcieUp (s : State) : Bool := s.pw.stage = .run

/-- A posted write to host memory; one that is not made before PCIe is shed is lost (R510). -/
def hostWrite (addr : BitVec 64) (bytes : List Byte) (s : State) : State :=
  if pcieUp s then emit (.hostWrite addr bytes) s else s

/-- Sends an MSI-X vector of a function, or sets its pending bit while it is masked (R492). -/
def sendMsix (fn : Nat) (vec : BitVec 8) (s : State) : State :=
  let i := fn * 256 + vec.toNat
  if (Tab.get msixReset s.hi.msix i).getLsbD 96 then
    { s with hi := { s.hi with pba := if s.hi.pba.contains i then s.hi.pba else s.hi.pba ++ [i] } }
  else if pcieUp s then emit (.msix fn vec) (bump Cnt.hiIrq s)
  else s

/-- A device-wide source of HI_SVEC: 0 time base, 1 candle low water, 2 event recorder, 3 management mailbox (R493). -/
def serviceIrq (n : Nat) (s : State) : State :=
  if s.hi.svecEn.getLsbD n then sendMsix 0 (s.hi.svec.extractLsb' (8 * n) 8) s else s

/-- A mailbox command completes: GO reads 0, the status and detail are written, and the MBOX vector is raised (17 R526). -/
def mbDone (status : BitVec 8) (detail : BitVec 16) (s : State) : State :=
  serviceIrq 3 { s with mg := { s.mg with go := false, ucWait := false, status := status, detail := detail } }

/-- The running microcode command completes once every core has committed (11 R376). -/
def ucFinish (s : State) : State :=
  if s.mg.ucWait && s.cores.all fun (e : Nat × CoreSt) => !e.2.uc.commit then mbDone 0 0 s else s

/-! ### The evacuation ring (R125, R126) -/

def evacRing (s : State) : Nat := 2 ^ s.cn.pool.lv.evacSize.toNat

/-- Entries produced and not consumed, modulo twice the ring size. -/
def evacLeft (s : State) : Nat := (s.cn.evacProd.toNat + 2 * evacRing s - s.cn.evacCons.toNat % (2 * evacRing s)) % (2 * evacRing s)

/-- EVAC_LOW: fewer entries are left than LOW, or LOW lies above the ring (R126, Table 03-15). -/
def evacLow (s : State) : Bool := evacLeft s < s.cn.evacLow.toNat || evacRing s < s.cn.evacLow.toNat

/-- Each crossing of the threshold leaves a record and raises the low-water vector (R126, Table 18-3). -/
def noteLow (s : State) : State :=
  if evacLow s = s.cn.evacWasLow then s
  else
    let s := { s with cn := { s.cn with evacWasLow := evacLow s } }
    if evacLow s then
      serviceIrq 1 (record 1 0x30 0x31 (BitVec.ofNat 64 (evacLeft s)) 0 0 0 0 s)
    else s

end Sys2Proof.Machine
end

