-- ==== Sys2Proof/Machine/Operands.lean ====
section
/-! DEFINITION. The encodings of an instruction (08 Tables 08-1 to 08-3; 09 Table 09-14), its issue in a context with guard,
delay slot and mode-change shadow (R268–R282, R293, R299), and the operand checks of Table 09-1. -/

namespace Sys2Proof.Machine

/-! ### Encodings -/

/-- Format R with GP and GI 0 (Table 08-1). -/
def encR (op : BitVec 6) (rd rs rt fn : BitVec 5) : Word := fn ++ rt ++ rs ++ rd ++ op ++ (0 : BitVec 4) ++ (3 : BitVec 2)
/-- Formats I and M: a 10-bit field in [31:22]. -/
def encM (op : BitVec 6) (rd rs : BitVec 5) (d : BitVec 10) : Word := d ++ rs ++ rd ++ op ++ (0 : BitVec 4) ++ (3 : BitVec 2)
/-- Format K: bank addressing; the access is a long form of OP 0x11. -/
def encK (sub : BitVec 3) (r : BitVec 5) (b : BitVec 2) (d : BitVec 10) : Word :=
  d ++ sub ++ b ++ r ++ (0x11 : BitVec 6) ++ (0 : BitVec 4) ++ (3 : BitVec 2)
/-- Format D: DBNZ. -/
def encD (op : BitVec 6) (rc : BitVec 5) (d : BitVec 15) : Word := d ++ rc ++ op ++ (0 : BitVec 4) ++ (3 : BitVec 2)
/-- Format B: BR and CALL. -/
def encB (op : BitVec 6) (d : BitVec 20) : Word := d ++ op ++ (0 : BitVec 4) ++ (3 : BitVec 2)
/-- Format S-G (Table 08-2). -/
def encS (sop : BitVec 4) (rd rs : BitVec 5) : BitVec 16 := rs ++ rd ++ sop ++ (0 : BitVec 2)
/-- Formats S-L and S-S: r names w8 to w11. -/
def encSB (store : Bool) (b r : BitVec 2) (d : BitVec 10) : BitVec 16 :=
  d ++ r ++ b ++ (if store then (2 : BitVec 2) else (1 : BitVec 2))
/-- Format ZR (R324). -/
def encZR (zop : BitVec 6) (xd xs xt : BitVec 5) (fn : BitVec 11) : Word := fn ++ xt ++ xs ++ xd ++ zop
/-- Format ZI. -/
def encZI (zop : BitVec 6) (xd xs : BitVec 5) (imm : BitVec 16) : Word := imm ++ xs ++ xd ++ zop
/-- Format ZJ. -/
def encZJ (zop : BitVec 6) (d : BitVec 26) : Word := d ++ zop

/-- The guard fields of a long form: GP in [4:2], GI in [5] (R272). -/
def withGuard (w : Word) (gp : P3) (gi : Bool) : Word := w ||| (gp.setWidth 32 <<< 2) ||| ((bit gi).setWidth 32 <<< 5)

/-- An immediate of 16 bits fits the signed 10-bit field of format I or M. -/
def fitsI10 (v : BitVec 16) : Bool := (v.setWidth 10).signExtend 16 = v
def fitsI5 (v : BitVec 16) : Bool := (v.setWidth 5).signExtend 16 = v

/-- What the forms of an instruction are and name: its native long form with guard fields 0, its short form, its Zekief
encoding, the general registers it names, a decode-time cause of its native fields (Table 08-8), whether it is a
block-repeat, whether it reads or writes registers that it does not name, and the f registers it names. -/
structure Form where
  long : Option Word := none
  short : Option (BitVec 16) := none
  zek : Option Word := none
  names : List R5 := []
  bad : Option (BitVec 8) := none
  isRepeat : Bool := false
  all : Bool := false
  fps : List R5 := []

/-- The encoding as w2 shows it (Table 10-4) and the length in bytes, of the form in which the instruction issues; none
when it has no such form in the context's mode. -/
def Form.enc (f : Form) (iss : Iss) (x : Ctx) : Option (Word × Nat) :=
  let bare : Bool := iss.gp = 0 && !iss.gi
  if x.cstat.mode then (if !iss.short && bare then f.zek.map (·, 4) else none)
  else if iss.short then (if bare then f.short.map fun h => ((0 : BitVec 16) ++ h, 2) else none)
  else f.long.map fun w => (withGuard w iss.gp iss.gi, 4)

/-! ### Issue -/

/-- The decode-time cause of an instruction whatever its guard (R268, R270, R275, R277). -/
def decodeCause (f : Form) (iss : Iss) (x : Ctx) : Option (BitVec 8) :=
  if x.cstat.mode then (if x.pc.extractLsb' 0 2 ≠ 0 then some Cause.illAlign else none)
  else if x.pc.getLsbD 0 then some Cause.illAlign
  else if iss.gp = 0 ∧ iss.gi then some Cause.illEnc
  else f.bad

/-- The guard of R275 and of a GUARD prefix (R276); a repeat resumed with RPT set is not guarded again (R291). -/
def guardHolds (f : Form) (iss : Iss) (x : Ctx) : Bool :=
  if f.isRepeat && x.cstat.rpt then true
  else
    let own : Bool := if x.cstat.mode || iss.short then true else Bool.xor (x.pred iss.gp) iss.gi
    let run : Bool := if x.cstat.gcnt = 0 then true else Bool.xor (x.pred x.cstat.gpred) x.cstat.ginv
    own && run

/-- Names w16–w23 while the shadow bank is in use (R243). -/
def shadowNames (f : Form) (x : Ctx) : Bool :=
  x.cstat.shadow && !x.cstat.mode && f.names.any fun r => 16 ≤ r.toNat && r.toNat < 24

/-- A register of the instruction has a load outstanding that missed the lantern L2: the context interlocks (R251, R280,
R281). A load in whose slot the instruction stands does not hold it. -/
def heldBack (f : Form) (x : Ctx) : Bool :=
  x.loads.any fun p => p.late && !p.slot &&
    (f.all || (f.names.any fun r => regLoc x r = p.loc) || f.fps.any fun r => Loc.fp r.toNat = p.loc)

/-- A context may issue: it is RUNNING and no exception waits to be entered. -/
def canIssue (x : Ctx) : Bool := x.st = .running && x.raised.isNone

/-- Loads in front of earlier instructions write their registers; those in front of this one stay pending while it reads
and writes (R280, R281); the mode shadow is taken up. -/
def beginIssue (c : CtxId) (s : State) : State :=
  (retireLoads c s).modCtx c fun x =>
    { x with loads := x.loads.map fun p => { p with slot := false }, msh := none, missed := false }

/-- The instruction raises a synchronous exception, entered by EXCEPTION_ENTRY (R331, R339–R341). -/
def raiseTrap (c : CtxId) (pre : Ctx) (t : Trap) (enc : Word) (len : Nat) (s : State) : State :=
  s.modCtx c fun x =>
    { x with
      raised := some ⟨t, pre.pc, enc, pre.cstat.ldf, pre.msh.map fun _ => pre.pc + BitVec.ofNat 32 len⟩,
      cstat := { x.cstat with mode := pre.msh.getD x.cstat.mode } }

/-- Instructions left under a GUARD prefix after one of them. -/
def decG (g : BitVec 3) : BitVec 3 := if g = 0 then 0 else g - 1

/-- The instruction has completed: the PC, the guard run (R276, R278), the slot of a load (R280) and the end of a
mode-change shadow (R293). -/
def finishAt (c : CtxId) (pre : Ctx) (pc : Word) (jumped : Bool) (s : State) : State :=
  s.modCtx c fun x =>
    { x with
      pc := pc,
      cstat := { x.cstat with
        gcnt := if jumped then 0 else decG x.cstat.gcnt,
        ldf := x.loads.any fun p => p.slot,
        rpt := false,
        mode := pre.msh.getD x.cstat.mode } }

/-- The context stands before its instruction, with the slot and shadow as they were. -/
def holdIssue (c : CtxId) (pre : Ctx) (s : State) : State :=
  s.modCtx c fun x =>
    { x with
      loads := x.loads.map fun p => if pre.loads.contains { p with slot := true } then { p with slot := true } else p,
      msh := pre.msh }

/-- An instruction that waits at issue: its context stops before it (R252, R406, R420). -/
def pauseIssue (c : CtxId) (pre : Ctx) (on : StallOn) (s : State) : State := leave c .stalled on (holdIssue c pre s)

/-- The boundary after an iteration of a block-repeat: RPT set, the PC, guard and mode-change shadow as they were, and a load
in whose slot the repeat was has written its register (R291, Table 08-9). -/
def repeatAgain (c : CtxId) (pre : Ctx) (s : State) : State :=
  (retireLoads c s).modCtx c fun x => { x with cstat := { x.cstat with rpt := true, ldf := false }, msh := pre.msh }

/-- What follows the instruction's own effect. -/
def finish (c : CtxId) (pre : Ctx) (len : Nat) (f : Flow) (s : State) : State :=
  let on := pre.pc + BitVec.ofNat 32 len
  match f with
  | .next => finishAt c pre on false s
  | .jump pc => finishAt c pre pc true s
  | .away st w => leave c st w (finishAt c pre on false s)
  | .yielded => rotate c (finishAt c pre on false s)
  | .placed => s
  | .again => repeatAgain c pre s
  | .held => holdIssue c pre s

/-- The outcome of an instruction's body. -/
def settle (c : CtxId) (pre : Ctx) (enc : Word) (len : Nat) (r : Res Flow) : State :=
  match r with
  | .ok f s => finish c pre len f s
  | .trap t s => raiseTrap c pre t enc len s
  | .wait w s => pauseIssue c pre w s

/-- An instruction issues in its context: decode-time causes, guard, names, outstanding loads, then its own checks and effect
(Table 09-1). A command whose context is not running, or that has no form in the context's mode, changes nothing (log
entry 9). -/
def issueClean (f : Form) (iss : Iss) (body : CtxId → State → Res Flow) (s : State) : State :=
  let c := iss.ctx
  let x := s.ctx c
  if !canIssue x then s
  else
    match f.enc iss x with
    | none => s
    | some (w, len) =>
      match decodeCause f iss x with
      | some k => raiseTrap c x (mkTrap k 0 TWord.unset) w len s
      | none =>
        if !guardHolds f iss x then finish c x len .next (beginIssue c s)
        else if shadowNames f x then raiseTrap c x (mkTrap Cause.privOp 0 TWord.unset) w len s
        else if heldBack f x then leave c .stalled .load s
        else settle c x w len (body c (beginIssue c s))

/-! ### Fetched words (R268–R270, R334) -/

/-- The length in bytes of an encoding (R268, R270). -/
def encLen (mode : Bool) (enc : Word) : Nat := if mode || enc.extractLsb' 0 2 = 3 then 4 else 2

/-- The PC may hold an instruction of the context's mode (R268, R270). -/
def pcAligned (x : Ctx) : Bool := if x.cstat.mode then x.pc.extractLsb' 0 2 = 0 else !x.pc.getLsbD 0

/-- The first parcel, in the upper half of its word, begins a long form, whose second parcel lies in the next word (R268). -/
def needsSecond (x : Ctx) (first : Option (BitVec 16)) : Bool :=
  !x.cstat.mode && x.pc.getLsbD 1 && (match first with | some p => p.extractLsb' 0 2 = 3 | none => false)

/-- The encoding that w2 shows of an instruction of which a fetched word is no RAW word (Table 10-4): the parcels in their
order; first: the parcel before the word, where the word is the second that a long form needs. A parcel that has not been
fetched is free (log entry 1). -/
def fetchedEnc (x : Ctx) (w : Word) (first : Option (BitVec 16)) (s : State) : Word × State :=
  let low := w.extractLsb' 0 16
  let high := w.extractLsb' 16 16
  match first with
  | some p => (low ++ p, s)
  | none =>
    if x.cstat.mode then (w, s)
    else if !x.pc.getLsbD 1 then (if low.extractLsb' 0 2 = 3 then w else (0 : BitVec 16) ++ low, s)
    else if high.extractLsb' 0 2 = 3 then let (v, s) := s.draw; (v.setWidth 16 ++ high, s)
    else ((0 : BitVec 16) ++ high, s)

/-- A word fetched for execution carries another TYPE than RAW (R269). -/
def raiseFetchTag (c : CtxId) (ty : Ty) (w : Word) (first : Option (BitVec 16)) (s : State) : State :=
  let x := s.ctx c
  let (enc, s) := fetchedEnc x w first s
  raiseTrap c x (mkTrap Cause.fetchTag 0 ⟨ty, w⟩) enc (encLen x.cstat.mode enc) s

/-! ### Errors that an instruction meets (log entry 76) -/

/-- A fetch of the line at the PC meets an error: in the L1 I it is corrected, or the line is dropped and fetched again
(Table 13-1); below the L1 I it strikes the line as the refill reads it. A fetched word that is POISON then raises FETCH_TAG. -/
def fetchUpset (c : CtxId) (e : CacheErr) (s : State) : State :=
  let k := coreOf c
  let x := s.ctx c
  match (s.core k).itlb.find? fun t => t.hits x.asid x.pc with
  | none => s
  | some t =>
    let pa := t.pa x.pc
    let ln := lineNo pa
    let i := pa.toNat / 4 % 16
    let refill (s : State) : State :=
      match acquire (lanOf c) none false ln s with
      | .ok _ s =>
        let w := lineWord (s.l2 (lanOf c) ln).words i
        let s := prefetch c true (nextLineVa x.pc) (fillL1 k true ln s)
        if w.ty = Ty.poison then raiseFetchTag c w.ty w.val none s else s
      | .trap _ s => s
      | .wait _ s => prefetch c true (nextLineVa x.pc)
          (s.modLan (lanOf c) fun a => { a with fills := a.fills ++ [(ln, k, true)] })
    let drop (s : State) : State := s.modCore k fun y => { y with l1i := l1Drop y.l1i ln }
    match l1Find (s.core k).l1i ln, e with
    | some _, .l1Corr => bump Cnt.ccL1Corr s
    | some _, .l1Key => refill (bump Cnt.ccL1Keypar (drop s))
    | some _, .l1Uncorr => refill (bump Cnt.ccL1Refill (drop s))
    | none, _ => refill (strikeLine (lanOf c) none ln i e s)
    | some _, _ => s

/-- The index in the patch RAM of the word that a hook puts in place of a ROM microaddress (R363). -/
def Uc.hookAt (u : Uc) (a : BitVec 13) : Option Nat :=
  if a.toNat < 0x1000 then
    (u.hooks.findSome? fun (h : Nat × Option (BitVec 32)) => h.2.filter fun e => e.extractLsb' 0 13 = a).map fun e =>
      (e.extractLsb' 16 11).toNat
  else none

/-- An uncorrectable error at a fetch from the control store (Table 11-7): the core leaves service; a ROM word is recorded, and
any other, the patch word of a hook among them, waits to be rewritten. -/
def cstoreError (c : CtxId) (a : BitVec 13) (s : State) : Res Flow :=
  let k := coreOf c
  let setUc (f : Uc → Uc) (s : State) : State := s.modCore k fun x => { x with uc := f x.uc }
  let again (a : BitVec 13) : Res Flow :=
    trapN Cause.cstoreEcc (setUc (fun u => { u with mode := .table, rewrite := some a }) s)
  if 0x1000 ≤ a.toNat then again a
  else match (s.core k).uc.hookAt a with
    | some i => again (0x1000 + BitVec.ofNat 13 i)
    | none =>
      trapN Cause.cstoreEcc (record 3 (0xC0 + (lanOf c).setWidth 8) 0x21 (c.setWidth 64) (a.setWidth 64) 0 0 0
        (setUc (fun u => { u with mode := .failed }) s))

/-- A correctable error of a control-store word is corrected and counted (R352). -/
def cstoreCorrect (s : State) : State := { s with ms := { s.ms with cstoreCorr := s.ms.cstoreCorr + 1 } }

/-- The microcode of an instruction fetches a word with an error (R352, R364). -/
def microMeets (n : Nat) (uncorr : Bool) (body : CtxId → State → Res Flow) (c : CtxId) (s : State) : Res Flow :=
  if uncorr then cstoreError c (BitVec.ofNat 13 n) s else body c (cstoreCorrect s)

/-- As issueClean, with the error that the command says the instruction meets (log entry 76). -/
def issue (f : Form) (iss : Iss) (body : CtxId → State → Res Flow) (s : State) : State :=
  match iss.upset with
  | .none => issueClean f iss body s
  | .fetch e =>
    issueClean f iss body (if canIssue (s.ctx iss.ctx) && pcAligned (s.ctx iss.ctx) then fetchUpset iss.ctx e s else s)
  | .data e => { issueClean f iss body { s with strike := e } with strike := s.strike }
  | .micro n uncorr => issueClean f iss (microMeets n uncorr body) s

/-! ### Operands and results -/

/-- The value of a named register of the context. -/
def opnd (c : CtxId) (f : R5) (s : State) : TWord := (s.ctx c).reg f

/-- The level of a context. -/
def privOf (c : CtxId) (s : State) : BitVec 2 := (s.ctx c).cstat.priv

/-- Writes a register and goes on. -/
def putR (c : CtxId) (rd : R5) (v : TWord) (s : State) : Res Flow := .ok .next (s.modCtx c fun x => x.setReg rd v)

/-- Writes a predicate and goes on. -/
def putP (c : CtxId) (pd : P3) (v : Bool) (s : State) : Res Flow := .ok .next (s.modCtx c fun x => x.setPred pd v)

/-- A predicate result: p[pd] in native mode, a BOOL in xd in Zekief mode (Table 09-14). -/
def putB (c : CtxId) (pd : R5) (v : Bool) (s : State) : Res Flow :=
  if (s.ctx c).cstat.mode then putR c pd (TWord.bool v) s else putP c (pd.setWidth 3) v s

/-- A load has been performed: its value waits for the scoreboard; a later load to the same register replaces it. slot: it is
of the load class, which opens a delay slot in native mode (R270, R280). It is late when it missed the lantern L2 (R251). -/
def addLoad (c : CtxId) (l : Loc) (v : TWord) (slot : Bool) (s : State) : State :=
  s.modCtx c fun x => { x with loads := (x.loads.filter fun p => p.loc ≠ l) ++ [⟨l, v, slot && !x.cstat.mode, x.missed⟩] }

/-- A load-class result in a named register (R280). -/
def putLoad (c : CtxId) (rd : R5) (v : TWord) (s : State) : Res Flow :=
  .ok .next (addLoad c (regLoc (s.ctx c) rd) v true s)

/-- A privileged instruction at USER raises PRIV_OP (R319, R321). -/
def needPriv (c : CtxId) (s : State) : Res Unit :=
  if privOf c s = 0 then trapN Cause.privOp s else .ok () s

/-- A FIX operand. -/
def checkFix (w : TWord) (s : State) : Res Unit := checkTy (· == Ty.fix) w s

/-- A FIX operand within 0 to hi, else BAD_PAYLOAD. -/
def checkFixTo (hi : Nat) (w : TWord) (s : State) : Res Unit :=
  (checkFix w s).bind fun _ s => if hi < w.val.toNat then trapW Cause.badPayload w s else .ok () s

/-- The event of a context's task. -/
def candleOf (c : CtxId) (s : State) : Option (BitVec 19) := handleOf s c

/-- A sign-extended displacement in bytes. -/
def disp10 (d : BitVec 10) : Word := d.signExtend 32 <<< 2

/-- An instruction command: it issues in its context. -/
def run (f : Form) (iss : Iss) (body : CtxId → State → Res Flow) (s : State) : Outcome := .next (issue f iss body s)

/-- A long form R with the fields rd, rs, rt, and its Zekief encoding of the same fields. -/
def formR (op : BitVec 6) (fn : BitVec 5) (rd rs rt : R5) (z : Option (BitVec 6 × BitVec 11) := none) : Form :=
  { long := some (encR op rd rs rt fn), zek := z.map fun z => encZR z.1 rd rs rt z.2, names := [rd, rs, rt] }

/-- As formR, with a short form rd = rd op rt of Table 08-3. -/
def formG (op : BitVec 6) (fn : BitVec 5) (sop : BitVec 4) (rd rs rt : R5) (zfn : BitVec 11) : Form :=
  { formR op fn rd rs rt (some (0x00, zfn)) with short := if rd = rs then some (encS sop rd rt) else none }

/-- Format C: a predicate in the rd field, whose upper bits are 0 (Table 08-1). -/
def formC (op : BitVec 6) (fn : BitVec 5) (pd rs rt : R5) (z : Option (BitVec 6 × BitVec 11) := none) : Form :=
  { long := some (encR op pd rs rt fn), zek := z.map fun z => encZR z.1 pd rs rt z.2, names := [rs, rt],
    bad := if 8 ≤ pd.toNat then some Cause.illEnc else none }

/-- Format R with all fields 0. -/
def formZero (op : BitVec 6) (fn : BitVec 5) : Form := { long := some (encR op 0 0 0 fn) }

def p5 (p : P3) : R5 := p.setWidth 5

/-- CALL, CALLR and RET on the shadow bank raise PRIV_OP (R311, R335). -/
def notOnShadow (c : CtxId) (s : State) : Res Unit :=
  if (s.ctx c).cstat.shadow then trapN Cause.privOp s else .ok () s

/-- Which TYPE a RETAG may create from which (Table 02-7). -/
def retagOk (priv : BitVec 2) (src dst : Ty) : Bool :=
  if priv = 0 then isImmediate dst && isImmediate src
  else isImmediate dst || isPointer dst || dst = Ty.hdr || dst = Ty.pte || dst = Ty.save || dst = Ty.unset

end Sys2Proof.Machine
end

