-- ==== Sys2Proof/Machine/Alloc.lean ====
section
/-! DEFINITION. Grants of spans and chunks by the candle manager, and allocation by cores (03 R99–R106, R125; 02 R79,
R86). -/

namespace Sys2Proof.Machine

/-! ### Grants -/

/-- CN_FREE_MIN follows the number of FREE spans down (Table 03-13). -/
def noteFree (s : State) : State :=
  let n := freeSpans s.cn
  if n < s.cn.freeMin.toNat then { s with cn := { s.cn with freeMin := BitVec.ofNat 16 n } } else s

/-- A FREE span joins a candle: SLOT and GEN written (Table 03-2). -/
def takeSpan (slot idx : Nat) (s : State) : State :=
  let e : SpanEnt := { s.cn.span idx with st := .candle, slot := BitVec.ofNat 11 slot, gen := (s.slot slot).gen }
  noteFree ((setSpan idx e s).modSlot slot fun t => { t with spans := t.spans ++ [idx] })

/-- A span whose cooling has ended becomes FREE, or RETIRED with a record (Table 03-2). -/
def expireSpan (i : Nat) (s : State) : State :=
  let e := s.cn.span i
  if e.retpend then record 1 0x30 0x30 (BitVec.ofNat 64 i) 0 0 0 0 (setSpan i { e with st := .retired } s)
  else setSpan i { e with st := .free } s

/-- Spans leave COOLING in their order, as far as their expiry has come (R98); n bounds their number. -/
def expireDue : Nat → State → State
  | 0, s => s
  | n + 1, s =>
    match s.cn.cooling with
    | [] => s
    | (i, t) :: r => if s.time < t then s else expireDue n (expireSpan i { s with cn := { s.cn with cooling := r } })

/-- A span whose expiry has come is FREE before a span request is served (Table 03-9). -/
def coolDue (s : State) : State := expireDue s.cn.cooling.length s

/-- FREE spans of a bank, as span table indices. -/
def freeOf (cn : CnSt) (n : Nat) : List Nat :=
  let b := cn.bank n
  if b.en then ((List.range b.size).map (n * 2048 + ·)).filter fun i => (cn.span i).st = .free else []

/-- Grants n spans of the candle's bank one by one; which FREE span is taken is a free choice (log entry 10). -/
def takeSpans (slot : Nat) (fresh : Bool) : Nat → State → State
  | 0, s => s
  | n + 1, s =>
    let l := freeOf s.cn (s.slot slot).bank.toNat
    let (i, s) := s.pick l.length
    match l[i]? with
    | none => s
    | some idx =>
      let s := takeSpan slot idx s
      takeSpans slot fresh n (if fresh then s.modSlot slot fun t => { t with fresh := t.fresh ++ [idx] } else s)

/-- Whether a candle can be granted n spans, or the cause of Table 03-4; where both hold, CANDLE_FULL (log entry 79). No span
is granted after the power-fail warning (R138). -/
def grantCause (slot n : Nat) (s : State) : Option (BitVec 8) :=
  let t := s.slot slot
  if 256 < t.spans.length + n then some Cause.candleFull
  else if s.pf ∨ bankFree s.cn t.bank.toNat < n then some Cause.poolEmpty
  else none

/-- A chunk carved from the candle's current span, or from the next one (R102). Answers its virtual base. -/
def carveChunk (slot : Nat) (size : Nat) (s : State) : Sum (BitVec 8) Word × State :=
  let t := s.slot slot
  let use (idx off : Nat) (fresh : List Nat) (s : State) : Sum (BitVec 8) Word × State :=
    (.inr (spanVirt idx + BitVec.ofNat 32 off),
      s.modSlot slot fun t => { t with cur := some (idx, off + size), fresh := fresh })
  let next (s : State) : Sum (BitVec 8) Word × State :=
    match (s.slot slot).fresh with
    | idx :: r => use idx 0 r s
    | [] =>
      let s := coolDue s
      match grantCause slot 1 s with
      | some c => (.inl c, s)
      | none =>
        let s := takeSpans slot true 1 s
        match (s.slot slot).fresh with
        | idx :: r => use idx 0 r s
        | [] => (.inl Cause.poolEmpty, s)
  match t.cur with
  | some (idx, off) => if off + size ≤ 0x100000 then use idx off t.fresh s else next s
  | none => next s

def chunkBytes (s : State) : Nat := 4096 * 2 ^ s.cn.run.lv.chunk.toNat

/-- A lantern's cursor of a candle gets a new chunk; the rest of the old one is discarded, and of more than 8 cursors the
one unused for longest is given up (R102). -/
def refillCursor (l : Lan) (slot : Nat) (s : State) : Option (BitVec 8) × State :=
  match carveChunk slot (chunkBytes s) s with
  | (.inl c, s) => (some c, s)
  | (.inr va, s) =>
    (none, s.modLan l fun a =>
      { a with cursors := (⟨slot, va.toNat, va.toNat + chunkBytes s⟩ :: a.cursors.filter fun c => c.slot ≠ slot).take 8 })

/-! ### Places -/

/-- Where an allocation will lie, before anything has been written. -/
inductive Place where
  /-- in the lantern's cursor -/
  | cursor (slot : Nat) (va : Word)
  /-- at the start of k contiguous FREE spans -/
  | run (slot idx k : Nat)
  /-- in the evacuation area: entries of the ring consumed, and the span with its used bytes afterwards -/
  | evac (taken : Nat) (va : Word) (after : EvacSpan)
  deriving DecidableEq, Repr

def Place.va : Place → Word
  | .cursor _ va => va
  | .run _ idx _ => spanVirt idx
  | .evac _ va _ => va

def alignTo (a n : Nat) : Nat := (n + a - 1) / a * a

/-- An entry of the evacuation ring, i places after the next: LOCAL span index and virtual base in MiB. -/
def evacEntry (i : Nat) (s : State) : (Nat × BitVec 12) × State :=
  let p := s.cn.pool.lv.evacBase + BitVec.ofNat 53 (8 * ((s.cn.evacCons.toNat + i) % evacRing s))
  let (w0, s) := physRead p s
  let (w1, s) := physRead (p + 4) s
  ((((w0.val.extractLsb' 0 17).toNat), w1.val.extractLsb' 20 12), s)

/-- The next k entries name consecutive virtual bases and LOCAL indices (R125). -/
def evacRun (loc : Nat) (vb : BitVec 12) : Nat → Nat → State → Bool × State
  | _, 0, s => (true, s)
  | i, n + 1, s =>
    let (e, s) := evacEntry i s
    if e.1 = loc + i ∧ e.2 = vb + BitVec.ofNat 12 i then evacRun loc vb (i + 1) n s else (false, s)

/-- A place in the evacuation area (R125): in the rest of the present span, or from the base of the next; an object larger
than 1 MiB takes a run. -/
def evacPlace (bytes align : Nat) (s : State) : Option Place × State :=
  let fresh (s : State) : Option Place × State :=
    let k := (bytes + 0xFFFFF) / 0x100000
    if evacLeft s < max k 1 then (none, s)
    else
      let (e, s) := evacEntry 0 s
      let (ok, s) := evacRun e.1 e.2 0 (max k 1) s
      let last := max k 1 - 1
      if ok then
        (some (.evac (max k 1) (e.2 ++ (0 : BitVec 20))
          ⟨e.1 + last, e.2 + BitVec.ofNat 12 last, bytes - last * 0x100000⟩), s)
      else (none, s)
  match s.cn.evac with
  | some e =>
    let off := alignTo align e.off
    if off + bytes ≤ 0x100000 then
      (some (.evac 0 (e.vbase ++ BitVec.ofNat 20 off) { e with off := off + bytes }), s)
    else fresh s
  | none => fresh s

/-- The evacuation area after an allocation in it. -/
def evacTake (taken : Nat) (after : EvacSpan) (s : State) : State :=
  noteLow { s with cn := { s.cn with
    evac := some after,
    evacCons := BitVec.ofNat 13 ((s.cn.evacCons.toNat + taken) % (2 * evacRing s)) } }

/-- Contiguous FREE runs of k spans in a bank, by their first index. -/
def freeRuns (cn : CnSt) (n k : Nat) : List Nat :=
  (freeOf cn n).filter fun i =>
    i % 2048 + k ≤ (cn.bank n).size && (List.range k).all fun j => (cn.span (i + j)).st = .free

/-- A place for an object of the executing task (R102, R103, R105, R106). -/
def place (c : CtxId) (bytes align : Nat) (s : State) : Res Place :=
  match handleOf s c with
  | none =>
    if privOf c s = 0 then trapN Cause.noArea s
    else match evacPlace bytes align { s with miss := none } with
      | (p, t) =>
        if t.miss.isSome then .wait .remote (withLines (fun s => (evacPlace bytes align s).2) s)
        else match p with
          | some p => .ok p t
          | none => trapN Cause.noArea t
  | some h =>
    let slot := hSlot h
    if chunkBytes s < bytes then
      let k := (bytes + 0xFFFFF) / 0x100000
      let s := coolDue s
      match grantCause slot k s with
      | some e => trapN e s
      | none =>
        let runs := freeRuns s.cn (s.slot slot).bank.toNat k
        let (i, s) := s.pick runs.length
        match runs[i]? with
        | none => trapN Cause.poolFrag s
        | some idx => .ok (.run slot idx k) s
    else
      let fits (u : Cursor) : Bool := alignTo align u.next + bytes ≤ u.stop
      let at' (u : Cursor) : Place := .cursor slot (BitVec.ofNat 32 (alignTo align u.next))
      match (s.lan (lanOf c)).cursors.find? fun u => u.slot = slot && fits u with
      | some u => .ok (at' u) s
      | none =>
        match refillCursor (lanOf c) slot s with
        | (some e, s) => trapN e s
        | (none, s) =>
          match (s.lan (lanOf c)).cursors.find? fun u => u.slot = slot with
          | some u => .ok (at' u) s
          | none => trapN Cause.poolEmpty s

/-- The place is taken. -/
def Place.commit (l : Lan) (bytes : Nat) (p : Place) (s : State) : State :=
  match p with
  | .cursor slot va =>
    s.modLan l fun a =>
      match a.cursors.find? fun u => u.slot = slot with
      | some u => { a with cursors := { u with next := va.toNat + bytes } :: a.cursors.filter fun u => u.slot ≠ slot }
      | none => a
  | .run slot idx k => (List.range k).foldl (fun s j => takeSpan slot (idx + j) s) s
  | .evac n _ after => evacTake n after s

/-! ### Writing -/

/-- The oldest merging-buffer entry is performed when a word would find no room. -/
def makeRoom (c : CtxId) (ln : Nat) (s : State) : Res Unit :=
  if mergeRoom (s.core (coreOf c)) ln then .ok () s
  else match (s.core (coreOf c)).merge with
    | [] => .ok () s
    | m :: _ => (drainTo (coreOf c) (some c) m.line 1 s)

end Sys2Proof.Machine
end

