-- ==== Sys2Proof/Machine/Crc.lean ====
section
/-! DEFINITION. Check codes and byte order of 64-bit words (04 R142, R148; 05 Table 05-6). -/

namespace Sys2Proof.Machine

/-- Byte i of a 64-bit word, byte 0 its bits [7:0] (R142). -/
def byteOf (w : BitVec 64) (i : Nat) : Byte := w.extractLsb' (8 * i) 8

/-- The eight bytes of a word, byte 0 first. -/
def bytes8 (w : BitVec 64) : List Byte := (List.range 8).map (byteOf w)

/-- One bit of a reflected CRC-32C. -/
def crc32cBit (c : BitVec 32) : BitVec 32 := if c.getLsbD 0 then (c >>> 1) ^^^ 0x82F63B78 else c >>> 1

def crc32cByte (c : BitVec 32) (b : Byte) : BitVec 32 := Nat.iterate crc32cBit 8 (c ^^^ b.setWidth 32)

/-- CRC-32C: polynomial 0x1EDC_6F41, input and output reflected, initial value and final XOR 0xFFFF_FFFF (R148). -/
def crc32c (bs : List Byte) : BitVec 32 := bs.foldl crc32cByte 0xFFFFFFFF ^^^ 0xFFFFFFFF

/-- One bit of a CRC-16 with polynomial 0x1021, most significant bit first. -/
def crc16Bit (c : BitVec 16) : BitVec 16 := if c.getLsbD 15 then (c <<< 1) ^^^ 0x1021 else c <<< 1

def crc16Byte (c : BitVec 16) (b : Byte) : BitVec 16 := Nat.iterate crc16Bit 8 (c ^^^ (b.setWidth 16 <<< 8))

/-- CRC-16: polynomial 0x1021, initial value 0xFFFF, no reflection (Table 05-6). -/
def crc16 (bs : List Byte) : BitVec 16 := bs.foldl crc16Byte 0xFFFF

/-- A number of n bytes at an offset, least significant first. -/
def leAt (l : List Byte) (off n : Nat) : Nat :=
  ((l.drop off).take n).foldr (fun (b : Byte) (v : Nat) => v * 256 + b.toNat) 0

def wordAt (l : List Byte) (off : Nat) : Word := BitVec.ofNat 32 (leAt l off 4)

end Sys2Proof.Machine
end

