-- ==== Sys2Proof/Machine/Lamp.lean ====
section
/-! DEFINITION. The Lamplighter: templates, instances, descriptors, the ready store, wake-ups and the kill (05 R180–R194,
R203, R211). -/

namespace Sys2Proof.Machine

/-! ### Descriptors -/

def taskCount (s : State) : Nat := 2 ^ s.ll.pool.lv.taskLog2.toNat
def resvOf (s : State) : Nat := s.ll.pool.lv.resv.toNat

/-- STATE of a descriptor (Table 05-4). -/
def TaskSt.code : TaskSt → BitVec 3
  | .free => 0
  | .ready => 1
  | .running => 2
  | .waiting => 3

/-- Virtual address of the save area of a descriptor: the low 32 bits of its physical address (R256). -/
def saveArea (s : State) (i : Nat) : Word := (s.ll.pool.lv.saveBase + BitVec.ofNat 53 (1024 * i)).setWidth 32

/-- The 16 words of a descriptor (Table 05-2). -/
def descImage (s : State) (i : Nat) (t : TaskD) : List MWord :=
  [⟨Ty.hdr, false, false, 0xC100000F⟩, t.entry.m,
   rawM ((0 : BitVec 4) ++ t.tmpl ++ bit t.rsv ++ t.lan ++ t.pin ++ t.affinity ++ t.priv ++ t.prio ++ t.st.code),
   (match t.handle with | some h => TWord.fix (h.setWidth 32) | none => TWord.nil).m,
   (⟨Ty.time, t.deadline.setWidth 32⟩ : TWord).m, rawM (t.deadline.extractLsb' 32 32), rawM (t.asid.setWidth 32),
   (⟨Ty.save, saveArea s i⟩ : TWord).m] ++
  ((List.range 7).map fun j => (t.args.getD j TWord.nil).m) ++
  [rawM ((0 : BitVec 12) ++ bit t.pend ++ t.waitId ++ t.waitKind)]

/-- Writes the descriptor's line in the task table (R180). -/
def putDesc (i : Nat) (t : TaskD) (s : State) : State :=
  let ws := descImage s i t
  physWriteLine none (lineNo (s.ll.pool.lv.taskBase + BitVec.ofNat 53 (64 * i)))
    ((List.range 16).map fun j => (j, some (ws.getD j MWord.unset))) s

/-- Changes a descriptor, in the Lamplighter and in the task table. -/
def putTask (i : Nat) (f : TaskD → TaskD) (s : State) : State := putDesc i (f (s.task i)) (s.modTask i f)

/-- The first FREE descriptor of n from an index. -/
def firstFree (s : State) (lo : Nat) : Nat → Option Nat
  | 0 => none
  | n + 1 => if (s.task lo).st = .free then some lo else firstFree s (lo + 1) n

/-- The descriptor that an instance takes: for level 1 of a slot its reservation, then the general pool (R180). -/
def findDesc (s : State) (slot : Option Nat) : Option (Nat × Bool) :=
  let general := (firstFree s (2048 * resvOf s) (taskCount s - 2048 * resvOf s)).map (·, false)
  match slot with
  | none => general
  | some n =>
    match firstFree s (n * resvOf s) (resvOf s) with
    | some i => some (i, true)
    | none => general

/-! ### The ready store (R187) -/

def liveTasks (s : State) : List (Nat × TaskD) := s.ll.tasks.filter fun e => e.2.st ≠ .free

/-- Tasks in the ready store: ready and running ones; a WAITING task holds no entry (R187). -/
def storeTasks (s : State) : List (Nat × TaskD) := s.ll.tasks.filter fun e => e.2.st = .ready ∨ e.2.st = .running

/-- The class of the entry that a task of a level takes, if one is free. -/
def findEntry (s : State) (level : BitVec 2) (handle : Option (BitVec 19)) : Option ReadyClass :=
  let used (p : TaskD → Bool) : Nat := ((storeTasks s).filter fun e => p e.2).length
  let shared : Option ReadyClass :=
    if used (fun t => t.cls = .shared) < 16384 - 2048 * resvOf s - 256 then some .shared else none
  if level = 0 ∧ used (fun t => t.cls = .level0) < 256 then some .level0
  else
    match level, handle with
    | 1, some h =>
      if used (fun t => t.cls = .level1 && decide (t.handle.map hSlot = some (hSlot h))) < resvOf s then some .level1
      else shared
    | _, _ => shared

/-! ### Lanterns (R190, R191) -/

def lanMask (s : State) : List Lan :=
  let m := if s.ll.lanmask = 0 then 1 else s.ll.lanmask
  ((List.range 32).filter fun l => m.getLsbD l).map (BitVec.ofNat 5)

/-- READY tasks queued on a lantern. -/
def queueOf (s : State) (l : Lan) : List (Nat × TaskD) := s.ll.tasks.filter fun e => e.2.st = .ready ∧ e.2.lan = l

/-- Level-1 tasks ready or running on a lantern. -/
def levelOne (s : State) (l : Lan) : Nat :=
  (s.ll.tasks.filter fun e => (e.2.st = .ready ∨ e.2.st = .running) ∧ e.2.prio = 1 ∧ e.2.lan = l).length

/-- The first lantern of a list with the least of a measure. -/
def leastBy (f : Lan → Nat) : List Lan → Option Lan
  | [] => none
  | l :: r => match leastBy f r with
    | none => some l
    | some m => if f m < f l then some m else some l

/-- Masked lanterns in ascending order with wrap from the one after the previous home. -/
def afterHome (s : State) : List Lan :=
  let m := lanMask s
  (m.filter fun l => s.ll.prevHome < l) ++ m.filter fun l => l ≤ s.ll.prevHome

/-- The home lantern of a new event (R190). -/
def nameHome (s : State) : Lan :=
  let l := afterHome s
  (if s.ll.homemode then l.head? else leastBy (levelOne s) l).getD 0

/-- The lantern on which a new task is queued (R191). -/
def queueLan (s : State) (t : Templ) (handle : Option (BitVec 19)) : Lan :=
  let least := (leastBy (fun l => (queueOf s l).length) (lanMask s)).getD 0
  if t.affinity = 2 then t.pin
  else if t.affinity = 0 then match handle with | some h => (s.event (hSlot h)).home | none => least
  else least

/-! ### Instances (R181, R182, R187–R189) -/

/-- The address space of a task: its candle's bank, or that of bank 0 (R95, R181). -/
def taskAsid (s : State) : Option (BitVec 19) → BitVec 12
  | some h => s.cn.pool.lv.asid + (s.slot (hSlot h)).bank.setWidth 12
  | none => s.cn.pool.lv.asid

/-- The root record's pointer (R101, R181). -/
def rootPtr (s : State) : Option (BitVec 19) → TWord
  | some h => match (s.slot (hSlot h)).spans with | i :: _ => ⟨Ty.rec_, spanVirt i⟩ | [] => TWord.nil
  | none => TWord.nil

def handleWord : Option (BitVec 19) → TWord
  | some h => TWord.fix (h.setWidth 32)
  | none => TWord.nil

/-- A task is made in a descriptor: its line, and TOP, FILL, BACK and NEXT of its save area (R256). -/
def makeTask (i : Inst) (idx : Nat) (rsv : Bool) (cls : ReadyClass) (s : State) : State :=
  let t : TaskD :=
    { st := .ready, prio := i.level, priv := i.t.priv, affinity := if i.t.affinity = 3 then 1 else i.t.affinity,
      pin := i.t.pin, lan := queueLan s i.t i.handle, rsv := rsv, tmpl := BitVec.ofNat 8 i.tmpl, handle := i.handle,
      deadline := i.deadline, asid := taskAsid s i.handle, entry := i.t.entry,
      args := [handleWord i.handle, i.w1, rootPtr s i.handle] ++ i.t.args,
      waitKind := 0, waitId := 0, pend := false, saved := false, cls := cls, ctx := none }
  let area := s.ll.pool.lv.saveBase + BitVec.ofNat 53 (1024 * idx)
  bump Cnt.llTasks (physWrites none (area + 0x3F0) [TWord.nil.m, rawM 0, TWord.nil.m, TWord.nil.m]
    (putTask idx (fun _ => t) s))

/-- An instance is made when a descriptor and an entry are free. -/
def tryMake (i : Inst) (s : State) : Option State :=
  match findEntry s i.level i.handle, findDesc s (if i.level = 1 then i.handle.map hSlot else none) with
  | some cls, some (idx, rsv) => some (makeTask i idx rsv cls s)
  | _, _ => none

/-- Level-1 tasks of an event existing or pending (R188). -/
def levelOneOf (s : State) (h : BitVec 19) : Nat :=
  ((liveTasks s).filter fun e => e.2.handle = some h ∧ e.2.prio = 1).length +
    (s.ll.pendL1.filter fun p => p.handle = some h).length

def deferSize (s : State) : Nat := 2 ^ s.ll.pool.lv.deferLog2.toNat

/-- Free words: what the spec does not give of an entry's layout (log entry 1). -/
def freeRaws : Nat → State → List MWord × State
  | 0, s => ([], s)
  | n + 1, s =>
    let (v, s) := s.draw
    let (l, s) := freeRaws n s
    (rawM v :: l, s)

/-- A deferred instance takes an entry of the defer ring, or is dropped while the ring is full (R189). -/
def deferInst (i : Inst) (s : State) : State :=
  if deferSize s ≤ s.ll.defer.length then
    bump Cnt.llDeferDrop { s with ms := { s.ms with deferDrop := s.ms.deferDrop + 1 } }
  else
    let pos := (s.ll.deferHead + s.ll.defer.length) % deferSize s
    let (ws, s) := freeRaws 8 s
    let s := physWrites none (s.ll.pool.lv.deferBase + BitVec.ofNat 53 (32 * pos)) ws s
    bump Cnt.llDefer { s with ll := { s.ll with defer := s.ll.defer ++ [i] } }

/-- A dropped level-1 instance is logged once for its event (R188). -/
def dropL1 (h : BitVec 19) (s : State) : State :=
  let s := bump Cnt.llL1Drop s
  if (s.event (hSlot h)).l1Logged then s
  else
    (record 1 0x20 0x11 ((s.event (hSlot h)).crossing.setWidth 64) (handleArg (some h)) 0 0 0 s).modEvent (hSlot h)
      fun e => { e with l1Logged := true }

def tooMany (s : State) (i : Inst) : Bool :=
  match i.handle with | some h => i.level = 1 && 64 ≤ levelOneOf s h | none => false

/-- One instance: made, pending, deferred or dropped (R188). A level-1 instance of no event that cannot be made has no event whose
pending list could hold it: it stands in one list of the device, and is made when any task ends (DESIGN CHOICE, log entry
104). -/
def instantiate (i : Inst) (s : State) : State :=
  if tooMany s i then (match i.handle with | some h => dropL1 h s | none => s)
  else
    match tryMake i s with
    | some s => s
    | none => if i.level = 1 then { s with ll := { s.ll with pendL1 := s.ll.pendL1 ++ [i] } } else deferInst i s

/-- The level of an instance: CLOSE at 1; a USER template of level 0 at 1, counted (R185, Table 05-3). -/
def instLevel (close : Bool) (t : Templ) : BitVec 2 := if close ∨ (t.prio = 0 ∧ t.priv = 0) then 1 else t.prio

/-- COUNT instances of one template. -/
def instTemplate (n : Nat) (t : Templ) (close : Bool) (handle : Option (BitVec 19)) (deadline : BitVec 64) (w1 : TWord)
    (count : Nat) (s : State) : State :=
  (List.range count).foldl (fun s _ =>
    let s := if t.prio = 0 ∧ t.priv = 0 then bump Cnt.llTmplErr s else s
    instantiate ⟨n, t, instLevel close t, handle, deadline, w1⟩ s) s

/-! ### Wake-ups (R182, R183) -/

def State.hard (s : State) (slot : Nat) : BitVec 64 := (s.event slot).t0 + (s.event slot).deadline.setWidth 64

/-- Nothing is instantiated or dispatched while ENABLE is 0 or after the power-fail warning (Table 05-12, R213). -/
def llRuns (s : State) : Bool := s.ll.enable && !s.pf

/-- The event of a handle can still be given work: not stale, DECIDED, SNUFFED or RETIRING (R183). -/
def wakeable (s : State) (h : BitVec 19) : Bool :=
  !s.stale h && (match (s.slot (hSlot h)).st with | .opened | .closed => true | _ => false)

def liveTempls (s : State) : List (Nat × Templ) :=
  ((List.range s.ll.menu.lv.tmpls.toNat).map fun i => (i, Tab.get Templ.off s.ll.templ i)).filter fun e => e.2.en

/-- A wake-up of a kind: the templates of the kind that it selects are instantiated in ascending index. -/
def wake (kind : BitVec 3) (sel : Templ → Bool) (handle : Option (BitVec 19)) (w1 : TWord) (s : State) : State :=
  let late := match handle with | some h => !wakeable s h | none => false
  if s.pf then s
  else if !s.ll.enable || late then bump Cnt.llWakeLate s
  else
    ((liveTempls s).filter fun (e : Nat × Templ) => decide (e.2.kind = kind) && sel e.2).foldl (fun s (e : Nat × Templ) =>
      let dl := match handle with | some h => s.hard (hSlot h) | none => s.time + e.2.rel.setWidth 64
      instTemplate e.1 e.2 (kind = 1) handle dl w1 e.2.count.toNat s) s

/-- A wake-up addressed to an existing task: a WAITING one is readied, another gets PEND (Table 05-4, R184). The task takes an
entry of the ready store again; Table 05-4 readies it also when none is free, and it then counts as a shared one (DESIGN CHOICE,
log entry 18). -/
def readyTask (i : Nat) (waits : TaskD → Bool) (s : State) : State :=
  let t := s.task i
  match t.st with
  | .free => s
  | .waiting =>
    if waits t then
      let cls := (findEntry s t.prio t.handle).getD .shared
      match t.ctx with
      | some c => wakeCtx c (putTask i (fun t => { t with st := .running, cls := cls }) s)
      | none => putTask i (fun t => { t with st := .ready, cls := cls }) s
    else putTask i (fun t => { t with pend := true }) s
  | .ready | .running => putTask i (fun t => { t with pend := true }) s

/-! ### The end of a task -/

/-- A descriptor becomes FREE; its listener entries are cleared (R184), and the jobs of the task wake nobody (06 R236). -/
def freeDesc (i : Nat) (s : State) : State :=
  let s := putDesc i { s.task i with st := .free } (s.modTask i fun _ => TaskD.free)
  { s with
    ll := { s.ll with listeners := s.ll.listeners.filter fun e => e.2 ≠ some i },
    tp := { s.tp with jobs := s.tp.jobs.map fun (e : Nat × Option Job) =>
      (e.1, e.2.map fun (j : Job) => if j.task = some i then { j with task := none } else j) } }

/-- Pending level-1 instances are made in the order in which they were requested (R188, R211). -/
def makePending : List Inst → State → State
  | [], s => s
  | i :: r, s =>
    match tryMake i s with
    | some s => makePending r s
    | none => makePending r { s with ll := { s.ll with pendL1 := s.ll.pendL1 ++ [i] } }

def servePending (s : State) : State :=
  if llRuns s then makePending s.ll.pendL1 { s with ll := { s.ll with pendL1 := [] } } else s

/-- A task ends: its context, if any, becomes EMPTY and its descriptor FREE. -/
def endTask (i : Nat) (s : State) : State :=
  let s := match (s.task i).ctx with | some c => emptyCtx c s | none => s
  servePending (freeDesc i s)

/-! ### The kill (R203, Table 05-5) -/

/-- A store that waits at issue is abandoned and counted (R121, R133). -/
def abandonStore (c : CtxId) (s : State) : State :=
  match (s.ctx c).stall with
  | .escape => bump Cnt.cnEscAbandon (dropStall c s)
  | .mlog => bump Cnt.cnMlogAbandon (dropStall c s)
  | _ => s

/-- The messages of an event's tasks that are still in send buffers are discarded and counted. -/
def dropMessages (h : BitVec 19) (s : State) : State :=
  let n := (s.cores.map fun e => (e.2.send.filter fun m => m.owner = some h).length).sum
  bumpBy Cnt.llMsgDrop n
    { s with cores := s.cores.map fun e => (e.1, { e.2 with send := e.2.send.filter fun m => m.owner ≠ some h }) }

/-- One task is killed. -/
def killTask (i : Nat) (s : State) : State :=
  let t := s.task i
  let s := match t.ctx with | some c => abandonStore c s | none => s
  let s := match t.ctx with | some c => emptyCtx c s | none => s
  bump Cnt.llKill (freeDesc i s)

/-- Every task of an event is stopped; its pending instances are removed; its Taper jobs are told to stop (R236). -/
def killEvent (h : BitVec 19) (s : State) : State :=
  let s := { s with ll := { s.ll with pendL1 := s.ll.pendL1.filter fun p => p.handle ≠ some h } }
  let s := ((s.ll.tasks.filter fun e => e.2.handle = some h).map Prod.fst).foldl (fun s i => killTask i s) (dropMessages h s)
  let s := { s with tp := { s.tp with
    jobs := s.tp.jobs.map fun (e : Nat × Option Job) => (e.1, e.2.map fun (j : Job) => if j.owner = some h then { j with killed := true } else j) } }
  servePending (s.modEvent (hSlot h) fun e => { e with killed := true })

end Sys2Proof.Machine
end

