-- ==== Sys2Proof/Machine/Hub.lean ====
section
/-! DEFINITION. The HUB and the Snuffer: limits, decision records and their order, fallbacks, and the grant of a slot (01;
05 R196–R210; 03 R90, R91, R100, R101). -/

namespace Sys2Proof.Machine

/-! ### Limits (R32, R199) -/

/-- Inserts a limit after those of its own or an earlier time. -/
def insertLimit (x : Limit) : List Limit → List Limit
  | [] => [x]
  | y :: r => if y.time ≤ x.time then y :: insertLimit x r else x :: y :: r

def dropLimit (h : BitVec 19) (l : List Limit) : List Limit := l.filter fun x => x.handle ≠ h

/-- The earliest limit whose time has come. -/
def dueLimit (now : BitVec 64) (l : List Limit) : Option (Limit × List Limit) :=
  match l with
  | x :: r => if x.time ≤ now then some (x, r) else none
  | [] => none

/-! ### Wicks' notes (R31, R34) -/

/-- The value in a channel of the HUB: the time of the head of its list (R32, R199). -/
def loadedVal (n : Nat) (l : List Limit) (t : Tab Word) : Tab Word :=
  match l.head? with
  | some x => Tab.set 0 t n (x.time.setWidth 32)
  | none => t

/-- The values loaded now are kept for a read of a channel whose list becomes empty (15 R471). -/
def keepLoaded (s : State) : State :=
  { s with hub := { s.hub with
    lastVal := loadedVal 63 s.hub.hards (loadedVal 62 s.hub.warnings (loadedVal 61 s.hub.windows s.hub.lastVal)) } }

def State.wick (s : State) (n : Nat) : WkSt := Tab.get WkSt.reset s.wk.wicks n
def State.modWick (s : State) (n : Nat) (f : WkSt → WkSt) : State :=
  { s with wk := { s.wk with wicks := Tab.set WkSt.reset s.wk.wicks n (f (s.wick n)) } }

/-- A note to every wick. -/
def tellWicks (n : WkNote) (s : State) : State :=
  (List.range 6).foldl (fun s i => s.modWick i fun w => { w with notes := w.notes ++ [n] }) s

/-! ### Decision records (R207–R209) -/

def laneList (s : State) : List Nat := (List.range 8).filter fun l => s.dp.cfg.lv.lanes.getLsbD l

def noDest (s : State) : Bool := (laneList s).isEmpty && !s.dp.cfg.lv.hostcopy

/-- A record takes its place behind those that are ready. -/
def queueRec (r : DRec) (s : State) : State := { s with dp := { s.dp with queue := s.dp.queue ++ [r] } }

/-- Records of the reorder buffer whose turn has come, and places that have been skipped (R208). -/
def pullRob : Nat → State → State
  | 0, s => s
  | n + 1, s =>
    if s.dp.skipped.contains s.dp.next then
      pullRob n { s with dp := { s.dp with next := s.dp.next + 1, skipped := s.dp.skipped.filter (· ≠ s.dp.next) } }
    else
      match s.dp.rob.find? fun r => r.seq = some s.dp.next with
      | some r =>
        pullRob n (queueRec r { s with dp := { s.dp with
          next := s.dp.next + 1, rob := s.dp.rob.filter fun q => q.seq ≠ some s.dp.next } })
      | none => s

/-- A place in the order that no record takes (R208, R209). -/
def skipSeq (q : Nat) (s : State) : State :=
  if !s.dp.cfg.lv.order ∨ q < s.dp.next then s
  else pullRob (s.dp.rob.length + s.dp.skipped.length + 1) { s with dp := { s.dp with skipped := s.dp.skipped ++ [q] } }

/-- A record has been fixed: it is sent at once, or in open-sequence order (R208). -/
def orderRec (r : DRec) (s : State) : State :=
  match r.seq with
  | none => queueRec r s
  | some q =>
    if !s.dp.cfg.lv.order ∨ q < s.dp.next then queueRec r s
    else if q = s.dp.next then
      pullRob (s.dp.rob.length + s.dp.skipped.length)
        (queueRec r { s with dp := { s.dp with next := s.dp.next + 1 } })
    else if s.dp.rob.length < 2048 then
      let s := { s with dp := { s.dp with rob := s.dp.rob ++ [r] } }
      if s.dp.hwm.toNat < s.dp.rob.length then
        { s with dp := { s.dp with hwm := BitVec.ofNat 12 s.dp.rob.length } }
      else s
    else
      bump Cnt.dpOoo (queueRec { r with ooo := true } { s with dp := { s.dp with skipped := s.dp.skipped ++ [q] } })

/-- A record is formed: with no destination committed it is counted and reaches no receiver (R37, R209). -/
def sendRec (r : DRec) (s : State) : State :=
  if noDest s then
    let s := bump Cnt.dpNodest { s with ms := { s.ms with nodest := s.ms.nodest + 1 } }
    match r.seq with
    | none => s
    | some q => skipSeq q s
  else orderRec r s

/-- The counter of a reason (Table 05-14). -/
def reasonCnt (reason : BitVec 4) : Nat :=
  if reason = 0 then Cnt.snMenu
  else if reason = 1 then Cnt.snNocandle
  else if reason = 2 then Cnt.snDeadline
  else if reason = 3 then Cnt.snPoison
  else if reason = 4 then Cnt.snFault
  else Cnt.snPowerfail

/-- The record of a slot's event is fixed: its window closes, its limits but the hard deadline leave their lists, the wicks
are told (R34, R38, R197, R199, R205). -/
def fixRecord (h : BitVec 19) (outcome reason : BitVec 4) (trigger : BitVec 64) (s : State) : State :=
  let n := hSlot h
  let e := s.event n
  let r : DRec :=
    { crossing := e.crossing, outcome := outcome, reason := reason, winto := e.winto, trunc := e.trunc, warned := e.warned,
      ooo := false, openwin := e.window, trigger := trigger, latency := (s.time - e.t0).setWidth 24, menu := e.menu,
      handle := h, seq := e.seq }
  let s := keepLoaded s
  let s := { s with hub := { s.hub with
    windows := dropLimit h s.hub.windows, warnings := dropLimit h s.hub.warnings } }
  let s := s.modEvent n fun e => { e with decided := true, window := false }
  let s := if (s.slot n).st = .opened then tellWicks (.decided h) s else s
  sendRec r (bump (reasonCnt reason) s)

/-- The fallback outcome by policy (R201). -/
def fallbackOutcome (policy : BitVec 2) (prescale : BitVec 16) (s : State) : BitVec 4 × State :=
  if policy = 0 then (0, s)
  else if policy = 1 then (1, s)
  else if s.sn.prescaleCnt + 1 = prescale then (2, { s with sn := { s.sn with prescaleCnt := 0 } })
  else (3, { s with sn := { s.sn with prescaleCnt := s.sn.prescaleCnt + 1 } })

def fallbackRec (crossing : BitVec 48) (h : Option (BitVec 19)) (outcome reason : BitVec 4) (s : State) : State :=
  record 1 0x21 0x10 (crossing.setWidth 64) (handleArg h) ((outcome ++ reason).setWidth 64) 0 (crossing.setWidth 32) s

/-- A fallback decision: record, SNUFFED, kill and recorder record (R39). -/
def fallback (h : BitVec 19) (reason : BitVec 4) (s : State) : State :=
  let n := hSlot h
  let (o, s) := fallbackOutcome (s.event n).policy (s.event n).prescale s
  let x := (s.event n).crossing
  let s := fixRecord h o reason 0 s
  fallbackRec x (some h) o reason (killEvent h (s.modSlot n fun t => { t with st := .snuffed }))

/-- The event of a handle has no decision yet. -/
def undecided (s : State) (h : BitVec 19) : Bool :=
  !s.stale h && (match (s.slot (hSlot h)).st with | .opened | .closed => true | _ => false)

/-! ### Grants (R28–R31, R91, R100, R101) -/

/-- The head of the free list, if any, and the list without it. -/
def takeSlot (s : State) : Option (Nat × State) :=
  if s.cn.freeNext < 2048 then
    some (s.cn.freeNext, { s with cn := { s.cn with freeNext := s.cn.freeNext + 1 } })
  else match s.cn.freeTail with
    | n :: r => some (n, { s with cn := { s.cn with freeTail := r } })
    | [] => none

/-- End of the extent area in a candle's first span (R162). -/
def extentEnd (units : BitVec 6) : Nat := 0x40 + 6 * (8 * (512 * units.toNat) + 64)

/-- The candle root record (Table 03-3). -/
def rootRecord (crossing : BitVec 48) (t0 : BitVec 64) (h : BitVec 19) : List MWord :=
  [⟨Ty.hdr, false, false, 0xC000000F⟩, rawM (crossing.setWidth 32), rawM ((crossing.extractLsb' 32 16).setWidth 32),
   (⟨Ty.time, t0.setWidth 32⟩ : TWord).m, (TWord.fix (h.setWidth 32)).m] ++ List.replicate 11 TWord.nil.m

/-- What an event has from its grant (R198). -/
def newEvent (s : State) (crossing : BitVec 48) (home : Lan) : EvSt :=
  let m := s.ll.menu.lv
  { EvSt.none with
    crossing := crossing, t0 := s.time, deadline := m.deadline, warn := m.warn, policy := m.policy,
    prescale := m.prescale, menu := m.version, extUnits := s.wk.event.lv.extUnits, home := home, window := true,
    seq := if s.dp.cfg.lv.order then some s.hub.openSeq else none }

/-- The limits of a new event are armed. -/
def armLimits (h : BitVec 19) (s : State) : State :=
  let e := s.event (hSlot h)
  let at' (d : BitVec 64) : Limit := ⟨e.t0 + d, h⟩
  { s with hub := { s.hub with
    windows := insertLimit (at' (s.wk.event.lv.winto.setWidth 64)) s.hub.windows,
    warnings := if e.warn = 0 then s.hub.warnings
      else insertLimit (at' (e.deadline.setWidth 64 - e.warn.setWidth 64)) s.hub.warnings,
    hards := insertLimit (at' (e.deadline.setWidth 64)) s.hub.hards } }

/-- A slot is granted with its spans, or none (R100). -/
def grantSlot (s : State) : Option (Nat × State) :=
  let s := coolDue s
  let b := bestBank s.cn 23
  let n := s.cn.run.lv.initSpans.toNat
  if !s.cn.enable ∨ s.pf ∨ bankFree s.cn b < n then none
  else
    match takeSlot s with
    | none => none
    | some (i, s) =>
      some (i, takeSpans i true n (s.modSlot i fun t =>
        { CnSlot.reset with st := .opened, gen := t.gen + 1, bank := BitVec.ofNat 5 b }))

/-- An open request that is granted (R31). -/
def openEvent (i : Nat) (crossing : BitVec 48) (s : State) : State :=
  let h := mkHandle i (s.slot i).gen
  let home := nameHome s
  let ev := newEvent s crossing home
  let s := { s.setEvent i ev with ll := { s.ll with prevHome := home } }
  let root := (s.slot i).spans.headD 0
  let s := s.modSlot i fun t =>
    { t with cur := some (root, extentEnd ev.extUnits), fresh := t.fresh.drop 1 }
  let s := physWrites none (mkPa s.node (spanLocal s root)) (rootRecord crossing s.time h) s
  let s := tellWicks (.opened crossing h home root (spanVirt root)) (armLimits h (bump Cnt.cnOpen s))
  wake 0 (fun _ => true) (some h) (TWord.fix 0) s

/-- An open request that is decided NOCANDLE (R30). -/
def openNoCandle (crossing : BitVec 48) (s : State) : State :=
  let m := s.ll.menu.lv
  let (o, s) := fallbackOutcome m.policy m.prescale s
  let seq := if s.dp.cfg.lv.order then some s.hub.openSeq else none
  let r : DRec :=
    { crossing := crossing, outcome := o, reason := 1, winto := false, trunc := false, warned := false, ooo := false,
      openwin := false, trigger := 0, latency := 0, menu := m.version, handle := 0, seq := seq }
  fallbackRec crossing none o 1 (sendRec r (bump Cnt.snNocandle (bump Cnt.cnNocandle s)))

/-- The open sequence moves on, for an open request taken under ORDER 1 (R208). -/
def nextSeq (s : State) : State :=
  if s.dp.cfg.lv.order then { s with hub := { s.hub with openSeq := s.hub.openSeq + 1 } } else s

/-- An open request is taken (R28). A crossing that is decided NOCANDLE counts as the highest opened, but the wicks are not told
of it, so its frames are not late until a higher crossing opens: R28 does not say whether such a crossing is an event opened
(DESIGN CHOICE, log entry 86). -/
def openTaken (crossing : BitVec 48) (s : State) : State :=
  let s := { s with hub := { s.hub with highest := some crossing } }
  match grantSlot s with
  | some (i, s) => nextSeq (openEvent i crossing s)
  | none => nextSeq (openNoCandle crossing s)

end Sys2Proof.Machine
end

