-- ==== Sys2Proof/Machine/Candle.lean ====
section
/-! DEFINITION. The candle manager's commands: spans, cooling, mark phases and commits (03 R93–R98, R102, R131, R137–R140;
15 R466). -/

namespace Sys2Proof.Machine

/-! ### Spans (R96–R98) -/

/-- A span enters COOLING; its expiry is at least one deadline away (R98). -/
def coolSpan (idx : Nat) (s : State) : State :=
  let expiry := s.time + s.ll.menu.lv.deadline.setWidth 64 + s.cn.run.lv.coolExtra.setWidth 64
  let s := setSpan idx { s.cn.span idx with st := .cooling } s
  { s with cn := { s.cn with cooling := s.cn.cooling ++ [(idx, expiry)] } }

/-- COOLING_EXPIRY: the span at the head leaves COOLING when its expiry has come (R98, Table 03-2). -/
def execCoolingExpiry (s : State) : Outcome := .next (expireDue 1 s)

/-- ALLOC_CHUNK_REFILL: a lantern's cursor of a candle obtains a new chunk (R102). -/
def execAllocChunkRefill (l : Lan) (slot : BitVec 11) (s : State) : Outcome :=
  .next (match (s.slot slot.toNat).st with
    | .free | .retiring => s
    | _ => match refillCursor l slot.toNat s with
      | (none, t) => t
      | (some _, _) => s)

/-- The index that CN_SPAN_SEL names lies in an enabled bank. -/
def inPool (cn : CnSt) (i : Nat) : Bool :=
  i / 2048 < 24 && (cn.bank (i / 2048)).en && i % 2048 < (cn.bank (i / 2048)).size

/-- A span command on CN_SPAN_SEL.INDEX: its result, and its effect in the right state (Table 03-13); wrong: the result in
another state. -/
def spanCmd (wrong : SpanSt → BitVec 2) (ok : SpanSt → Bool) (f : Nat → State → State) (s : State) : Outcome :=
  let i := s.cn.spanSel.toNat
  let answer (r : BitVec 2) (s : State) : State := { s with cn := { s.cn with spanResult := r } }
  .next (
    if !inPool s.cn i then answer 3 s
    else if !ok (s.cn.span i).st then answer (wrong (s.cn.span i).st) s
    else answer 0 (f i s))

/-- CN_SPAN_CLAIM; now: a request that is served in the same HUB cycle has been granted the span, and the claim of it is BUSY
(Table 03-9). -/
def execCnSpanClaim (now : Bool) (s : State) : Outcome :=
  spanCmd (fun t => if now && t = .candle then 2 else 1) (· = .free)
    (fun i s => noteFree (setSpan i
      { s.cn.span i with st := .persistent, newborn := (s.cn.span i).newborn || decide (s.cn.phase ≠ .idle) } s)) s

def execCnSpanRelease (s : State) : Outcome := spanCmd (fun _ => 1) (· = .persistent) coolSpan s

def execCnSpanRetire (s : State) : Outcome :=
  spanCmd (fun _ => 1) (fun t => t = .free || t = .persistent)
    (fun i s => noteFree (setSpan i { s.cn.span i with st := .retired } s)) s

/-! ### Mark phases (Table 03-8) -/

/-- MARK_START: acts in IDLE only; the mark stack is empty and MARK_INCOMPLETE cleared (06 R235, Table 06-7). -/
def execMarkStart (s : State) : Outcome :=
  .next (
    if s.cn.phase ≠ .idle then s
    else
      let slots := s.cn.slots.map fun (e : Nat × CnSlot) => if e.2.st = .free then e else (e.1, { e.2 with precycle := true })
      { s with
        tp := { s.tp with incomplete := false, mstkHead := 0, mstkUsed := 0 },
        cn := { s.cn with phase := .grace, sense := !s.cn.sense, slots := slots } })

/-! ### Enable and commits -/

/-- Events run only in OPERATIONAL and SERVICE (17 R519). -/
def eventsAllowed (s : State) : Bool := s.mg.stored.lc = .operational || s.mg.stored.lc = .service

/-- CN_ENABLE_WRITE: a write of 1 before the time base has first counted is ignored and sets CFGERR (R466); outside OPERATIONAL
and SERVICE a write is ignored (17 R519); FREE_MIN starts again. -/
def cnEnable (counting v : Bool) (s : State) : State :=
  if v && !counting then { s with cn := { s.cn with cfgerr := true } }
  else if !eventsAllowed s then s
  else
    let t := { s with cn := { s.cn with enable := v } }
    if v && !s.cn.enable then { t with cn := { t.cn with freeMin := BitVec.ofNat 16 (freeSpans t.cn) } } else t

def execCnRunCommit (s : State) : Outcome :=
  let r := s.cn.run.sh
  let ok : Bool := 1 ≤ r.initSpans.toNat && r.initSpans.toNat ≤ 256 && 1 ≤ r.growSpans.toNat &&
    r.growSpans.toNat ≤ 256 && r.chunk.toNat ≤ 4
  .next { s with cn :=
    if ok then { s.cn with run := s.cn.run.commit } else { s.cn with run := s.cn.run.refuse, cfgerr := true } }

def execCnPoolCommit (s : State) : Outcome := .next { s with cn := { s.cn with pool := s.cn.pool.request } }

/-- The half-open byte range of an enabled bank, and of each area that no bank may overlap. -/
def bankRange (b : CnBank) : Nat × Nat := (b.base.toNat * 0x100000, (b.base.toNat + b.size) * 0x100000)

def areaRanges (s : State) (p : CnPool) : List (Nat × Nat) :=
  let a (pa : PA) (n : Nat) : List (Nat × Nat) := if nodeOf pa = s.node then [(localOf pa, localOf pa + n)] else []
  a p.elogBase (2048 * 8 * 2 ^ p.elogSize.toNat) ++ a p.eovfBase (16 * 2 ^ p.eovfSize.toNat) ++
    a p.mlogBase (8 * 2 ^ p.mlogSize.toNat) ++ a p.evacBase (8 * 2 ^ p.evacSize.toNat)

def apart (a b : Nat × Nat) : Bool := a.2 ≤ b.1 || b.2 ≤ a.1

def pairwiseApart : List (Nat × Nat) → Bool
  | [] => true
  | a :: r => (r.all fun b => apart a b) && pairwiseApart r

/-- The ranges of Table 03-12. -/
def poolRanges (p : CnPool) : Bool :=
  p.asid.extractLsb' 0 5 = 0 && p.elogBase.toNat % 8 = 0 && p.eovfBase.toNat % 16 = 0 && p.evacBase.toNat % 8 = 0 &&
    p.mlogBase.toNat % 8 = 0 && 6 ≤ p.elogSize.toNat && p.elogSize.toNat ≤ 12 && 12 ≤ p.eovfSize.toNat &&
    p.eovfSize.toNat ≤ 20 && 4 ≤ p.evacSize.toNat && p.evacSize.toNat ≤ 12 && 12 ≤ p.mlogSize.toNat &&
    p.mlogSize.toNat ≤ 20 && p.banks.all fun (e : Nat × CnBank) => e.2.spans.toNat ≤ 2048

def poolBank (p : CnPool) (n : Nat) : CnBank := Tab.get CnBank.reset p.banks n

/-- Banks whose BASE_SPAN, SPANS or EN a commit changes. -/
def changedBanks (s : State) : List Nat :=
  (List.range 24).filter fun n => poolBank s.cn.pool.sh n ≠ poolBank s.cn.pool.lv n

/-- A bank whose present extent holds a PERSISTENT or COOLING span does not change. -/
def bankHeld (s : State) (n : Nat) : Bool :=
  s.cn.spans.any fun (e : Nat × SpanEnt) =>
    decide (e.1 / 2048 = n) && inPool s.cn e.1 && (decide (e.2.st = .persistent) || decide (e.2.st = .cooling))

/-- Spans of the largest pool of a build (00 Table 00-1). -/
def poolMax : Build → Nat
  | .h64 => 49152
  | .h32 => 24576

/-- The rules of R93. A pool larger than the largest of the build (00 Table 00-1) is refused too, on which R93 is silent (DESIGN
CHOICE, log entry 102). -/
def bankRules (s : State) (p : CnPool) : Bool :=
  let rs := ((List.range 24).map (poolBank p)).filterMap fun b => if b.en then some (bankRange b) else none
  pairwiseApart rs && (rs.all fun r => r.2 ≤ sidecarBase s.build && (areaRanges s p).all fun a => apart r a) &&
    ((changedBanks s).all fun n => !bankHeld s n) &&
    (((List.range 24).map (poolBank p)).map fun b => if b.en then b.size else 0).sum ≤ poolMax s.build

/-- No slot other than FREE, and no evacuation queued. -/
def cnIdle (s : State) : Bool := s.cn.slots.all fun (e : Nat × CnSlot) => e.2.st = .free

/-- CN_POOL_COMMIT_APPLY: the pool group becomes live and the spans of changed banks FREE (R93, Table 03-15). -/
def execCnPoolCommitApply (s : State) : Outcome :=
  .next (
    if !s.cn.pool.pend || s.cn.enable || !cnIdle s then s
    else if !poolRanges s.cn.pool.sh || !bankRules s s.cn.pool.sh then
      { s with cn := { s.cn with pool := s.cn.pool.refuse, cfgerr := true } }
    else
      let changed := changedBanks s
      let o := s.cn.pool.lv
      let n := s.cn.pool.sh
      let ring : Bool := o.evacBase ≠ n.evacBase || o.evacSize ≠ n.evacSize
      noteLow <| noteFree { s with cn := { s.cn with
        pool := s.cn.pool.commit, spans := s.cn.spans.filter fun (e : Nat × SpanEnt) => !changed.contains (e.1 / 2048),
        evacProd := if ring then 0 else s.cn.evacProd, evacCons := if ring then 0 else s.cn.evacCons } })

def execCnCntclr (s : State) : Outcome :=
  let s := clearCounters 0x3000C0 0x3000F4 s
  .next { s with cn := { s.cn with freeMin := BitVec.ofNat 16 (freeSpans s.cn) } }

end Sys2Proof.Machine
end

