-- ==== Sys2Proof/Machine/Encoding.lean ====
section
/-! DEFINITION. The instruction that an encoding names: native long forms (08 R272, R274; 09 Tables 09-2 to 09-13), short forms
(R273) and Zekief encodings (R324). A word that names none raises ILL_ENC (R296, R298). -/

namespace Sys2Proof.Machine

/-- The fields of a long form. -/
structure Fields where
  iss : Iss
  rd : R5
  rs : R5
  rt : R5
  fn : BitVec 5
  k10 : BitVec 10
  k20 : BitVec 20

def fieldsOf (c : CtxId) (w : Word) : Fields :=
  ⟨⟨c, false, w.extractLsb' 2 3, w.getLsbD 5, .none⟩, w.extractLsb' 12 5, w.extractLsb' 17 5, w.extractLsb' 22 5,
   w.extractLsb' 27 5, w.extractLsb' 22 10, w.extractLsb' 12 20⟩

/-- An encoding whose fields marked 0 are 0 (R272). -/
def onlyIf (ok : Bool) (i : Instr) : Option Instr := if ok then some i else none

/-- A predicate in a register field, whose upper bits are 0. -/
def isP (r : R5) : Bool := r.extractLsb' 3 2 = 0
def toP (r : R5) : P3 := r.setWidth 3
/-- A field names one of f0–f15. -/
def isF (r : R5) : Bool := r.toNat < 16

/-! ### Long forms -/

def decodeInteger (f : Fields) : Option Instr :=
  match f.fn.toNat with
  | 0 => some (.add f.iss f.rd f.rs f.rt)
  | 1 => some (.sub f.iss f.rd f.rs f.rt)
  | 2 => some (.mul f.iss f.rd f.rs f.rt)
  | 3 => some (.div f.iss f.rd f.rs f.rt)
  | 4 => some (.rem f.iss f.rd f.rs f.rt)
  | 5 => onlyIf (f.rt = 0) (.neg f.iss f.rd f.rs)
  | 6 => onlyIf (f.rt = 0) (.abs f.iss f.rd f.rs)
  | _ => none

def decodeLogical (f : Fields) : Option Instr :=
  match f.fn.toNat with
  | 0 => some (.and f.iss f.rd f.rs f.rt)
  | 1 => some (.or f.iss f.rd f.rs f.rt)
  | 2 => some (.xor f.iss f.rd f.rs f.rt)
  | 3 => some (.andn f.iss f.rd f.rs f.rt)
  | 4 => onlyIf (f.rt = 0) (.not f.iss f.rd f.rs)
  | 5 => some (.shl f.iss f.rd f.rs f.rt)
  | 6 => some (.shr f.iss f.rd f.rs f.rt)
  | 7 => some (.sar f.iss f.rd f.rs f.rt)
  | _ => none

def decodeMove (f : Fields) : Option Instr :=
  match f.fn.toNat with
  | 0 => onlyIf (f.rt = 0) (.mov f.iss f.rd f.rs)
  | 1 => onlyIf (f.rt = 0 && isP f.rs) (.movp f.iss f.rd (toP f.rs))
  | _ => none

def decodeCompare (f : Fields) : Option Instr :=
  if !isP f.rd then none
  else
    match f.fn.toNat with
    | 0 => some (.eq f.iss f.rd f.rs f.rt)
    | 1 => some (.ne f.iss f.rd f.rs f.rt)
    | 2 => some (.lt f.iss f.rd f.rs f.rt)
    | 3 => some (.le f.iss f.rd f.rs f.rt)
    | 4 => some (.gt f.iss f.rd f.rs f.rt)
    | 5 => some (.ge f.iss f.rd f.rs f.rt)
    | 6 => some (.eqi f.iss f.rd f.rs f.rt)
    | _ => none

def decodePredicate (f : Fields) : Option Instr :=
  if !isP f.rd then none
  else
    match f.fn.toNat with
    | 0 => onlyIf (isP f.rs && isP f.rt) (.pand f.iss (toP f.rd) (toP f.rs) (toP f.rt))
    | 1 => onlyIf (isP f.rs && isP f.rt) (.por f.iss (toP f.rd) (toP f.rs) (toP f.rt))
    | 2 => onlyIf (isP f.rs && isP f.rt) (.pxor f.iss (toP f.rd) (toP f.rs) (toP f.rt))
    | 3 => onlyIf (isP f.rs && isP f.rt) (.pandn f.iss (toP f.rd) (toP f.rs) (toP f.rt))
    | 4 => onlyIf (isP f.rs && f.rt = 0) (.pnot f.iss (toP f.rd) (toP f.rs))
    | 5 => onlyIf (f.rt = 0) (.pset f.iss (toP f.rd) f.rs)
    | _ => none

def decodeIndexed (f : Fields) : Option Instr :=
  match f.fn.toNat with
  | 0 => some (.lbs f.iss f.rd f.rs f.rt)
  | 1 => some (.lbu f.iss f.rd f.rs f.rt)
  | 2 => some (.lhs f.iss f.rd f.rs f.rt)
  | 3 => some (.lhu f.iss f.rd f.rs f.rt)
  | 4 => some (.sb f.iss f.rd f.rs f.rt)
  | 5 => some (.sh f.iss f.rd f.rs f.rt)
  | 6 => some (.ldx f.iss f.rd f.rs f.rt)
  | 7 => some (.stx f.iss f.rd f.rs f.rt)
  | _ => none

/-- Format K: SUB in [21:19], b in [18:17]. -/
def decodeBank (f : Fields) : Option Instr :=
  match (f.rs.extractLsb' 2 3).toNat with
  | 0 => some (.ldB f.iss f.rd (f.rs.setWidth 2) f.k10)
  | 1 => some (.stB f.iss f.rd (f.rs.setWidth 2) f.k10)
  | 2 => some (.ldpB f.iss f.rd (f.rs.setWidth 2) f.k10)
  | 3 => some (.stpB f.iss f.rd (f.rs.setWidth 2) f.k10)
  | _ => none

def decodeAtomic (f : Fields) : Option Instr :=
  match f.fn.toNat with
  | 0 => some (.cas f.iss f.rd f.rs f.rt)
  | 1 => some (.xchg f.iss f.rd f.rs f.rt)
  | 2 => onlyIf (f.rt = 0) (.car f.iss f.rd f.rs)
  | 3 => onlyIf (f.rt = 0) (.cdr f.iss f.rd f.rs)
  | 4 => some (.ldnf f.iss f.rd f.rs f.rt)
  | _ => none

def decodeList (f : Fields) : Option Instr :=
  match f.fn.toNat with
  | 0 => some (.cons f.iss f.rd f.rs f.rt)
  | 1 => onlyIf (f.rd = 0) (.setcar f.iss f.rs f.rt)
  | 2 => onlyIf (f.rd = 0) (.setcdr f.iss f.rs f.rt)
  | _ => none

def decodeTest (f : Fields) : Option Instr :=
  match f.fn.toNat with
  | 0 => onlyIf (isP f.rd && f.rt = 0) (.null f.iss f.rd f.rs)
  | 1 => onlyIf (isP f.rd && f.rt = 0) (.consp f.iss f.rd f.rs)
  | _ => none

def decodeObject (f : Fields) : Option Instr :=
  match f.fn.toNat with
  | 0 => onlyIf (f.rt = 0) (.vlen f.iss f.rd f.rs)
  | 1 => some (.vref f.iss f.rd f.rs f.rt)
  | 2 => some (.vset f.iss f.rd f.rs f.rt)
  | 3 => some (.allocv f.iss f.rd f.rs f.rt)
  | 4 => some (.allocr f.iss f.rd f.rs f.rt)
  | 5 => some (.allocs f.iss f.rd f.rs f.rt)
  | 6 => onlyIf (f.rd = 0 && f.rt = 0) (.freeze f.iss f.rs)
  | 7 => onlyIf (f.rt = 0) (.tagof f.iss f.rd f.rs)
  | 8 => onlyIf (f.rt = 0) (.tagofMem f.iss f.rd f.rs)
  | 9 => some (.retag f.iss f.rd f.rs f.rt)
  | _ => none

def decodeJump (f : Fields) : Option Instr :=
  match f.fn.toNat with
  | 0 => onlyIf (f.rd = 0 && f.rt = 0) (.jr f.iss f.rs)
  | 1 => onlyIf (f.rd = 0 && f.rt = 0) (.callr f.iss f.rs)
  | 2 => onlyIf (f.rd = 0 && f.rs = 0 && f.rt = 0) (.ret f.iss)
  | _ => none

def decodeFp (f : Fields) : Option Instr :=
  if !(isF f.rd && isF f.rs && isF f.rt) then none
  else
    match f.fn.toNat with
    | 0 => some (.fadd f.iss f.rd f.rs f.rt)
    | 1 => some (.fsub f.iss f.rd f.rs f.rt)
    | 2 => some (.fmul f.iss f.rd f.rs f.rt)
    | 3 => some (.fdiv f.iss f.rd f.rs f.rt)
    | 4 => onlyIf (f.rt = 0) (.fsqrt f.iss f.rd f.rs)
    | 5 => some (.fmin f.iss f.rd f.rs f.rt)
    | 6 => some (.fmax f.iss f.rd f.rs f.rt)
    | 7 => some (.fma f.iss f.rd f.rs f.rt)
    | 8 => onlyIf (f.rt = 0) (.fneg f.iss f.rd f.rs)
    | 9 => onlyIf (f.rt = 0) (.fabs f.iss f.rd f.rs)
    | _ => none

def decodeFpCompare (f : Fields) : Option Instr :=
  if !(isP f.rd && isF f.rs && isF f.rt) then none
  else
    match f.fn.toNat with
    | 0 => some (.feq f.iss (toP f.rd) f.rs f.rt)
    | 1 => some (.flt f.iss (toP f.rd) f.rs f.rt)
    | 2 => some (.fle f.iss (toP f.rd) f.rs f.rt)
    | 3 => some (.fun f.iss (toP f.rd) f.rs f.rt)
    | _ => none

def decodeFpMove (f : Fields) : Option Instr :=
  if f.rt ≠ 0 then none
  else
    match f.fn.toNat with
    | 0 => onlyIf (isF f.rd && isF f.rs) (.fmv f.iss f.rd f.rs)
    | 1 => onlyIf (isF f.rd) (.mtf f.iss f.rd f.rs)
    | 2 => onlyIf (isF f.rs) (.mff f.iss f.rd f.rs)
    | 3 => onlyIf (isF f.rd) (.cvtif f.iss f.rd f.rs)
    | 4 => onlyIf (isF f.rs) (.cvtfi f.iss f.rd f.rs)
    | _ => none

def decodeTask (f : Fields) : Option Instr :=
  match f.fn.toNat with
  | 0 => onlyIf (f.rd = 0 && f.rt = 0) (.cgrow f.iss f.rs)
  | 1 => onlyIf (f.rd = 0) (.spawn f.iss f.rs f.rt)
  | 2 => onlyIf (f.rd = 0 && f.rt = 0) (.waitj f.iss f.rs)
  | 3 => onlyIf (f.rd = 0 && f.rt = 0) (.waitr f.iss f.rs)
  | 4 => onlyIf (f.rd = 0 && f.rs = 0 && f.rt = 0) (.exit f.iss)
  | 5 => onlyIf (f.rd = 0 && f.rs = 0 && f.rt = 0) (.yield f.iss)
  | _ => none

def decodeMessage (f : Fields) : Option Instr :=
  match f.fn.toNat with
  | 0 => some (.msend f.iss f.rd f.rs f.rt)
  | 1 => some (.xld f.iss f.rd f.rs f.rt)
  | 2 => some (.xst f.iss f.rd f.rs f.rt)
  | _ => none

/-- A field that a form of this and the following groups does not use is taken as one marked 0, so that another value is ILL_ENC
(R272 and R298 are silent on it; DESIGN CHOICE, log entry 110): CLEAN to IINV, CRNG, the TLB group, FENCE and IFENCE, CGROW, SPAWN,
WAITJ and WAITR, TSUB, FMV to CVTFI, MFC, MTC, MCVER, RDTB, TRAP, and BT and BF in Zekief mode. -/
def decodeCache (f : Fields) : Option Instr :=
  if !(f.rd = 0 && f.rt = 0) then none
  else
    match f.fn.toNat with
    | 0 => some (.clean f.iss f.rs)
    | 1 => some (.inv f.iss f.rs)
    | 2 => some (.clinv f.iss f.rs)
    | 3 => some (.iinv f.iss f.rs)
    | _ => none

def decodeRange (f : Fields) : Option Instr :=
  if f.rd ≠ 0 then none
  else
    match f.fn.toNat with
    | 0 => some (.crngClean f.iss f.rs f.rt)
    | 1 => some (.crngInvalidate f.iss f.rs f.rt)
    | 2 => some (.crngCleanInvalidate f.iss f.rs f.rt)
    | 3 => onlyIf (f.rs = 0 && f.rt = 0) (.csync f.iss)
    | _ => none

def decodeTlb (f : Fields) : Option Instr :=
  if f.rd ≠ 0 then none
  else
    match f.fn.toNat with
    | 0 => some (.tlbinv f.iss f.rs f.rt)
    | 1 => onlyIf (f.rs = 0) (.tlbasid f.iss f.rt)
    | 2 => onlyIf (f.rs = 0 && f.rt = 0) (.tlball f.iss)
    | 3 => some (.wcinv f.iss f.rs f.rt)
    | 4 => onlyIf (f.rs = 0 && f.rt = 0) (.wcall f.iss)
    | _ => none

/-- FENCE has m in [25:22]. -/
def decodeFence (f : Fields) : Option Instr :=
  if !(f.rd = 0 && f.rs = 0) then none
  else
    match f.fn.toNat with
    | 0 => onlyIf (!f.rt.getLsbD 4) (.fence f.iss (f.rt.setWidth 4))
    | 1 => onlyIf (f.rt = 0) (.ifence f.iss)
    | _ => none

def decodeControl (f : Fields) : Option Instr :=
  if f.rt ≠ 0 then none
  else
    match f.fn.toNat with
    | 0 => some (.mfc f.iss f.rd f.rs)
    | 1 => some (.mtc f.iss f.rd f.rs)
    | 2 => onlyIf (f.rs = 0) (.xget f.iss f.rd)
    | 3 => onlyIf (f.rd = 0) (.xput f.iss f.rs)
    | _ => none

def decodeSave (f : Fields) : Option Instr :=
  if !(f.rd = 0 && f.rs = 0 && f.rt = 0) then none
  else
    match f.fn.toNat with
    | 0 => some (.savel f.iss)
    | 1 => some (.saveh f.iss)
    | 2 => some (.rstl f.iss)
    | 3 => some (.rsth f.iss)
    | 4 => some (.spill f.iss)
    | 5 => some (.fill f.iss)
    | _ => none

def decodeSystem (f : Fields) : Option Instr :=
  if !(f.rd = 0 && f.rs = 0) then none
  else
    match f.fn.toNat with
    | 0 => onlyIf (f.rt = 0) (.rfe f.iss)
    | 1 => some (.trap f.iss f.rt)
    | 2 => onlyIf (f.rt = 0) (.brk f.iss)
    | _ => none

def decodeIdentity (f : Fields) : Option Instr :=
  if f.rt ≠ 0 then none
  else
    match f.fn.toNat with
    | 0 => some (.mcver f.iss f.rd f.rs)
    | 1 => some (.rdtb f.iss f.rd f.rs)
    | _ => none

/-- Major opcodes 0x00 to 0x13: integer, compare, loads and stores. -/
def decodeLow (op : Nat) (f : Fields) : Option Instr :=
  match op with
  | 0x00 => decodeInteger f
  | 0x01 => decodeLogical f
  | 0x02 => decodeMove f
  | 0x03 => onlyIf (isP f.fn) (.dadj f.iss f.rd f.rs f.rt (toP f.fn))
  | 0x04 => some (.addi f.iss f.rd f.rs (f.k10.signExtend 16))
  | 0x05 => some (.andi f.iss f.rd f.rs f.k10)
  | 0x06 => onlyIf (isP f.fn && f.fn.toNat < 3) (.shi f.iss f.rd f.rs (f.fn.setWidth 2) f.rt)
  | 0x07 => onlyIf (f.rs = 0) (.movi f.iss f.rd (f.k10.signExtend 16))
  | 0x08 => decodeCompare f
  | 0x09 => decodePredicate f
  | 0x0C => some (.ld f.iss f.rd f.rs (f.k10.signExtend 16 <<< 2))
  | 0x0D => some (.st f.iss f.rd f.rs (f.k10.signExtend 16 <<< 2))
  | 0x0E => decodeIndexed f
  | 0x0F => some (.ldp f.iss f.rd f.rs f.k10)
  | 0x10 => some (.stp f.iss f.rd f.rs f.k10)
  | 0x11 => decodeBank f
  | 0x12 => decodeAtomic f
  | 0x13 => onlyIf (f.rs = 0) (.ldl f.iss f.rd f.k10)
  | _ => none

/-- Major opcodes 0x14 to 0x23: lists and objects, branches, repeats, floating point. -/
def decodeMid (op : Nat) (f : Fields) : Option Instr :=
  match op with
  | 0x14 => decodeList f
  | 0x15 => decodeTest f
  | 0x16 => decodeObject f
  | 0x18 => some (.br f.iss f.k20)
  | 0x19 => some (.call f.iss f.k20)
  | 0x1A => decodeJump f
  | 0x1B => some (.dbnz f.iss f.rd (f.k20.extractLsb' 5 15))
  | 0x1C => onlyIf (f.fn = 0) (.rmov f.iss f.rd f.rs f.rt)
  | 0x1D => onlyIf (f.fn = 0) (.rfill f.iss f.rd f.rs f.rt)
  | 0x1E => onlyIf (isP f.fn) (.rscan f.iss f.rd f.rs f.rt (toP f.fn))
  | 0x20 => decodeFp f
  | 0x21 => decodeFpCompare f
  | 0x22 => decodeFpMove f
  | 0x23 =>
    if f.rd.getLsbD 4 then some (.fst f.iss (f.rd.setWidth 4) f.rs f.k10)
    else some (.fld f.iss (f.rd.setWidth 4) f.rs f.k10)
  | _ => none

/-- Major opcodes 0x24 to 0x3F: tasks, messages, maintenance, system, and the customer block; 0x30 to 0x37 are reserved. -/
def decodeHigh (op : Nat) (f : Fields) : Option Instr :=
  match op with
  | 0x24 => onlyIf (isP f.fn) (.decide f.iss (toP f.fn) f.rd f.rs f.rt)
  | 0x25 => decodeTask f
  | 0x26 => onlyIf (f.fn = 0 && f.rt = 0) (.tsub f.iss f.rd f.rs)
  | 0x27 => decodeMessage f
  | 0x28 => decodeCache f
  | 0x29 => decodeRange f
  | 0x2A => decodeTlb f
  | 0x2B => decodeFence f
  | 0x2C => decodeControl f
  | 0x2D => decodeSave f
  | 0x2E => decodeSystem f
  | 0x2F => decodeIdentity f
  | n =>
    if 0x38 ≤ n then some (.customerInstruction f.iss (BitVec.ofNat 3 (n - 0x38)) f.fn f.rd f.rs f.rt none none) else none

/-- The instruction that a long form names; GP 0 with GI 1 names none (R275). -/
def decodeLong (c : CtxId) (w : Word) : Option Instr :=
  let f := fieldsOf c w
  let op := (w.extractLsb' 6 6).toNat
  if w.extractLsb' 0 2 ≠ 3 ∨ (f.iss.gp = 0 ∧ f.iss.gi) then none
  else if op < 0x14 then decodeLow op f
  else if op < 0x24 then decodeMid op f
  else decodeHigh op f

/-! ### Short forms (Tables 08-2, 08-3) -/

/-- The instruction that a short form names. -/
def decodeShort (c : CtxId) (h : BitVec 16) : Option Instr :=
  let iss : Iss := ⟨c, true, 0, false, .none⟩
  let rd : R5 := h.extractLsb' 6 5
  let rs : R5 := h.extractLsb' 11 5
  let bank : BitVec 2 := h.extractLsb' 2 2
  let r : R5 := 8 + (h.extractLsb' 4 2).setWidth 5
  match (h.extractLsb' 0 2).toNat with
  | 1 => some (.ldB iss r bank (h.extractLsb' 6 10))
  | 2 => some (.stB iss r bank (h.extractLsb' 6 10))
  | 0 =>
    match (h.extractLsb' 2 4).toNat with
    | 0x0 => onlyIf (h ≠ 0) (.mov iss rd rs)
    | 0x1 => some (.add iss rd rd rs)
    | 0x2 => some (.sub iss rd rd rs)
    | 0x3 => some (.and iss rd rd rs)
    | 0x4 => some (.or iss rd rd rs)
    | 0x5 => some (.xor iss rd rd rs)
    | 0x6 => some (.addq iss rd rs)
    | 0x7 => some (.movq iss rd rs)
    | 0x8 => some (.car iss rd rs)
    | 0x9 => some (.cdr iss rd rs)
    | 0xA => if rd = 0 then some (.jr iss rs) else onlyIf (rd = 1) (.callr iss rs)
    | 0xB => onlyIf (rd = 0 && rs = 0) (.ret iss)
    | 0xC => onlyIf (rd = 0 && rs = 0) (.nop iss)
    | 0xD => some (.brs iss (h.extractLsb' 6 10))
    | 0xF => onlyIf (h.extractLsb' 12 4 = 0) (.guard iss (h.extractLsb' 6 3) (h.getLsbD 9) (h.extractLsb' 10 2))
    | _ => none
  | _ => none

/-! ### Zekief encodings (Table 09-14) -/

/-- The fields of format ZR as those of its native counterpart. -/
def zekiefFields (c : CtxId) (w : Word) (fn : Nat) : Fields :=
  ⟨⟨c, false, 0, false, .none⟩, w.extractLsb' 6 5, w.extractLsb' 11 5, w.extractLsb' 16 5, BitVec.ofNat 5 fn, 0, 0⟩

/-- A comparison or test whose result is a BOOL in xd. -/
def zekiefCompare (f : Fields) : Option Instr :=
  match f.fn.toNat with
  | 0 => some (.eq f.iss f.rd f.rs f.rt)
  | 1 => some (.ne f.iss f.rd f.rs f.rt)
  | 2 => some (.lt f.iss f.rd f.rs f.rt)
  | 3 => some (.le f.iss f.rd f.rs f.rt)
  | 4 => some (.gt f.iss f.rd f.rs f.rt)
  | 5 => some (.ge f.iss f.rd f.rs f.rt)
  | 6 => some (.eqi f.iss f.rd f.rs f.rt)
  | _ => none

/-- The instruction that a Zekief encoding names. -/
def decodeZekief (c : CtxId) (w : Word) : Option Instr :=
  let zfn := (w.extractLsb' 21 11).toNat
  let f := zekiefFields c w zfn
  let imm : BitVec 16 := w.extractLsb' 16 16
  let d26 : BitVec 26 := w.extractLsb' 6 26
  let none3 : Bool := f.rd = 0 && f.rs = 0 && f.rt = 0
  match (w.extractLsb' 0 6).toNat with
  | 0x00 =>
    if zfn < 7 then decodeInteger f
    else if 16 ≤ zfn ∧ zfn < 24 then decodeLogical (zekiefFields c w (zfn - 16))
    else if zfn = 32 then decodeMove (zekiefFields c w 0) else none
  | 0x01 => some (.addi f.iss f.rd f.rs imm)
  | 0x02 => onlyIf (f.rs = 0) (.movi f.iss f.rd imm)
  | 0x03 => if zfn < 7 then zekiefCompare f else none
  | 0x04 => some (.ld f.iss f.rd f.rs imm)
  | 0x05 => some (.st f.iss f.rd f.rs imm)
  | 0x06 =>
    if zfn < 3 then decodeList f
    else if zfn = 4 then onlyIf (f.rt = 0) (.null f.iss f.rd f.rs)
    else if zfn = 5 then onlyIf (f.rt = 0) (.consp f.iss f.rd f.rs)
    else if 16 ≤ zfn ∧ zfn < 26 then decodeObject (zekiefFields c w (zfn - 16)) else none
  | 0x07 => onlyIf (f.rs = 0) (.zekiefBt f.iss f.rd imm)
  | 0x08 => onlyIf (f.rs = 0) (.zekiefBf f.iss f.rd imm)
  | 0x09 => some (.zekiefJ f.iss d26)
  | 0x0A => some (.zcall f.iss d26)
  | 0x0B =>
    if zfn = 0 then onlyIf none3 (.zret f.iss)
    else if zfn = 1 then onlyIf (f.rd = 0 && f.rt = 0) (.jr f.iss f.rs) else none
  | 0x0C =>
    match zfn with
    | 0 => onlyIf (f.rt = 0) (.mfc f.iss f.rd f.rs)
    | 1 => onlyIf (f.rt = 0) (.mtc f.iss f.rd f.rs)
    | 2 => onlyIf (f.rd = 0 && f.rs = 0) (.trap f.iss f.rt)
    | 3 => onlyIf none3 (.rfe f.iss)
    | 4 => onlyIf none3 (.exit f.iss)
    | 5 => onlyIf none3 (.yield f.iss)
    | 6 => onlyIf (f.rd = 0 && f.rt = 0) (.waitj f.iss f.rs)
    | 7 => onlyIf (f.rd = 0 && f.rt = 0) (.waitr f.iss f.rs)
    | _ => none
  | 0x0D => onlyIf (zfn = 0) (.zdecide f.iss f.rd f.rs f.rt)
  | 0x0E => if zfn < 3 then decodeMessage f else none
  | _ => none

/-- The instruction that a word names in a context's mode: a Zekief encoding, or by bits [1:0] a long or a short form
(R268, R270). -/
def decodeWord (c : CtxId) (zekief : Bool) (w : Word) : Option Instr :=
  if zekief then decodeZekief c w
  else if w.extractLsb' 0 2 = 3 then decodeLong c w
  else decodeShort c (w.setWidth 16)

end Sys2Proof.Machine
end

