-- ==== Sys2Proof/Machine/Tasks.lean ====
section
/-! DEFINITION. Event, task, Taper and fabric instructions (05 R181–R197; 06 R219, R221; 09 R315–R318, Tables 09-10,
09-11). -/

namespace Sys2Proof.Machine

/-! ### DECIDE, CGROW, SPAWN -/

def isFixRaw (t : Ty) : Bool := t = Ty.fix || t = Ty.raw

/-- The outcomes that DECIDE accepts (R196). -/
def outcomeOk (v : Word) : Bool := v.toNat ≤ 1 || (8 ≤ v.toNat && v.toNat ≤ 15)

/-- DECIDE: the request goes to the HUB and the context waits for the answer (R196); NO_EVENT is checked before the
operands (R185). -/
def decideBody (pd : Option P3) (rs rt ru : R5) (c : CtxId) (s : State) : Res Flow :=
  match handleOf s c, (s.ctx c).task with
  | some h, some i =>
    let o := opnd c rs s
    let lo := opnd c rt s
    let hi := opnd c ru s
    (checkFix o s).bind fun _ s =>
      if !outcomeOk o.val then trapW Cause.badPayload o s
      else
        (checkTy isFixRaw lo s).bind fun _ s =>
          (checkTy isFixRaw hi s).bind fun _ s =>
            .ok (.away .stalled .decide)
              { s with ll := { s.ll with decides := s.ll.decides ++ [⟨c, i, h, o.val.setWidth 4, hi.val ++ lo.val, pd, true⟩] } }
  | _, _ => trapN Cause.noEvent s

def execDecide (iss : Iss) (pd : P3) (rs rt ru : R5) (s : State) : Outcome :=
  run { long := some (encR 0x24 rs rt ru (p5 pd)), names := [rs, rt, ru] } iss (decideBody (some pd) rs rt ru) s

/-- ZDECIDE discards the result (Table 09-14). -/
def execZdecide (iss : Iss) (xd xs xt : R5) (s : State) : Outcome :=
  run { zek := some (encZR 0x0D xd xs xt 0), names := [xd, xs, xt] } iss (decideBody none xd xs xt) s

def execCgrow (iss : Iss) (rs : R5) (s : State) : Outcome :=
  run { formR 0x25 0 0 rs 0 with names := [rs] } iss
    (fun c s =>
      match handleOf s c with
      | none => trapN Cause.noArea s
      | some h =>
        let w := opnd c rs s
        (checkFixTo 256 w s).bind fun _ s =>
          let n := if w.val = 0 then s.cn.run.lv.growSpans.toNat else w.val.toNat
          let s := coolDue s
          match grantCause (hSlot h) n s with
          | some k => trapN k s
          | none => .ok .next (takeSpans (hSlot h) true n s)) s

/-- The enabled template that an index names (R185). -/
def templateAt (s : State) (v : Word) : Option Templ :=
  let t := Tab.get Templ.off s.ll.templ v.toNat
  if v.toNat < s.ll.menu.lv.tmpls.toNat ∧ t.en then some t else none

/-- The deadline of a spawned task (Table 05-3). -/
def spawnDeadline (s : State) (i : Option Nat) (t : Templ) : BitVec 64 :=
  match i with
  | some i =>
    let d := s.task i
    if d.handle = none ∧ t.rel ≠ 0 then s.time + t.rel.setWidth 64 else d.deadline
  | none => s.time + t.rel.setWidth 64

def execSpawn (iss : Iss) (rs rt : R5) (s : State) : Outcome :=
  run { formR 0x25 1 0 rs rt with names := [rs, rt] } iss
    (fun c s =>
      let n := opnd c rs s
      let a := opnd c rt s
      (checkFix n s).bind fun _ s =>
        (checkFix a s).bind fun _ s =>
          match templateAt s n.val with
          | none => trapN Cause.badTemplate s
          | some t =>
            (drainAll c 8 s).bind fun _ s =>
              let q : SpawnReq := ⟨n.val.toNat, a, handleOf s c, spawnDeadline s (s.ctx c).task t⟩
              .ok .next { s with ll := { s.ll with spawns := s.ll.spawns ++ [q] } }) s

/-! ### Waits (R316, Table 05-4) -/

/-- A WAIT of a task: PEND is cleared and execution goes on, or the task waits. cont: the wait ends at once. -/
def waitBody (kind : BitVec 3) (id : BitVec 16) (cont : Bool) (c : CtxId) (s : State) : Res Flow :=
  match (s.ctx c).task with
  | none => .ok .next s
  | some i =>
    if (s.task i).pend then .ok .next (putTask i (fun t => { t with waitKind := kind, waitId := id, pend := false }) s)
    else if cont then .ok .next (putTask i (fun t => { t with waitKind := kind, waitId := id }) s)
    else
      .ok (.away .waiting .none)
        (putTask i (fun t => { t with waitKind := kind, waitId := id, st := .waiting }) s)

/-- The job of an ID is outstanding for a task (R316). -/
def jobOutstanding (s : State) (i : Nat) (v : Word) : Bool :=
  v.toNat < 65536 &&
    match Tab.get none s.tp.jobs (v.toNat % 1024) with
    | some j => j.gen = v.extractLsb' 10 6 && j.task = some i
    | none => false

def execWaitj (iss : Iss) (rs : R5) (s : State) : Outcome :=
  run { formR 0x25 2 0 rs 0 (some (0x0C, 6)) with names := [rs] } iss
    (fun c s =>
      let w := opnd c rs s
      (notOnShadow c s).bind fun _ s => (checkFix w s).bind fun _ s =>
        let out := match (s.ctx c).task with | some i => jobOutstanding s i w.val | none => false
        waitBody 3 (w.val.setWidth 16) (!out) c s) s

def execWaitr (iss : Iss) (rs : R5) (s : State) : Outcome :=
  run { formR 0x25 3 0 rs 0 (some (0x0C, 7)) with names := [rs] } iss
    (fun c s =>
      let w := opnd c rs s
      (notOnShadow c s).bind fun _ s => (checkFix w s).bind fun _ s =>
        if s.bl.ring.lv.cnt.toNat ≤ w.val.toNat then trapW Cause.badPayload w s
        else
          let s := match (s.ctx c).task with
            | some i => { s with ll := { s.ll with listeners := Tab.set none s.ll.listeners w.val.toNat (some i) } }
            | none => s
          waitBody 4 (w.val.setWidth 16) false c s) s

def execExit (iss : Iss) (s : State) : Outcome :=
  run { formZero 0x25 4 with zek := some (encZR 0x0C 0 0 0 4) } iss
    (fun c s => .ok .placed (match (s.ctx c).task with | some i => endTask i s | none => emptyCtx c s)) s

def execYield (iss : Iss) (s : State) : Outcome :=
  run { formZero 0x25 5 with zek := some (encZR 0x0C 0 0 0 5) } iss (fun _ s => .ok .yielded s) s

/-! ### TSUB (R219, R221, R229) -/

def State.engine (s : State) (e : Nat) : EngSt := Tab.get EngSt.reset s.tp.engines e
def State.modEngine (s : State) (e : Nat) (f : EngSt → EngSt) : State :=
  { s with tp := { s.tp with engines := Tab.set EngSt.reset s.tp.engines e (f (s.engine e)) } }
def State.job (s : State) (i : Nat) : Option Job := Tab.get none s.tp.jobs i
def State.setJob (s : State) (i : Nat) (j : Option Job) : State :=
  { s with tp := { s.tp with jobs := Tab.set none s.tp.jobs i j } }

/-- The jobs of the table with their entries. -/
def allJobs (s : State) : List (Nat × Job) := s.tp.jobs.filterMap fun e => e.2.map fun j => (e.1, j)

/-- Graph and move jobs queued on an engine. -/
def queuedOn (s : State) (e : Nat) : List (Nat × Job) :=
  (allJobs s).filter fun (j : Nat × Job) => decide (j.2.eng.toNat = e) && j.2.plan.isNone

/-- The engines of a mask; a mask of 0 is handled as one engine. -/
def engineList (mask zero : BitVec 8) : List Nat :=
  let m := if mask = 0 then zero else mask
  (List.range 8).filter fun e => m.getLsbD e

/-- The first of a list with the least of a measure. -/
def leastNat (f : Nat → Nat) : List Nat → Nat
  | [] => 0
  | [e] => e
  | e :: r => let m := leastNat f r; if f m < f e then m else e

/-- A TSUB job takes a free entry; which one is a free choice (log entry 22). -/
def submitJob (c : CtxId) (va : Word) (s : State) : TWord × State :=
  let free := (List.range 896).filterMap fun i => if (s.job (i + 128)).isNone then some (i + 128) else none
  let (k, s) := s.pick free.length
  match free[k]? with
  | none => (TWord.nil, bump Cnt.tpFull s)
  | some i =>
    let g : BitVec 6 := Tab.get 0 s.tp.gens i + 1
    let x := s.ctx c
    let e := leastNat (fun e => (queuedOn s e).length) (engineList s.tp.graphMask 0x01)
    let j : Job :=
      { gen := g, record := va, asid := x.asid, priv := x.cstat.priv, owner := handleOf s c, task := x.task,
        deadline := match x.task with | some i => (s.task i).deadline | none => 0,
        eng := BitVec.ofNat 3 e, plan := none, killed := false }
    (TWord.fix ((0 : BitVec 16) ++ g ++ BitVec.ofNat 10 i),
      { s.setJob i (some j) with tp := { (s.setJob i (some j)).tp with gens := Tab.set 0 s.tp.gens i g } })

/-! ### Fabric (R317, R318, R450, R451) -/

/-- A pointer into the candle window travels as UNSET (R318). -/
def remoteForm (w : TWord) : MWord :=
  if isPointer w.ty ∧ 0x80000000 ≤ w.val.toNat then MWord.unset else w.m

def isSendable (t : Ty) : Bool := t = Ty.vec || t = Ty.rec_ || t = Ty.str || t = Ty.hitv

end Sys2Proof.Machine
end

