-- ==== Sys2Proof/Machine/Exceptions.lean ====
section
/-! DEFINITION. Exceptions: entry, the asynchronous interrupts, FAULTED, illegal instructions, and walks on their own
(10 R326–R349; 08 R269, R296; 12 R389–R397; 07 R565). -/

namespace Sys2Proof.Machine

/-! ### FAULTED (R348) -/

/-- Steps 1 to 5: the recorder's record, the end of the task, and the report to the HUB. The registers of step 3 stand as
they are. vec: the vector in the record, 0 for none. -/
def faulted (c : CtxId) (cause : BitVec 8) (vec : BitVec 6) (s : State) : State :=
  let x := s.ctx c
  let h := handleOf s c
  let w0 := Tab.get TWord.unset x.shadow 0
  let desc : BitVec 16 := match x.task with | some i => BitVec.ofNat 16 i | none => 0
  let a0 : BitVec 64 := (0 : BitVec 16) ++ desc ++ (0 : BitVec 2) ++ vec ++ cause ++ (0 : BitVec 6) ++ c
  let a2 : BitVec 64 := x.estat.val ++ x.epc.val
  let a3 : BitVec 64 := (0 : BitVec 24) ++ ((0 : BitVec 2) ++ w0.ty) ++ w0.val
  let s := record 2 (0xC0 + (lanOf c).setWidth 8) 0x20 a0 (handleArg h) a2 a3 0 s
  let s := match x.task with | some i => endTask i s | none => emptyCtx c s
  match h with
  | some h => { s with ll := { s.ll with faults := s.ll.faults ++ [⟨h, decide (cause = Cause.poison)⟩] } }
  | none => s

/-! ### Entry (R331–R334) -/

/-- An exception about to be entered: its trap, the resume address, the address and encoding of the raising instruction,
and the bits PLDF, MSH and ASYNC. -/
structure Entry where
  trap : Trap
  epc : Word
  pc : Word
  enc : Word
  ldf : Bool
  msh : Bool
  async : Bool

/-- ESTAT (Table 10-3). -/
def entryEstat (x : Cstat) (e : Entry) : Word :=
  (0 : BitVec 2) ++ e.trap.cause ++ e.trap.vec ++ bit e.async ++ (0 : BitVec 1) ++ bit e.msh ++ bit x.rpt ++ bit e.ldf ++
    bit x.ginv ++ x.gpred ++ x.gcnt ++ bit x.ie ++ bit x.mode ++ x.priv

/-- EPC, ESTAT and shadow w0–w3 (Table 10-4). -/
def Ctx.entered (x : Ctx) (e : Entry) : Ctx :=
  let put (t : Tab TWord) (p : Nat × TWord) : Tab TWord := Tab.set TWord.unset t p.1 p.2
  { x with
    epc := ⟨Ty.ret, e.epc⟩, estat := TWord.raw (entryEstat x.cstat e),
    shadow := [(0, TWord.raw e.trap.w0), (1, e.trap.w1), (2, TWord.raw e.enc), (3, TWord.raw e.pc)].foldl put x.shadow,
    raised := none }

/-- CSTAT of the handler (R331). -/
def Cstat.handler (x : Cstat) (level : BitVec 2) : Cstat :=
  { x with priv := level, mode := false, ie := false, gcnt := 0, gpred := 0, ginv := false, ldf := false, rpt := false,
           shadow := true }

/-- The level of a vector (R327). -/
def entryLevel (x : Cstat) (vec : BitVec 6) : BitVec 2 := if 32 ≤ vec.toNat ∨ x.priv = 2 then 2 else 1

/-- The address of a vector's word (R328). -/
def vectorVa (level : BitVec 2) (vec : BitVec 6) : Word :=
  (if level = 2 then (0x7FFFFF00 : Word) else 0x7FFFFE00) + (vec.setWidth 32 <<< 2)

/-- The entry of an exception that an instruction has raised; in a mode-change shadow EPC is the second instruction
(R341). -/
def Raised.entry (r : Raised) : Entry :=
  ⟨r.trap, r.msh.getD r.pc, r.pc, r.enc, r.slot, r.msh.isSome, false⟩

/-! ### Asynchronous interrupts (R336–R338) -/

/-- An exception that an instruction in a mode-change shadow has raised, which is not executed again (R341). -/
def shadowRaised (x : Ctx) : Bool := match x.raised with | some r => r.msh.isSome | none => false

/-- The next instruction is neither a delay slot nor in a mode-change shadow, and the context is at a boundary: it may
issue, or an instruction waits at issue of which nothing has been performed (R336, R341, R349). -/
def atBoundary (x : Ctx) : Bool :=
  !x.cstat.shadow && !x.cstat.ldf && x.msh.isNone && !shadowRaised x && x.micro.at_.isNone && x.alloc.isNone &&
    (match x.st, x.stall with
     | .running, _ | .runnable, _ => true
     | .stalled, .store | .stalled, .escape | .stalled, .mlog | .stalled, .load => true
     | _, _ => false)

/-- A context that waited at issue becomes runnable. -/
def unstall (c : CtxId) (s : State) : State := if (s.ctx c).st = .stalled then wakeCtx c s else s

/-- An asynchronous entry: the resume address is the first instruction not executed, w2 RAW 0 (R332, Table 10-4). -/
def asyncEntry (x : Ctx) (vec : BitVec 6) (cause : BitVec 8) (w1 : TWord) : Entry :=
  ⟨⟨vec, cause, 0, w1⟩, x.pc, x.pc, 0, false, false, true⟩

/-- What an uncorrectable error leaves in the place it is found in: a free value (log entry 1); none where there is no
such place. -/
def mcheckLose (c : CtxId) (what : McheckAt) (s : State) : Option (BitVec 8 × State) :=
  let (v, t) := s.draw
  match what with
  | .cstat => some (Cause.cstatEcc, s)
  | .rs i =>
    if i < (s.ctx c).rs.length then
      some (0x74, t.modCtx c fun x => { x with rs := x.rs.set i (v &&& 0xFFFFFFFE, true) })
    else none
  | .creg n =>
    match n.toNat with
    | 3 => some (0x75, t.modCtx c fun x => { x with xbank := Xbank.unpack v })
    | 4 => some (0x75, t.modCtx c fun x => { x with savep := ⟨x.savep.ty, v⟩ })
    | 5 => some (0x75, t.modCtx c fun x => { x with saveb := ⟨x.saveb.ty, v⟩ })
    | 6 => some (0x75, t.modCtx c fun x => { x with ssp := ⟨x.ssp.ty, v⟩ })
    | 7 => some (0x75, t.modCtx c fun x => { x with wptr := Wptr.unpack v })
    | _ => none

/-! ### Illegal instructions (R269, R296) -/

/-- ILLEGAL_INSTRUCTION: the context meets an encoding that names no instruction (a word that names one changes nothing), or a
word of another TYPE, which may be the second that a long form needs; an illegal address comes first (R268–R270). -/
def execIllegalInstruction (c : CtxId) (why : IllCause) (word : Word) (s : State) : Outcome :=
  let x := s.ctx c
  let len := encLen x.cstat.mode word
  .next (
    if !canIssue x then s
    else if !pcAligned x then raiseTrap c x (mkTrap Cause.illAlign 0 TWord.unset) word len s
    else
      match why with
      | .enc =>
        if (decodeWord c x.cstat.mode word).isSome then s else raiseTrap c x (mkTrap Cause.illEnc 0 TWord.unset) word len s
      | .fetchTag ty first =>
        if ty = Ty.raw ∨ (first.isSome ∧ !needsSecond x first) then s else raiseFetchTag c ty word first s)

/-! ### Walks (R389–R392, R397) -/

/-- Translation for a Taper engine: its own TLB, and a walk without a walk cache (R217, R389, R393). -/
def taperXlate (e : Nat) (asid : BitVec 12) (priv : BitVec 2) (kind : AccKind) (va : Word) (s : State) :
    Option PA × State :=
  let l := (s.engine e).tlb
  let fail (k : BitVec 8) (s : State) : Option PA × State :=
    (none, recordFault k va asid (BitVec.ofNat 10 e) true s)
  match l.find? fun t => t.hits asid va with
  | some t =>
    let s := s.modEngine e fun x => { x with tlb := t :: l.filter (· ≠ t) }
    match useTlb s kind priv t va with
    | .inr pa => (some pa, s)
    | .inl k => fail k s
  | none =>
    match walk none asid va s with
    | .ok (.inr f) s =>
      match useLeaf s kind priv f asid va with
      | .inr pa => (some pa, s.modEngine e fun x => { x with tlb := tlbInstall 32 (f.tlb asid va) x.tlb })
      | .inl k => fail k s
    | .ok (.inl k) s => fail k s
    | .trap _ s => (none, s)
    | .wait _ s => (none, s)

/-- A word of this node as it stands, without an access: in the lantern's L2, in the owner's, or in HBM. -/
def lookWord (l : Option Lan) (pa : PA) (s : State) : MWord :=
  let ln := lineNo pa
  let inL2 (l : Lan) : Option Line := if (s.l2 l ln).st = .I then none else some (s.l2 l ln).words
  let d : Line := ((l.bind inL2).orElse fun _ => (s.dirEnt ln).owner.bind fun o => inL2 o.lan).getD
    (hbmLine s (lineLocal ln))
  lineWord d (pa.toNat / 4 % 16)

/-- The addresses of the pairs that a walk reads, in order, and the leaf at their end. -/
def walkPath (l : Option Lan) (asid : BitVec 12) (va : Word) (s : State) : List PA × Option Leaf :=
  let pair (level : Nat) (pa : PA) : PairIs := classifyPair s level (lookWord l pa s) (lookWord l (pa + 4) s)
  let second (t : PA) : List PA × Option Leaf :=
    let p2 := t + ((va.extractLsb' 10 12).setWidth 53 <<< 3)
    ([p2], match pair 2 p2 with | .leaf f => some f | _ => none)
  match wcFind l asid va s with
  | some e => second e.table
  | none =>
    if !s.mm.en then ([], none)
    else
      let p0 := s.mm.root + (asid.setWidth 53 <<< 3)
      match pair 0 p0 with
      | .table t1 =>
        let p1 := t1 + ((va.extractLsb' 22 10).setWidth 53 <<< 3)
        match pair 1 p1 with
        | .table t2 => let r := second t2; (p0 :: p1 :: r.1, r.2)
        | .leaf f => ([p0, p1], some f)
        | _ => ([p0, p1], none)
      | _ => ([p0], none)

/-- What TABLE_WALK says that the walk meets (R63, R390): an error strikes the line of one of its pairs, and each re-read of
a pair that is torn no longer is counted. -/
def walkMeets (l : Option Lan) (m : WalkMet) (asid : BitVec 12) (va : Word) (s : State) : State :=
  match m with
  | .none => s
  | .ecc n =>
    match (walkPath l asid va s).1[n]? with
    | none => s
    | some pa =>
      match l with
      | some l => if (s.l2 l (lineNo pa)).st ≠ .I then strikeLine l none (lineNo pa) (pa.toNat / 4 % 16) .l2Uncorr s
        else serveError (lineNo pa) .homeUncorr s
      | none => serveError (lineNo pa) .homeUncorr s
  | .torn n => if (walkPath l asid va s).1 = [] then s else bumpBy Cnt.mmRetry (min n 4) s

/-- A fetch brings its line into the core's L1 I, and the next line while PREFETCH_I is 1 (R408). One of an address that no
memory answers is counted and recorded (R2). -/
def fetchLine (c : CtxId) (va : Word) (pa : PA) (s : State) : State :=
  let k := coreOf c
  let ln := lineNo pa
  match regionOf s pa with
  | .unpopulated => unpopulated pa s
  | .regs | .window | .reserved => s
  | .data =>
    if (l1Find (s.core k).l1i ln).isSome then s
    else prefetch c true (nextLineVa va) (match acquire (lanOf c) (some c) false ln s with
      | .ok _ s => fillL1 k true ln s
      | .wait _ s => s.modLan (lanOf c) fun a => { a with fills := a.fills ++ [(ln, k, true)] }
      | .trap _ s => s)

/-- w2 of a fault of translation: of a fetch, the encoding is not stated, since the instruction could not be fetched, and
it is a free value (log entry 1); of another access, it is the encoding of the instruction, which the command gives. -/
def walkEnc (kind : AccKind) (enc : Word) (s : State) : Word × State :=
  if accFetch kind then s.draw else (enc, s)

/-- A fetch of an instruction reaches an address: the word at an aligned PC, or the next word where a long form goes on
(R268). -/
def fetchesAt (x : Ctx) (va : Word) : Bool :=
  pcAligned x && (va = x.pc || (!x.cstat.mode && x.pc.getLsbD 1 && va = x.pc + 2))

/-- A walk for a context: what it fills, or its fault, raised at the instruction at the PC. With an entry in the TLB there is
no walk: a fetch goes through that entry, with its rights (R387), and any other access is the instruction's own. -/
def walkFor (c : CtxId) (va : Word) (kind : AccKind) (m : WalkMet) (enc : Word) (s : State) : State :=
  let x := s.ctx c
  let k := coreOf c
  let hit : Bool := ((s.core k).tlb (accFetch kind)).any fun t => t.hits x.asid va
  if x.st = .empty ∨ (hit ∧ kind ≠ .fetch) ∨ (kind = .fetch ∧ !fetchesAt x va) then s
  else
    let s := if hit then s else walkMeets (some (lanOf c)) m x.asid va s
    if isSpec kind then (specXlate k x.asid x.cstat.priv kind va s).2
    else
      match xlate k x.asid x.cstat.priv kind va s with
      | .ok (.inr pa) u => if kind = .fetch then fetchLine c va pa u else u
      | .ok (.inl e) u =>
        if canIssue x then
          let (w, u) := walkEnc kind enc u
          raiseTrap c (u.ctx c) (mkTrap e va TWord.unset) w (encLen x.cstat.mode w) (recordFault e va x.asid c false u)
        else s
      | .trap _ u => u
      | .wait _ u => u

/-- TABLE_WALK: a TLB miss walks the tables (R389); enc: the encoding of the instruction whose load or store it is. -/
def execTableWalk (a : WalkAgent) (va : Word) (kind : AccKind) (m : WalkMet) (enc : Word) (s : State) : Outcome :=
  .next (match a with
    | .ctx c => walkFor c va kind m enc s
    | .taper e asid priv =>
      if (s.engine e.toNat).tlb.any fun t => t.hits asid va then s
      else withLines (fun s => (taperXlate e.toNat asid priv kind va (walkMeets none m asid va s)).2) s)

end Sys2Proof.Machine
end

