-- ==== Sys2Proof/Machine/Evac.lean ====
section
/-! DEFINITION. Retirement: evacuation jobs (03 R120–R129; 06 R231). -/

namespace Sys2Proof.Machine

/-! ### The copy (R123–R125, R127, R129) -/

/-- The physical address of a word of a candle that a pointer addresses; none for any other word. -/
def candleWord (s : State) (h : BitVec 19) (w : MWord) : Option PA :=
  let k := (w.val.toNat - 0x80000000) / 0x100000
  let idx := (s.slot (hSlot h)).bank.toNat * 2048 + k
  if isPointer w.ty ∧ 0x80000000 ≤ w.val.toNat ∧ ownedBy (s.cn.span idx) h then
    some (mkPa s.node (spanLocal s idx + w.val.toNat % 0x100000))
  else none

/-- The address space of a candle's bank (R94). -/
def bankAsid (s : State) (h : BitVec 19) : BitVec 12 :=
  s.cn.pool.lv.asid + ((s.slot (hSlot h)).bank).setWidth 12

/-- The address accessed in each of some pages of 1 KiB, from the first address on, translates for an engine and passes a test. -/
def enginePages (e : Nat) (asid : BitVec 12) (priv : BitVec 2) (kind : AccKind) (ok : State → PA → Bool) (va : Word) :
    Nat → State → Bool × State
  | 0, s => (true, s)
  | n + 1, s =>
    match taperXlate e asid priv kind va s with
    | (some pa, s') => if ok s' pa then enginePages e asid priv kind ok ((va ||| 1023) + 1) n s' else (false, s')
    | (none, s') => (false, s')

/-- The pages that some words from an address touch. -/
def engineWords (e : Nat) (asid : BitVec 12) (priv : BitVec 2) (kind : AccKind) (ok : State → PA → Bool) (va : Word)
    (words : Nat) (s : State) : Bool × State :=
  let first := va.toNat / 1024
  let last := (va.toNat + 4 * words - 1) / 1024
  enginePages e asid priv kind ok va (if words = 0 then 0 else last + 1 - first) s

/-- Words of the candle, which evacuation reads and overwrites through the translation of its bank: R and W at SUPERVISOR (12
Table 12-4). -/
def evacReaches (e : Nat) (h : BitVec 19) (va : Word) (words : Nat) (s : State) : Bool × State :=
  engineWords e (bankAsid s h) 1 .mark (fun _ _ => true) va words s

/-- Words of the object that a pointer of a TYPE addresses, from its first word; none where it names no object. -/
def objectExtent (ty : Ty) (first : MWord) : Option Nat :=
  if ty = Ty.cons ∨ ty = Ty.ext then some 2
  else if ty = Ty.code then none
  else if first.ty = Ty.hdr then some (1 + (first.val.extractLsb' 0 24).toNat)
  else none

/-- What an evacuation carries from object to object: copies not yet scanned with their length, first words of objects
that could not be copied, and words that name no object. -/
structure EvacWork where
  queue : List (PA × Nat)
  lost : List PA
  bad : Nat

/-- A word of the copy: TYPE and IMM kept (02 R74), MARK as SENSE; POISON becomes POISON with source 0x6. -/
def copyOf (s : State) (w : MWord) : MWord :=
  if w.ty = Ty.poison then { MWord.poison 6 with imm := w.imm, mark := s.cn.sense } else { w with mark := s.cn.sense }

/-- Words are copied one by one and each original becomes FWD, which keeps the IMM of its original (R69, R124; 02 R74). -/
def copyWords (src dst : PA) (va : Word) : Nat → State → State
  | 0, s => s
  | n + 1, s =>
    let (w, s) := physRead src s
    let s := if w.ty = Ty.poison then bump Cnt.cnEvacPoison s else s
    let s := taperWrite dst (copyOf s w) s
    let s := physWrite none src ⟨Ty.fwd, w.imm, false, va⟩ s
    copyWords (src + 4) (dst + 4) (va + 4) n s

/-- LOCAL base of a place in the evacuation area. -/
def evacLocal (taken bytes : Nat) (after : EvacSpan) : Nat :=
  if taken = 0 then after.loc * 0x100000 + (after.off - bytes) else (after.loc + 1 - taken) * 0x100000

/-- The object that a pointer into the candle addresses is copied, or was copied before; answers what the word that held
the pointer becomes. One that the translation does not reach cannot be copied (R127; log entry 101). -/
def evacObject (e : Nat) (h : BitVec 19) (w : MWord) (src : PA) (k : EvacWork) (s : State) : MWord × EvacWork × State :=
  let lose (s : State) : MWord × EvacWork × State :=
    (MWord.unset, { k with lost := if k.lost.contains src then k.lost else k.lost ++ [src] }, s)
  match evacReaches e h w.val 1 s with
  | (false, s) => lose s
  | (true, s) =>
    let (first, s) := physRead src s
    if first.ty = Ty.fwd ∧ w.ty ≠ Ty.code then ({ w with val := first.val }, k, s)
    else
      match objectExtent w.ty first with
      | none => (MWord.unset, { k with bad := k.bad + 1 }, s)
      | some n =>
        match evacReaches e h w.val n s with
        | (false, s) => lose s
        | (true, s) =>
          match evacPlace (4 * n) (if w.ty = Ty.cons ∨ w.ty = Ty.ext then 8 else 4) s with
          | (some (.evac taken va after), s) =>
            let dst := mkPa s.node (evacLocal taken (4 * n) after)
            let s := copyWords src dst va n (bumpBy Cnt.cnEvacWords n (evacTake taken after s))
            ({ w with val := va }, { k with queue := k.queue ++ [(dst, n)] }, s)
          | (_, s) => lose s

/-- A word that may hold a pointer into the candle is rewritten; answers whether it did. -/
def evacWord (e : Nat) (h : BitVec 19) (pa : PA) (k : EvacWork) (s : State) : Bool × EvacWork × State :=
  let (w, s) := physRead pa s
  match candleWord s h w with
  | none => (false, k, s)
  | some src =>
    let (v, k, s) := evacObject e h w src k s
    (true, k, taperWrite pa { v with mark := w.mark } s)

def evacWords (e : Nat) (h : BitVec 19) (pa : PA) : Nat → EvacWork → State → EvacWork × State
  | 0, k, s => (k, s)
  | n + 1, k, s =>
    let (_, k, s) := evacWord e h pa k s
    evacWords e h (pa + 4) n k s

/-- Copies are scanned in the order in which they were made (R231); the fuel is the number of words that can be copied. -/
def evacScan (e : Nat) (h : BitVec 19) : Nat → EvacWork → State → EvacWork × State
  | 0, k, s => (k, s)
  | f + 1, k, s =>
    match k.queue with
    | [] => (k, s)
    | (pa, n) :: r =>
      let (k, s) := evacWords e h pa n { k with queue := r } s
      evacScan e h f k s

/-- One log entry (R123). -/
def evacEntryAt (e : Nat) (h : BitVec 19) (pa : PA) (k : EvacWork) (s : State) : EvacWork × State :=
  let (hit, k, s) := evacWord e h pa k s
  if hit then evacScan e h (262144 * (s.slot (hSlot h)).spans.length + 1) k s else (k, bump Cnt.cnEskip s)

/-- The target that a log entry names (Table 03-6). -/
def entryTarget (pos : PA) (s : State) : PA × State :=
  let (w0, s) := physRead pos s
  let (w1, s) := physRead (pos + 4) s
  (w1.val.extractLsb' 0 21 ++ w0.val.extractLsb' 2 30 ++ (0 : BitVec 2), s)

def evacEntries (e : Nat) (h : BitVec 19) : List PA → EvacWork → State → EvacWork × State
  | [], k, s => (k, s)
  | a :: r, k, s =>
    let (pa, s) := entryTarget a s
    let (k, s) := evacEntryAt e h pa k s
    evacEntries e h r k s

/-- Where the entries of a candle lie: its own ring in log order, then those of the overflow ring (R118–R120, R231). -/
def evacPlaces (s : State) (h : BitVec 19) : List PA :=
  let p := s.cn.pool.lv
  let t := s.slot (hSlot h)
  let own := (List.range t.elogFill).map fun i =>
    p.elogBase + BitVec.ofNat 53 (hSlot h * 2 ^ p.elogSize.toNat * 8 + i * 8)
  let past := (s.cn.eovf.zipIdx.filter fun e => e.1.slot = hSlot h && e.1.gen = hGen h).map fun e =>
    p.eovfBase + BitVec.ofNat 53 ((s.cn.eovfHead + e.2) % 2 ^ p.eovfSize.toNat * 16)
  if t.elogOvf then own ++ past else own

/-- The entries of a candle are processed; what was lost is counted and recorded once (R127). -/
def evacuate (e : Nat) (h : BitVec 19) (s : State) : State :=
  let (k, s) := evacEntries e h (evacPlaces s h) ⟨[], [], 0⟩ s
  let n := k.lost.length + k.bad
  if n = 0 then s else record 2 0x30 0x32 (BitVec.ofNat 64 n) (handleArg (some h)) 0 0 0 (bumpBy Cnt.cnEvacLost n s)

/-! ### The job (Table 03-7, R231) -/

/-- Evacuations running and queued on an engine. -/
def evacsOn (s : State) (e : Nat) : Nat := (s.engine e).evacQ.length + (if (s.engine e).evac.isSome then 1 else 0)

/-- The candle of an evacuation job. -/
def evacOwner (s : State) (i : Nat) : Option (BitVec 19) := Tab.get none s.tp.evacs i

/-- Evacuation jobs of the table's entries 0–127. -/
def evacJobs (s : State) : Nat := s.tp.evacs.length

def evacKnown (s : State) (h : BitVec 19) : Bool := s.tp.evacs.any fun e => e.2 = some h

/-- A free entry of 0–127 is taken: which one is a free choice, and its generation advances (R219, log entry 22). -/
def takeEvacEntry (s : State) : Option Nat × State :=
  let l := (List.range 128).filter fun i => (evacOwner s i).isNone
  let (k, s) := s.pick l.length
  match l[k]? with
  | none => (none, s)
  | some i => (some i, { s with tp := { s.tp with gens := Tab.set 0 s.tp.gens i (Tab.get 0 s.tp.gens i + 1) } })

def setEvacOwner (i : Nat) (h : Option (BitVec 19)) (s : State) : State :=
  { s with tp := { s.tp with evacs := Tab.set none s.tp.evacs i h } }

/-- The engine that takes an evacuation: fewest, then none running, then the lower number. -/
def evacEngine (s : State) : Nat :=
  leastNat (fun e => 2 * evacsOn s e + (if (s.engine e).evac.isSome then 1 else 0)) (List.range 8)

/-- EVAC_JOB_QUEUE: no escape is outstanding and a job entry is free; the lantern cursors of the candle are dropped. -/
def execEvacJobQueue (i : BitVec 11) (s : State) : Outcome :=
  let n := i.toNat
  let t := s.slot n
  let h := mkHandle n t.gen
  .next (
    if t.st ≠ .retiring ∨ t.escCount ≠ 0 ∨ evacKnown s h ∨ s.pf then s
    else match takeEvacEntry s with
    | (none, _) => s
    | (some j, s) =>
      let s := { s with lans := s.lans.map fun (e : Nat × LanSt) =>
        (e.1, { e.2 with cursors := e.2.cursors.filter fun c => c.slot ≠ n }) }
      setEvacOwner j (some h) (s.modEngine (evacEngine s) fun x => { x with evacQ := x.evacQ ++ [j] }))

/-- An engine takes an evacuation; the job's copies and rewrites are made here. -/
def evacStart (e j : Nat) (rest : List Nat) (s : State) : State :=
  let s := s.modEngine e fun x => { x with evac := some j, evacQ := rest }
  match evacOwner s j with
  | some h => evacuate e h s
  | none => s

/-- EVAC_JOB_START: the engine takes the first evacuation of its queue; a job that runs is held (R218). -/
def execEvacJobStart (e : BitVec 3) (s : State) : Outcome :=
  let g := s.engine e.toNat
  .next (match g.evac, g.evacQ with
    | none, j :: r => if s.pf then s else withLines (evacStart e.toNat j r) s
    | _, _ => s)

/-- Overflow entries of candles that have finished evacuation leave at the head (R120). -/
def advanceEovf : Nat → State → State
  | 0, s => s
  | n + 1, s =>
    match s.cn.eovf with
    | e :: r =>
      if e.done then
        advanceEovf n { s with cn := { s.cn with
          eovf := r, eovfHead := (s.cn.eovfHead + 1) % 2 ^ s.cn.pool.lv.eovfSize.toNat } }
      else s
    | [] => s

/-- The spans go to COOLING and the slot to the tail of the free list (R98, R122). -/
def retireSlot (h : BitVec 19) (s : State) : State :=
  let n := hSlot h
  let t := s.slot n
  let s := t.spans.foldl (fun s i => coolSpan i s) s
  let s := { s with cn := { s.cn with
    eovf := s.cn.eovf.map fun (e : EovfEnt) => if e.slot = n ∧ e.gen = t.gen then { e with done := true } else e,
    freeTail := s.cn.freeTail ++ [n] } }
  advanceEovf s.cn.eovf.length (s.modSlot n fun _ => { CnSlot.reset with gen := t.gen })

/-- EVAC_JOB_DONE: the job's entry is freed, and a held job resumes. -/
def execEvacJobDone (e : BitVec 3) (s : State) : Outcome :=
  .next (match (s.engine e.toNat).evac with
    | some j =>
      if s.pf then s
      else
        let t := setEvacOwner j none (s.modEngine e.toNat fun x => { x with evac := none })
        match evacOwner s j with
        | some h => retireSlot h t
        | none => t
    | none => s)

end Sys2Proof.Machine
end

