-- ==== Sys2Proof/Machine/Mark.lean ====
section
/-! DEFINITION. Marking: the mark stack, mark jobs and the phases of a mark cycle (03 R130–R135; 06 R232–R235, R240). -/

namespace Sys2Proof.Machine

/-! ### The mark stack (R232, R235) -/

def mstkSize (s : State) : Nat := 2 ^ s.tp.mark.lv.log2.toNat

/-- The address of an entry of the stack's ring. -/
def mstkAt (s : State) (i : Nat) : PA := s.tp.mark.lv.base + BitVec.ofNat 53 (8 * (i % mstkSize s))

/-- A push; with the stack full it is discarded and the cycle is incomplete. -/
def pushMark (w : TWord) (asid : BitVec 12) (s : State) : State :=
  if mstkSize s ≤ s.tp.mstkUsed then bump Cnt.tpMstkOvf { s with tp := { s.tp with incomplete := true } }
  else
    let s' := physWrites none (mstkAt s (s.tp.mstkHead + s.tp.mstkUsed)) [w.m, rawM (asid.setWidth 32)] s
    { s' with tp := { s'.tp with mstkUsed := s.tp.mstkUsed + 1 } }

/-- An entry is popped. -/
def popMark (s : State) : (TWord × BitVec 12) × State :=
  let at_ := mstkAt s s.tp.mstkHead
  let (w, s) := physRead at_ s
  let (a, s) := physRead (at_ + 4) s
  ((w.t, a.val.setWidth 12), { s with tp := { s.tp with
    mstkHead := (s.tp.mstkHead + 1) % mstkSize s, mstkUsed := s.tp.mstkUsed - 1 } })

/-! ### Marking (R130, R233, R234, Table 06-6) -/

/-- Mark work translates with R and W at SUPERVISOR (12 Table 12-4, log entry 40). -/
def markXlate (e : Nat) (asid : BitVec 12) (va : Word) (s : State) : Option PA × State := taperXlate e asid 1 .mark va s

/-- A candle-window address of a bank's address space (R94, R134). -/
def windowAddr (s : State) (asid : BitVec 12) (va : Word) : Bool :=
  0x80000000 ≤ va.toNat && asid.extractLsb' 5 7 = s.cn.pool.lv.asid.extractLsb' 5 7 && (asid.extractLsb' 0 5).toNat < 24 &&
    (s.cn.bank (asid.extractLsb' 0 5).toNat).en

/-- A mark request to another node (14 Table 14-4). -/
def requestMark (node : BitVec 16) (w : TWord) (asid : BitVec 12) (s : State) : State :=
  bump Cnt.tpRemoteOut (post node 0 0x30 [w.m, rawM w.val, rawM (asid.setWidth 32)] [] s)

/-- Each word of an object is marked; each pointer-class body word is pushed, and POISON counted. A word that another node
homes is left to that node (R134). -/
def markBody (e : Nat) (asid : BitVec 12) (va : Word) : Nat → State → State
  | 0, s => s
  | n + 1, s =>
    match markXlate e asid va s with
    | (none, s) => markBody e asid (va + 4) n s
    | (some pa, s) =>
      if nodeOf pa ≠ s.node then markBody e asid (va + 4) n s else
      let (w, s) := physRead pa s
      let s := taperWrite pa { w with mark := s.cn.sense } s
      let s := if isPointer w.ty then pushMark w.t asid s else if w.ty = Ty.poison then bump Cnt.tpPoison s else s
      markBody e asid (va + 4) n s

/-- An EXT handle cell is marked; its word 1 is marked at the node and in the ASID of its word 0. -/
def markExt (e : Nat) (asid : BitVec 12) (va : Word) (pa : PA) (w0 : MWord) (s : State) : State :=
  let s := taperWrite pa { w0 with mark := s.cn.sense } s
  match markXlate e asid (va + 4) s with
  | (none, s) => s
  | (some p, s) =>
    let (w1, s) := physRead p s
    requestMark (w0.val.extractLsb' 16 16) w1.t (w0.val.extractLsb' 0 12)
      (if nodeOf p = s.node then taperWrite p { w1 with mark := s.cn.sense } s else s)

/-- A target in a PERSISTENT span of this node. -/
def markTarget (e : Nat) (w : TWord) (asid : BitVec 12) (newborn : Bool) (pa : PA) (s : State) : State :=
  let (t, s) := physRead pa s
  if t.ty = Ty.fwd then pushMark ⟨w.ty, t.val⟩ asid s
  else if newborn ∨ t.mark = s.cn.sense then s
  else if w.ty = Ty.ext then markExt e asid w.val pa t s
  else markBody e asid w.val ((objectExtent w.ty t).getD 1) s

/-- The action of Table 06-6 for an entry. -/
def markAct (e : Nat) (w : TWord) (asid : BitVec 12) (s : State) : State :=
  if !isPointer w.ty || windowAddr s asid w.val then s
  else
    match markXlate e asid w.val s with
    | (none, s) => bump Cnt.tpMarkStale s
    | (some pa, s) =>
      if nodeOf pa ≠ s.node then requestMark (nodeOf pa) w asid s
      else
        match poolIndex s pa with
        | none => s
        | some i =>
          match (s.cn.span i).st with
          | .cooling | .free | .retired => bump Cnt.tpMarkStale s
          | .candle => s
          | .persistent => markTarget e w asid (s.cn.span i).newborn pa s

/-- An engine does mark work when it has no other (R229, R232). -/
def markFree (s : State) (e : Nat) : Bool :=
  let g := s.engine e
  (engineList s.tp.markMask 0x80).contains e && g.run.isNone && g.evac.isNone && g.evacQ.isEmpty && (queuedOn s e).isEmpty

/-- An entry is popped and acted on. -/
def popEntry (e : Nat) (s : State) : State :=
  let (p, s) := popMark s
  markAct e p.1 p.2 s

/-- The same, or while a line of memory has to come the job waits at its engine (log entry 77). -/
def popLines (e : Nat) (s : State) : State :=
  let t := popEntry e { s with miss := none }
  (if t.miss.isSome then withLines (fun _ => t) s else t).modEngine e fun g => { g with mark := t.miss.isSome }

/-- MARK_POP: the entry's whole action, as a job that takes an entry of the job table and frees it (R219). -/
def execMarkPop (e : BitVec 3) (s : State) : Outcome :=
  .next (
    if s.tp.mstkUsed = 0 ∨ !markFree s e.toNat ∨ s.pf then s
    else match takeEvacEntry s with
      | (none, _) => s
      | (some _, t) => popLines e.toNat t)

/-- The oldest entry of the mark log is read and pushed. -/
def consumeLog (s : State) : State :=
  let p := s.cn.pool.lv
  let at_ := p.mlogBase + BitVec.ofNat 53 (8 * s.cn.mlogHead)
  let (w, s) := physRead at_ s
  let (a, s) := physRead (at_ + 4) s
  pushMark w.t (a.val.setWidth 12) { s with cn := { s.cn with
    mlogHead := (s.cn.mlogHead + 1) % 2 ^ p.mlogSize.toNat, mlogUsed := s.cn.mlogUsed - 1 } }

/-- MARK_LOG_CONSUME: the oldest entry of the mark log becomes mark work (R133, R232). -/
def execMarkLogConsume (s : State) : Outcome :=
  .next (if s.cn.mlogUsed = 0 ∨ s.pf then s else withLines consumeLog s)

/-- The first packet of a kind that has reached this node leaves the list of those not yet served. -/
def takeInbox (ok : Pkt → Bool) (s : State) : State :=
  match s.bl.inbox.find? ok with
  | some p => { s with bl := { s.bl with inbox := s.bl.inbox.erase p } }
  | none => s

/-- The first engine that does mark work. -/
def markEngine (s : State) : Nat := (engineList s.tp.markMask 0x80).headD 7

/-- A request of another node is pushed with its own ASID; in IDLE it is ignored and counted, and so is one that does not
resolve on this node (R131, R234). -/
def pushRequest (w : TWord) (asid : BitVec 12) (s : State) : State :=
  let s := takeInbox (fun p => p.op = 0x30 && p.head.take 3 = [w.m, rawM w.val, rawM (asid.setWidth 32)]) s
  let s := { s with cn := { s.cn with reqIn := s.cn.reqIn + 1 } }
  if s.cn.phase = .idle then bump Cnt.cnMarkErr s
  else
    match markXlate (markEngine s) asid w.val s with
    | (some pa, s) =>
      if nodeOf pa = s.node then pushMark w asid s else bump Cnt.cnMarkErr (bump Cnt.tpMarkStale s)
    | (none, s) => bump Cnt.cnMarkErr (bump Cnt.tpMarkStale s)

/-- MARK_REQUEST: a mark request has arrived. -/
def execMarkRequest (w : TWord) (asid : BitVec 12) (s : State) : Outcome := .next (withLines (pushRequest w asid) s)

/-! ### Phases (Table 03-8) -/

/-- Each word of the root vector is pushed with the ASID of CN_MARK_ROOT. -/
def pushRoots (e : Nat) (asid : BitVec 12) (va : Word) : Nat → State → State
  | 0, s => s
  | n + 1, s =>
    match markXlate e asid va s with
    | (none, s) => pushRoots e asid (va + 4) n s
    | (some pa, s) =>
      let (w, s) := physRead pa s
      pushRoots e asid (va + 4) n (pushMark w.t asid s)

/-- The trace begins: the words of the root vector are pushed. -/
def traceStart (s : State) : State :=
  let s := { s with cn := { s.cn with phase := .trace } }
  let e := markEngine s
  match markXlate e s.cn.rootAsid s.cn.rootVa s with
  | (none, s) => bump Cnt.tpMarkStale s
  | (some pa, s) =>
    let (h, s) := physRead pa s
    if h.ty = Ty.hdr then pushRoots e s.cn.rootAsid (s.cn.rootVa + 4) (h.val.extractLsb' 0 24).toNat s else s

/-- MARK_TRACE_START: no slot is PRECYCLE any more. -/
def execMarkTraceStart (s : State) : Outcome :=
  .next (
    if s.cn.phase ≠ .grace ∨ s.cn.slots.any (fun (e : Nat × CnSlot) => e.2.precycle) then s else withLines traceStart s)

/-- QUIESCENT: the mark stack and the mark log are empty, no mark request of this node waits to be sent, and none that has
arrived waits to be pushed (R131). -/
def quiescent (s : State) : Bool :=
  let mine (p : Pkt) : Bool := p.op = 0x30 && p.src = s.node
  s.cn.phase = .trace && s.tp.mstkUsed = 0 && s.cn.mlogUsed = 0 && !s.bl.pkts.any mine &&
    !(s.bl.ports.any fun e => e.2.txq.any mine) && !s.bl.inbox.any fun p => p.op = 0x30

/-- MARK_FINISH: the snapshot barrier goes off with the phase. -/
def execMarkFinish (s : State) : Outcome :=
  .next (match s.cn.phase with
    | .idle => bump Cnt.cnMarkErr s
    | .trace => if quiescent s then { s with cn := { s.cn with phase := .sweep } } else bump Cnt.cnMarkErr s
    | .grace | .sweep => s)

/-- Marked words of the lines from one on. -/
def markedLines (sense : Bool) (ln : Nat) : Nat → State → Nat × State
  | 0, s => (0, s)
  | n + 1, s =>
    let (l, s) := snoopLine ln s
    let (k, s) := markedLines sense (ln + 1) n s
    (k + (l.filter fun w => w.mark = sense).length, s)

/-- Live words of a span. -/
def liveWords (i : Nat) (s : State) : Nat × State :=
  markedLines s.cn.sense (lineNo (mkPa s.node (spanLocal s i))) 16384 s

/-- A PERSISTENT span is counted, and released when it is dead (R131, R235). -/
def sweepSpan (i : Nat) (s : State) : State :=
  let (n, s) := liveWords i s
  let s := { s with cn := { s.cn with spanLive := Tab.set 0 s.cn.spanLive i n } }
  if n = 0 ∧ !(s.cn.span i).newborn ∧ s.cn.autofree ∧ !s.tp.incomplete then coolSpan i s else s

/-- Every PERSISTENT span is swept, and the cycle ends. -/
def sweepAll (s : State) : State :=
  let ps := s.cn.spans.filterMap fun (e : Nat × SpanEnt) => if e.2.st = .persistent then some e.1 else none
  let s := ps.foldl (fun s i => sweepSpan i s) s
  { s with cn := { s.cn with
    phase := .idle, spans := s.cn.spans.map fun (e : Nat × SpanEnt) => (e.1, { e.2 with newborn := false }) } }

/-- MARK_SWEEP_DONE. -/
def execMarkSweepDone (s : State) : Outcome := .next (if s.cn.phase ≠ .sweep then s else withLines sweepAll s)

/-! ### Commit and clear (R240, R241) -/

def execTpMarkCommit (s : State) : Outcome := .next { s with tp := { s.tp with mark := s.tp.mark.request } }

/-- TP_MARK_COMMIT_APPLY: the group becomes live while the phase is IDLE. -/
def execTpMarkCommitApply (s : State) : Outcome :=
  let m := s.tp.mark.sh
  .next (
    if !s.tp.mark.pend ∨ s.cn.phase ≠ .idle then s
    else if 12 ≤ m.log2.toNat ∧ m.log2.toNat ≤ 22 ∧ m.base.toNat % 8 = 0 then
      { s with tp := { s.tp with mark := s.tp.mark.commit } }
    else { s with tp := { s.tp with mark := s.tp.mark.refuse, cfgerr := true } })

def execTpCntclr (s : State) : Outcome := .next (clearCounters 0x400040 0x400060 s)

end Sys2Proof.Machine
end

