-- ==== Sys2Proof/Machine/HomeAgent.lean ====
section
/-! DEFINITION. Requests that reach a home agent (13 R414–R422), forwards and invalidations that reach a lantern (13 R416,
R418), responses (14 R446–R448), remote object accesses (14 R450), and the end of the wipe (13 R428). A row whose packet
waits at this node takes the packet (14 R444). -/

namespace Sys2Proof.Machine

/-- The packet of a command leaves the list of packets that have reached this node. -/
def takePkt (op : BitVec 8) (txid : BitVec 16) (s : State) : State := takeInbox (fun p => p.op = op && p.txid = txid) s

/-- A packet of a source. -/
def takeFrom (op : BitVec 8) (src txid : BitVec 16) (s : State) : State :=
  takeInbox (fun p => p.op = op && p.txid = txid && p.src = src) s

/-! ### At the home agent -/

/-- A read, own read or upgrade (R414): an address that this node does not home has no home agent here; one outside the
tagged data answers POISON source 4 (R2, R58, R382). -/
def serveRead (kind : HomeKind) (op : BitVec 8) (node : BitVec 16) (l : Lan) (txid : BitVec 16) (pa : PA) (err : CacheErr)
    (s : State) : State :=
  let s := takeFrom op node txid s
  let ln := lineNo pa
  if nodeOf pa ≠ s.node then s
  else if inData s (localOf pa) then homeRequest ⟨node, l, txid, none⟩ kind ln (serveError ln err s)
  else
    let s := if inDevice (localOf pa) then s else unpopulated pa s
    if node = s.node then s
    else post node txid 0x20 (paWords (linePa ln) ++ [stateWord (if kind = .shared then .S else .M)]) (poisonLineOf 4) s

def execSharedRead (node : BitVec 16) (l : Lan) (txid : BitVec 16) (pa : PA) (err : CacheErr) (s : State) : Outcome :=
  .next (serveRead .shared 0x01 node l txid pa err s)
def execOwnRead (node : BitVec 16) (l : Lan) (txid : BitVec 16) (pa : PA) (err : CacheErr) (s : State) : Outcome :=
  .next (serveRead .own 0x02 node l txid pa err s)
def execUpgrade (node : BitVec 16) (l : Lan) (txid : BitVec 16) (pa : PA) (err : CacheErr) (s : State) : Outcome :=
  .next (serveRead .upgrade 0x03 node l txid pa err s)

/-- A span in COOLING, RETIRED or FREE (R111). -/
def lateSpan (s : State) (pa : PA) : Bool :=
  match poolIndex s pa with
  | some i => (match (s.cn.span i).st with | .cooling | .retired | .free => true | _ => false)
  | none => false

/-- The directory no longer names a lantern of a node as owner. -/
def ownerGone (node : BitVec 16) (ln : Nat) (s : State) : State :=
  match (s.dirEnt ln).owner with
  | some o => if o.node = node then setDir ln { s.dirEnt ln with owner := none } s else s
  | none => s

/-- A write-back: a lantern of this node gives up its M or O line; from another node the data are written when the
directory names a lantern of that node as owner, and serve a transaction that waits for them (R430). After a range clean
its TXID names the state that the holder keeps (log entry 49). A write-back into a span that no candle has is discarded
and counted (R111). -/
def execWriteBack (node : BitVec 16) (l : Lan) (pa : PA) (words : List MWord) (s : State) : Outcome :=
  let ln := lineNo pa
  .next (
    if node = s.node then
      if (s.l2 l ln).st = .M ∨ (s.l2 l ln).st = .O then evict l ln s else s
    else
      let mine (p : Pkt) : Bool := p.op = 0x04 && p.src = node && p.head.take 2 = paWords (linePa ln)
      let keeps := (s.bl.inbox.find? mine).map fun p => keptBy p.txid
      let s := takeInbox mine s
      if nodeOf pa ≠ s.node then s
      else if !inData s (localOf pa) then (if inDevice (localOf pa) then s else unpopulated pa s)
      else if lateSpan s pa then bump Cnt.cnLateWrite (ownerGone node ln s)
      else
        let s := { s with bl := { s.bl with txns := s.bl.txns.map fun (t : HomeTxn) =>
          if t.line = ln ∧ t.waitData then { t with data := some words } else t } }
        match (s.dirEnt ln).owner with
        | some o => if o.node = node then homeWriteBack o ln words (keeps.getD .I) s else s
        | none => s)

/-- An eviction notice of an E or S line. -/
def execEvictionNotice (node : BitVec 16) (l : Lan) (pa : PA) (s : State) : Outcome :=
  let ln := lineNo pa
  .next (
    if node = s.node then
      if (s.l2 l ln).st = .E ∨ (s.l2 l ln).st = .S then evict l ln s else s
    else
      let s := takeInbox (fun p => p.op = 0x05 && p.src = node && p.head.take 3 = paWords (linePa ln) ++ [lanWord l]) s
      if nodeOf pa = s.node ∧ inData s (localOf pa) then homeNotice ⟨node, l⟩ ln s else s)

/-- The words of one line that a write gives, by index; indices above 15 have no word. -/
def lineTab (ws : List (BitVec 4 × MWord)) : Tab (Option MWord) :=
  ws.foldl (fun (t : Tab (Option MWord)) (w : BitVec 4 × MWord) => Tab.set none t w.1.toNat (some w.2)) []

/-- A write of host DMA or of the fabric: discarded in a span that no candle has, and counted once for the line (R111, log
entry 78); keep: the words keep their IMM (02 R74). -/
def agentWriteLine (keep : Bool) (hint : Option Lan) (ln : Nat) (ws : Tab (Option MWord)) (s : State) : State :=
  if lateSpan s (linePa ln) then bump Cnt.cnLateWrite s else physWriteKeep keep hint ln ws s

def execHintedWrite (l : Lan) (pa : PA) (ws : List (BitVec 4 × MWord)) (s : State) : Outcome :=
  .next (agentWriteLine false (some l) (lineNo pa) (lineTab ws) s)

/-- The same for words in order from an address. -/
def agentRun (keep : Bool) (hint : Option Lan) (pa : PA) (cur : Tab (Option MWord)) : List MWord → State → State
  | [], s => if cur.isEmpty then s else agentWriteLine keep hint (lineNo (pa - 4)) cur s
  | w :: r, s =>
    let cur := cur ++ [(pa.toNat / 4 % 16, some w)]
    if pa.toNat / 4 % 16 = 15 then agentRun keep hint (pa + 4) [] r (agentWriteLine keep hint (lineNo pa) cur s)
    else agentRun keep hint (pa + 4) cur r s

/-- An uncached write; its completion is acknowledged to another node. -/
def execUncachedWrite (node txid : BitVec 16) (pa : PA) (ws : List (BitVec 4 × MWord)) (s : State) : Outcome :=
  let ln := lineNo pa
  .next (
    if node = s.node then agentWriteLine false none ln (lineTab ws) s
    else
      let s := takeFrom 0x06 node txid s
      if nodeOf pa ≠ s.node then s
      else if lateSpan s (linePa ln) then ackTo ⟨node, 0, txid, none⟩ ln (bump Cnt.cnLateWrite s)
      else if inData s (localOf pa) then homeRequest ⟨node, 0, txid, none⟩ (.uncached false (lineTab ws)) ln s
      else ackTo ⟨node, 0, txid, none⟩ ln (if inDevice (localOf pa) then s else unpopulated pa s))

/-- The tag byte of a word is replaced at home, for the test-and-set of MARK (R234). -/
def execExchangeAtHome (node txid : BitVec 16) (pa : PA) (i : BitVec 4) (tag : Byte) (s : State) : Outcome :=
  let ln := lineNo pa
  let s := if node = s.node then s else takeFrom 0x07 node txid s
  .next (
    if nodeOf pa ≠ s.node then s
    else if !inData s (localOf pa) then (if inDevice (localOf pa) then s else unpopulated pa s)
    else homeRequest ⟨node, 0, txid, none⟩ (.retag i.toNat tag) ln s)

/-! ### At a lantern -/

/-- A forward: the lantern supplies its data to the home agent with the state it keeps, or answers NODATA (R416, R448). An E
line with an uncorrectable error leaves with an eviction notice, ahead of the answer (R411). -/
def forward (own : Bool) (l : Lan) (pa : PA) (txid : BitVec 16) (err : CacheErr) (s : State) : State :=
  let ln := lineNo pa
  let s := takeFrom (if own then 0x11 else 0x10) (nodeOf pa) txid s
  let s := match err with
    | .l2Corr | .l2Uncorr | .l2Key => strikeSome l ln err s
    | _ => s
  let (d, s) := supply l ln own (meetL2 l ln s)
  match d with
  | some w => post (nodeOf pa) txid 0x20 (paWords (linePa ln) ++ [stateWord (s.l2 l ln).st]) w s
  | none => post (nodeOf pa) txid 0x22 (paWords (linePa ln)) [] s

def execForwardShared (l : Lan) (pa : PA) (txid : BitVec 16) (err : CacheErr) (s : State) : Outcome :=
  .next (forward false l pa txid err s)
def execForwardOwn (l : Lan) (pa : PA) (txid : BitVec 16) (err : CacheErr) (s : State) : Outcome :=
  .next (forward true l pa txid err s)

/-- An invalidation reaches every lantern of the node and is acknowledged once (R418). An owner's copy stays, which a home
agent takes by a forward (Table 13-3): where an invalidation meets one, that owner's own request is being served. -/
def execInvalidate (pa : PA) (txid : BitVec 16) (s : State) : Outcome :=
  let ln := lineNo pa
  let s := takeFrom 0x12 (nodeOf pa) txid s
  let ls := ((List.range 32).map (BitVec.ofNat 5)).filter fun l => (s.l2 l ln).st = .S
  let s := ls.foldl (fun s l => invalidate l ln s) s
  .next (if nodeOf pa = s.node then s else post (nodeOf pa) txid 0x21 (paWords (linePa ln)) [] s)

/-! ### Responses -/

def State.req (s : State) (txid : BitVec 16) : Option RemReq := s.bl.reqs.find? fun r => r.txid = txid
def dropReq (txid : BitVec 16) (s : State) : State :=
  { s with bl := { s.bl with reqs := s.bl.reqs.filter fun r => r.txid ≠ txid } }
def State.lateReq (s : State) (txid : BitVec 16) : Option RemReq := s.bl.lateReqs.find? fun r => r.txid = txid
def dropLate (txid : BitVec 16) (s : State) : State :=
  { s with bl := { s.bl with lateReqs := s.bl.lateReqs.filter fun r => r.txid ≠ txid } }

/-- A home transaction with a change; it completes once its data and acknowledgements are there. -/
def txnStep (t : HomeTxn) (s : State) : State :=
  if t.waitData = false ∧ t.acks = 0 then homeEnd t s
  else { s with bl := { s.bl with txns := s.bl.txns.map fun (u : HomeTxn) => if u.id = t.id then t else u } }

/-- A response after its time is counted (R447). -/
def lateResponse (txid : BitVec 16) (s : State) : State := bump Cnt.blLate (dropLate txid s)

/-- Data that come too late (R447): those that granted ownership are written back unchanged. Those that answer a forward of this
node are written at home while the directory still names a lantern of another node as owner. -/
def lateData (txid : BitVec 16) (ln : Nat) (st : Moesi) (words : Line) (s : State) : State :=
  let s := lateResponse txid s
  if lineNode ln ≠ s.node then
    match st with
    | .M | .O | .E => post (lineNode ln) 0 0x04 (paWords (linePa ln)) words s
    | .S | .I => s
  else
    let e := s.dirEnt ln
    match e.owner with
    | some o =>
      if o.node = s.node then s
      else setDir ln { e with owner := if st = .I then none else e.owner } (homeWrite (lineLocal ln) words s)
    | none => s

/-- Data for a transaction of a home agent of this node, for a request of this node, or late (R447). -/
def execDataResponse (txid : BitVec 16) (pa : PA) (st : Moesi) (words : List MWord) (s : State) : Outcome :=
  let s := takePkt 0x20 txid s
  let ln := lineNo pa
  .next (
    match s.bl.txns.find? fun (t : HomeTxn) => t.id = txid && t.waitData with
    | some t =>
      let e := s.dirEnt ln
      let s := match t.kind, st, e.owner with
        | .shared, .S, some o => shareDir o ln { e with owner := none } s
        | _, _, _ => s
      txnStep { t with waitData := false, data := some words } s
    | none =>
      match s.req txid with
      | some r =>
        let own := s.l2 r.lan ln
        let w := if r.kind = .upgrade ∧ (own.st = .O ∨ own.st = .E ∨ own.st = .M) then own.words else words
        wakeRemote r.lan (if w == own.words then setL2 r.lan ln { own with st := st } (dropReq txid s)
          else install r.lan ln st w (dropReq txid s))
      | none => lateData txid ln st words s)

def execAckResponse (txid : BitVec 16) (s : State) : Outcome :=
  let s := takePkt 0x21 txid s
  .next (
    match s.bl.txns.find? fun (t : HomeTxn) => t.id = txid && 0 < t.acks with
    | some t => txnStep { t with acks := t.acks - 1 } s
    | none =>
      if (s.req txid).any fun r => r.kind = .write then dropReq txid s
      else if (s.lateReq txid).isSome then lateResponse txid s else s)

/-- The lantern that the directory names as owner has no copy: the line becomes POISON source 5 at home (R448), unless its
write-back has arrived, or its notice, so that the directory names it no longer (R411). -/
def execNodataResponse (txid : BitVec 16) (s : State) : Outcome :=
  let s := takePkt 0x22 txid s
  .next (
    match s.bl.txns.find? fun (t : HomeTxn) => t.id = txid && t.waitData with
    | none => if (s.lateReq txid).isSome then lateResponse txid s else s
    | some t =>
      let s := if t.data.isSome ∨ (s.dirEnt t.line).owner = none then s
        else
          let s := homeWrite (lineLocal t.line) (poisonLineOf 5) (bump Cnt.blNocopy s)
          setDir t.line { s.dirEnt t.line with owner := none } s
      txnStep { t with waitData := false } s)

/-- Stores of a lantern's cores that wait for a line are discarded with their merging-buffer entries, and their escapes
are no longer outstanding (R447). -/
def dropStores (l : Lan) (ln : Nat) (s : State) : State :=
  (coresOf l).foldl (fun s k =>
    if (s.core k).merge.any fun m => m.line = ln then dropEntry k s else s) s
where
  /-- The core's entry of the line leaves without being written. -/
  dropEntry (k : CoreId) (s : State) : State :=
    let done := (s.core k).escWait.filter fun b => lineNo b.pa = ln
    let s := done.foldl (fun s b => s.modSlot b.slot fun t => { t with escCount := t.escCount - 1 }) s
    s.modCore k fun x =>
      { x with merge := x.merge.filter fun e => e.line ≠ ln,
               escWait := x.escWait.filter fun b => lineNo b.pa ≠ ln,
               barrier := x.barrier.map fun b => if lineNo b.pa = ln then { b with performed := true } else b }

/-- A request that completes with an error is counted, and recorded once for its millisecond (R447). -/
def countTimeout (s : State) : State := bump Cnt.blTimeout { s with ms := { s.ms with blTimeout := s.ms.blTimeout + 1 } }

/-- A request completes with an error (R447): a load or fetch reads POISON source 5, an XLD writes it, and a store whose
own read fails is discarded; a read for Taper or a block of the HUB reads it too. -/
def remoteError (r : RemReq) (s : State) : State :=
  let s := countTimeout (dropReq r.txid s)
  if r.kind = .write then s else
  match r.xld, r.ctx with
  | some x, some c => wakeCtx c (replyLoad c x.loc (TWord.poison 5) s)
  | some _, none => s
  | none, c =>
    let ahead := (s.lan r.lan).fills.any fun f => f.1 = r.line
    let s := if ahead then s.modLan r.lan fun a => { a with fills := a.fills.filter fun f => f.1 ≠ r.line }
      else if c.isNone ∧ r.lan = 0 ∧ r.kind = .readShared then { s with bl := { s.bl with failed := s.bl.failed ++ [r.line] } }
      else s
    let s := if r.kind = .readShared then s else dropStores r.lan r.line s
    let s := match c with
      | some c => s.modCtx c fun x => { x with poisonLine := some r.line }
      | none => s
    wakeRemote r.lan s

def execErrResponse (txid : BitVec 16) (s : State) : Outcome :=
  let s := takePkt 0x24 txid s
  .next (match s.req txid with
    | some r => remoteError r s
    | none =>
      if (s.lateReq txid).isSome then lateResponse txid s
      else if txid = 0 ∨ 0xFFFE ≤ txid.toNat then countTimeout s
      else s)

/-- The request, as its lantern made it, of a transaction of a home agent. -/
def txnReq (t : HomeTxn) : RemReq :=
  let kind : ReqKind := match t.kind with | .shared => .readShared | .own => .readOwn | .upgrade => .upgrade | _ => .write
  ⟨t.id, kind, t.req.lan, t.req.ctx, t.line, none⟩

/-- A forward or an invalidation of a home agent has no answer in time: the transaction ends, with the directory as it was and
data that a lantern of this node has given up written at home. A request of this node completes with an error; one of another
node has its own time-out (R447, log entry 96). -/
def homeAbort (t : HomeTxn) (s : State) : State :=
  let s := { s with bl := { s.bl with txns := s.bl.txns.filter fun u => u.id ≠ t.id } }
  let e := s.dirEnt t.line
  let s := match t.data with
    | some d => setDir t.line { e with owner := e.owner.filter fun o => o.node ≠ s.node } (homeWrite (lineLocal t.line) d s)
    | none => s
  let s := match t.kind with
    | .test c _ => s.modMc c fun m => { m with testBusy := false }
    | _ => s
  let s := if t.req.node = s.node then remoteError (txnReq t) s else s
  homeRetry { s with bl := { s.bl with lateReqs := s.bl.lateReqs ++ [txnReq t] } }

/-- No response within BL_TIMEOUT: an error, unless the response has arrived (R447, R457). -/
def execRemoteRequestTimeout (txid : BitVec 16) (s : State) : Outcome :=
  .next (
    if s.bl.inbox.any fun p => p.txid = txid && 0x20 ≤ p.op && p.op ≤ 0x24 then s
    else match s.req txid with
      | some r =>
        let s := remoteError r s
        { s with bl := { s.bl with lateReqs := s.bl.lateReqs ++ [r] } }
      | none =>
        match s.bl.txns.find? fun t => t.id = txid with
        | some t => homeAbort t s
        | none => s)

/-- The reply of an XLD: the word is written, or the remote cause is raised at the XLD with the remote address, the guard run
and the delay slot as they stood there (R340, R450); w1 is the index when it is the operand that failed (Table 10-4). -/
def execXrep (txid : BitVec 16) (a : XReply) (s : State) : Outcome :=
  let s := takePkt 0x23 txid s
  .next (match s.req txid with
    | none => if (s.lateReq txid).isSome then lateResponse txid s else s
    | some r =>
      let s := dropReq txid s
      match r.xld, r.ctx with
      | some x, some c =>
        wakeCtx c (match a with
          | .word w => replyLoad c x.loc w s
          | .cause e =>
            let w1 := if e = Cause.bounds then x.idx else TWord.unset
            s.modCtx c fun y =>
              { y with raised := some { x.at_ with trap := { mkTrap e x.va w1 with w0 := x.va } },
                       pc := x.at_.pc, cstat := { y.cstat with gcnt := x.gcnt, ldf := x.at_.slot } })
      | _, _ => s)

/-! ### Remote objects at their home (R450) -/

/-- What the fabric agent's access answers: a cause, or a value. -/
abbrev AgentRes (α : Type) := Sum (BitVec 8) α × State

/-- Steps 2 and 3 of R450: the translation with USER rights and the span. -/
def agentXlate (asid : BitVec 12) (kind : AccKind) (va : Word) (s : State) : AgentRes PA :=
  match walk none asid va s with
  | .ok (.inr f) s =>
    match useLeaf s kind 0 f asid va with
    | .inl c => (.inl c, s)
    | .inr pa =>
      match (poolIndex s pa).map fun i => (s.cn.span i).st with
      | some .candle => (.inl Cause.foreign, s)
      | some .cooling | some .free | some .retired => (.inl Cause.stale, s)
      | _ => (.inr pa, s)
  | .ok (.inl c) s => (.inl c, s)
  | .trap t s => (.inl t.cause, s)
  | .wait _ s => (.inl Cause.noMap, s)

/-- Goes on with the value. -/
def AgentRes.bind {α β : Type} (r : AgentRes α) (f : α → State → AgentRes β) : AgentRes β :=
  match r with
  | (.inl c, s) => (.inl c, s)
  | (.inr a, s) => f a s

/-- A word with the one-hop redirect of R128: the word and its physical address. -/
def agentWord (asid : BitVec 12) (kind : AccKind) (va : Word) (s : State) : AgentRes (MWord × Word × PA) :=
  AgentRes.bind (agentXlate asid kind va s) fun pa s =>
    let (w, s) := physRead pa s
    if w.ty ≠ Ty.fwd then (.inr (w, va, pa), s)
    else if w.val.extractLsb' 0 2 ≠ 0 then (.inl Cause.align, s)
    else AgentRes.bind (agentXlate asid kind w.val s) fun pb s =>
      let (x, s) := physRead pb s
      if x.ty = Ty.fwd then (.inl Cause.tagMismatch, s) else (.inr (x, w.val, pb), s)

/-- The body word that handle and index name, after the checks of R450; the header is checked as a local VREF checks it
(R64, R67). -/
def agentBody (kind : AccKind) (w0 w1 i : TWord) (s : State) : AgentRes (MWord × PA × Word) :=
  let asid : BitVec 12 := w0.val.setWidth 12
  if !(w1.ty = Ty.vec || w1.ty = Ty.rec_ || w1.ty = Ty.sym || w1.ty = Ty.hitv) then (.inl Cause.tagMismatch, s)
  else if w1.val.extractLsb' 0 2 ≠ 0 then (.inl Cause.align, s)
  else
    AgentRes.bind (agentWord asid kind w1.val s) fun h s =>
      if h.1.ty = Ty.poison then (.inl Cause.poison, s)
      else if h.1.ty ≠ Ty.hdr then (.inl Cause.hdrMissing, s)
      else if !hdrOk w1.ty h.1.val then (.inl Cause.badPayload, s)
      else if i.val.getLsbD 31 ∨ hdrLen h.1.val ≤ i.val.toNat then (.inl Cause.bounds, s)
      else
        AgentRes.bind (agentWord asid kind (h.2.1 + 4 + (i.val <<< 2)) s) fun b s =>
          (.inr (b.1, b.2.2, h.1.val), s)

/-- XREP: the word as it stands there, or UNSET and the cause (R450, log entry 42). -/
def answerXld (node txid : BitVec 16) (w0 w1 i : TWord) (s : State) : State :=
  match agentBody .load w0 w1 i (takeFrom 0x08 node txid s) with
  | (.inr b, s) => post node txid 0x23 [b.1.t.m] [] s
  | (.inl c, s) => post node txid 0x23 [MWord.unset, rawM (c.setWidth 32)] [] s

/-- XLD_REQUEST: the agent at home answers. -/
def execXldRequest (node txid : BitVec 16) (w0 w1 i : TWord) (s : State) : Outcome :=
  .next (withLines (answerXld node txid w0 w1 i) s)

/-- An XST that has been served leaves the list, and is acknowledged with the address of its word, if it has one (log entry
96). -/
def xstServed (node txid : BitVec 16) (head : List MWord) (s : State) : State :=
  post node txid 0x21 head [] (takeFrom 0x09 node txid s)

/-- A failed XST is counted and recorded. -/
def xstFail (node txid : BitVec 16) (c : BitVec 8) (s : State) : State :=
  record 1 0x70 0x71 (node.setWidth 64) (c.setWidth 64) 0 0 0 (bump Cnt.blXfail (xstServed node txid [] s))

/-- An XST that passes its checks is a store of a task bound to no event (R132, R450); while the mark log has no room for
its entries it waits (R133). -/
def performXst (node txid : BitVec 16) (w0 w1 i v : TWord) (s : State) : State :=
  match agentBody .store w0 w1 i s with
  | (.inl c, t) => xstFail node txid c t
  | (.inr b, t) =>
    let logs : List (TWord × Bool) :=
      if snapshotOn t && isPointer b.1.ty && (match poolIndex t b.2.1 with
          | some k => decide ((t.cn.span k).st = .persistent) | none => false)
      then (b.1.t, false) :: (if isPointer v.ty then [(v, true)] else []) else []
    if b.1.imm then xstFail node txid Cause.immStore t
    else if w1.ty = Ty.vec ∧ hdrSub b.2.2 ≠ 0 ∧ hdrSub b.2.2 ≠ v.ty.setWidth 8 then
      xstFail node txid Cause.elemType t
    else if logs ≠ [] ∧ 2 ^ t.cn.pool.lv.mlogSize.toNat < t.cn.mlogUsed + logs.length then s
    else
      let t := logs.foldl (fun s (l : TWord × Bool) => mlogPush l.1 (w0.val.setWidth 12) l.2 s)
        (xstServed node txid (paWords b.2.1) t)
      physWrite none b.2.1 v.m t

/-- XST_REQUEST: the agent at home performs the store. -/
def execXstRequest (node txid : BitVec 16) (w0 w1 i v : TWord) (s : State) : Outcome :=
  .next (withLines (performXst node txid w0 w1 i v) s)

/-! ### The end of the wipe -/

/-- HBM_WIPE_DONE: WIPE_BUSY reads 0 and the requests and test accesses that waited are served (R428). -/
def execHbmWipeDone (n : BitVec 2) (s : State) : Outcome :=
  .next (
    if (s.mc n.toNat).wipeBusy ∧ s.pw.stage = .run then
      homeRetry (heldTests n.toNat (s.modMc n.toNat fun m => { m with wipeBusy := false }))
    else s)

end Sys2Proof.Machine
end

