-- ==== Sys2Proof/Machine/Ports.lean ====
section
/-! DEFINITION. Ports of the Breas link (14 R433–R442, R455, R456): training and negotiation, flits, retry, credits, and
the packets that a port sends. -/

namespace Sys2Proof.Machine

def State.port (s : State) (p : Nat) : PortSt := Tab.get PortSt.reset s.bl.ports p
def State.modPort (s : State) (p : Nat) (f : PortSt → PortSt) : State :=
  { s with bl := { s.bl with ports := Tab.set PortSt.reset s.bl.ports p (f (s.port p)) } }
def State.pcfg (s : State) (p : Nat) : PortCfg := Tab.get PortCfg.reset s.bl.pcfg.lv p
/-- The fabric optics are on: they are off from step 6 of the shedding on (19 Table 19-5). -/
def opticsOn (s : State) : Bool := s.pw.stage = .run
/-- The port is UP and its optics are on. -/
def portUp (s : State) (p : Nat) : Bool := decide ((s.port p).st = .up) && opticsOn s

/-- UPMASK (Table 14-12). -/
def upMaskBl (s : State) : BitVec 16 :=
  (List.range 16).foldl (fun (m : BitVec 16) p => if (s.port p).st = .up then m ||| ((1 : BitVec 16) <<< p) else m) 0

/-! ### Flits (R437, R438) -/

/-- The 96 bytes of a flit (Table 14-3): headers, CRC-32C over bytes 0–11 and 16–95, payloads, tags. -/
def flitBytes (f : Flit) : List Byte :=
  let kind : BitVec 2 := match f.kind with | .idle => 0 | .head => 1 | .body => 2 | .link => 3
  let h0 : Word := f.dest ++ f.ttl ++ f.bodys ++ f.vc ++ kind
  let h1 : Word := f.txid ++ f.src
  let h2 : Word := f.ack ++ f.fseq ++ f.op
  let hdr := wordBytes h0 ++ wordBytes h1 ++ wordBytes h2
  let ws := (List.range 16).map fun i => f.words.getD i MWord.unset
  let pay := ws.flatMap (fun w => wordBytes w.val) ++ ws.map MWord.tag
  hdr ++ wordBytes (crc32c (hdr ++ pay)) ++ pay

/-- The flit in 96 received bytes; none where its CRC is wrong (R437). -/
def readFlit (bs : List Byte) : Option Flit :=
  if bs.length ≠ 96 ∨ wordAt bs 12 ≠ crc32c (bs.take 12 ++ bs.drop 16) then none
  else
    let h0 := wordAt bs 0
    let h1 := wordAt bs 4
    let h2 := wordAt bs 8
    let kind : FlitKind := match (h0.extractLsb' 0 2).toNat with | 0 => .idle | 1 => .head | 2 => .body | _ => .link
    some ⟨kind, h0.extractLsb' 2 4, h0.extractLsb' 6 3, h0.extractLsb' 9 7, h0.extractLsb' 16 16, h1.extractLsb' 0 16,
      h1.extractLsb' 16 16, h2.extractLsb' 0 8, h2.extractLsb' 8 12, h2.extractLsb' 20 12,
      (List.range 16).map fun i => MWord.ofTag (bs.getD (80 + i) 0) (wordAt bs (16 + 4 * i))⟩

/-- A port sends a flit; its CRC is computed anew at every node that sends it (R437). -/
def sendFlit (p : Nat) (f : Flit) (s : State) : State := emit (.flit p (flitBytes f)) s

/-- A LINK flit: its type, the credits of VC 0–9 and the shared ones in words 1–11, and further words from word 12 on (log
entry 96); it carries the ACK of the last flit received in order. -/
def linkFlit (p : Nat) (ty : Nat) (credits : List Nat) (ws : List MWord) (s : State) : State :=
  sendFlit p ⟨.link, 0, 0, 0, 0, 0, 0, 0, 0, (s.port p).rxNext - 1,
    rawM (BitVec.ofNat 32 ty) :: (List.range 11).map (fun v => rawM (BitVec.ofNat 32 (credits.getD v 0))) ++ ws⟩ s

/-- The words of the k-th BODY flit of a packet. -/
def bodyWords (q : Pkt) (k : Nat) : List MWord := (List.range 16).map fun i => q.body.getD (16 * k + i) MWord.unset

/-- BODYS of a packet. -/
def bodyCount (q : Pkt) : Nat := (q.body.length + 15) / 16

/-- First VC of an operation's class (Tables 14-4, 14-5). -/
def classVc (op : BitVec 8) : BitVec 4 :=
  if op = 0x30 then 0 else if op.toNat < 0x10 then 2 else if op.toNat < 0x20 then 4 else if op.toNat < 0x30 then 6 else 8

/-- The VC of a packet: lane a, or lane b after a DL link (R441). -/
def pktVc (q : Pkt) : BitVec 4 := classVc q.op + (if q.laneB then 1 else 0)

/-- The flits of a packet with link sequences from one on. -/
def pktFlits (q : Pkt) (vc : BitVec 4) (fseq ack : BitVec 12) : List Flit :=
  ⟨.head, vc, BitVec.ofNat 3 (bodyCount q), q.ttl, q.dest, q.src, q.txid, q.op, fseq, ack,
    (List.range 16).map fun i => q.head.getD i MWord.unset⟩ ::
  (List.range (bodyCount q)).map fun k =>
    ⟨.body, vc, 0, 0, 0, 0, 0, 0, fseq + 1 + BitVec.ofNat 12 k, ack, bodyWords q k⟩

/-! ### Sending (R439, R440, R442) -/

/-- Credits that a packet on a VC can use: reserved and shared (R440). -/
def creditsFor (x : PortSt) (vc : Nat) : Nat := Tab.get 0 x.credits vc + Tab.get 0 x.credits 10

/-- A version-1 link carries messages without their crossing, on VC 8 (R436). -/
def asVersion1 (q : Pkt) : Pkt := { q with head := setNth (setNth q.head 2 (rawM 0)) 3 (rawM 0) }

/-- The packet can start: credits for all its flits, and room for them in the retry buffer. -/
def canStart (x : PortSt) (q : Pkt) : Bool :=
  1 + bodyCount q ≤ creditsFor x (pktVc q).toNat && x.retry.length + 1 + bodyCount q ≤ 3072

/-- Packets of a VC leave in their order: the first of each VC. -/
def vcHeads (x : PortSt) : List Pkt :=
  (List.range 10).filterMap fun v => x.txq.find? fun q => (pktVc q).toNat = v

/-- The packet to send: class priority RSP, SNP, REQ, SYS, MSG among those that can start, a waiting message at least once
in 16 packets (R442). -/
def choosePkt (x : PortSt) : Option Pkt :=
  let ready := (vcHeads x).filter (canStart x)
  let ofVc (v : Nat) : Option Pkt := ready.find? fun q => (classVc q.op).toNat = v
  if 15 ≤ x.sinceMsg ∧ (ofVc 8).isSome then ofVc 8
  else [6, 4, 2, 0, 8].findSome? ofVc

/-- Sends one packet whole. -/
def sendPkt (p : Nat) (q : Pkt) (s : State) : State :=
  let x := s.port p
  let v := (pktVc q).toNat
  let n := 1 + bodyCount q
  let own := min n (Tab.get 0 x.credits v)
  let out := if x.version = 1 then asVersion1 q else q
  let fs := pktFlits out (if x.version = 1 then 8 else pktVc q) x.fseq (x.rxNext - 1)
  let s := s.modPort p fun x =>
    { x with
      txq := x.txq.erase q, fseq := x.fseq + BitVec.ofNat 12 n, retry := x.retry ++ fs,
      credits := Tab.set 0 (Tab.set 0 x.credits v (Tab.get 0 x.credits v - own)) 10 (Tab.get 0 x.credits 10 - (n - own)),
      sinceMsg := if q.op = 0x40 then 0 else x.sinceMsg + 1 }
  bumpBy (Cnt.blFlitsTx p) n (fs.foldl (fun s f => sendFlit p f s) s)

/-- A port that is UP sends what it can; the flit times that it waits for credits are not stated (log entry 1). -/
def servePortN (p : Nat) : Nat → State → State
  | 0, s => s
  | n + 1, s =>
    match choosePkt (s.port p) with
    | some q => servePortN p n (sendPkt p q s)
    | none =>
      if (vcHeads (s.port p)).any fun q => creditsFor (s.port p) (pktVc q).toNat < 1 + bodyCount q then
        let (v, s) := s.draw
        bumpBy (Cnt.blCreditStall p) v.toNat s
      else s

def servePort (p : Nat) (s : State) : State :=
  if portUp s p then servePortN p ((s.port p).txq.length + 1) s else s

/-- Flits up to the acknowledged one leave the retry buffer. -/
def release (ack : BitVec 12) (l : List Flit) : List Flit :=
  if l.any fun f => f.fseq = ack then (l.dropWhile fun f => f.fseq ≠ ack).drop 1 else l

/-! ### States (Table 14-2) -/

/-- The flits that a packet has in the receive buffer of a port. -/
def rxOf (p : Nat) (q : Pkt) : Nat :=
  match q.rx with
  | some r => if r.port = p then r.own + r.shared else 0
  | none => 0

/-- The flits in a port's receive buffer: of packets that have not arrived whole, and of those that wait to be routed (R440). -/
def rxHeld (p : Nat) (s : State) : Nat :=
  ((s.port p).partials.map fun e => e.2.length).sum + (s.bl.pkts.map (rxOf p)).sum

/-- The flits in a port's retry buffer and receive buffer (R456). -/
def heldFlits (p : Nat) (s : State) : Nat := (s.port p).retry.length + rxHeld p s

/-- A port leaves its link: buffers are emptied and counted, queued packets are routed again (R456). -/
def dropLink (p : Nat) (st : PortStep) (s : State) : State :=
  let x := s.port p
  let s := bumpBy (Cnt.blLost p) (heldFlits p s)
    { s with bl := { s.bl with pkts := (s.bl.pkts.filter fun q => rxOf p q = 0) ++ x.txq } }
  s.modPort p fun x =>
    { x with st := st, version := 0, same := none, txq := [], retry := [], fseq := 0, rxNext := 0, partials := [], owed := [], used := [],
             credits := [], naks := 0, attempts := 0, sinceMsg := 0 }

/-- Entry to ISOLATED leaves a record with the reason and the flits lost (R456, Table 18-3). -/
def isolate (p : Nat) (reason : BitVec 3) (s : State) : State :=
  let x := s.port p
  if x.st = .off then s
  else if x.st = .isolated then s.modPort p fun x => { x with reason := reason }
  else
    let lost := heldFlits p s
    let s := (dropLink p .isolated s).modPort p fun x => { x with reason := reason }
    record 2 (0x60 + BitVec.ofNat 8 p) 0x72 (reason.setWidth 64) (BitVec.ofNat 64 lost) 0 0 0 (bump (Cnt.blIsolate p) s)

/-- The port transmits at the rate that RATE selects; auto begins at the full rate. -/
def startPhy (p : Nat) (s : State) : State :=
  s.modPort p fun x => { x with st := .phy, half := decide ((s.pcfg p).rate = 2) }

/-- A retrain trigger acts while the port is UP (Tables 14-9, 14-10). -/
def retrain (p : Nat) (s : State) : State :=
  if portUp s p then bump (Cnt.blRetrain p) (s.modPort p fun x => { x with st := .retrain, attempts := 0, naks := 0, same := none }) else s

def execPortPhyLock (p : BitVec 4) (s : State) : Outcome :=
  .next (if (s.port p.toNat).st = .phy then s.modPort p.toNat fun x => { x with st := .align } else s)

def execPhyLockTimeout (p : BitVec 4) (s : State) : Outcome :=
  .next (
    if (s.port p.toNat).st ≠ .phy then s
    else bump (Cnt.blTrainFail p.toNat)
      (if (s.pcfg p.toNat).rate = 0 then s.modPort p.toNat fun x => { x with half := !x.half } else s))

def execPortLanesAligned (p : BitVec 4) (s : State) : Outcome :=
  .next (if (s.port p.toNat).st = .align then s.modPort p.toNat fun x => { x with st := .negot } else s)

/-- The version of R435 among those that both sides have: the highest. -/
def bestVersion (both : BitVec 2) : BitVec 2 := if both.getLsbD 1 then 2 else if both.getLsbD 0 then 1 else 0

/-- CAPABILITY: versions of the peer (bit 0 version 1, bit 1 version 2), its node, port and rate, and the credits of its VCs with
the shared ones last (R435, R440). During RETRAIN it says whether the peer is the one of before (Table 14-2). -/
def execCapability (p : BitVec 4) (versions : BitVec 2) (node : BitVec 16) (port : BitVec 4) (half : Bool)
    (credits : List (BitVec 12)) (s : State) : Outcome :=
  let n := p.toNat
  let both := versions &&& (s.pcfg n).vmask
  .next (
    if (s.port n).st = .retrain then
      s.modPort n fun x =>
        let same := decide (node = x.peerNode) && decide (port = x.peerPort) && decide (bestVersion both = x.version) && (half == x.peerHalf)
        { x with same := some same }
    else if (s.port n).st ≠ .negot then s
    else if both = 0 then isolate n 1 s
    else if node = s.node ∧ !(s.pcfg n).loop then isolate n 2 s
    else
      servePort n (s.modPort n fun x =>
        { x with st := .up, version := bestVersion both, peerNode := node, peerPort := port, peerHalf := half,
                 credits := (List.range 11).foldl (fun (t : Tab Nat) v => Tab.set 0 t v (credits.getD v 0).toNat) [] }))

/-- A capability flit: supported versions, node, port, rate, and the credits of this port's buffer (R435, R440); also in the
NEGOT of a retrain. -/
def execCapabilityTimer (p : BitVec 4) (s : State) : Outcome :=
  let x := s.port p.toNat
  .next (
    if (x.st ≠ .negot ∧ x.st ≠ .retrain) ∨ !opticsOn s then s
    else linkFlit p.toNat 2 (List.replicate 10 16 ++ [2912])
      [rawM 3, rawM (s.node.setWidth 32), rawM (p.setWidth 32), rawM (if x.half then 2 else 1)] s)

def execNegotTimeout (p : BitVec 4) (s : State) : Outcome :=
  .next (if (s.port p.toNat).st = .negot then s.modPort p.toNat fun x => { x with st := .phy } else s)

def execBlLossOfSignal (p : BitVec 4) (s : State) : Outcome := .next (retrain p.toNat s)

/-- Codewords of a millisecond; more than UNC_TH uncorrectable ones start a retrain. -/
def execFecLimit (p : BitVec 4) (corr unc : Word) (s : State) : Outcome :=
  let s := bumpBy (Cnt.blFecUnc p.toNat) unc.toNat (bumpBy (Cnt.blFecCorr p.toNat) corr.toNat s)
  .next (if (s.pcfg p.toNat).uncTh.toNat < unc.toNat then retrain p.toNat s else s)

/-- Flits are sent again, with the ACK of now, and counted in REPLAY (R439). -/
def replayFlits (p : Nat) (l : List Flit) (s : State) : State :=
  if l = [] then s
  else bump (Cnt.blReplay p) (l.foldl (fun s f => sendFlit p { f with ack := (s.port p).rxNext - 1 } s) s)

/-- RETRAIN_COMPLETE: with the peer of before the port is UP again and replays from the peer's last ACK; a retrain without
capabilities is not complete (Table 14-2). -/
def execRetrainComplete (p : BitVec 4) (ack : BitVec 12) (s : State) : Outcome :=
  let n := p.toNat
  .next (
    if (s.port n).st ≠ .retrain ∨ !opticsOn s then s
    else match (s.port n).same with
      | none => s
      | some false => isolate n 4 s
      | some true =>
        let s := s.modPort n fun x => { x with st := .up, attempts := 0, same := none, retry := release ack x.retry }
        servePort n (replayFlits n (s.port n).retry s))

/-- RETRAIN_FAILED: a failed attempt; where the peer is another one the link ends. -/
def execRetrainFailed (p : BitVec 4) (s : State) : Outcome :=
  let n := p.toNat
  .next (
    if (s.port n).st ≠ .retrain then s
    else if (s.port n).same = some false then isolate n 4 s
    else if 2 ≤ (s.port n).attempts then isolate n 3 s
    else s.modPort n fun x => { x with attempts := x.attempts + 1, same := none })

def execBlRetrain (p : BitVec 4) (s : State) : Outcome := .next (retrain p.toNat s)
def execBlIsolate (p : BitVec 4) (s : State) : Outcome := .next (isolate p.toNat 6 s)
def execPowerfailNotice (p : BitVec 4) (s : State) : Outcome := .next (isolate p.toNat 5 s)
def execBlRelease (p : BitVec 4) (s : State) : Outcome :=
  .next (if (s.port p.toNat).st = .isolated then startPhy p.toNat s else s)

/-! ### Flits received (R439) -/

/-- The packet that a list of flits makes up, when all of them have arrived. -/
def assemble : List Flit → Option Pkt
  | [] => none
  | h :: bs =>
    if bs.length < h.bodys.toNat then none
    else some ⟨h.dest, h.src, h.txid, h.op, h.ttl, h.vc.getLsbD 0, false, h.words, bs.flatMap Flit.words, none, 0⟩

/-- The place of n flits of a VC in the receive buffer: a packet uses the reserved places of its VC first, as its sender does, and
shared ones for the rest (R440). -/
def rxPlace (p v n : Nat) (x : PortSt) : RxFlits :=
  let own := min n (16 - Tab.get 0 x.used v)
  ⟨p, v, own, n - own⟩

/-- The flits of a packet leave the receive buffer: their credits are owed to the sender (R440). -/
def freeFlits (r : RxFlits) (x : PortSt) : PortSt :=
  { x with
    owed := Tab.set 0 (Tab.set 0 x.owed r.vc (Tab.get 0 x.owed r.vc + r.own)) 10 (Tab.get 0 x.owed 10 + r.shared) }

/-- A packet that has been routed has left the receive buffer. -/
def leaveRx (q : Pkt) (s : State) : Pkt × State :=
  match q.rx with
  | some r => ({ q with rx := some { r with own := 0, shared := 0 } }, s.modPort r.port (freeFlits r))
  | none => (q, s)

/-- What a port takes of a packet: a version-1 link carries only messages, on VC 8 and without a crossing (R436). Another packet
from it is dropped (DESIGN CHOICE, log entry 87). -/
def takenPkt (x : PortSt) (v : Nat) (q : Pkt) : Option Pkt :=
  if x.version ≠ 1 then some q else if q.op = 0x40 ∧ v = 8 then some (asVersion1 q) else none

/-- An accepted flit joins the packet of its VC; a whole packet waits in the receive buffer to be routed. -/
def acceptFlit (p : Nat) (f : Flit) (s : State) : State :=
  let v := f.vc.toNat
  let have' := Tab.get [] (s.port p).partials v
  let fs := match f.kind with
    | .head => [f]
    | _ => if have' = [] then [] else have' ++ [f]
  let s := bump (Cnt.blFlitsRx p) (s.modPort p fun x => { x with rxNext := x.rxNext + 1 })
  match assemble fs with
  | none => s.modPort p fun x => { x with partials := Tab.set [] x.partials v fs }
  | some q =>
    let r := rxPlace p v fs.length (s.port p)
    let s := s.modPort p fun x =>
      { x with partials := Tab.set [] x.partials v [], used := Tab.set 0 x.used v (Tab.get 0 x.used v + r.own) }
    match takenPkt (s.port p) v q with
    | some q => { s with bl := { s.bl with pkts := s.bl.pkts ++ [{ q with rx := some r }] } }
    | none => s.modPort p (freeFlits r)

/-- A flit is discarded, counted and answered with a NAK that names the FSEQ expected (R439). -/
def refuseFlit (n : Nat) (s : State) : State :=
  linkFlit n 1 [] [rawM ((s.port n).rxNext.setWidth 32)] (bump (Cnt.blCrc n) s)

/-- FLIT_RECEIVED: 96 bytes arrive. Its CRC being right, the ACK of any flit releases the retry buffer; a LINK flit's own effect
is that of its command. A flit for which the receive buffer of 3,072 has no place, from a peer that exceeds its credits, is
refused (log entry 96). -/
def execFlitReceived (p : BitVec 4) (bytes : List Byte) (s : State) : Outcome :=
  let n := p.toNat
  .next (
    if !portUp s n then s
    else match readFlit bytes with
      | none => refuseFlit n s
      | some f =>
        let acked := s.modPort n fun x => { x with retry := release f.ack x.retry }
        match f.kind with
        | .idle | .link => servePort n acked
        | .head | .body => if f.fseq ≠ (s.port n).rxNext ∨ 3072 ≤ rxHeld n s then refuseFlit n s else servePort n (acceptFlit n f acked))

/-- A NAK names the FSEQ that its sender expects, and carries an ACK: every flit from it is replayed; the eighth for one FSEQ
retrains. -/
def execNak (p : BitVec 4) (fseq ack : BitVec 12) (s : State) : Outcome :=
  let n := p.toNat
  .next (
    if !portUp s n then s
    else
      let k := if (s.port n).nakAt = fseq then (s.port n).naks + 1 else 1
      let s := s.modPort n fun x => { x with nakAt := fseq, naks := k, retry := release ack x.retry }
      if 8 ≤ k then retrain n s
      else replayFlits n ((s.port n).retry.dropWhile fun f => f.fseq ≠ fseq) s)

/-- Returned credits: those of a VC beyond its 16 reserved ones are shared ones. -/
def addCredit (t : Tab Nat) (v n : Nat) : Tab Nat :=
  if 10 ≤ v then Tab.set 0 t 10 (Tab.get 0 t 10 + n)
  else
    let c := Tab.get 0 t v + n
    Tab.set 0 (Tab.set 0 t v (min c 16)) 10 (Tab.get 0 t 10 + (c - 16))

/-- A LINK flit of type 0: credits for VC 0–9, shared credits, and an ACK. -/
def execLinkCreditAck (p : BitVec 4) (credits : List (BitVec 12)) (ack : BitVec 12) (s : State) : Outcome :=
  let n := p.toNat
  .next (
    if !portUp s n then s
    else servePort n (s.modPort n fun x =>
      { x with retry := release ack x.retry,
               credits := (List.range 11).foldl (fun t v => addCredit t v (credits.getD v 0).toNat) x.credits }))

/-- A LINK flit with the credits owed and the ACK. -/
def execAckTimer (p : BitVec 4) (s : State) : Outcome :=
  let n := p.toNat
  .next (
    if !portUp s n then s
    else
      (linkFlit n 0 ((List.range 11).map fun v => Tab.get 0 (s.port n).owed v) [] s).modPort n fun x =>
        { x with owed := [],
                 used := (List.range 10).foldl (fun t v => Tab.set 0 t v (Tab.get 0 t v - Tab.get 0 x.owed v)) x.used })

/-! ### Commits (R459, R460) -/

/-- Whether a configuration can be committed (Table 14-12). -/
def pcfgOk (c : PortCfg) : Bool := c.rate ≠ 3 && c.uncTh ≠ 0

/-- One port takes its new configuration. -/
def applyPcfg (s0 : State) (s : State) (p : Nat) : State :=
  let old := s0.pcfg p
  let new := s.pcfg p
  if (s.port p).st = .off then if new.en then startPhy p s else s
  else if !new.en then dropLink p .off s
  else if new.rate ≠ old.rate ∨ new.vmask ≠ old.vmask ∨ new.loop ≠ old.loop then startPhy p (dropLink p .phy s)
  else s

def execBlPortCommit (s : State) : Outcome :=
  .next (
    if (List.range 16).all fun p => pcfgOk (Tab.get PortCfg.reset s.bl.pcfg.sh p) then
      (List.range 16).foldl (applyPcfg s) { s with bl := { s.bl with pcfg := s.bl.pcfg.commit } }
    else { s with bl := { s.bl with cfgerr := true } })

/-- BL_NODE becomes live while every port is OFF. -/
def execBlNodeCommit (s : State) : Outcome :=
  .next (
    if (List.range 16).all fun p => (s.port p).st = .off then { s with node := s.bl.nodeSh }
    else { s with bl := { s.bl with cfgerr := true } })

def execBlRingCommit (s : State) : Outcome :=
  let g := s.bl.ring.sh
  .next (
    if g.timeout ≠ 0 ∧ g.base.toNat % 32 = 0 ∧ g.cnt.toNat ≤ 1024 then { s with bl := { s.bl with ring := s.bl.ring.commit } }
    else { s with bl := { s.bl with ring := s.bl.ring.refuse, cfgerr := true } })

def execBlCntclr (s : State) : Outcome := .next (clearCounters 0x600040 0x6004FF s)

end Sys2Proof.Machine
end

