-- ==== Sys2Proof/Machine/Fabric.lean ====
section
/-! DEFINITION. Routing of packets and the routing tables (14 R443–R445), messages and rings (14 R451–R454). -/

namespace Sys2Proof.Machine

/-! ### Routing (R436, R444) -/

/-- The requests of Table 14-4 that a source or a version-1 port answers with ERR; its cause is not stated. -/
def isRequest (q : Pkt) : Bool := 1 ≤ q.op && q.op ≤ 0x09

/-- A packet is dropped: at its source a request is answered at once (R444). -/
def dropPkt (cnt : Nat) (q : Pkt) (s : State) : State :=
  let s := bump cnt s
  if q.atSource ∧ isRequest q then
    let (v, s) := s.draw
    { s with bl := { s.bl with inbox := s.bl.inbox ++ [⟨s.node, s.node, q.txid, 0x24, s.bl.ttl, false, true, [rawM v], [], none, s.time⟩] } }
  else s

/-- LENGTH of the object that a message carries. -/
def msgLength (q : Pkt) : Nat := hdrLen (q.body.headD MWord.unset).val

/-- The packet joins the queue of an UP port, or is refused by a version-1 link (R436). -/
def sendTo (p : Nat) (dl : Bool) (q : Pkt) (s : State) : State :=
  let q := { q with laneB := q.laneB || dl }
  if (s.port p).version ≠ 1 then servePort p (s.modPort p fun x => { x with txq := x.txq ++ [q] })
  else if q.op = 0x40 then
    let ring := (q.head.getD 1 MWord.unset).val.extractLsb' 0 10
    if 255 < ring.toNat ∨ 30 < msgLength q then bump (Cnt.blV1Drop p) s
    else servePort p (s.modPort p fun x => { x with txq := x.txq ++ [{ q with laneB := false }] })
  else
    let s := bump Cnt.blV1Refuse s
    if isRequest q then
      let (v, s) := s.draw
      post q.src q.txid 0x24 [rawM v] [] s
    else s

/-- The rule of R444 for a packet. -/
def routePkt (q : Pkt) (s : State) : State :=
  let e := Tab.get 0 s.bl.rt q.dest.toNat
  let port := (e.extractLsb' 0 4).toNat
  let alt := (e.extractLsb' 4 4).toNat
  if q.dest = s.node then { s with bl := { s.bl with inbox := s.bl.inbox ++ [{ q with tick := s.time }] } }
  else if !q.atSource ∧ q.ttl - 1 = 0 then dropPkt Cnt.blTtl q s
  else
    let q := if q.atSource then q else { q with ttl := q.ttl - 1 }
    if !e.getLsbD 10 then dropPkt Cnt.blNoroute q s
    else if portUp s port then sendTo port (e.getLsbD 9) q s
    else if e.getLsbD 8 && portUp s alt then sendTo alt (e.getLsbD 9) q s
    else dropPkt Cnt.blNoroute q s

/-- A packet that waits is routed, and leaves the receive buffer of its port. -/
def takeRoute (q : Pkt) (s : State) : State :=
  let (r, s) := leaveRx q { s with bl := { s.bl with pkts := s.bl.pkts.erase q } }
  routePkt r s

/-- PACKET_ROUTE: the oldest packet that waits is routed; after the power-fail warning only transit packets are (R458). -/
def execPacketRoute (s : State) : Outcome :=
  .next (match s.bl.pkts.find? fun q => !(s.pf && q.atSource) with
    | none => s
    | some q => takeRoute q s)

/-- Every transit packet that waits is routed (R458). -/
def routeTransit (s : State) : State := (s.bl.pkts.filter fun q => !q.atSource).foldl (fun s q => takeRoute q s) s

/-! ### Routing tables (R445) -/

/-- BL_RT_CMD.LOAD: ignored while one runs, with CFGERR where RT_COMMIT reads 1; refused where BL_RT_SRC is not 64-byte aligned
(Tables 14-12, 14-14). -/
def execBlRtLoad (s : State) : Outcome :=
  .next (
    if s.bl.rtPend then { s with bl := { s.bl with cfgerr := true } }
    else if s.bl.rtLoad.isSome then s
    else if s.bl.rtSrc.toNat % 64 ≠ 0 then { s with bl := { s.bl with cfgerr := true } }
    else { s with bl := { s.bl with rtLoad := some s.bl.rtSrc } })

/-- The two tables are exchanged. -/
def swapRt (s : State) : State := { s with bl := { s.bl with rt := s.bl.rtSh, rtSh := s.bl.rt, rtPend := false } }

/-- A routing entry as it is held: its reserved bits read 0 (Table 14-6, R19). -/
def rtEntry (v : BitVec 16) : BitVec 16 := v &&& 0x07FF

/-- Words k to k + n of the source are loaded: entries 2k and 2k + 1 each. -/
def loadRt (src : PA) (k : Nat) : Nat → State → State
  | 0, s => s
  | n + 1, s =>
    let (w, s) := physRead (src + BitVec.ofNat 53 (4 * k)) s
    let good := decide (w.ty = Ty.raw ∨ w.ty = Ty.fix)
    let v : Word := if good then w.val else 0
    let t := Tab.set 0 (Tab.set 0 s.bl.rtSh (2 * k) (rtEntry (v.extractLsb' 0 16))) (2 * k + 1) (rtEntry (v.extractLsb' 16 16))
    loadRt src (k + 1) n { s with bl := { s.bl with rtSh := t, cfgerr := s.bl.cfgerr || !good } }

/-- The table is loaded, and an exchange that waited for it is made. -/
def rtLoaded (src : PA) (s : State) : State :=
  let s := loadRt src 0 32768 s
  let s := { s with bl := { s.bl with rtLoad := none } }
  if s.bl.rtPend then swapRt s else s

def execRtLoadDone (s : State) : Outcome :=
  .next (match s.bl.rtLoad with
    | none => s
    | some src => withLines (rtLoaded src) s)

/-- RT_COMMIT: the exchange waits until a LOAD completes. -/
def execBlRtCommit (s : State) : Outcome :=
  .next (if s.bl.rtLoad.isSome then { s with bl := { s.bl with rtPend := true } } else swapRt s)

/-! ### Messages (R451–R453) -/

/-- Envelope words 0–3, 6 and 7 (Table 14-8). -/
def msgHead (s : State) (m : SendMsg) : List MWord :=
  let x := m.crossing.getD 0
  [(mkHdr 0xC4 15).m, rawM (s.node ++ (0 : BitVec 6) ++ m.ring), rawM (x.extractLsb' 0 32),
   rawM ((0 : BitVec 15) ++ bit m.crossing.isSome ++ x.extractLsb' 32 16), rawM (m.ctx.setWidth 32),
   (TWord.fix (BitVec.ofNat 32 m.words.length)).m]

/-- The eight words of a ring entry (Table 14-7). -/
def ringEntry (r : Nat) (s : State) : List MWord × State :=
  (List.range 8).foldl (fun (p : List MWord × State) i =>
    let (w, s) := physRead (s.bl.ring.lv.base + BitVec.ofNat 53 (32 * r + 4 * i)) p.2
    (p.1 ++ [w], s)) ([], s)

/-- The local event of a message's crossing whose slot is neither FREE nor RETIRING (R453). -/
def msgBinding (s : State) (hasx : Bool) (x : BitVec 48) : Option (BitVec 19) :=
  if !hasx then none
  else (s.cn.slots.find? fun (e : Nat × CnSlot) =>
    e.2.st ≠ .free && e.2.st ≠ .retiring && (s.event e.1).crossing = x).map fun e => mkHandle e.1 e.2.gen

/-- The slot's lines: the envelope, and the object with UNSET to the end of its last line. -/
def slotWords (s : State) (q : Pkt) (bind : Option (BitVec 19)) : List MWord :=
  let h (i : Nat) := q.head.getD i MWord.unset
  let obj := q.body.take ((h 5).val.toNat)
  [h 0, h 1, h 2, h 3,
   (match bind with | some b => TWord.fix (b.setWidth 32) | none => TWord.nil).m,
   (⟨Ty.time, s.time.extractLsb' 0 32⟩ : TWord).m, h 4, h 5] ++ List.replicate 8 TWord.nil.m ++
  obj ++ List.replicate ((16 - obj.length % 16) % 16) MWord.unset

/-- An MSG wake-up: the ring's listener, or else the templates of the ring's selector (R184, Table 05-3). -/
def wakeMsg (r : Nat) (sel : BitVec 8) (bind : Option (BitVec 19)) (s : State) : State :=
  match Tab.get none s.ll.listeners r with
  | some i =>
    if s.pf then s else readyTask i (fun t => t.waitKind = 4 && t.waitId.toNat = r) s
  | none => wake 4 (fun t => t.sel = sel) bind (TWord.fix (BitVec.ofNat 32 r)) s

/-- The fabric agent writes one word of a ring's entry; late writes are discarded (R111). -/
def agentWrite (pa : PA) (w : MWord) (s : State) : State := agentWriteLine false none (lineNo pa) [(pa.toNat / 4 % 16, some w)] s

/-- One delivery (R453). -/
def deliver (q : Pkt) (s : State) : State :=
  let h (i : Nat) : Word := (q.head.getD i MWord.unset).val
  let r := ((h 1).extractLsb' 0 10).toNat
  if s.bl.ring.lv.cnt.toNat ≤ r then bump Cnt.blNoring s
  else
    let (e, s) := ringEntry r s
    let w (i : Nat) : Word := (e.getD i MWord.unset).val
    if !(e.all fun x => x.ty = Ty.raw) ∨ !(w 0).getLsbD 5 then bump Cnt.blNoring s
    else
      let n := 2 ^ ((w 0).extractLsb' 0 5).toNat
      let at_ (i : Nat) : PA := s.bl.ring.lv.base + BitVec.ofNat 53 (32 * r + 4 * i)
      let prod := ((w 4).extractLsb' 0 14).toNat
      let cons := ((w 5).extractLsb' 0 14).toNat
      if (prod + 2 * n - cons % (2 * n)) % (2 * n) = n then
        let s := agentWrite (at_ 0) (rawM (w 0 ||| 0x40)) s
        bump Cnt.blRingfull (agentWrite (at_ 6) (rawM (if w 6 = 0xFFFFFFFF then w 6 else w 6 + 1)) s)
      else
        let bind := msgBinding s ((h 3).getLsbD 16) ((h 3).extractLsb' 0 16 ++ h 2)
        let lan : Lan := match bind with | some b => (s.event (hSlot b)).home | none => (w 0).extractLsb' 7 5
        let base : PA := (w 2).extractLsb' 0 21 ++ w 1
        let s := agentRun false (some lan) (base + BitVec.ofNat 53 (320 * (prod % n))) [] (slotWords s q bind) s
        let s := agentWrite (at_ 4) (rawM (BitVec.ofNat 32 ((prod + 1) % (2 * n)))) s
        bump Cnt.blMsgRx (wakeMsg r ((w 0).extractLsb' 12 8) bind s)

/-- A message that has arrived is taken and delivered. -/
def takeMsg (q : Pkt) (s : State) : State := deliver q { s with bl := { s.bl with inbox := s.bl.inbox.erase q } }

/-- The ring that a message names. -/
def msgRing (q : Pkt) : Nat := ((q.head.getD 1 MWord.unset).val.extractLsb' 0 10).toNat

/-- The port that a message came in by; the local agent ranks last. -/
def msgPort (q : Pkt) : Nat := match q.rx with | some r => r.port | none => 16

/-- The first of some messages in ascending port order (R457). -/
def firstByPort (q : Pkt) : List Pkt → Pkt
  | [] => q
  | p :: r => if msgPort p < msgPort q then firstByPort p r else firstByPort q r

/-- MSG_DELIVERY: the oldest message that has reached this node is delivered; of several for its ring that arrived in the same
tick, the one of the lowest port (R457). -/
def execMsgDelivery (s : State) : Outcome :=
  .next (match s.bl.inbox.find? fun q => q.op = 0x40 with
    | none => s
    | some q =>
      let together := s.bl.inbox.filter fun p => decide (p.op = 0x40 ∧ msgRing p = msgRing q ∧ p.tick = q.tick)
      withLines (takeMsg (firstByPort q together)) s)

end Sys2Proof.Machine
end

