-- ==== Sys2Proof/Machine/Rings.lean ====
section
/-! DEFINITION. Descriptor rings, doorbells, interrupts and resets of the host interface (16 R481–R493, R503, R508, R509). -/

namespace Sys2Proof.Machine

/-! ### Rings -/

def State.ring (s : State) (r : Nat) : RingSt := Tab.get RingSt.reset s.hi.rings r
def State.modRing (s : State) (r : Nat) (f : RingSt → RingSt) : State :=
  { s with hi := { s.hi with rings := Tab.set RingSt.reset s.hi.rings r (f (s.ring r)) } }

/-- Entries of a ring; indexes count modulo twice as many (R488). -/
def RingSt.size (x : RingSt) : Nat := 2 ^ x.log2.toNat
/-- PROD − CONS. -/
def RingSt.used (x : RingSt) : Nat := (x.prod + 2 * x.size - x.cons) % (2 * x.size)
/-- The host produces (Table 16-2). -/
def RingSt.fromHost (x : RingSt) : Bool := x.ty = 0 || x.ty = 1 || x.ty = 4
/-- The device's own index. -/
def RingSt.index (x : RingSt) : Nat := if x.fromHost then x.cons else x.prod

def RingStep.code : RingStep → BitVec 3
  | .disabled => 0
  | .running => 1
  | .draining => 2
  | .error => 3

/-- Bytes of a wide value, least significant first. -/
def wideBytes (v : BitVec 64) : List Byte := wordBytes (v.extractLsb' 0 32) ++ wordBytes (v.extractLsb' 32 32)

/-- The status block is written (R490). -/
def statusBlock (r : Nat) (s : State) : State :=
  let s := s.modRing r fun x => { x with blocks := x.blocks + 1 }
  let x := s.ring r
  let q0 : BitVec 64 := x.blocks ++ BitVec.ofNat 32 x.index
  let q1 : BitVec 64 := (0 : BitVec 56) ++ x.err ++ (0 : BitVec 1) ++ x.st.code
  hostWrite x.rsb (wideBytes q0 ++ wideBytes q1 ++ List.replicate 48 0) s

/-- The interrupt rule of R492; flag: a descriptor with its IRQ flag has just completed. -/
def ringIrq (r : Nat) (flag : Bool) (s : State) : State :=
  let x := s.ring r
  if x.armed && x.irqen && 0 < x.since && (x.count.toNat ≤ x.since || x.holdoff = 0 || x.held || flag) then
    sendMsix x.func.toNat x.vector (s.modRing r fun x => { x with armed := false, since := 0, held := false })
  else s

/-- A completion or an entry counts toward the next interrupt, after the status block that reports it (R492, R505). -/
def ringEvent (r : Nat) (flag : Bool) (s : State) : State :=
  ringIrq r flag ((statusBlock r s).modRing r fun x => { x with since := x.since + 1 })

/-- A ring stops with an error code (Table 16-3). -/
def ringError (r : Nat) (code : BitVec 4) (s : State) : State :=
  s.modRing r fun x => { x with st := .error, err := code, going := none }

/-- A ring becomes DISABLED. -/
def ringOff (r : Nat) (s : State) : State :=
  s.modRing r fun x => { x with st := .disabled, armed := false, since := 0, held := false, going := none }

/-- An entry is written to a device-to-host ring; a full ring takes none (R503), and an entry that is not written before PCIe is
shed is lost (R510). -/
def pushEntry (r : Nat) (bytes : List Byte) (lost : Nat) (s : State) : State :=
  let x := s.ring r
  if !pcieUp s then s
  else if x.used = x.size then bump lost s
  else
    let width := if s.hi.active = 1 ∧ x.ty = 2 then 32 else 64
    let s := hostWrite (x.rbase + BitVec.ofNat 64 (width * (x.prod % x.size))) (bytes.take width) s
    ringEvent r false (s.modRing r fun x => { x with prod := (x.prod + 1) % (2 * x.size) })

/-- The RUNNING rings of a type, in ascending order. -/
def runningRings (s : State) (ty : BitVec 3) : List Nat :=
  s.hi.rings.filterMap fun (e : Nat × RingSt) => if e.2.st = .running ∧ e.2.ty = ty then some e.1 else none

/-! ### Doorbells (R483, R491) -/

/-- The function reaches the ring's page: the PF every ring, a VF its own (R483). -/
def reaches (s : State) (fn : BitVec 5) (r : Nat) : Bool := fn = 0 || (s.ring r).func = fn

/-- A doorbell that is not taken (R491). -/
def dropBell (s : State) : State := bump Cnt.hiDbdrop s

/-- A doorbell moves the host's index; one that would make the ring hold more than its size stops it (Table 16-3). -/
def moveIndex (r : Nat) (f : RingSt → RingSt) (s : State) : State :=
  let s' := s.modRing r f
  if (s'.ring r).used ≤ (s.ring r).size then s' else statusBlock r (ringError r 1 s)

def execDbProd (r : BitVec 10) (v : Word) (fn : BitVec 5) (s : State) : Outcome :=
  let n := r.toNat
  let x := s.ring n
  .next (
    if !reaches s fn n ∨ x.st ≠ .running ∨ !x.fromHost then dropBell s
    else moveIndex n (fun x => { x with prod := v.toNat % (2 * x.size) }) s)

def execDbCons (r : BitVec 10) (v : Word) (fn : BitVec 5) (s : State) : Outcome :=
  let n := r.toNat
  let x := s.ring n
  .next (
    if !reaches s fn n ∨ x.st ≠ .running ∨ x.fromHost then dropBell s
    else moveIndex n (fun x => { x with cons := v.toNat % (2 * x.size) }) s)

/-- DB_ARM arms the ring; a condition that is already met sends at once (R508). -/
def execDbArm (r : BitVec 10) (fn : BitVec 5) (s : State) : Outcome :=
  let n := r.toNat
  .next (
    if !reaches s fn n ∨ (s.ring n).st ≠ .running then dropBell s
    else ringIrq n false (s.modRing n fun x => { x with armed := true }))

/-- HOLDOFF µs have passed since the first completion not yet reported, of a ring that runs or drains. -/
def execIrqHoldoffExpiry (r : BitVec 10) (s : State) : Outcome :=
  let n := r.toNat
  .next (
    if (s.ring n).since = 0 ∨ ((s.ring n).st ≠ .running ∧ (s.ring n).st ≠ .draining) then s
    else ringIrq n false (s.modRing n fun x => { x with held := true }))

/-! ### Completions (R494, R504) -/

/-- A completion: STATUS, DETAIL, DONE and the time are written to the descriptor, CONS passes it, and the status block
and interrupt follow (R494, R496). -/
def complete (r : Nat) (irq : Bool) (status : BitVec 16) (detail : BitVec 16) (done : Word) (s : State) : State :=
  let x := s.ring r
  let s := bump Cnt.hiDesc s
  let s := if status = 0 ∨ status = 1 then s else bump Cnt.hiErr s
  let s := if status = 6 then bump Cnt.hiDmaerr s else s
  let i := x.cons % x.size
  let s :=
    if s.hi.active = 1 then
      hostWrite (x.rbase + BitVec.ofNat 64 (32 * i + 20)) [status.extractLsb' 0 8, status.extractLsb' 8 8] s
    else
      hostWrite (x.rbase + BitVec.ofNat 64 (64 * i + 48))
        (wideBytes (done ++ detail ++ status) ++ wideBytes ((0 : Word) ++ s.time.extractLsb' 0 32)) s
  ringEvent r irq (s.modRing r fun x => { x with cons := (x.cons + 1) % (2 * x.size) })

/-- Posted descriptors complete ABORTED, each with its own IRQ flag (R489, R492). -/
def abortAll (r : Nat) : List Bool → State → State
  | [], s => s
  | irq :: rest, s => if (s.ring r).used = 0 then s else abortAll r rest (complete r irq 0x0A 0 0 s)

/-- One IRQ flag for each posted descriptor; one that is not given is 0. -/
def abortFlags (x : RingSt) (irqs : List Bool) : List Bool := (List.range x.used).map fun i => irqs.getD i false

/-! ### Enabling and disabling (R486, R487, R489, R512) -/

def badHi (s : State) : State := { s with hi := { s.hi with cfgerr := true } }

/-- The fields of a ring are valid for EN (Table 16-2, R486–R488). -/
def ringValid (s : State) (r : Nat) : Bool :=
  let x := s.ring r
  4 ≤ x.log2.toNat && x.ty.toNat ≤ 4 && x.rbase.toNat % 4096 = 0 && x.rsb.toNat % 64 = 0 &&
    (x.ty ≠ 2 || (runningRings s 2).isEmpty) &&
    (s.hi.active ≠ 1 || (r < 64 && x.func = 0 && (x.ty = 0 || x.ty = 2 || x.ty = 3)))

/-- The fields of HI_RCFG beside EN, as a function writes them: TYPE and FUNC are the PF's (R483). -/
def rcfgFields (fn : BitVec 5) (v : Word) (x : RingSt) : RingSt :=
  { x with ty := if fn = 0 then v.extractLsb' 1 3 else x.ty, log2 := v.extractLsb' 4 4,
           func := if fn = 0 then v.extractLsb' 8 5 else x.func, vector := v.extractLsb' 13 8, irqen := v.getLsbD 21 }

/-- A write of HI_RCFG beside its EN transition: fields are taken while the ring is DISABLED, and VECTOR and IRQEN while it is
RUNNING too; a change of any other is ignored and sets CFGERR (Table 16-13). Under version 1 a FUNC of 1–31 is refused. -/
def writeRcfg (fn : BitVec 5) (r : Nat) (v : Word) (s : State) : State :=
  let x := s.ring r
  let y := rcfgFields fn v x
  if x.st = .disabled then
    if s.hi.active = 1 ∧ y.func ≠ 0 then badHi s else s.modRing r fun _ => y
  else
    let same := decide (y.ty = x.ty ∧ y.log2 = x.log2 ∧ y.func = x.func)
    if x.st = .running then
      (if same then s else badHi s).modRing r fun x => { x with vector := y.vector, irqen := y.irqen }
    else if same ∧ y.vector = x.vector ∧ y.irqen = x.irqen then s
    else badHi s

/-- RING_ENABLE: a write of HI_RCFG with EN 1. -/
def execRingEnable (r : BitVec 10) (fn : BitVec 5) (cfg : Word) (s : State) : Outcome :=
  let n := r.toNat
  .next (
    if !reaches s fn n then dropBell s
    else if s.hi.active = 1 ∧ 64 ≤ n then s
    else
      let s' := writeRcfg fn n cfg s
      if (s.ring n).st ≠ .disabled then s'
      else if (s.hi.active = 1 ∧ (rcfgFields fn cfg (s.ring n)).func ≠ 0) ∨ !ringValid s' n then badHi s'
      else statusBlock n (s'.modRing n fun x =>
        { x with st := .running, err := 0, prod := 0, cons := 0, armed := true, since := 0, held := false, going := none }))

/-- RING_DISABLE: a write of HI_RCFG with EN 0. irqs: the IRQ flags of the posted descriptors that have not started, in ring
order; they complete ABORTED, after the one in progress has completed (R489). -/
def execRingDisable (r : BitVec 10) (fn : BitVec 5) (cfg : Word) (irqs : List Bool) (s : State) : Outcome :=
  let n := r.toNat
  .next (
    if !reaches s fn n then dropBell s
    else if s.hi.active = 1 ∧ 64 ≤ n then s
    else
      let st := (s.ring n).st
      let s := writeRcfg fn n cfg s
      match st with
      | .disabled | .draining => s
      | .error => ringOff n s
      | .running =>
        let s := s.modRing n fun x => { x with st := .draining }
        if !(s.ring n).fromHost then s
        else
          match (s.ring n).going with
          | none => abortAll n (abortFlags (s.ring n) irqs) s
          | some g => s.modRing n fun x => { x with going := some { g with aborts := (abortFlags x irqs).take (x.used - 1) } })

/-- The last completion and status block are written and the ring becomes DISABLED. -/
def execRingDrainDone (r : BitVec 10) (s : State) : Outcome :=
  .next (
    if (s.ring r.toNat).st = .draining ∧ (s.ring r.toNat).going = none then ringOff r.toNat (statusBlock r.toNat s) else s)

/-- HI_IFVER.REQ: taken while every ring is DISABLED and, for 1, while SR-IOV VF Enable is clear (R486). -/
def execHiIfverWrite (req : BitVec 2) (s : State) : Outcome :=
  .next (
    if (req = 1 ∨ req = 2) ∧ (s.hi.rings.all fun (e : Nat × RingSt) => e.2.st = .disabled) ∧
        (req = 2 ∨ !s.hi.pcie.vfEn) then
      { s with hi := { s.hi with req := req, active := req } }
    else badHi s)

/-! ### Resets of functions (R485, R516) -/

/-- Every ring of some functions becomes DISABLED and their MSI-X tables are cleared. -/
def resetFunctions (of : Nat → Bool) (s : State) : State :=
  let rs := s.hi.rings.filterMap fun (e : Nat × RingSt) => if of e.2.func.toNat then some e.1 else none
  let s := rs.foldl (fun s r => ringOff r s) s
  { s with hi := { s.hi with
    msix := s.hi.msix.filter fun (e : Nat × BitVec 128) => !of (e.1 / 256), pba := s.hi.pba.filter fun i => !of (i / 256) } }

/-- A function level reset of the PF sets every HI_ register to its Reset value; of configuration space the maximum payload size
stays, as PCI Express has it (log entry 98), and messages that the host's send path holds go on. -/
def resetPf (s : State) : State :=
  { clearCounters 0x010040 0x01005C s with
    hi := { HiSt.reset with pcie := { PcieSt.reset with mps := s.hi.pcie.mps }, sendq := s.hi.sendq } }

def execFunctionLevelReset (fn : BitVec 5) (s : State) : Outcome :=
  .next (if fn = 0 then resetPf s else resetFunctions (· = fn.toNat) s)

/-- PERST#: as a function level reset of the PF; configuration space is reset, and the link then retrains to a rate and width. -/
def execPcieFundamentalReset (speed : BitVec 4) (width : BitVec 5) (s : State) : Outcome :=
  let s := resetPf s
  .next { s with hi := { s.hi with speed := speed, width := width, pcie := PcieSt.reset } }

/-! ### Failed accesses -/

/-- A poisoned TLP that a function receives is reported as an AER error (Table 16-1). -/
def aerPoison (fn : Nat) (s : State) : State :=
  let a := s.hi.pcie.aer
  { s with hi := { s.hi with pcie := { s.hi.pcie with aer := if a.contains fn then a else a ++ [fn] } } }

/-- A fetch, entry write or status-block write of a ring fails (Table 16-3); poisoned: the fetch was answered by a poisoned
completion (R480). -/
def execHostDmaTimeout (r : BitVec 10) (what : RingDma) (poisoned : Bool) (s : State) : Outcome :=
  let n := r.toNat
  let s := if poisoned ∧ what = .fetch then aerPoison (s.ring n).func.toNat s else s
  .next (
    if (s.ring n).st ≠ .running then s
    else bump Cnt.hiDmaerr (ringError n (match what with | .fetch => 2 | .entry => 3 | .status => 4) s))

/-- A BAR0 access of another size or alignment (R481). -/
def execBar0BadAccess (isRead : Bool) (s : State) : Outcome :=
  let s := bump Cnt.hiBadacc s
  .next (if isRead then emit .badRead s else s)

/-- The address and width of the read that a context waits for. -/
def windowRead (s : State) (c : CtxId) : Option (BitVec 64 × Nat) :=
  s.out.findSome? fun o => match o with
    | .winRead d a n => if d = c then some (a, n) else none
    | _ => none

/-- The words that answer a window read of 1, 2 or 4 bytes, in place, or of 8 bytes. -/
def windowWords (a : BitVec 64) (n : Nat) (v : BitVec 64) : List TWord :=
  if n = 8 then [TWord.raw (v.extractLsb' 0 32), TWord.raw (v.extractLsb' 32 32)]
  else [TWord.raw (v.extractLsb' 0 32 <<< (8 * (a.toNat % 4)))]

/-- A window read ends with its value, or with POISON source 4 when it fails (R507). -/
def endWindowRead (c : CtxId) (v : Option (BitVec 64)) (s : State) : State :=
  if ¬ ((s.ctx c).st = .stalled ∧ (s.ctx c).stall = .window) then s
  else
    match windowRead s c with
    | none => s
    | some (a, n) =>
      let (ws, s) := match v with
        | some v => (windowWords a n v, s)
        | none => (List.replicate (if n = 8 then 2 else 1) (TWord.poison 4), bump Cnt.hiWinerr s)
      wakeCtx c (s.modCtx c fun x => { x with answer := ws })

/-- WINDOW_READ_COMPLETION (R507); none: the read failed, poisoned: by a poisoned completion (R480). -/
def execWindowReadCompletion (c : CtxId) (v : Option (BitVec 64)) (poisoned : Bool) (s : State) : Outcome :=
  .next (endWindowRead c v (if poisoned ∧ v.isNone then aerPoison 0 s else s))

def execHiCntclr (s : State) : Outcome := .next (clearCounters 0x010040 0x01005C s)

end Sys2Proof.Machine
end

