-- ==== Sys2Proof/Machine/DecisionPort.lean ====
section
/-! DEFINITION. The decision port (05 Table 05-6, R206–R210; 16 R503): records as they leave on the lanes and to the
decision ring. -/

namespace Sys2Proof.Machine

/-- Q0–Q3 of a record with its RSEQ (Table 05-6). -/
def recordWords (s : State) (r : DRec) : List (BitVec 64) :=
  let flags : BitVec 8 := (0 : BitVec 3) ++ bit r.openwin ++ bit r.ooo ++ bit r.warned ++ bit r.trunc ++ bit r.winto
  let q0 : BitVec 64 := flags ++ r.reason ++ r.outcome ++ r.crossing
  let q2 : BitVec 64 := (0 : BitVec 8) ++ s.node ++ r.menu ++ r.latency
  let low : BitVec 48 := s.dp.rseq ++ (0 : BitVec 13) ++ r.handle
  let crc := crc16 ([q0, r.trigger, q2].flatMap bytes8 ++ (bytes8 (low.setWidth 64)).take 6)
  [q0, r.trigger, q2, crc ++ low]

/-- A block on a lane; POL inverts the lane (Table 05-13). -/
def laneBlock (l : Nat) (control : Option Byte) (bytes : List Byte) (s : State) : State :=
  emit (.dpBlock l (s.dp.cfg.lv.pol.getLsbD l) control bytes) s

/-- One record on a lane: SOF, four data blocks, and EOF with the CRC-32C of the 32 bytes in its bytes 1–4 (R207). -/
def laneRecord (qs : List (BitVec 64)) (s : State) (l : Nat) : State :=
  let s := laneBlock l (some 0x78) (List.replicate 7 0) s
  let s := qs.foldl (fun s q => laneBlock l none (bytes8 q) s) s
  bump (Cnt.dpLsent l) (laneBlock l (some 0xE1) (wordBytes (crc32c (qs.flatMap bytes8)) ++ [0, 0, 0]) s)

/-- The lanes that send the next record: with LANEMODE 0 the enabled lanes in turn, with 1 every one. -/
def nextLanes (s : State) : List Nat :=
  let ls := laneList s
  if s.dp.cfg.lv.lanemode then ls
  else
    match ls.find? fun l => s.dp.lane ≤ l with
    | some l => [l]
    | none => ls.take 1

/-- The copy of a record to the decision ring; without a RUNNING one, or once PCIe is shed, it is lost (R207, R485;
16 R510). -/
def hostCopy (qs : List (BitVec 64)) (s : State) : State :=
  if !s.dp.cfg.lv.hostcopy then s
  else if !pcieUp s then bump Cnt.dpHostdrop s
  else
    match runningRings s 2 with
    | [] => bump Cnt.dpHostdrop s
    | r :: _ => pushEntry r (qs.flatMap bytes8 ++ bytes8 s.time ++ List.replicate 24 0) Cnt.dpHostdrop s

/-- The decision optics are on: while the module runs, and while it sheds until the last record has left (05 R213; 19 R553). -/
def decisionOn (s : State) : Bool :=
  match s.pw.stage with
  | .run => true
  | .shed | .standby => !s.dp.queue.isEmpty
  | .off | .held => false

/-- DECISION_RECORD_SEND: the oldest record that is ready leaves, to every destination that is committed then. A record formed
while a destination was committed and sent when none is takes an RSEQ and counts in DP_CNT_RECORDS, and reaches nobody: R209
states DP_CNT_NODEST only of records formed without one (DESIGN CHOICE, log entry 99). -/
def execDecisionRecordSend (s : State) : Outcome :=
  .next (match s.dp.queue with
    | [] => s
    | r :: rest =>
      if !decisionOn s then s else
      let s := { s with dp := { s.dp with queue := rest } }
      let qs := recordWords s r
      let ls := nextLanes s
      let s := ls.foldl (laneRecord qs) s
      let s := { s with dp := { s.dp with
        rseq := s.dp.rseq + 1, lane := match ls.getLast? with | some l => (l + 1) % 8 | none => s.dp.lane } }
      bump Cnt.dpRecords (hostCopy qs s))

/-- BEAT: a lane that has sent no record for 1 µs sends a control block with SRCNODE and the next RSEQ. -/
def execBeat (l : BitVec 3) (s : State) : Outcome :=
  .next (
    if decisionOn s && s.dp.cfg.lv.beat && (laneList s).contains l.toNat then
      laneBlock l.toNat (some 0x4B)
        [s.node.extractLsb' 0 8, s.node.extractLsb' 8 8, s.dp.rseq.extractLsb' 0 8, s.dp.rseq.extractLsb' 8 8, 0, 0, 0] s
    else s)

/-- Records of the reorder buffer in the order of R208. -/
def robInOrder : List DRec → List DRec
  | [] => []
  | r :: rest =>
    let l := robInOrder rest
    (l.takeWhile fun q => decide (q.seq.getD 0 < r.seq.getD 0)) ++ r :: l.dropWhile fun q => decide (q.seq.getD 0 < r.seq.getD 0)

/-- OUT_COMMIT (R209, R210): refused when it leaves no destination while CN_CTRL.ENABLE is 1. -/
def execDpOutCommit (s : State) : Outcome :=
  let c := s.dp.cfg.sh
  .next (
    if s.cn.enable ∧ c.lanes = 0 ∧ !c.hostcopy then
      { s with dp := { s.dp with cfg := s.dp.cfg.refuse, cfgerr := true } }
    else
      let old := s.dp.cfg.lv.order
      let s := if old ∧ !c.order then
          (robInOrder s.dp.rob).foldl (fun s r => queueRec r s) { s with dp := { s.dp with rob := [], skipped := [] } }
        else s
      let s := if !old ∧ c.order then { s with dp := { s.dp with next := s.hub.openSeq, skipped := [] } } else s
      { s with dp := { s.dp with cfg := s.dp.cfg.commit } })

def execDpCntclr (s : State) : Outcome :=
  let s := clearCounters (Cnt.dpLsent 0) (Cnt.dpLsent 7) (clearCounters 0x208040 0x20804C s)
  .next { s with dp := { s.dp with hwm := 0 } }

end Sys2Proof.Machine
end

