-- ==== Sys2Proof/Machine/Event.lean ====
section
/-! DEFINITION. What happens to an event in the HUB: open requests, limits, decisions, faults and the start of retirement
(01 R28–R45; 05 R182, R196–R203; 10 R348). -/

namespace Sys2Proof.Machine

/-- OPEN_REQUEST: the oldest request is taken, unless its crossing is not above the highest opened (R28). After the
power-fail warning, and before TB_TIME counts, no request is taken (R45, R466). -/
def execOpenRequest (s : State) : Outcome :=
  .next (match s.hub.openReqs with
    | [] => s
    | q :: r =>
      if s.pf || !s.tb.counting then s
      else
        let s := { s with hub := { s.hub with openReqs := r } }
        let isNew : Bool := match s.hub.highest with | some h => decide (h < q.crossing) | none => true
        if isNew then openTaken q.crossing s
        else if q.accept then { s with hub := { s.hub with dupAccept := s.hub.dupAccept + 1 } }
        else s)

/-- A limit whose handle is stale is discarded and counted (R199). -/
def limitActs (h : BitVec 19) (act : State → State) (s : State) : State :=
  if s.stale h then bump Cnt.llWakeLate s else act s

/-- A firing sets bit n of TB_CMP_FIRED (15 R474). -/
def setFired (n : Nat) (s : State) : State :=
  { s with tb := { s.tb with fired := s.tb.fired ||| ((1 : BitVec 64) <<< n) } }

/-- WINDOW_TIMEOUT: channel 61 acts for the earliest window: it closes (R32, R34, R41), and the wake-up of its close waits for
the reports of the six wicks (R161). -/
def execWindowTimeout (s : State) : Outcome :=
  .next (match dueLimit s.time s.hub.windows with
    | none => s
    | some (x, r) =>
      limitActs x.handle
        (fun s =>
          if (s.event (hSlot x.handle)).window then
            tellWicks (.timeout x.handle)
              ((s.modEvent (hSlot x.handle) fun e => { e with window := false, winto := true }).modSlot (hSlot x.handle)
                fun t => { t with st := if t.st = .opened then .closed else t.st })
          else s)
        (setFired 61 { keepLoaded s with hub := { (keepLoaded s).hub with windows := r } }))

/-- DEADLINE_WARNING: channel 62 acts for the earliest warning (R200). -/
def execDeadlineWarning (s : State) : Outcome :=
  .next (match dueLimit s.time s.hub.warnings with
    | none => s
    | some (x, r) =>
      limitActs x.handle
        (fun s =>
          if undecided s x.handle then
            let n := hSlot x.handle
            let s := bump Cnt.snWarn (s.modEvent n fun e => { e with warned := true })
            wake 6 (fun _ => true) (some x.handle) (TWord.fix ((s.hard n - s.time).setWidth 32)) s
          else s)
        (setFired 62 { keepLoaded s with hub := { (keepLoaded s).hub with warnings := r } }))

/-- HARD_DEADLINE: channel 63 acts for the earliest hard deadline (R38, R203). -/
def execHardDeadline (s : State) : Outcome :=
  .next (match dueLimit s.time s.hub.hards with
    | none => s
    | some (x, r) =>
      limitActs x.handle
        (fun s =>
          if undecided s x.handle then fallback x.handle 2 s
          else if (s.slot (hSlot x.handle)).st = .decided then killEvent x.handle s
          else s)
        (setFired 63 { keepLoaded s with hub := { (keepLoaded s).hub with hards := r } }))

/-- The decision of a DECIDE that is the first for its event (R38, R41). -/
def decideEvent (q : DecideReq) (s : State) : State :=
  fixRecord q.handle q.outcome 0 q.trigger s |>.modSlot (hSlot q.handle) fun t => { t with st := .decided }

/-- One DECIDE is arbitrated: the first for its event wins, any other is late (R197, Table 01-4). -/
def takeDecide (q : DecideReq) (s : State) : State :=
  let won := undecided s q.handle
  let s := if won then decideEvent q s else bump Cnt.snLateDecide s
  { s with ll := { s.ll with answers := s.ll.answers ++ [⟨q.ctx, q.task, q.pd, won, q.live⟩] } }

/-- The oldest request in flight of a context reaches the HUB. -/
def arriveDecide (c : CtxId) (s : State) : State :=
  match s.ll.decides.find? fun q => q.ctx = c with
  | none => s
  | some q => takeDecide q { s with ll := { s.ll with decides := s.ll.decides.erase q } }

/-- DECIDE_REQUEST: the requests of some contexts reach the HUB in one of its cycles. They are arbitrated from the
lowest-numbered lantern and core up (Table 01-4); the commands say which of the requests in flight arrive, so nothing is
chosen of their order on the way. -/
def execDecideRequest (cs : List CtxId) (s : State) : Outcome :=
  .next ((cs.insertionSort (· ≤ ·)).foldl (fun s c => arriveDecide c s) s)

/-- The context still waits with the DECIDE that an answer is for. -/
def awaits (a : DecideAns) (s : State) : Bool :=
  let x := s.ctx a.ctx
  a.live && x.st = .stalled && x.stall = .decide && x.task = some a.task

/-- DECIDE_ANSWER: pd is written and the context becomes runnable (R196). -/
def execDecideAnswer (c : CtxId) (s : State) : Outcome :=
  .next (match s.ll.answers.find? fun a => a.ctx = c with
    | none => s
    | some a =>
      let s := { s with ll := { s.ll with answers := s.ll.answers.erase a } }
      if !awaits a s then s
      else
        wakeCtx c (match a.pd with
          | some p => s.modCtx c fun x => x.setPred p a.won
          | none => s))

/-- The reason of a fallback for a FAULTED context: a hard deadline that is due in the same HUB cycle comes before POISON, and
POISON before FAULT (Table 05-10). -/
def faultReason (f : FaultRep) (s : State) : BitVec 4 :=
  if s.hard (hSlot f.handle) ≤ s.time then 2 else if f.poison then 3 else 4

/-- One report is arbitrated: an undecided event gets its fallback (R348). -/
def takeFault (f : FaultRep) (s : State) : State :=
  if undecided s f.handle then fallback f.handle (faultReason f s) s else s

/-- FAULT_REPORT: the oldest reports reach the HUB, n of them in one of its cycles, POISON before FAULT (R348, Table 05-10). -/
def execFaultReport (n : Nat) (s : State) : Outcome :=
  let now := s.ll.faults.take n
  .next (((now.filter fun f => f.poison) ++ now.filter fun f => !f.poison).foldl (fun s f => takeFault f s)
    { s with ll := { s.ll with faults := s.ll.faults.drop n } })

/-- The conditions of R40. -/
def canRetire (i : Nat) (s : State) : Bool :=
  let h := mkHandle i (s.slot i).gen
  (decide ((s.slot i).st = .decided) || decide ((s.slot i).st = .snuffed)) && !(s.event i).window &&
    !(liveTasks s).any (fun (e : Nat × TaskD) => decide (e.2.handle = some h)) &&
    !(allJobs s).any (fun (j : Nat × Job) => decide (j.2.owner = some h))

/-- RETIRE_START: the slot becomes RETIRING and its hard deadline leaves its list (R40, R199). -/
def execRetireStart (i : BitVec 11) (s : State) : Outcome :=
  let n := i.toNat
  .next (
    if canRetire n s then
      let h := mkHandle n (s.slot n).gen
      { keepLoaded s with hub := { (keepLoaded s).hub with hards := dropLimit h s.hub.hards } }.modSlot n fun t => { t with st := .retiring }
    else s)

/-- The event of a SPAWN request can still be given tasks: not stale, not killed, not RETIRING (Table 05-5). -/
def spawnable (h : Option (BitVec 19)) (s : State) : Bool :=
  match h with
  | none => true
  | some h => !s.stale h && !(s.event (hSlot h)).killed && (s.slot (hSlot h)).st ≠ .retiring && (s.slot (hSlot h)).st ≠ .free

/-- SPAWN_REQUEST: the oldest request reaches the HUB; the named template is instantiated once (R182, Table 05-3). It is the template
live at arrival, and one that a MENU_COMMIT has disabled since the SPAWN makes nothing (R185 does not say; DESIGN CHOICE, log
entry 106). -/
def execSpawnRequest (s : State) : Outcome :=
  .next (match s.ll.spawns with
    | [] => s
    | q :: r =>
      let s := { s with ll := { s.ll with spawns := r } }
      let t := Tab.get Templ.off s.ll.templ q.tmpl
      if s.pf then s
      else if !s.ll.enable then bump Cnt.llWakeLate s
      else if t.en && spawnable q.handle s then instTemplate q.tmpl t false q.handle q.deadline q.arg 1 s
      else s)

end Sys2Proof.Machine
end

