-- ==== Sys2Proof/Machine/Timebase.lean ====
section
/-! DEFINITION. The time base: timing input, lock, crossing counters, snapshots and compare channels (15); the tick that
an idle step is (log entry 2); CN_ENABLE (03 R100, 15 R466). -/

namespace Sys2Proof.Machine

def State.modTb (s : State) (f : TbSt → TbSt) : State := { s with tb := f s.tb }

/-! ### Crossing numbers (04 R151, 15 R463) -/

/-- Distance of (O + d, bx) from (O, b), in crossings. -/
def bxDistance (len b bx : Nat) (d : Int) : Nat := (d * len + bx - b).natAbs

/-- The orbit of the crossing closest to (O, b) that has a BX; a tie goes to the earlier (R151). -/
def closestOrbit (len : Nat) (orbit : BitVec 32) (b bx : Nat) : BitVec 32 :=
  let before := bxDistance len b bx (-1)
  let same := bxDistance len b bx 0
  let after := bxDistance len b bx 1
  if before ≤ same && before ≤ after then orbit - 1
  else if same ≤ after then orbit
  else orbit + 1

/-- The crossing number of a BX at the present counters. -/
def extendBx (s : State) (bx : BitVec 16) : BitVec 48 :=
  closestOrbit s.tb.cfg.lv.len.toNat s.tb.orbit s.tb.bx.toNat bx.toNat ++ bx

/-! ### 8b/10b (R461; PRESUMED as IEEE 802.3 Clause 36 has it, log entry 92) -/

/-- The 5b/6b code of D.0 to D.31: the sub-block under negative and under positive running disparity, bit a first. -/
def sixes : List (BitVec 6 × BitVec 6) :=
  [(0b100111, 0b011000), (0b011101, 0b100010), (0b101101, 0b010010), (0b110001, 0b110001), (0b110101, 0b001010),
   (0b101001, 0b101001), (0b011001, 0b011001), (0b111000, 0b000111), (0b111001, 0b000110), (0b100101, 0b100101),
   (0b010101, 0b010101), (0b110100, 0b110100), (0b001101, 0b001101), (0b101100, 0b101100), (0b011100, 0b011100),
   (0b010111, 0b101000)] ++
  [(0b011011, 0b100100), (0b100011, 0b100011), (0b010011, 0b010011), (0b110010, 0b110010), (0b001011, 0b001011),
   (0b101010, 0b101010), (0b011010, 0b011010), (0b111010, 0b000101), (0b110011, 0b001100), (0b100110, 0b100110),
   (0b010110, 0b010110), (0b110110, 0b001001), (0b001110, 0b001110), (0b101110, 0b010001), (0b011110, 0b100001),
   (0b101011, 0b010100)]

/-- The 3b/4b code of D.x.0 to D.x.6 and the primary form of D.x.7, bit f first. -/
def fours : List (BitVec 4 × BitVec 4) :=
  [(0b1011, 0b0100), (0b1001, 0b1001), (0b0101, 0b0101), (0b1100, 0b0011), (0b1101, 0b0010), (0b1010, 0b1010),
   (0b0110, 0b0110), (0b1110, 0b0001)]

/-- The 3b/4b code after the six bits of K.28, by the running disparity before it. -/
def fourK : List (BitVec 4 × BitVec 4) :=
  [(0b1011, 0b0100), (0b0110, 0b1001), (0b1010, 0b0101), (0b1100, 0b0011), (0b1101, 0b0010), (0b0101, 0b1010),
   (0b1001, 0b0110), (0b0111, 0b1000)]

/-- The place of a sub-block in its column. -/
def codeOf {n : Nat} (rd : Bool) (v : BitVec n) (l : List (BitVec n × BitVec n)) : Option Nat :=
  l.findIdx? fun p => (if rd then p.2 else p.1) = v

/-- Running disparity after a sub-block: that of its greater number of bits. -/
def disparity {n : Nat} (rd : Bool) (v : BitVec n) : Bool :=
  let ones := (List.range n).countP fun i => v.getLsbD i
  if n < 2 * ones then true else if 2 * ones < n then false else rd

/-- A character of the 8b/10b stream. -/
inductive Char8 where
  | data (b : Byte)
  /-- K28.5 -/
  | comma
  /-- another K character -/
  | control
  /-- a code-group or running-disparity error -/
  | bad
  deriving DecidableEq, Repr

/-- D.x.7 has its alternate form after these x, by the running disparity before the four bits. -/
def alternate (rd : Bool) (x : Nat) : Bool := if rd then x = 11 || x = 13 || x = 14 else x = 17 || x = 18 || x = 20

/-- The character of a code group, bit a its bit 9, and the running disparity after it. -/
def readChar (rd : Bool) (g : BitVec 10) : Char8 × Bool :=
  let a := g.extractLsb' 4 6
  let b := g.extractLsb' 0 4
  let rd' := disparity rd a
  let kb : BitVec 4 := if rd' then 0b1000 else 0b0111
  let ch : Char8 :=
    if a = (if rd then 0b110000 else 0b001111) then
      match codeOf rd' b fourK with | some 5 => .comma | some _ => .control | none => .bad
    else match codeOf rd a sixes with
      | none => .bad
      | some x =>
        if b = kb then
          if alternate rd' x then .data (BitVec.ofNat 3 7 ++ BitVec.ofNat 5 x)
          else if x = 23 ∨ x = 27 ∨ x = 29 ∨ x = 30 then .control else .bad
        else match codeOf rd' b fours with
          | none => .bad
          | some y => if y = 7 ∧ alternate rd' x then .bad else .data (BitVec.ofNat 3 y ++ BitVec.ofNat 5 x)
  (ch, disparity rd' b)

/-- Successive characters. -/
def readChars : Bool → List (BitVec 10) → List Char8 × Bool
  | rd, [] => ([], rd)
  | rd, g :: r =>
    let (c, rd) := readChar rd g
    let (cs, rd) := readChars rd r
    (c :: cs, rd)

/-- The code groups of a word as received, character 0 first in its bits [39:30]. -/
def markerGroups (w : BitVec 40) : List (BitVec 10) :=
  [w.extractLsb' 30 10, w.extractLsb' 20 10, w.extractLsb' 10 10, w.extractLsb' 0 10]

/-- K28.5 under negative and under positive running disparity. -/
def commaNeg : BitVec 10 := 0b0011111010
def commaPos : BitVec 10 := 0b1100000101

/-! ### Marker words (R462, R463, R467, R566) -/

/-- An accepted marker asks the HUB for an event in accept-driven mode, once TB_TIME counts; from the power-fail warning on it
is only counted, and after a thermal trip too nothing is asked (R27, R45, R463, R466; 18 R539). -/
def acceptMarker (arg : BitVec 16) (s : State) : State :=
  if !s.tb.cfg.lv.acceptEn then s
  else if s.tb.cfg.lv.len ≤ arg then bump Cnt.tbUnknown s
  else
    let s := bump Cnt.tbAccepts s
    if s.pw.warned then { s with hub := { s.hub with pfAccepts := s.hub.pfAccepts + 1 } }
    else if !s.tb.counting ∨ s.pf then s
    else if s.wk.event.lv.mode then s
    else { s with hub := { s.hub with openReqs := s.hub.openReqs ++ [⟨extendBx s arg, true⟩] } }

/-- A marker that acts at the next crossing edge, once TB_TIME counts. -/
def edgeMarker (m : EdgeMark) (s : State) : State :=
  if s.tb.counting then s.modTb fun t => { t with mark := some m } else s

/-- The record of the highest crossing, and what the wicks have been told of it (R28), is cleared when the word is decoded;
before TB_TIME counts, RESETS counts then. -/
def resetMarker (s : State) : State :=
  if !s.tb.cfg.lv.resetEn then s
  else
    let s := (List.range 6).foldl (fun s i => s.modWick i fun w => { w with told := none }) s
    let s := { s with hub := { s.hub with highest := none } }
    if s.tb.counting then edgeMarker .reset s else bump Cnt.tbResets s

/-- What a decoded word does, by TYPE (Table 15-2). -/
def markerActs (ty : Byte) (arg : BitVec 16) (s : State) : State :=
  if ty = 0x00 then s
  else if ty = 0x01 then edgeMarker .orbit s
  else if ty = 0x02 then edgeMarker (.crossing arg) s
  else if ty = 0x03 then acceptMarker arg s
  else if ty = 0x04 then resetMarker s
  else bump Cnt.tbUnknown s

/-- A marker word arrives: it is sent back, and decoded while the receiver is aligned. A code-group or disparity error, or another
K character in character 0, counts in CODE_ERR; the fourth word in succession without a K28.5 there ends the alignment (R462).
A K character in place of TYPE or ARG is a TYPE that is not listed (DEDUCED, log entry 92). -/
def rxMarker (w : BitVec 40) (s : State) : State :=
  let (cs, rd) := readChars s.tb.rd (markerGroups (if s.tb.cfg.lv.pol then ~~~w else w))
  let s := emit (.timing w) (s.modTb fun t => { t with rd := rd })
  if !s.tb.aligned then s
  else
    let miss := if cs.head? = some .comma then 0 else s.tb.miss + 1
    let s := s.modTb fun t => { t with miss := miss }
    let s := if 4 ≤ miss then bump Cnt.tbAlignLoss (s.modTb fun t => { t with aligned := false, miss := 0 }) else s
    if cs.contains .bad ∨ cs.head? = some .control then bump Cnt.tbCodeErr s
    else match cs with
      | [.comma, .data ty, .data lo, .data hi] => markerActs ty (hi ++ lo) s
      | .comma :: _ => bump Cnt.tbUnknown s
      | _ => s

def execMarkerIdle (w : BitVec 40) (s : State) : Outcome := .next (rxMarker w s)
def execAccept (w : BitVec 40) (s : State) : Outcome := .next (rxMarker w s)
def execMarkerOrbit (w : BitVec 40) (s : State) : Outcome := .next (rxMarker w s)
def execMarkerCrossing (w : BitVec 40) (s : State) : Outcome := .next (rxMarker w s)
def execMarkerReset (w : BitVec 40) (s : State) : Outcome := .next (rxMarker w s)
def execMarkerWordDiscarded (w : BitVec 40) (s : State) : Outcome := .next (rxMarker w s)

/-- ALIGN_LOSS: the words arrive of which four in succession have no K28.5 in character 0. -/
def execAlignLoss (ws : List (BitVec 40)) (s : State) : Outcome := .next (ws.foldl (fun s w => rxMarker w s) s)

/-- MARKER_ALIGNMENT_GAINED: the search meets a word with a K28.5 in character 0; its form gives the running disparity. -/
def execMarkerAlignmentGained (w : BitVec 40) (s : State) : Outcome :=
  let gs := markerGroups (if s.tb.cfg.lv.pol then ~~~w else w)
  let g := gs.headD 0
  .next (
    if s.tb.aligned ∨ !(g = commaNeg ∨ g = commaPos) then emit (.timing w) s
    else emit (.timing w) (s.modTb fun t => { t with aligned := true, miss := 0, rd := (readChars (decide (g = commaPos)) gs).2 }))

/-! ### Crossing edges (R467, R475, R477) -/

/-- A config commit copies at the crossing edge; a LEN of 0 is refused (R477). -/
def tbCommit (t : TbSt) : TbSt :=
  if !t.cfg.pend then t
  else if t.cfg.sh.len = 0 then { t with cfg := t.cfg.refuse, cfgerr := true }
  else { t with cfg := t.cfg.commit }

/-- What an edge makes of TB_BX and TB_ORBIT without a marker, and whether it wraps. -/
def edgeCount (t : TbSt) : BitVec 16 × BitVec 32 × Bool :=
  if t.bx.toNat + 1 < t.cfg.lv.len.toNat then (t.bx + 1, t.orbit, false) else (0, t.orbit + 1, true)

def atCounters (bx : BitVec 16) (orbit : BitVec 32) (s : State) : State :=
  s.modTb fun t => { t with bx := bx, orbit := orbit }

/-- The counters move on, and the marker of the word before the edge acts. -/
def edgeActs (s : State) : State :=
  let (bx, orbit, wrap) := edgeCount s.tb
  match s.tb.mark with
  | none => atCounters bx orbit s
  | some .orbit =>
    let s := if wrap then s else bump Cnt.tbOrbitSlip s
    atCounters 0 (s.tb.orbit + 1) s
  | some (.crossing arg) =>
    if s.tb.cfg.lv.chkbx && arg ≠ bx then
      let s := bump Cnt.tbBxMismatch s
      if s.tb.cfg.lv.resync then atCounters arg s.tb.orbit s else atCounters bx orbit s
    else atCounters bx orbit s
  | some .reset => atCounters 0 0 (bump Cnt.tbResets s)

def execCrossingEdge (s : State) : Outcome :=
  let s := s.modTb tbCommit
  .next ((if s.tb.counting then edgeActs s else s).modTb fun t => { t with mark := none })

def execTbCfgCommit (s : State) : Outcome := .next (s.modTb fun t => { t with cfg := t.cfg.request })

/-! ### Lock (Table 15-3) -/

/-- ACQUIRE, or NOREF for a frequency outside 25–50 MHz. -/
def acquireAt (khz : BitVec 16) (s : State) : State :=
  let ok : Bool := 25000 ≤ khz.toNat && khz.toNat ≤ 50000
  s.modTb fun t =>
    if ok then { t with khz := khz, lock := .acquire } else { t with khz := khz, lock := .noref, refrange := true }

def execRefAcquired (khz : BitVec 16) (s : State) : Outcome :=
  .next (if s.tb.lock = .noref then acquireAt khz (s.modTb fun t => { t with aligned := true }) else s)

/-- The first lock since reset starts TB_TIME, TB_BX and TB_ORBIT from 0 (R464). -/
def execPllLocked (s : State) : Outcome :=
  .next (
    if s.tb.lock ≠ .acquire then s
    else
      let s := if s.tb.counting then s
        else { s with time := 0 }.modTb fun t => { t with counting := true, bx := 0, orbit := 0 }
      s.modTb fun t => { t with lock := .locked, lockKhz := t.khz })

def execRefLoss (s : State) : Outcome :=
  .next (match s.tb.lock with
    | .acquire => s.modTb fun t => { t with lock := if t.counting then .holdover else .noref }
    | .locked =>
      record 2 0x50 0x50 (s.tb.khz.setWidth 64) 0 0 0 0
        (bump Cnt.tbLockLoss (s.modTb fun t => { t with lock := .holdover }))
    | _ => s)

/-- Within ±200 ppm. -/
def nearKhz (a b : BitVec 16) : Bool := ((a.toNat : Int) - b.toNat).natAbs * 1000000 ≤ 200 * b.toNat

def execRefReturn (khz : BitVec 16) (s : State) : Outcome :=
  .next (
    if s.tb.lock ≠ .holdover then s
    else acquireAt khz (if nearKhz khz s.tb.lockKhz then s else s.modTb fun t => { t with refrange := true }))

/-! ### Reading and clearing (R469, R470, R478) -/

def execTbSnap (s : State) : Outcome :=
  .next (s.modTb fun t => { t with snapTime := s.time, snapBx := t.bx, snapOrbit := t.orbit })

/-- The latch of a reader; a core has none (R469), and until READY a read over BAR0 latches nothing (17 R525). -/
def hostLatch (r : Reader) (s : State) : Option Nat :=
  match r with
  | .fn n => if s.mg.ready then some n.toNat else none
  | .mgmt => some 32
  | .core _ => none

/-- What a read answers: until READY every read over BAR0 answers 0 (17 R525). -/
def hostValue (r : Reader) (v : Word) (s : State) : Word :=
  match r with
  | .fn _ => if s.mg.ready then v else 0
  | _ => v

/-- The low half of TB_TIME; the high half is latched for the reader. -/
def tbLowRead (r : Reader) (s : State) : Word × State :=
  (hostValue r (s.time.setWidth 32) s, match hostLatch r s with
    | some n => s.modTb fun t => { t with latch := Tab.set 0 t.latch n (s.time.extractLsb' 32 32) }
    | none => s)

def execTbTimeLowRead (r : Reader) (s : State) : Outcome :=
  .next (emit (.readValue (tbLowRead r s).1) (tbLowRead r s).2)

def execTbCntclr (s : State) : Outcome := .next (clearCounters 0x500050 0x50006C s)

/-! ### Compare channels (R32, R471–R474) -/

def cmpCh (s : State) (n : Nat) : CmpCh := Tab.get CmpCh.reset s.tb.ch n
def modCh (n : Nat) (f : CmpCh → CmpCh) (s : State) : State :=
  s.modTb fun t => { t with ch := Tab.set CmpCh.reset t.ch n (f (cmpCh s n)) }

/-- Channels 61–63 belong to the HUB while events are enabled (R32). -/
def hubHolds (s : State) (n : Nat) : Bool := 61 ≤ n && s.cn.enable

/-- The copy of a channel's shadow fields. -/
def cmpCopy (c : CmpCh) : CmpCh :=
  let o := c.cfg.lv
  let n := c.cfg.sh
  { c with
    cfg := c.cfg.commit, armed := n.en && !n.mode,
    cnt := if o.mode ≠ n.mode || (!o.en && n.en) then 0 else c.cnt }

/-- A channel commit at its tick; an interval of 0 is refused (R471). -/
def cmpCommit (n : Nat) (s : State) : State :=
  let c := cmpCh s n
  if c.cfg.sh.mode && c.cfg.sh.val = 0 then
    (modCh n (fun c => { c with cfg := c.cfg.refuse }) s).modTb fun t => { t with cfgerr := true }
  else modCh n cmpCopy s

/-- TB_CMP_COMMIT: the copy is made at the next tick, which comes once TB_TIME counts (R471). -/
def execTbCmpCommit (n : BitVec 6) (s : State) : Outcome :=
  .next (if hubHolds s n.toNat then s else modCh n.toNat (fun c => { c with cfg := c.cfg.request }) s)

/-- What a tick to TB_TIME now does to a channel. -/
def cmpTick (now : BitVec 64) (c : CmpCh) : CmpCh :=
  let g := c.cfg.lv
  if g.mode then
    if !g.en then c
    else if g.val.toNat ≤ c.cnt.toNat + 1 then { c with cnt := 0, due := some (g.wake, g.irq) }
    else { c with cnt := c.cnt + 1 }
  else if c.armed && now.setWidth 32 = g.val then { c with armed := false, due := some (g.wake, g.irq) }
  else c

/-- Channels with a commit that waits for the next tick. -/
def waitingCommits (s : State) : List Nat :=
  s.tb.ch.filterMap fun (e : Nat × CmpCh) => if e.2.cfg.pend then some e.1 else none

/-- One tick of TB_TIME (R464): an idle step. -/
def tick (s : State) : State :=
  if !s.tb.counting then s
  else
    let s := { s with time := s.time + 1 }
    let s := s.modTb fun t => { t with
      ch := t.ch.map fun (e : Nat × CmpCh) => if hubHolds s e.1 then e else (e.1, cmpTick s.time e.2) }
    (waitingCommits s).foldl (fun s n => cmpCommit n s) s

/-- The earliest limit that the HUB has loaded into one of its channels (R32, R199). -/
def hubLoaded (s : State) (n : Nat) : Option Limit :=
  (if n = 61 then s.hub.windows else if n = 62 then s.hub.warnings else s.hub.hards).head?

/-- A channel that has reached its value acts (R474). -/
def fireChannel (s : State) (i : Nat) : State :=
  if hubHolds s i then
    match hubLoaded s i with
    | some x => if x.time ≤ s.time then setFired i s else s
    | none => s
  else
    match (cmpCh s i).due with
    | none => s
    | some (wk, irq) =>
      let s := setFired i (modCh i (fun c => { c with due := none }) s)
      if 61 ≤ i then s
      else
        let s := if wk then
            wake 5 (fun t => t.sel.toNat = i) none (TWord.fix (BitVec.ofNat 32 i)) s
          else s
        if irq then serviceIrq 0 s else s

/-- COMPARE_FIRE: channels that fire in one HUB cycle act in ascending order, so those below n that have fired act first
(R474). -/
def execCompareFire (n : BitVec 6) (s : State) : Outcome := .next ((List.range (n.toNat + 1)).foldl fireChannel s)

/-! ### Enabling events (03 R100; R466) -/

/-- CN_ENABLE_WRITE: the HUB takes channels 61–63 (R32). -/
def execCnEnableWrite (v : Bool) (s : State) : Outcome :=
  let t := cnEnable s.tb.counting v s
  .next (
    if t.cn.enable && !s.cn.enable then
      [61, 62, 63].foldl (fun s n => modCh n (fun c => { CmpCh.reset with cfg := { CmpCh.reset.cfg with sh := c.cfg.sh } }) s)
        { t with hub := { t.hub with lastVal := [] } }
    else t)

end Sys2Proof.Machine
end

