-- ==== Sys2Proof/Machine/Wicks.lean ====
section
/-! DEFINITION. The wicks: lanes, frames, the crossing table, the writer, opens and closes, maps and commits (04). -/

namespace Sys2Proof.Machine

/-! ### Parts of a wick -/

def State.lane (s : State) (n p : Nat) : LaneRx := Tab.get LaneRx.reset (s.wick n).lanes p
def State.modLane (s : State) (n p : Nat) (f : LaneRx → LaneRx) : State :=
  s.modWick n fun w => { w with lanes := Tab.set LaneRx.reset w.lanes p (f (s.lane n p)) }
/-- The live configuration of a lane. -/
def laneCfg (s : State) (n p : Nat) : LaneCfg := Tab.get LaneCfg.reset (s.wick n).lcfg.lv p

/-- Six wicks exist (R141). -/
def onWick (n : BitVec 3) (f : Nat → State → State) (s : State) : Outcome :=
  .next (if n.toNat < 6 then f n.toNat s else s)

/-- A wick works on its lanes and frames while its optics and its clock are on: from a warning on they are off (R176; 19 R553). -/
def onLane (n : BitVec 3) (f : Nat → State → State) (s : State) : Outcome :=
  onWick n (fun n s => if s.pw.stage = .run then f n s else s) s

/-- A replacement for the entry of a crossing. -/
def putX (n : Nat) (e : XEntry) (s : State) : State :=
  s.modWick n fun w => { w with entries := w.entries.map fun x => if x.crossing = e.crossing then e else x }

def findX (s : State) (n : Nat) (x : BitVec 48) : Option XEntry := (s.wick n).entries.find? fun e => e.crossing = x

/-- Burst-buffer units that frames occupy (R168). -/
def bufUsed (w : WkSt) : Nat :=
  (w.lanes.map fun (e : Nat × LaneRx) => match e.2.rx with | some f => f.units | none => 0).sum +
    (w.entries.map fun e => (e.frames.map HeldFrame.units).sum).sum

/-! ### The hit vector (R162–R167) -/

/-- Hits that an extent holds. -/
def extentHits (units : BitVec 6) : Nat := 512 * units.toNat

/-- Offset of extent n from the span base. -/
def extentOff (units : BitVec 6) (n : Nat) : Nat := 0x40 + n * (8 * extentHits units + 64)

/-- Writes of a wick name the candle handle, refused and counted when it is stale (R92, R167); none are made after the
power-fail warning (R176). -/
def wickWrite (n : Nat) (e : XEntry) (h : BitVec 19) (off : Nat) (ws : List MWord) (s : State) : State :=
  if s.pf then s
  else if s.stale h then bump Cnt.cnStaleHandle s
  else
    let hint := if (s.wick n).stash then some e.home else none
    physRun hint (mkPa s.node (spanLocal s e.span + off)) [] ws s

/-- The HDR of an extent (R165). -/
def hitHdr (n : Nat) (e : XEntry) : MWord :=
  let fmt : BitVec 2 := if e.fmt1 && !e.fmt2 then 0 else 1
  let sub : BitVec 8 := (0 : BitVec 2) ++ fmt ++ (if e.drop then (1 : BitVec 1) else 0) ++ BitVec.ofNat 3 n
  ⟨Ty.hdr, true, false, sub ++ BitVec.ofNat 24 (2 * e.hits)⟩

/-- The HDR is written; after it, once for an event, the root word that points to it (R166). -/
def writeHdr (n : Nat) (h : BitVec 19) (e : XEntry) (s : State) : XEntry × State :=
  let off := extentOff (s.event (hSlot h)).extUnits n + 0x3C
  let s := wickWrite n e h off [hitHdr n e] s
  if e.rootDone then (e, s)
  else
    let ptr : TWord := ⟨Ty.hitv, e.virt + BitVec.ofNat 32 off⟩
    ({ e with rootDone := true }, wickWrite n e h (4 * (5 + n)) [ptr.m] s)

/-- A batch is complete: HDR, then the hit-batch wake-up (R166, Table 05-3). -/
def batchDone (n : Nat) (h : BitVec 19) (e : XEntry) (s : State) : XEntry × State :=
  let (e, s) := writeHdr n h { e with lastBatch := e.hits } s
  let w1 : Word := BitVec.ofNat 8 n ++ BitVec.ofNat 24 e.hits
  (e, wake 2 (fun t => t.sel.getLsbD n) (some h) (TWord.fix w1) s)

/-- The words of a hit under a map, none where EN is 0 (R146, R152, R164). -/
def hitWords (map : Tab Word) (hit : BitVec 64) : Option (List MWord) :=
  let m := Tab.get 0 map (hit.extractLsb' 48 16).toNat
  if m.getLsbD 16 then
    some [⟨Ty.hit0, true, false, m.extractLsb' 0 16 ++ hit.extractLsb' 0 16⟩,
      ⟨Ty.hit1, true, false, hit.extractLsb' 32 16 ++ hit.extractLsb' 16 16⟩]
  else none

/-- Hits are written in runs that end at each batch (R166); the fuel is their number. Where a commit has made WK_BATCH.LOG2 so
small that the event already has the hits of a batch, the batch completes at the next hit written (DESIGN CHOICE, log entry
103). -/
def writeRuns (n : Nat) (h : BitVec 19) : Nat → List (List MWord) → XEntry → State → XEntry × State
  | 0, _, e, s => (e, s)
  | k + 1, hs, e, s =>
    if hs.isEmpty then (e, s)
    else
      let room := max 1 (e.lastBatch + 2 ^ s.wk.event.lv.batch.toNat - e.hits)
      let now := hs.take room
      let off := extentOff (s.event (hSlot h)).extUnits n + 0x40 + 8 * e.hits
      let s := wickWrite n e h off now.flatten s
      let e := { e with hits := e.hits + now.length }
      let (e, s) := if now.length = room then batchDone n h e s else (e, s)
      writeRuns n h k (hs.drop room) e s

/-- A drop notice, once for an event (R161). -/
def setDrop (n : Nat) (e : XEntry) (s : State) : XEntry × State :=
  match e.handle with
  | some h =>
    if e.noticed then ({ e with drop := true }, s)
    else ({ e with drop := true, noticed := true }, s.modWick n fun w => { w with notices := w.notices ++ [h] })
  | none => ({ e with drop := true }, s)

/-- A frame's hits are mapped and written (R164). -/
def writeFrame (n : Nat) (h : BitVec 19) (f : HeldFrame) (e : XEntry) (s : State) : XEntry × State :=
  let map := if e.oldMap then (s.wick n).mapSh else (s.wick n).map
  let hs := f.hits.filterMap (hitWords map)
  let room := extentHits (s.event (hSlot h)).extUnits - e.hits
  let kept := hs.take room
  let lost := hs.length - kept.length
  let s := bumpBy (Cnt.wkMasked n) (f.hits.length - hs.length) s
  let e := if kept.isEmpty then e else { e with fmt1 := e.fmt1 || !f.fmt2, fmt2 := e.fmt2 || f.fmt2 }
  let (e, s) := writeRuns n h kept.length kept e s
  if lost = 0 then (e, s) else setDrop n e (bumpBy (Cnt.wkExtentDrop n) lost s)

/-! ### Closing (Table 04-7, R159, R161) -/

/-- MAP_COMMIT reads 0 once no event uses the old map (R154). -/
def mapSettled (n : Nat) (s : State) : State :=
  s.modWick n fun w =>
    if w.mapDone && w.entries.all (fun e => !e.oldMap) then { w with mapPend := false, mapDone := false } else w

def dropEntry (n : Nat) (x : BitVec 48) (s : State) : State :=
  mapSettled n (s.modWick n fun w => { w with entries := w.entries.filter fun e => e.crossing ≠ x })

/-- The final HDR is written and the close reported. -/
def closeEntry (n : Nat) (h : BitVec 19) (e : XEntry) (s : State) : State :=
  let (e, s) := writeHdr n h e s
  dropEntry n e.crossing (s.modWick n fun w => { w with reports := w.reports ++ [⟨h, e.hits, e.drop⟩] })

/-- An OPEN entry closes when every lane of its mask has delivered its end-of-crossing frame and its frames are
written. -/
def closeIfDone (n : Nat) (x : BitVec 48) (s : State) : State :=
  match findX s n x with
  | none => s
  | some e =>
    match e.handle with
    | none => s
    | some h => if e.frames.isEmpty && e.mask &&& ~~~e.eoc = 0 then closeEntry n h e s else s

/-- Frames dropped before they are written, each counted on its lane. -/
def dropFrames (cnt : Nat → Nat → Nat) (n : Nat) (fs : List HeldFrame) (s : State) : State :=
  fs.foldl (fun s f => bump (cnt n f.lane) s) s

/-- A HELD entry's frames are dropped, its end-of-crossing frames with them (R160). -/
def dropHeld (cnt : Nat → Nat → Nat) (n : Nat) (e : XEntry) (s : State) : State :=
  let s := dropFrames cnt n e.frames s
  let s := (List.range 16).foldl (fun s p => if e.eoc.getLsbD p then bump (cnt n p) s else s) s
  dropEntry n e.crossing s

/-! ### Lanes (Table 04-2) -/

/-- The lane leaves the close masks of open events. -/
def leaveMasks (n p : Nat) (s : State) : State :=
  let bit' : BitVec 16 := ~~~((1 : BitVec 16) <<< p)
  let s := s.modWick n fun w => { w with entries := w.entries.map fun e => { e with mask := e.mask &&& bit' } }
  ((s.wick n).entries.map XEntry.crossing).foldl (fun s x => closeIfDone n x s) s

/-- The frame in progress is dropped and counted as FRAMING. -/
def dropRx (n p : Nat) (s : State) : State :=
  bump (Cnt.wkFraming n p) (s.modLane n p fun l => { l with rx := none, skip := true })

/-- A lane that takes its optics moves from one state to another. -/
def laneMove (src : LaneStep) (f : LaneRx → LaneRx) (n : BitVec 3) (p : BitVec 4) (s : State) : Outcome :=
  onLane n (fun n s =>
    if (s.lane n p.toNat).st = src ∧ !(laneCfg s n p.toNat).src then s.modLane n p.toNat f else s) s

def execLaneClockRecovered (n : BitVec 3) (p : BitVec 4) (s : State) : Outcome :=
  laneMove .acquire (fun l => { l with st := .locking, los := false }) n p s

def execLaneSyncLocked (n : BitVec 3) (p : BitVec 4) (s : State) : Outcome :=
  laneMove .locking (fun l => { l with st := .align }) n p s


/-- A lane leaves UP. -/
def laneLost (n p : Nat) (s : State) : State :=
  let s := if (s.lane n p).rx.isSome then dropRx n p s else s
  let s := s.modLane n p fun l => { l with st := .acquire, lockLost := true, rx := none, skip := false }
  leaveMasks n p (bump (Cnt.wkLockLoss n p) s)

def execLaneLockLost (n : BitVec 3) (p : BitVec 4) (s : State) : Outcome :=
  onLane n (fun n s =>
    if (s.lane n p.toNat).st = .up ∧ !(laneCfg s n p.toNat).src then laneLost n p.toNat s else s) s

def execLaneLossOfSignal (n : BitVec 3) (p : BitVec 4) (s : State) : Outcome :=
  onLane n (fun n s =>
    let p := p.toNat
    let s := s.modLane n p fun l => { l with los := true }
    if (laneCfg s n p).src then s
    else match (s.lane n p).st with
      | .locking | .align => s.modLane n p fun l => { l with st := .acquire }
      | .up => laneLost n p s
      | .off | .acquire => s) s

/-- The lane is searching for, or has, its block boundary. -/
def readsBlocks (s : State) (n p : Nat) : Bool :=
  !(laneCfg s n p).src && (match (s.lane n p).st with | .locking | .align | .up => true | _ => false)

/-! ### Frames (R144–R151, R168) -/

/-- Fields of a complete header (Table 04-4): KIND, NHITS, LSEQ; none while a word is missing. -/
def headerFields (fmt2 : Bool) (h0 h1 : Option (BitVec 64)) : Option (BitVec 4 × Nat × BitVec 16) :=
  match h0, fmt2, h1 with
  | some h, false, _ => some (h.extractLsb' 52 4, (h.extractLsb' 32 16).toNat, h.extractLsb' 16 16)
  | some h, true, some g => some (h.extractLsb' 52 4, (g.extractLsb' 16 16).toNat, g.extractLsb' 0 16)
  | _, _, _ => none

/-- Rule 1 of Table 04-5. -/
def fmtBad (fmt2 : Bool) (h0 : Option (BitVec 64)) : Bool :=
  match h0 with
  | some h => h.extractLsb' 48 4 ≠ (if fmt2 then 2 else 1)
  | none => false

/-- Rule 2 of Table 04-5. -/
def kindBad (k : BitVec 4 × Nat × BitVec 16) : Bool := 1 < k.1 || 1024 < k.2.1 || (k.1 = 1 && k.2.1 ≠ 0)

/-- Burst-buffer units of a frame; an end-of-crossing frame takes none (R160, R168). -/
def frameUnits (fmt2 : Bool) (k : BitVec 4 × Nat × BitVec 16) : Nat :=
  if k.1 = 1 then 0 else (8 * ((if fmt2 then 2 else 1) + k.2.1 + 1) + 63) / 64

/-- The frame in progress on a lane. -/
def putRx (n p : Nat) (f : RxFrame) (s : State) : State := s.modLane n p fun l => { l with rx := some f, skip := false }

/-- A SOF begins a frame under the format that is live then (Table 04-12). -/
def rxSof (n p : Nat) (s : State) : State := putRx n p ⟨none, none, (laneCfg s n p).fmt, false, 0, 0, 0, false, []⟩ s

/-- Header words have arrived: rules 1 and 2 are applied, and the space is reserved when the header is complete. -/
def rxHeader (n p : Nat) (f : RxFrame) (s : State) : State :=
  if fmtBad f.fmt2 f.h0 then putRx n p { f with failed := true } (bump (Cnt.wkFmt n p) s)
  else
    match headerFields f.fmt2 f.h0 f.h1 with
    | none => putRx n p f s
    | some k =>
      if kindBad k then putRx n p { f with failed := true } (bump (Cnt.wkLen n p) s)
      else
        let u := frameUnits f.fmt2 k
        let used := bufUsed (s.wick n) + u
        if 32768 < used then putRx n p { f with noRoom := true } s
        else (putRx n p { f with units := u } s).modWick n fun w =>
          { w with bufHwm := BitVec.ofNat 16 (max w.bufHwm.toNat used) }

/-- A data block of the frame in progress: a header word, taken with the time base of that moment (R151), or a hit word. -/
def rxWord (n p : Nat) (f : RxFrame) (w : BitVec 64) (s : State) : State :=
  if f.failed then s
  else if f.h0.isNone then rxHeader n p { f with h0 := some w, orbit := s.tb.orbit, bx := s.tb.bx } s
  else if f.fmt2 && f.h1.isNone then rxHeader n p { f with h1 := some w } s
  else putRx n p { f with hits := f.hits ++ [w] } s

/-- The crossing number of a frame (R145, R151). -/
def frameCrossing (s : State) (f : RxFrame) : BitVec 48 :=
  let h := f.h0.getD 0
  if f.fmt2 then h.extractLsb' 0 48
  else
    let bx := h.extractLsb' 0 16
    closestOrbit s.tb.cfg.lv.len.toNat f.orbit f.bx.toNat bx.toNat ++ bx

/-- The data blocks of a frame as bytes, in order of arrival (R148). -/
def frameBytes (f : RxFrame) : List Byte :=
  ((f.h0.toList ++ (if f.fmt2 then f.h1.toList else [])) ++ f.hits).flatMap bytes8

/-- A good frame is counted and its LSEQ compared (R149, R150). -/
def countGood (n p nhits : Nat) (lseq : BitVec 16) (s : State) : State :=
  let s := bumpBy (Cnt.wkHits n p) nhits (bump (Cnt.wkFrames n p) s)
  let s := match (s.lane n p).ref with
    | some r => bumpBy (Cnt.wkSeqGap n p) (lseq - r - 1).toNat s
    | none => s
  s.modLane n p fun l => { l with ref := some lseq, lastLseq := lseq }

/-- The list of the 16 most recently dropped crossings (R158). -/
def listDropped (n : Nat) (x : BitVec 48) (s : State) : State :=
  s.modWick n fun w => { w with dropped := (x :: w.dropped.filter (· ≠ x)).take 16 }

/-- A frame dropped for want of space marks its crossing (R168). -/
def frameNoRoom (n : Nat) (x : BitVec 48) (s : State) : State :=
  match findX s n x with
  | some e => let (e, s) := setDrop n e s; putX n e s
  | none => listDropped n x s

/-- In self-opened mode, the first frame with hits of a HELD crossing asks the HUB for the event (R27, Table 04-7). -/
def askOpen (n nhits : Nat) (e : XEntry) (s : State) : XEntry × State :=
  if s.wk.event.lv.mode && 1 ≤ nhits && !e.asked then
    let s := bump (Cnt.wkOpenreq n) s
    ({ e with asked := true },
      if s.tb.counting then { s with hub := { s.hub with openReqs := s.hub.openReqs ++ [⟨e.crossing, false⟩] } } else s)
  else (e, s)

/-- A good frame reaches its entry. -/
def frameJoin (n p : Nat) (kind : BitVec 4) (fr : HeldFrame) (e : XEntry) (s : State) : State :=
  if kind = 1 then
    let counts : Bool := e.handle.isNone || e.mask.getLsbD p
    let eoc := if counts then e.eoc ||| ((1 : BitVec 16) <<< p) else e.eoc
    closeIfDone n e.crossing (putX n { e with eoc := eoc } s)
  else
    let e := { e with frames := e.frames ++ [fr] }
    if e.handle.isSome then putX n e s
    else let (e, s) := askOpen n fr.hits.length e s; putX n e s

/-- An event of a crossing has its window open. -/
def windowOpen (s : State) (x : BitVec 48) : Bool :=
  s.cn.slots.any fun (e : Nat × CnSlot) => (s.event e.1).window && decide ((s.event e.1).crossing = x)

/-- The crossing belongs to an event whose window is open and whose notification found the table full: its frames are dropped
(R158). -/
def tableLost (s : State) (n : Nat) (x : BitVec 48) : Bool := (s.wick n).lost.contains x && windowOpen s x

/-- A good frame with its place in the burst buffer finds its crossing (R28, Table 04-7, R158). -/
def frameGood (n p : Nat) (kind : BitVec 4) (x : BitVec 48) (fr : HeldFrame) (s : State) : State :=
  if !s.wk.enable || s.pf then s
  else
    match findX s n x with
    | some e => frameJoin n p kind fr e s
    | none =>
      let late : Bool := match (s.wick n).told with | some t => decide (x ≤ t) | none => false
      if late then if tableLost s n x then s else bump (Cnt.wkLate n p) s
      else if 128 ≤ (s.wick n).entries.length then listDropped n x (bump (Cnt.wkTableFull n) s)
      else
        let e := XEntry.new x s.time
        frameJoin n p kind fr e (s.modWick n fun w => { w with entries := w.entries ++ [e] })

/-- The EOF of a frame arrives: rules 3 to 5, the counts, and the crossing table. -/
def rxEof (n p : Nat) (crc : BitVec 32) (s : State) : State :=
  match (s.lane n p).rx with
  | none => s
  | some f =>
    let s := s.modLane n p fun l => { l with rx := none }
    if f.failed then s
    else
      match headerFields f.fmt2 f.h0 f.h1 with
      | none => bump (Cnt.wkLen n p) s
      | some (kind, nhits, lseq) =>
        if f.hits.length ≠ nhits then bump (Cnt.wkLen n p) s
        else if crc32c (frameBytes f) ≠ crc then bump (Cnt.wkCrc n p) s
        else if !f.fmt2 && s.tb.cfg.lv.len ≤ (f.h0.getD 0).extractLsb' 0 16 then bump (Cnt.wkFmt n p) s
        else
          let s := countGood n p nhits lseq s
          let x := frameCrossing s f
          if f.noRoom then frameNoRoom n x (bumpBy (Cnt.wkDropHits n p) nhits s)
          else frameGood n p kind x ⟨p, f.fmt2, f.hits, f.units⟩ s

/-! ### Blocks (R142–R144) -/

/-- Self-synchronizing descrambler x^58 + x^39 + 1, over the 58 payload bits received before (R142). Bit 0 of a payload is
received first, as Clause 49 sends it (PRESUMED, log entry 13). -/
def descramble (before : BitVec 58) (raw : BitVec 64) : BitVec 64 :=
  let t := raw ++ before
  raw ^^^ t.extractLsb' 19 64 ^^^ t.extractLsb' 0 64

/-- A block as received, its sync header in bits [65:64]: the header, the payload descrambled, and the descrambler after it
(R142); under POL 1 the data received are inverted (Table 04-12). -/
def readBlock (pol : Bool) (before : BitVec 58) (b : BitVec 66) : BitVec 2 × BitVec 64 × BitVec 58 :=
  let b := if pol then ~~~b else b
  let raw := b.extractLsb' 0 64
  (b.extractLsb' 64 2, descramble before raw, raw.extractLsb' 6 58)

/-- A data block outside a frame is a framing error (R144). -/
def rxData (n p : Nat) (w : BitVec 64) (s : State) : State :=
  match (s.lane n p).rx with
  | some f => rxWord n p f w s
  | none => if (s.lane n p).skip then s else dropRx n p s

/-- A control block by its type (Table 04-3): inside a frame only EOF is no framing error; outside one an EOF is ignored like
an IDLE (R144). -/
def rxControl (n p : Nat) (w : BitVec 64) (s : State) : State :=
  let l := s.lane n p
  let ty := w.extractLsb' 0 8
  if ty = 0xE1 then (if l.rx.isSome then rxEof n p (w.extractLsb' 8 32) s else s)
  else if l.rx.isSome then dropRx n p s
  else if ty = 0x78 then rxSof n p s
  else if ty = 0x1E ∨ l.skip then s
  else dropRx n p s

/-- A block arrives. An invalid sync header is counted, and inside a frame it is a framing error (R142); the search of LOCKING
then starts again, which LANE_SYNC_LOCKED ends. Frames are received while the lane is UP. -/
def rxBlock (n p : Nat) (s : State) (b : BitVec 66) : State :=
  let (hdr, w, d) := readBlock (laneCfg s n p).pol (s.lane n p).descr b
  let s := s.modLane n p fun l => { l with descr := d }
  if hdr = 0 ∨ hdr = 3 then
    let s := bump (Cnt.wkSyncErr n p) s
    if (s.lane n p).rx.isSome then dropRx n p s else s
  else if (s.lane n p).st ≠ .up then s
  else if hdr = 1 then rxData n p w s
  else rxControl n p w s

/-- A lane that searches for, or has, its block boundary receives blocks from its optics. -/
def rxBlocks (n p : Nat) (bs : List (BitVec 66)) (s : State) : State :=
  if readsBlocks s n p then bs.foldl (rxBlock n p) s else s

/-- The sync headers and payloads of successive blocks. -/
def readBlocks (pol : Bool) : BitVec 58 → List (BitVec 66) → List (BitVec 2 × BitVec 64)
  | _, [] => []
  | d, b :: r => let (h, w, d) := readBlock pol d b; (h, w) :: readBlocks pol d r

/-- LANE_ALIGNED: the lane is UP when the last 16 of the blocks that arrive are IDLE (Table 04-2). -/
def execLaneAligned (n : BitVec 3) (p : BitVec 4) (blocks : List (BitVec 66)) (s : State) : Outcome :=
  onLane n (fun n s =>
    let p := p.toNat
    let l := s.lane n p
    let last := (readBlocks (laneCfg s n p).pol l.descr blocks).reverse.take 16
    let s := rxBlocks n p blocks s
    if l.st = .align ∧ !(laneCfg s n p).src ∧ last.length = 16 ∧ last.all fun b => b.1 = 2 && b.2.extractLsb' 0 8 = 0x1E then
      s.modLane n p fun l => { l with st := .up, ref := none, skip := false }
    else s) s

/-- INVALID_SYNC_HEADER: a block arrives (R142). -/
def execInvalidSyncHeader (n : BitVec 3) (p : BitVec 4) (block : BitVec 66) (s : State) : Outcome :=
  onLane n (fun n s => rxBlocks n p.toNat [block] s) s

/-- FRAMING_ERROR_BLOCK: a block arrives (R144). -/
def execFramingErrorBlock (n : BitVec 3) (p : BitVec 4) (block : BitVec 66) (s : State) : Outcome :=
  onLane n (fun n s => rxBlocks n p.toNat [block] s) s

/-- FRAME_HEADER: the blocks up to a header arrive (R144, R149, R168). -/
def execFrameHeader (n : BitVec 3) (p : BitVec 4) (blocks : List (BitVec 66)) (s : State) : Outcome :=
  onLane n (fun n s => rxBlocks n p.toNat blocks s) s

/-- FRAME_EOF: the blocks of the hits and the EOF arrive (R144, R149). -/
def execFrameEof (n : BitVec 3) (p : BitVec 4) (blocks : List (BitVec 66)) (s : State) : Outcome :=
  onLane n (fun n s => rxBlocks n p.toNat blocks s) s

/-! ### The crossing table and the writer -/

def execHoldExpiry (n : BitVec 3) (x : BitVec 48) (s : State) : Outcome :=
  onLane n (fun n s =>
    match findX s n x with
    | none => s
    | some e =>
      if e.handle.isNone ∧ s.tb.counting ∧ e.hold.toNat + s.wk.event.lv.hold.toNat ≤ s.time.toNat then
        dropHeld Cnt.wkOrphan n e s
      else s) s

/-- FRAME_WRITE: the writer takes the oldest frame queued for an open crossing (R164, R169). -/
def execFrameWrite (n : BitVec 3) (x : BitVec 48) (s : State) : Outcome :=
  onLane n (fun n s =>
    match findX s n x with
    | none => s
    | some e =>
      match e.handle, e.frames with
      | some h, f :: r =>
        let (e, s) := writeFrame n h f { e with frames := r } s
        closeIfDone n x (putX n e s)
      | _, _ => s) s

/-! ### Maps and commits (R152–R155, R177, R178) -/

/-- The live and the shadow map are exchanged; events that are open keep the old one (R154). -/
def exchangeMaps (n : Nat) (s : State) : State :=
  mapSettled n (s.modWick n fun w => { w with
    map := w.mapSh, mapSh := w.map, mapDone := true,
    entries := w.entries.map fun e => if e.handle.isSome then { e with oldMap := true } else e })

/-- A pending exchange whose moment has come. -/
def exchangeDue (n : Nat) (s : State) : State :=
  let w := s.wick n
  if w.mapPend && !w.mapDone && w.loading.isNone then exchangeMaps n s else s

/-- A lane takes its new live configuration (Table 04-2). -/
def laneTake (n p : Nat) (o c : LaneCfg) (s : State) : State :=
  let up (s : State) : State :=
    if !c.en then s
    else s.modLane n p fun l => { l with st := if c.src then .up else .acquire, ref := none, rx := none, skip := false }
  let off (s : State) : State :=
    leaveMasks n p (s.modLane n p fun l => { l with st := .off, rx := none, skip := false })
  if (s.lane n p).st = .off then up s
  else if !c.en then off s
  else if o.src ≠ c.src then up (off s)
  else s

/-- A pending lane commit is made. -/
def lanesCommit (n : Nat) (s : State) : State :=
  let r := (s.wick n).lcfg
  if !r.pend then s
  else
    let s := s.modWick n fun w => { w with lcfg := w.lcfg.commit }
    (List.range 16).foldl
      (fun s p => laneTake n p (Tab.get LaneCfg.reset r.lv p) (Tab.get LaneCfg.reset r.sh p) s) s

def execWkLaneCommit (n : BitVec 3) (s : State) : Outcome :=
  onWick n (fun n s =>
    let s := s.modWick n fun w => { w with lcfg := w.lcfg.request }
    if s.wk.enable then s else lanesCommit n s) s

def execWkMapCommit (n : BitVec 3) (s : State) : Outcome :=
  onWick n (fun n s =>
    let s := s.modWick n fun w => { w with mapPend := true }
    if s.wk.enable then s else exchangeDue n s) s

/-- WK_MAP_LOAD: refused while MAP_COMMIT reads 1, whether a load runs or not (Table 04-14); else ignored while a load runs, and
refused where WK_MAP_SRC is not 64-byte aligned (Table 04-11). -/
def execWkMapLoad (n : BitVec 3) (s : State) : Outcome :=
  onWick n (fun n s => s.modWick n fun w =>
    if w.mapPend then { w with cfgerr := true }
    else if w.loading.isSome then w
    else if w.mapSrc.toNat % 64 ≠ 0 then { w with cfgerr := true }
    else { w with loading := some w.mapSrc }) s

/-- A map entry holds OUT_CH and EN (Table 04-6). -/
def mapBits (v : Word) : Word := v &&& 0x1FFFF

/-- A table of words by physical address, as WK_MAP_CMD.LOAD reads it: the entries that are not 0, and whether a word was
tagged neither RAW nor FIX (R153). -/
def readMap (pa : PA) : Nat → State → Tab Word × Bool × State
  | 0, s => ([], false, s)
  | k + 1, s =>
    let (t, bad, s) := readMap pa k s
    let (w, s) := physRead (pa + BitVec.ofNat 53 (4 * k)) s
    if w.ty = Ty.raw ∨ w.ty = Ty.fix then
      (if mapBits w.val = 0 then t else t ++ [(k, mapBits w.val)], bad, s)
    else (t, true, s)

/-- MAP_LOAD_DONE: the 65,536 words are in the shadow map; an exchange that waited and needs no notification is made. -/
def execMapLoadDone (n : BitVec 3) (s : State) : Outcome :=
  onWick n (fun n s =>
    match (s.wick n).loading with
    | none => s
    | some pa => withLines (fun s =>
      let (t, bad, s) := readMap pa 65536 s
      let s := s.modWick n fun w => { w with mapSh := t, maperr := w.maperr || bad, loading := none }
      if s.wk.enable then s else exchangeDue n s) s) s

/-- WK_MAP_DATA_ACCESS: a write, or a read whose value leaves; the shadow map is frozen while MAP_COMMIT reads 1 (R21). -/
def execWkMapDataAccess (n : BitVec 3) (v : Option Word) (s : State) : Outcome :=
  onWick n (fun n s =>
    let w := s.wick n
    let i := w.mapSel.toNat
    let s := match v with
      | some v => if w.mapPend then s else s.modWick n fun w => { w with mapSh := Tab.set 0 w.mapSh i (mapBits v) }
      | none => emit (.readValue (Tab.get 0 w.mapSh i)) s
    if w.autoinc then s.modWick n fun w => { w with mapSel := w.mapSel + 1 } else s) s

/-- The ranges of Table 04-11; MODE does not change while ENABLE is 1 (R177). -/
def eventOk (s : State) : Bool :=
  let e := s.wk.event.sh
  1 ≤ e.extUnits.toNat && e.extUnits.toNat ≤ 42 && 64 ≤ e.winto.toNat && 6 ≤ e.batch.toNat && e.batch.toNat ≤ 16 &&
    !(s.wk.enable && e.mode ≠ s.wk.event.lv.mode)

def execWkEventCommit (s : State) : Outcome :=
  .next (
    if eventOk s then { s with wk := { s.wk with event := s.wk.event.commit } }
    else { s with wk := { s.wk with event := s.wk.event.refuse } }.modWick 0 fun w => { w with cfgerr := true })

/-- ENABLE written 0: pending commits act at once, what is held is discarded and open events are closed (Tables 04-11,
04-14). -/
def disableWick (n : Nat) (s : State) : State :=
  let s := exchangeDue n (lanesCommit n s)
  (s.wick n).entries.foldl (fun s e =>
    match findX s n e.crossing with
    | none => s
    | some e =>
      match e.handle with
      | some h => closeEntry n h { e with frames := [] } s
      | none => dropEntry n e.crossing s) s

def execWkEnableWrite (v : Bool) (s : State) : Outcome :=
  let s := { s with wk := { s.wk with enable := v } }
  .next (if v then s else (List.range 6).foldl (fun s n => disableWick n s) s)

def execWkCntclr (n : BitVec 3) (s : State) : Outcome :=
  onWick n (fun n s =>
    let b := 0x100000 + 0x10000 * n
    let s := clearCounters (b + 0x50) (b + 0x5C) s
    let s := (List.range 16).foldl (fun s p => clearCounters (b + 0x108 + 0x40 * p) (b + 0x134 + 0x40 * p) s) s
    s.modWick n fun w => { w with bufHwm := 0 }) s

/-! ### Notes from the HUB (R158–R161) -/

/-- The note that reaches the wick next. -/
def popNote (n : Nat) (s : State) : State := s.modWick n fun w => { w with notes := w.notes.drop 1 }

/-- Lanes with live EN 1 in UP. -/
def upMask (s : State) (n : Nat) : BitVec 16 :=
  (List.range 16).foldl (fun (m : BitVec 16) p =>
    if (laneCfg s n p).en && (s.lane n p).st = .up then m ||| ((1 : BitVec 16) <<< p) else m) 0

/-- What an open notification puts into an entry (R159): the mask, and the drop flag of a listed crossing (R158). -/
def openedEntry (n : Nat) (e : XEntry) (s : State) : XEntry :=
  let mask := upMask s n
  { e with mask := mask, eoc := e.eoc &&& mask, drop := e.drop || (s.wick n).dropped.contains e.crossing }

/-- A wick that has no entry for an open event writes its HDR and root word and reports the close at once (R158, R166). -/
def reportAtOnce (n : Nat) (h : BitVec 19) (e : XEntry) (s : State) : State :=
  let (e, s) := writeHdr n h e s
  s.modWick n fun w => { w with
    reports := w.reports ++ [⟨h, 0, e.drop⟩], notices := if e.drop then w.notices ++ [h] else w.notices }

/-- The entry of a crossing becomes OPEN. -/
def entryOpens (n : Nat) (e : XEntry) (s : State) : State :=
  let e := openedEntry n e s
  let (e, s) := if e.drop then setDrop n e s else (e, s)
  closeIfDone n e.crossing (putX n e s)

/-- An open notification reaches an enabled wick, with the entry that it would make. -/
def opened (n : Nat) (h : BitVec 19) (new : XEntry) (s : State) : State :=
  let x := new.crossing
  let s := exchangeDue n (lanesCommit n s)
  let lower := (s.wick n).entries.filter fun e => e.handle.isNone && e.crossing < x
  let s := lower.foldl (fun s e => dropHeld Cnt.wkLate n e s) s
  match findX s n x with
  | some e => entryOpens n { e with handle := new.handle, home := new.home, span := new.span, virt := new.virt } s
  | none =>
    if 128 ≤ (s.wick n).entries.length then
      let s := listDropped n x (bump (Cnt.wkTableFull n) s)
      let open' := (s.wick n).lost.filter (windowOpen s)
      reportAtOnce n h { new with drop := true } (s.modWick n fun w => { w with lost := x :: open' })
    else entryOpens n new (s.modWick n fun w => { w with entries := w.entries ++ [new] })

/-- OPEN_NOTIFICATION: with ENABLE 0 the close is reported at once; after the power-fail warning nothing is written
(R159, R176). -/
def execOpenNotification (n : BitVec 3) (s : State) : Outcome :=
  onWick n (fun n s =>
    match (s.wick n).notes with
    | .opened x h home span virt :: _ =>
      let s := (popNote n s).modWick n fun w => { w with told := some x }
      let new := { XEntry.new x s.time with handle := some h, home := home, span := span, virt := virt }
      if s.pf then s else if !s.wk.enable then reportAtOnce n h (openedEntry n new s) s else opened n h new s
    | _ => s) s

/-- The entry that an open event has in a wick. -/
def openEntry (s : State) (n : Nat) (h : BitVec 19) : Option XEntry := (s.wick n).entries.find? fun e => e.handle = some h

/-- Frames are written one after the other. -/
def writeFrames (n : Nat) (h : BitVec 19) : List HeldFrame → XEntry → State → XEntry × State
  | [], e, s => (e, s)
  | f :: r, e, s => let (e, s) := writeFrame n h f e s; writeFrames n h r e s

def execWickCloseTimeout (n : BitVec 3) (s : State) : Outcome :=
  onWick n (fun n s =>
    match (s.wick n).notes with
    | .timeout h :: _ =>
      let s := popNote n s
      match openEntry s n h with
      | none => s
      | some e =>
        let (e, s) := writeFrames n h e.frames { e with frames := [] } s
        closeEntry n h e s
    | _ => s) s

def execWickCloseDecision (n : BitVec 3) (s : State) : Outcome :=
  onWick n (fun n s =>
    match (s.wick n).notes with
    | .decided h :: _ =>
      let s := popNote n s
      match openEntry s n h with
      | none => s
      | some e => closeEntry n h { e with frames := [] } (dropFrames Cnt.wkLate n e.frames s)
    | _ => s) s

/-! ### Reports to the HUB (R34, R35, R161, R205) -/

/-- A drop is noticed before the event is decided; a stale handle is refused and counted (R92). -/
def markTrunc (h : BitVec 19) (s : State) : State :=
  if s.stale h then bump Cnt.cnStaleHandle s
  else if undecided s h then s.modEvent (hSlot h) fun e => { e with trunc := true } else s

/-- All six wicks have reported: a window that is open closes, and the slot with it; the CLOSE wake-up is issued unless the
window closed because of a decision (R34, R35, R161). -/
def windowReported (h : BitVec 19) (s : State) : State :=
  let i := hSlot h
  let k := keepLoaded s
  let e := s.event i
  let s : State := { k with hub := { k.hub with windows := dropLimit h k.hub.windows } }
  let s := s.modEvent i fun e => { e with window := false }
  if e.window ∨ e.winto then
    wake 1 (fun _ => true) (some h) (TWord.fix (BitVec.ofNat 32 (e.reports.map Prod.snd).sum))
      (s.modSlot i fun t => { t with st := if t.st = .opened then .closed else t.st })
  else s

def execCloseReport (n : BitVec 3) (s : State) : Outcome :=
  onWick n (fun n s =>
    match (s.wick n).reports with
    | [] => s
    | r :: _ =>
      let s := s.modWick n fun w => { w with reports := w.reports.drop 1 }
      if s.stale r.handle then bump Cnt.cnStaleHandle s
      else
        let i := hSlot r.handle
        let s := if r.drop then markTrunc r.handle s else s
        let s := s.modEvent i fun e =>
          { e with reports := e.reports.filter (fun x => x.1 ≠ n) ++ [(n, r.hits)] }
        if (s.event i).reports.length = 6 then windowReported r.handle s else s) s

def execDropNotice (n : BitVec 3) (s : State) : Outcome :=
  onWick n (fun n s =>
    match (s.wick n).notices with
    | [] => s
    | h :: _ => markTrunc h (s.modWick n fun w => { w with notices := w.notices.drop 1 })) s

end Sys2Proof.Machine
end

