-- ==== Sys2Proof/Machine/HostDma.lean ====
section
/-! DEFINITION. Descriptors (16 R484, R494–R502, R504, R505): checks, copies, menu loads, replay and messages of the host.
A row names a ring and gives its next descriptor as fetched, and the bytes that its host reads return; fewer bytes than
LENGTH are those before a read that failed (R480). -/

namespace Sys2Proof.Machine

/-! ### Fields (Table 16-4) -/

def descOp (d : Desc) : Nat := (d.q0.extractLsb' 0 8).toNat
def descIrq (d : Desc) : Bool := d.q0.getLsbD 8
def descHint (d : Desc) : Option Lan := if d.q0.getLsbD 10 then some (d.q0.extractLsb' 11 5) else none
def descTagged (d : Desc) : Bool := d.q0.getLsbD 16
def descLen (d : Desc) : Nat := (d.q2.extractLsb' 0 32).toNat
def descPa (d : Desc) : PA := d.q3.extractLsb' 0 53
/-- Host bytes of one word. -/
def descUnit (d : Desc) : Nat := if descTagged d then 8 else 4

/-- A reserved field that is not 0; under version 1 the device writes STATUS into Q2 (R504). -/
def descReserved (s : State) (d : Desc) : Bool :=
  d.q0.extractLsb' 17 15 ≠ 0 ||
    (if s.hi.active = 1 then d.q2.extractLsb' 48 16 ≠ 0 else d.q2.extractLsb' 32 32 ≠ 0) || d.q3.extractLsb' 53 11 ≠ 0

/-- The pieces of an access to n bytes of host memory: none crosses a 4 KiB boundary or is longer than a limit (R480). Each
piece has a byte or more, so that as many pieces as bytes are enough. -/
def piecesFrom (limit a n : Nat) : Nat → List (Nat × Nat)
  | 0 => []
  | fuel + 1 =>
    if n = 0 then []
    else
      let k := min n (min limit (4096 - a % 4096))
      (a, k) :: piecesFrom limit (a + k) (n - k) fuel

def pieces (limit a n : Nat) : List (Nat × Nat) := piecesFrom limit a n n

/-- Read requests for n bytes of host memory, of the maximum read request size at most (R480). -/
def hostReads (a : BitVec 64) (n : Nat) (s : State) : State :=
  if pcieUp s then
    (pieces (128 * 2 ^ s.hi.pcie.mrrs.toNat) a.toNat n).foldl (fun s p => emit (.hostRead (BitVec.ofNat 64 p.1) p.2) s) s
  else s

/-- Posted writes of bytes, of the maximum payload size at most (R480). -/
def hostWrites (a : BitVec 64) (l : List Byte) (s : State) : State :=
  (pieces (128 * 2 ^ s.hi.pcie.mps.toNat) a.toNat l.length).foldl (fun s p =>
    hostWrite (BitVec.ofNat 64 p.1) ((l.drop (p.1 - a.toNat)).take p.2) s) s

/-- A write of a line is under way: it waits, or its transaction does (R505). -/
def writeUnderWay (s : State) (ln : Nat) : Bool :=
  let writes (k : HomeKind) : Bool := match k with | .uncached _ _ | .hinted _ _ _ => true | _ => false
  (s.bl.homeWait.any fun q => q.line = ln && q.req.node = s.node && writes q.kind) ||
    s.bl.txns.any fun t => t.line = ln && t.req.node = s.node && writes t.kind

/-- The completion of a descriptor, and of those that follow it on a ring that drains (R489). -/
def endGoing (n : Nat) (g : Going) (s : State) : State :=
  let s := s.modRing n fun x => { x with going := none }
  let s := complete n g.irq g.status g.detail (BitVec.ofNat 32 g.done) s
  if (s.ring n).st = .draining then abortAll n g.aborts s else s

/-- A descriptor in progress completes once its words are performed and its message is taken (R500, R505); with its row. -/
def goOn (n : Nat) (g : Going) (s : State) : State :=
  if g.msg || (g.lines.any fun ln => writeUnderWay s ln) then s else endGoing n g s

/-- Runs the next descriptor of a ring: the ring is RUNNING, the descriptor is posted, and power has not failed (R489,
R510). The device fetches it, and its row runs it. A descriptor in progress goes on when its row comes again. -/
def runDesc (r : BitVec 10) (d : Desc) (op : Nat) (f : Nat → State → State) (s : State) : Outcome :=
  let n := r.toNat
  let x := s.ring n
  .next (
    if descOp d ≠ op ∨ !pcieUp s then s
    else
      match x.going with
      | some g => goOn n g s
      | none =>
        if x.st = .running ∧ x.fromHost ∧ 0 < x.used then
          let bytes := if s.hi.active = 1 then 32 else 64
          f n (hostReads (x.rbase + BitVec.ofNat 64 (bytes * (x.cons % x.size))) bytes s)
        else s)

/-- The completion of a descriptor. -/
def endDesc (n : Nat) (d : Desc) (status detail : BitVec 16) (done : Nat) (s : State) : State :=
  endGoing n ⟨descIrq d, status, detail, done, [], false, []⟩ s

/-- The completion of a descriptor that has written words: it waits for those that are not yet performed (R505). -/
def endWrites (n : Nat) (d : Desc) (status detail : BitVec 16) (done : Nat) (pa : PA) (words : Nat) (s : State) : State :=
  let first := pa.toNat / 64
  let lines := (List.range ((pa.toNat + 4 * words + 63) / 64 - first)).map (first + ·)
  let g : Going := ⟨descIrq d, status, detail, done, lines.filter fun ln => writeUnderWay s ln, false, []⟩
  goOn n g (s.modRing n fun x => { x with going := some g })

/-- Host data as a command brings it: the bytes that the reads return, and, where they are fewer than LENGTH, whether the read
that failed was answered by a poisoned completion (R480, R497). -/
def noteData (n : Nat) (d : Desc) (data : List Byte) (poisoned : Bool) (s : State) : State :=
  let s := hostReads d.q1 (descLen d) s
  if poisoned ∧ data.length < descLen d then aerPoison (s.ring n).func.toNat s else s

/-- The aperture of the ring's function (R484). -/
def inAperture (s : State) (n a bytes : Nat) : Bool :=
  let v := (s.ring n).func.toNat
  v = 0 ||
    (let lo := (Tab.get 0 s.hi.vfapLo v).toNat * 0x100000
     let hi := lo + (Tab.get 0 s.hi.vfapHi v).toNat * 0x100000
     lo ≤ a && a + bytes ≤ hi)

/-- A device range that a descriptor may name: aligned, on this node, in the tagged data region and in the aperture. -/
def rangeOk (s : State) (n align : Nat) (pa : PA) (bytes : Nat) : Bool :=
  pa.toNat % align = 0 && nodeOf pa = s.node && localOf pa + bytes ≤ sidecarBase s.build && inAperture s n (localOf pa) bytes

/-- The first checks of Table 16-6: BAD_OP, ZERO_LEN, BAD_LEN, BAD_ADDR. -/
def checkDesc (s : State) (d : Desc) (opOk : Bool) (limit : Nat) (addrOk : Bool) : Option (BitVec 16) :=
  if !opOk || descReserved s d then some 2
  else if descLen d = 0 then some 1
  else if limit < descLen d ∨ descLen d % descUnit d ≠ 0 then some 3
  else if !addrOk then some 4
  else none

/-! ### Words of host data (R497) -/

/-- The word in 4 bytes, RAW, or in 8 bytes with TYPE and IMM from its tag byte. The home agent keeps MARK, and IMM unless the
copy is TAGGED (02 R74). -/
def hostWord (tagged : Bool) (l : List Byte) : MWord :=
  if tagged then
    let t : Byte := BitVec.ofNat 8 (leAt l 4 1)
    ⟨t.setWidth 6, t.getLsbD 6, false, wordAt l 0⟩
  else rawM (wordAt l 0)

/-- A TYPE that Table 02-7 allows at SUPERVISOR. -/
def hostTypeOk (t : Ty) : Bool := storable 1 true t

/-- Words of host data up to the first whose TYPE is refused; whether one was. -/
def hostWords (tagged : Bool) : Nat → List Byte → List MWord × Bool
  | 0, _ => ([], false)
  | n + 1, l =>
    let u := if tagged then 8 else 4
    if l.length < u then ([], false)
    else
      let w := hostWord tagged l
      if !hostTypeOk w.ty then ([], true)
      else
        let (r, bad) := hostWords tagged n (l.drop u)
        (w :: r, bad)

/-! ### NOP, COPY_IN, COPY_OUT -/

/-- The opcodes that have a row of their own. -/
def knownOps : List Nat := [0x01, 0x02, 0x04, 0x10, 0x20]

/-- DESCRIPTOR_NOP: NOP completes OK on a command ring; an opcode of no row completes BAD_OP (R495). -/
def execDescriptorNop (r : BitVec 10) (d : Desc) (s : State) : Outcome :=
  if knownOps.contains (descOp d) then .next s
  else
    runDesc r d (descOp d) (fun n s =>
      if descOp d = 0 ∧ (s.ring n).ty = 0 ∧ d.q0.extractLsb' 17 15 = 0 then endDesc n d 0 0 0 s else endDesc n d 2 0 0 s) s

def execCopyIn (r : BitVec 10) (d : Desc) (data : List Byte) (poisoned : Bool) (s : State) : Outcome :=
  runDesc r d 0x01 (fun n s =>
    let words := descLen d / descUnit d
    match checkDesc s d ((s.ring n).ty = 0) 0x4000000 (rangeOk s n 4 (descPa d) (4 * words)) with
    | some e => endDesc n d e 0 0 s
    | none =>
      let s := noteData n d data poisoned s
      let (ws, bad) := hostWords (descTagged d) words data
      let s := agentRun (!descTagged d) (descHint d) (descPa d) [] ws s
      let finish (status detail : BitVec 16) (done : Nat) : State :=
        endWrites n d status detail done (descPa d) ws.length s
      if bad then finish 7 (BitVec.ofNat 16 ws.length) (ws.length * descUnit d)
      else if data.length < descLen d then finish 6 0 data.length
      else finish 0 0 (descLen d)) s

/-- The bytes of a word as COPY_OUT delivers it (R498). -/
def outBytes (tagged : Bool) (w : MWord) : List Byte :=
  if tagged then wordBytes w.val ++ [w.tag, 0, 0, 0] else wordBytes w.val

/-- COPY_OUT; fail: the bytes written before a host write that failed. -/
def execCopyOut (r : BitVec 10) (d : Desc) (fail : Option Word) (s : State) : Outcome :=
  withLinesO (runDesc r d 0x02 fun n s =>
    let words := descLen d / descUnit d
    match checkDesc s d ((s.ring n).ty = 0) 0x4000000 (rangeOk s n 4 (descPa d) (4 * words)) with
    | some e => endDesc n d e 0 0 s
    | none =>
      let (ws, s) := physReads (descPa d) words s
      let bytes := ws.flatMap (outBytes (descTagged d))
      match fail with
      | none => endDesc n d 0 0 (descLen d) (hostWrites d.q1 bytes s)
      | some k => endDesc n d 6 0 k.toNat (hostWrites d.q1 (bytes.take k.toNat) s)) s

/-! ### MENU_LOAD (R501, R502) -/

/-- A menu image's header (Table 16-7). -/
structure MenuHeader where
  magic : Nat
  format : Nat
  reserved : Bool
  version : Nat
  cbkey : Nat
  cbver : Nat
  tmpls : Nat
  nsect : Nat
  tmploff : Nat
  span : Nat
  grow : Nat

def menuHeader (l : List Byte) : MenuHeader :=
  { magic := leAt l 0 4, format := leAt l 4 1, reserved := leAt l 5 1 ≠ 0 || leAt l 0x1A 38 ≠ 0, version := leAt l 6 2,
    cbkey := leAt l 8 2, cbver := leAt l 0x0A 2, tmpls := leAt l 0x0C 2, nsect := leAt l 0x0E 2, tmploff := leAt l 0x10 4,
    span := leAt l 0x14 4, grow := leAt l 0x18 2 }

/-- Bytes of the load region; a format-2 image has a stub for each template (R502). -/
def menuRegion (h : MenuHeader) : Nat := h.span + if h.format = 2 then 16 * h.tmpls else 0

/-- The sections of an image from a byte offset on: their OFF and where their words lie, or the index of a bad one. -/
def menuSections (h : MenuHeader) (l : List Byte) : Nat → Nat → Nat → Sum Nat (List (Nat × Nat × Nat) × Nat)
  | 0, _, o => .inr ([], o)
  | n + 1, i, o =>
    let off := leAt l o 4
    let words := leAt l (o + 4) 4
    if off % 4 ≠ 0 ∨ h.span < off + 4 * words ∨ l.length < o + 8 + 8 * words then .inl i
    else
      match menuSections h l n (i + 1) (o + 8 + 8 * words) with
      | .inl k => .inl k
      | .inr (r, e) => .inr ((off, o + 8, words) :: r, e)

/-- Step 1: the sections, or DETAIL of the first failed check. -/
def menuCheck (s : State) (h : MenuHeader) (l : List Byte) : Sum (BitVec 16) (List (Nat × Nat × Nat)) :=
  if h.magic ≠ 0x554E454D ∨ !(h.format = 2 ∨ (h.format = 3 ∧ s.hi.active ≠ 1)) ∨ h.reserved ∨ 256 < h.grow ∨ h.nsect = 0 ∨
      64 < h.nsect ∨ h.span % 64 ≠ 0 ∨ 256 < h.tmpls ∨ h.tmploff % 32 ≠ 0 ∨ h.span < h.tmploff + 32 * h.tmpls then
    .inl 0xFFFF
  else
    match menuSections h l h.nsect 0 64 with
    | .inl i => .inl (BitVec.ofNat 16 i)
    | .inr (r, e) => if e = l.length then .inr r else .inl 0xFFFF

/-- Step 2: MCVER word 2 of every core. -/
def menuBankOk (s : State) (h : MenuHeader) : Bool :=
  h.cbkey = 0 ||
    (List.range 256).all fun k =>
      let b := (s.core (BitVec.ofNat 8 k)).uc.live
      b.valid && b.keyid.toNat = h.cbkey && h.cbver ≤ b.version.toNat

/-- The load region overlaps the live template table or an enabled bank. -/
def menuBusy (s : State) (pa : PA) (bytes : Nat) : Bool :=
  let a := localOf pa
  let meets (lo len : Nat) : Bool := a < lo + len && lo < a + bytes
  let m := s.ll.menu.lv
  (nodeOf m.tmplBase = s.node && meets (localOf m.tmplBase) (32 * m.tmpls.toNat)) ||
    (List.range 24).any fun n => let b := s.cn.bank n; b.en && meets (b.base.toNat * 0x100000) (b.size * 0x100000)

/-- Step 3: the sections in order; n words have been written. Answers the words written and whether one was refused. -/
def menuCopy (hint : Option Lan) (pa : PA) (l : List Byte) : List (Nat × Nat × Nat) → Nat → State → (Nat × Bool) × State
  | [], n, s => ((n, false), s)
  | (off, at_, words) :: r, n, s =>
    let (ws, bad) := hostWords true words (l.drop at_)
    let s := agentRun false hint (pa + BitVec.ofNat 53 off) [] ws s
    if bad then ((n + ws.length, true), s) else menuCopy hint pa l r (n + words) s

/-- The word of an image that the copy leaves at a byte offset of the load region: of the last section that covers it. -/
def menuWord (l : List Byte) (sects : List (Nat × Nat × Nat)) (off : Nat) : MWord :=
  match sects.reverse.find? fun (e : Nat × Nat × Nat) => e.1 ≤ off && off < e.1 + 4 * e.2.2 with
  | some (o, at_, _) => lineWord (hostWords true 1 (l.drop (at_ + 2 * (off - o)))).1 0
  | none => MWord.unset

/-- CSTAT as the stub leaves it: as at first dispatch (07 Table 07-12), with MODE 1; ZBANK counts above USER only. -/
def stubCstat (v : Word) : Word :=
  let priv : BitVec 2 := v.extractLsb' 5 2
  let level : BitVec 2 := if v.extractLsb' 0 3 = 1 then 1 else v.extractLsb' 3 2
  { Cstat.reset with priv := priv, ie := true, mode := true, zbank := if priv = 0 then 0 else level }.pack

/-- A word of code from two halfwords. -/
def codePair (a b : BitVec 16) : MWord := rawM (b ++ a)

/-- The stub of a template at a virtual address, which writes CSTAT with MODE 1 and jumps to the original entry. One that keeps
ZBANK: MOVQ g0, ZBANK; SHI g0 to its place; ADDQ g0, the low bits of CSTAT; MTC CSTAT, g0; and, in the shadow of the mode change
(R293), BR. The other, where ZBANK is 0 or BR does not reach: MOVQ g0, the low bits of CSTAT; MTC CSTAT, g0; NOP in the shadow;
and J, in Zekief mode. Rule R502 does not give the code of the stub: these words are the model's (DESIGN CHOICE, log entry 85).
Only an entry out of the reach of J, in a load region of more than 128 MiB, leaves its word free. -/
def stubWords (at_ entry cs : Word) (s : State) : List MWord × State :=
  let mtc := encR 0x2C 0 24 0 1
  let bank := cs.extractLsb' 23 2
  let br := (entry - (at_ + 12)).sshiftRight 1
  let j := (entry - (at_ + 8)).sshiftRight 2
  let low : BitVec 5 := cs.setWidth 5
  if bank ≠ 0 ∧ (br.setWidth 20).signExtend 32 = br then
    let shi := encR 0x06 24 24 23 0
    ([codePair (encS 0x7 24 (bank.setWidth 5)) (shi.setWidth 16), codePair (shi.extractLsb' 16 16) (encS 0x6 24 low), rawM mtc,
      rawM (encB 0x18 (br.setWidth 20))], s)
  else
    let (w, s) := if (j.setWidth 26).signExtend 32 = j then (encZJ 0x09 (j.setWidth 26), s) else s.draw
    ([codePair (encS 0x7 24 low) (mtc.setWidth 16), codePair (mtc.extractLsb' 16 16) (encS 0xC 0 0), rawM w, rawM 0], s)

/-- The shim of n templates: a stub for each, and its CODE word, which names the stub (R502); base: the virtual address of the
load region. -/
def menuShim (hint : Option Lan) (pa : PA) (h : MenuHeader) (l : List Byte) (sects : List (Nat × Nat × Nat)) (base : Word) :
    Nat → State → State
  | 0, s => s
  | n + 1, s =>
    let s := menuShim hint pa h l sects base n s
    let t := h.tmploff + 32 * n
    let at_ := base + BitVec.ofNat 32 (h.span + 16 * n)
    let (ws, s) := stubWords at_ (menuWord l sects (t + 4)).val (stubCstat (menuWord l sects (t + 8)).val) s
    let s := agentRun false hint (pa + BitVec.ofNat 53 (h.span + 16 * n)) [] ws s
    agentRun false hint (pa + BitVec.ofNat 53 (t + 4)) [] [⟨Ty.code, false, false, at_⟩] s

/-- The shim of an image of format 2. The virtual address of the load region is not stated: it has the offset of DEVADDR in its
page and is such that the entry of template 0 lies in the region, and free beyond that (log entries 1 and 85). -/
def runShim (d : Desc) (h : MenuHeader) (l : List Byte) (sects : List (Nat × Nat × Nat)) (s : State) : State :=
  let (k, s) := s.pick (h.span / 0x400)
  let entry := (menuWord l sects (h.tmploff + 4)).val
  let near := (entry &&& 0xFFFFFC00) ||| ((descPa d).setWidth 32 &&& 0x3FF)
  let base := (if entry < near then near - 0x400 else near) - BitVec.ofNat 32 (0x400 * k)
  menuShim (descHint d) (descPa d) h l sects base h.tmpls s

def execMenuLoad (r : BitVec 10) (d : Desc) (data : List Byte) (poisoned : Bool) (s : State) : Outcome :=
  runDesc r d 0x04 (fun n s =>
    let h := menuHeader data
    let region := if data.length < 64 then 4 else menuRegion h
    match checkDesc s d ((s.ring n).ty = 0) 0x10000000 (rangeOk s n 64 (descPa d) region) with
    | some e => endDesc n d e 0 0 s
    | none =>
      if menuBusy s (descPa d) region then endDesc n d 5 0 0 s
      else
        let s := noteData n d data poisoned s
        if data.length < descLen d then endDesc n d 6 0 data.length s
        else
          match menuCheck s h (data.take (descLen d)) with
          | .inl e => endDesc n d 8 e 0 s
          | .inr sects =>
            if !menuBankOk s h then endDesc n d 9 0 0 s
            else
              let s := agentRun false (descHint d) (descPa d) [] (List.replicate (region / 4) MWord.unset) s
              let (c, s) := menuCopy (descHint d) (descPa d) data sects 0 s
              if c.2 then endWrites n d 7 (BitVec.ofNat 16 c.1) (8 * c.1) (descPa d) (region / 4) s
              else
                let s := if h.format = 2 then runShim d h data sects s else s
                endWrites n d 0 (BitVec.ofNat 16 h.version) (descLen d) (descPa d) (region / 4) s) s

/-! ### REPLAY (R499; 04 R172, R173) -/

/-- The 64-bit words of host data. -/
def wideWords : Nat → List Byte → List (BitVec 64)
  | 0, _ => []
  | n + 1, l => if l.length < 8 then [] else BitVec.ofNat 64 (leAt l 0 8) :: wideWords n (l.drop 8)

/-- The header and hit words of a frame image enter the lane. -/
def rxImage (n p : Nat) (header hits : List (BitVec 64)) (s : State) : State :=
  let s := header.foldl (fun s w => rxData n p w s) (rxSof n p s)
  s.modLane n p fun l => { l with rx := l.rx.map fun (f : RxFrame) => { f with hits := hits } }

/-- Frame images packed back to back: header words by the image's own format, hits and a trailer. An image that ends the
buffer early counts as LEN, and so does one of more than 1,024 hits, which ends the buffer. -/
def replayImages (n p : Nat) : Nat → List (BitVec 64) → State → State
  | 0, _, s => s
  | _, [], s => s
  | k + 1, h0 :: rest, s =>
    let fmt2 := if h0.extractLsb' 48 4 = 1 then false else if h0.extractLsb' 48 4 = 2 then true else (laneCfg s n p).fmt
    match headerFields fmt2 (some h0) rest.head? with
    | none => bump (Cnt.wkLen n p) s
    | some (_, nhits, _) =>
      let body := if fmt2 then rest.drop 1 else rest
      if 1024 < nhits ∨ body.length < nhits + 1 then bump (Cnt.wkLen n p) s
      else
        let s := rxImage n p (h0 :: (if fmt2 then rest.take 1 else [])) (body.take nhits) s
        let s := rxEof n p ((body.getD nhits 0).extractLsb' 0 32) s
        replayImages n p k (body.drop (nhits + 1)) s

def execReplay (r : BitVec 10) (d : Desc) (data : List Byte) (poisoned : Bool) (s : State) : Outcome :=
  runDesc r d 0x10 (fun n s =>
    let w := (d.q4.extractLsb' 0 3).toNat
    let p := (d.q4.extractLsb' 4 4).toNat
    if (s.ring n).ty ≠ 1 ∨ descReserved s d ∨ 5 < w then endDesc n d 2 0 0 s
    else if descLen d = 0 then endDesc n d 1 0 0 s
    else if 0x1000000 < descLen d ∨ descLen d % 8 ≠ 0 then endDesc n d 3 0 0 s
    else if !(laneCfg s w p).src then endDesc n d 5 0 0 s
    else
      let words := wideWords (descLen d / 8) data
      let s := noteData n d data poisoned s
      let s := replayImages w p words.length words s
      if data.length < descLen d then endDesc n d 6 0 data.length s else endDesc n d 0 0 (descLen d) s) s

/-! ### SEND (R500) -/

/-- SEND: the message takes a place in the host's send path, which holds 8, and waits for one while it is full; the descriptor
completes when the message has been taken. -/
def execSend (r : BitVec 10) (d : Desc) (data : List Byte) (poisoned : Bool) (s : State) : Outcome :=
  runDesc r d 0x20 (fun n s =>
    let (ws, bad) := hostWords true (descLen d / 8) data
    let h := hostWord true data
    if (s.ring n).ty ≠ 4 ∨ descReserved s d then endDesc n d 2 0 0 s
    else if descLen d = 0 then endDesc n d 1 0 0 s
    else if 512 < descLen d ∨ !descTagged d ∨ descLen d % 8 ≠ 0 then endDesc n d 3 0 0 s
    else
      let s := noteData n d data poisoned s
      if data.length < descLen d then endDesc n d 6 0 data.length s
      else if h.ty ≠ Ty.hdr then endDesc n d 7 0 0 s
      else if descLen d ≠ 8 * (hdrLen h.val + 1) then endDesc n d 3 0 0 s
      else if bad then endDesc n d 7 (BitVec.ofNat 16 ws.length) 0 s
      else if 8 ≤ s.hi.sendq.length then s
      else
        let m : SendMsg :=
          { node := d.q4.extractLsb' 16 16, ring := d.q4.extractLsb' 0 10, crossing := none, ty := Ty.vec,
            words := ws.map fun w => remoteForm w.t, owner := none, ctx := 0 }
        let s := { s with hi := { s.hi with sendq := s.hi.sendq ++ [(n, m)] } }
        s.modRing n fun x => { x with going := some ⟨descIrq d, 0, 0, descLen d, [], true, []⟩ }) s

/-- A message leaves as one packet. -/
def sendMsg (m : SendMsg) (s : State) : State := bump Cnt.blMsgTx (post m.node 0 0x40 (msgHead s m) m.words s)

/-- MSG_SEND_TAKE: the oldest message of a core's send buffer, or of the host's send path, becomes one packet; none after the
power-fail warning (09 R318; 14 R451). A SEND completes then (R500). -/
def execMsgSendTake (k : Option CoreId) (s : State) : Outcome :=
  .next (
    if s.pf then s
    else
      match k with
      | some k =>
        match (s.core k).send with
        | [] => s
        | m :: r => sendMsg m (s.modCore k fun x => { x with send := r })
      | none =>
        match s.hi.sendq with
        | [] => s
        | (n, m) :: r =>
          let s := sendMsg m { s with hi := { s.hi with sendq := r } }
          match (s.ring n).going with
          | some g => if g.msg then endGoing n { g with msg := false } s else s
          | none => s)

end Sys2Proof.Machine
end

