-- ==== Sys2Proof/Machine/Maint.lean ====
section
/-! DEFINITION. Cache, TLB and ordering maintenance (09 Table 09-12; 08 R287; 12 R400; 13 R409, R423), and the drains of a
core's buffers (03 R115, R116; 13 R406, R407). -/

namespace Sys2Proof.Machine

/-! ### Lines of the lantern -/

/-- Range clean of one line in the L2 (Table 13-3): M becomes E and O becomes S, with a write-back that names the state that
the holder keeps (log entry 49). -/
def cleanLine (l : Lan) (ln : Nat) (s : State) : State :=
  let s := meetL2 l ln s
  let x := s.l2 l ln
  let clean (st : Moesi) : State :=
    let s := setL2 l ln { x with st := st } s
    if lineNode ln = s.node then homeWriteBack ⟨s.node, l⟩ ln x.words st s
    else post (lineNode ln) (keepTx st) 0x04 (paWords (linePa ln)) x.words s
  match x.st with
  | .M => clean .E
  | .O => clean .S
  | _ => s

/-- Range invalidate of one line in the L2: discarded with no write-back; its home is told by an eviction notice. -/
def discardLine (l : Lan) (ln : Nat) (s : State) : State :=
  if (s.l2 l ln).st = .I then s
  else
    let s := invalidate l ln s
    if lineNode ln = s.node then homeNotice ⟨s.node, l⟩ ln s
    else post (lineNode ln) 0 0x05 (paWords (linePa ln) ++ [lanWord l]) [] s

/-- The line that a maintenance instruction names, and the word of it; lines outside the tagged data have no copies. -/
def lineAt (c : CtxId) (kind : AccKind) (va : Word) (s : State) : Res (Option (Nat × Nat)) :=
  (translate c kind va s).bind fun pa s =>
    match regionOf s pa with
    | .data => (checkOwner c va pa s).bind fun _ s => .ok (some (lineNo pa, pa.toNat / 4 % 16)) s
    | _ => .ok none s

/-- An instruction on the line at rs, after the core's pending words of the line. -/
def lineOp (kind : AccKind) (drain : Bool) (rs : R5) (f : Nat → State → State) (c : CtxId) (s : State) : Res Flow :=
  let b := opnd c rs s
  (checkBase (privOf c s) b s).bind fun _ s =>
    (lineAt c kind b.val s).bind fun o s =>
      match o with
      | none => .ok .next s
      | some (ln, i) =>
        (if drain && ((s.core (coreOf c)).merge.any fun m => m.line = ln) then drainLine c ln i s else .ok () s).bind
          fun _ s => .ok .next (f ln s)

def execClean (iss : Iss) (rs : R5) (s : State) : Outcome :=
  run { formR 0x28 0 0 rs 0 with names := [rs] } iss (fun c s => lineOp .load true rs (cleanLine (lanOf c)) c s) s
def execInv (iss : Iss) (rs : R5) (s : State) : Outcome :=
  run { formR 0x28 1 0 rs 0 with names := [rs] } iss
    (fun c s => (needPriv c s).bind fun _ s => lineOp .store true rs (discardLine (lanOf c)) c s) s
def execClinv (iss : Iss) (rs : R5) (s : State) : Outcome :=
  run { formR 0x28 2 0 rs 0 with names := [rs] } iss (fun c s => lineOp .store true rs (evict (lanOf c)) c s) s
def execIinv (iss : Iss) (rs : R5) (s : State) : Outcome :=
  run { formR 0x28 3 0 rs 0 with names := [rs] } iss
    (fun c s => lineOp .load false rs
      (fun ln s => s.modCore (coreOf c) fun k => { k with l1i := l1Drop k.l1i ln }) c s) s

/-! ### Range operations (R423) -/

/-- A CRNG joins its lantern's engine; it waits while an earlier range runs, and at issue while 8 wait (Table 13-6). -/
def rangeBody (op : RangeOp) (rs rt : R5) (c : CtxId) (s : State) : Res Flow :=
  let b := opnd c rs s
  let n := opnd c rt s
  (if op = .invalidate then needPriv c s else .ok () s).bind fun _ s =>
    (checkBase (privOf c s) b s).bind fun _ s =>
      (checkFix n s).bind fun _ s =>
        if n.val.getLsbD 31 then trapW Cause.badPayload n s
        else if n.val = 0 then .ok .next s
        else if 9 ≤ (s.lan (lanOf c)).ranges.length then .wait .range s
        else
          let x := s.ctx c
          let busy := decide ((s.lan (lanOf c)).ranges ≠ [])
          let s := s.modLan (lanOf c) fun l =>
            { l with ranges := l.ranges ++ [⟨c, x.asid, x.cstat.priv, b.val, n.val.toNat, op⟩] }
          .ok (if busy then .away .stalled .range else .next) s

def execCrngClean (iss : Iss) (rs rt : R5) (s : State) : Outcome :=
  run { formR 0x29 0 0 rs rt with names := [rs, rt] } iss (rangeBody .clean rs rt) s
def execCrngInvalidate (iss : Iss) (rs rt : R5) (s : State) : Outcome :=
  run { formR 0x29 1 0 rs rt with names := [rs, rt] } iss (rangeBody .invalidate rs rt) s
def execCrngCleanInvalidate (iss : Iss) (rs rt : R5) (s : State) : Outcome :=
  run { formR 0x29 2 0 rs rt with names := [rs, rt] } iss (rangeBody .cleanInvalidate rs rt) s

/-- One line of a range. -/
def rangeLine (l : Lan) (op : RangeOp) (ln : Nat) (s : State) : State :=
  match op with
  | .clean => cleanLine l ln s
  | .invalidate => dropL1i l ln (dropL1d l ln (discardLine l ln s))
  | .cleanInvalidate => dropL1i l ln (dropL1d l ln (evict l ln s))

/-- One past the page of an address that could not be translated: that of its leaf, or 1 KiB where the walk finds none. -/
def badEnd (r : RangeReq) (va : Word) (s : State) : Nat :=
  let l := (s.core (coreOf r.ctx)).dtlb
  let size := match l.find? fun t => t.hits r.asid va with
    | some t => t.size
    | none => match (walkPath (some (lanOf r.ctx)) r.asid va s).2 with | some f => f.size | none => 10
  (va.toNat / 2 ^ size + 1) * 2 ^ size

/-- The lines of a range with their pages translated, n from va; the lines below skip lie in a page that has been skipped
and counted (R423). A walk that waits for another node ends the list early. -/
def rangeLines (r : RangeReq) : Nat → Word → Nat → State → Res (List Nat)
  | 0, _, _, s => .ok [] s
  | n + 1, va, skip, s =>
    if va.toNat < skip then rangeLines r n (va + 64) skip s
    else
      let kind : AccKind := if r.op = .clean then .load else .store
      (xlate (coreOf r.ctx) r.asid r.priv kind va s).bind fun o s =>
        match o with
        | .inl _ => rangeLines r n (va + 64) (badEnd r va s) (bump Cnt.ccRskip s)
        | .inr pa =>
          (rangeLines r n (va + 64) skip s).bind fun ls s => .ok (if regionOf s pa = .data then lineNo pa :: ls else ls) s

/-- Lines that a range touches. -/
def rangeCount (base : Word) (len : Nat) : Nat := (base.toNat % 64 + len + 63) / 64

/-- Contexts of a lantern that wait for its range engine go on, but for those whose own range still waits. -/
def wakeRange (l : Lan) (s : State) : State :=
  let waits := ((s.lan l).ranges.drop 1).map RangeReq.ctx
  ((coresOf l).flatMap ctxsOf).foldl (fun s c =>
    if (s.ctx c).st = .stalled ∧ (s.ctx c).stall = .range ∧ !waits.contains c then wakeCtx c s else s) s

/-- The engine has carried out the range at its head; the next one starts (R423). While a walk waits for a line of another
node the range has not ended. -/
def execRangeOpDone (l : Lan) (s : State) : Outcome :=
  .next (match (s.lan l).ranges with
    | [] => s
    | r :: rest =>
      match rangeLines r (rangeCount r.base r.len) (r.base &&& 0xFFFFFFC0) 0 s with
      | .ok ls t => wakeRange l ((ls.foldl (fun s ln => rangeLine l r.op ln s) t).modLan l fun x => { x with ranges := rest })
      | .wait _ t => { t with cnt := s.cnt }
      | .trap _ t => t)

/-- CSYNC waits until the engine is idle. -/
def execCsync (iss : Iss) (s : State) : Outcome :=
  run (formZero 0x29 3) iss
    (fun c s => if (s.lan (lanOf c)).ranges = [] then .ok .next s else .wait .range s) s

/-! ### TLBs and walk caches (R320, R395, R400) -/

/-- Every core and Taper TLB of the node keeps the entries that satisfy a test. -/
def keepTlbs (keep : Tlb → Bool) (s : State) : State :=
  { s with
    cores := s.cores.map fun e => (e.1, { e.2 with dtlb := e.2.dtlb.filter keep, itlb := e.2.itlb.filter keep }),
    tp := { s.tp with engines := s.tp.engines.map fun e => (e.1, { e.2 with tlb := e.2.tlb.filter keep }) } }

/-- Every walk cache keeps the entries that satisfy a test. -/
def keepWcs (keep : WcEnt → Bool) (s : State) : State :=
  { s with lans := s.lans.map fun e => (e.1, { e.2 with wc := e.2.wc.filter keep }) }

/-- A FIX ASID of 0–4,095 (R319). -/
def checkAsid (w : TWord) (s : State) : Res (BitVec 12) :=
  (checkFixTo 4095 w s).bind fun _ s => .ok (w.val.setWidth 12) s

def tlbBody (f : Word → BitVec 12 → State → State) (rs rt : R5) (c : CtxId) (s : State) : Res Flow :=
  let b := opnd c rs s
  (needPriv c s).bind fun _ s =>
    (checkBase (privOf c s) b s).bind fun _ s =>
      (checkAsid (opnd c rt s) s).bind fun a s => .ok .next (f b.val a s)

def execTlbinv (iss : Iss) (rs rt : R5) (s : State) : Outcome :=
  run { formR 0x2A 0 0 rs rt with names := [rs, rt] } iss (tlbBody (fun va a => keepTlbs fun t => !t.hits a va) rs rt) s
def execTlbasid (iss : Iss) (rt : R5) (s : State) : Outcome :=
  run { formR 0x2A 1 0 0 rt with names := [rt] } iss
    (fun c s => (needPriv c s).bind fun _ s =>
      (checkAsid (opnd c rt s) s).bind fun a s =>
        .ok .next (keepWcs (fun e => e.asid ≠ a) (keepTlbs (fun t => t.g || t.asid ≠ a) s))) s
def execTlball (iss : Iss) (s : State) : Outcome :=
  run (formZero 0x2A 2) iss
    (fun c s => (needPriv c s).bind fun _ s => .ok .next (keepTlbs (fun _ => false) s)) s
def execWcinv (iss : Iss) (rs rt : R5) (s : State) : Outcome :=
  run { formR 0x2A 3 0 rs rt with names := [rs, rt] } iss
    (tlbBody (fun va a => keepWcs fun e => !(e.asid = a && e.region = va.extractLsb' 22 10)) rs rt) s
def execWcall (iss : Iss) (s : State) : Outcome :=
  run (formZero 0x2A 4) iss
    (fun c s => (needPriv c s).bind fun _ s => .ok .next (keepWcs (fun _ => false) s)) s

/-! ### Ordering (R287) -/

/-- FENCE: earlier stores are performed before later accesses; loads have been performed at issue (log entry 12). -/
def execFence (iss : Iss) (m : BitVec 4) (s : State) : Outcome :=
  run { formR 0x2B 0 0 0 ((0 : BitVec 1) ++ m) with names := [] } iss
    (fun c s =>
      if m.getLsbD 2 || m.getLsbD 3 then (drainAll c 8 s).bind fun _ s => .ok .next s else .ok .next s) s
/-- IFENCE: the whole L1 I of the core is invalidated, after the core's stores (R409). -/
def execIfence (iss : Iss) (s : State) : Outcome :=
  run (formZero 0x2B 1) iss
    (fun c s => (drainAll c 8 s).bind fun _ s => .ok .next (s.modCore (coreOf c) fun k => { k with l1i := [] })) s

/-! ### Drains of a core's buffers -/

/-- The oldest merging-buffer entry is written into the L2 (R406); uncorr: the entry has an uncorrectable error, and the
words it wrote become POISON source 3 (Table 13-1). -/
def execMergeBufferDrain (k : CoreId) (uncorr : Bool) (s : State) : Outcome :=
  .next (match (s.core k).merge with
    | [] => s
    | m :: _ =>
      match acquire (lanOfCore k) none true m.line s with
      | .ok _ s =>
        if uncorr then
          performLine k { m with words := m.words.map fun e => (e.1, TWord.poison 3) } (bump Cnt.ccMbUncorr s)
        else performLine k m s
      | .trap _ s => s
      | .wait _ s => s)

/-- Words 0 and 1 of an escape log entry (Table 03-6). -/
def escapeWords (pa : PA) : List MWord :=
  [rawM ((pa.extractLsb' 2 30) ++ (1 : BitVec 2)), rawM ((pa.extractLsb' 32 21).setWidth 32)]

/-- An entry written to the candle's ring, or to the overflow ring (R118, R119); none while both are full. -/
def logEscape (b : BarEnt) (s : State) : Option State :=
  let p := s.cn.pool.lv
  let size := 2 ^ p.elogSize.toNat
  let t := s.slot b.slot
  if t.elogFill < size then
    let a := p.elogBase + BitVec.ofNat 53 (b.slot * size * 8 + t.elogFill * 8)
    some ((physWrites none a (escapeWords b.pa) s).modSlot b.slot fun t => { t with elogFill := t.elogFill + 1 })
  else if s.cn.eovf.length < 2 ^ p.eovfSize.toNat then
    let i := (s.cn.eovfHead + s.cn.eovf.length) % 2 ^ p.eovfSize.toNat
    let a := p.eovfBase + BitVec.ofNat 53 (i * 16)
    let h := mkHandle b.slot b.gen
    let s := physWrites none a (escapeWords b.pa ++ [rawM (h.setWidth 32), rawM 0]) s
    let s := if t.elogOvf then s else bump Cnt.cnElogOvf (s.modSlot b.slot fun t => { t with elogOvf := true })
    some { s with cn := { s.cn with eovf := s.cn.eovf ++ [⟨b.slot, b.gen, false⟩] } }
  else none

/-- The next barrier-buffer entry is written to its log; the outstanding-escape count falls once its store has also been
performed (R115, R116). -/
def execBarrierBufferDrain (k : CoreId) (s : State) : Outcome :=
  .next (match (s.core k).barrier with
    | [] => s
    | b :: rest =>
      match logEscape b s with
      | none => s
      | some s =>
        let s := s.modCore k fun x =>
          { x with barrier := rest, escWait := if b.performed then x.escWait else x.escWait ++ [b] }
        if b.performed then s.modSlot b.slot fun t => { t with escCount := t.escCount - 1 } else s)

/-- A store that waits at issue goes on: its context becomes runnable and its store issues again (R121, Table 07-6). -/
def execStoreWaitResume (c : CtxId) (s : State) : Outcome :=
  .next (if (s.ctx c).st = .stalled ∧ ((s.ctx c).stall = .store ∨ (s.ctx c).stall = .escape ∨ (s.ctx c).stall = .mlog) then
    wakeCtx c (dropStall c s)
  else s)

/-- The value of the oldest load whose slot has passed reaches its register; a context that waits for it becomes runnable
(R251, R280, R281). -/
def execLoadDataReturn (c : CtxId) (s : State) : Outcome :=
  .next (match (s.ctx c).loads.find? fun p => !p.slot with
    | none => s
    | some p =>
      let t := writeLoad c p (s.modCtx c fun x => { x with loads := x.loads.erase p })
      if (t.ctx c).st = .stalled ∧ (t.ctx c).stall = .load then wakeCtx c t else t)

/-- After 4,096 cycles with another runnable context of its level waiting, the core changes context (R251). -/
def execContextTimeslice (k : CoreId) (s : State) : Outcome :=
  .next (match (s.core k).running with
    | none => s
    | some n =>
      if (runnables s k).any fun d => ctxLevel s d = ctxLevel s (ctxOf k n) then rotate (ctxOf k n) s else s)

/-! ### Controllers -/

/-- The LOCAL address of the i-th line that a controller homes (R413, R427). -/
def homedLine (c i : Nat) : Nat :=
  let kib := i / 4
  kib * 1024 + ((c ^^^ (kib ^^^ kib / 4 ^^^ kib / 16)) % 4) * 256 + i % 4 * 64

/-- A controller scrubs its next line (R427): the home agent orders it like any read. The command may name an error that is
there. -/
def execScrubRead (n : BitVec 2) (err : CacheErr) (s : State) : Outcome :=
  let c := n.toNat
  let m := s.mc c
  .next (
    if !m.scrubEn || m.wipeBusy || s.pf then s
    else
      let loc := homedLine c m.scrubPos.toNat
      let ln := lineNo (mkPa s.node loc)
      let s := match err with
        | .homeCorr | .homeUncorr | .tagUncorr => strikeSome 0 ln err s
        | _ => s
      let s := homeRequest ⟨s.node, 0, 0, none⟩ .scrub ln s
      let next := m.scrubPos.toNat + 1
      s.modMc c fun m =>
        if homedLine c next < sidecarBase s.build then { m with scrubPos := BitVec.ofNat 28 next }
        else { m with scrubPos := 0, scrubDone := true })

/-- CC_CTRL.CNTCLR (Table 13-6). -/
def execCcCntclr (s : State) : Outcome := .next (clearCounters 0x700040 0x70006C s)
/-- MC_CTRL.CNTCLR clears the counters and MC_LASTE. -/
def execMcCntclr (n : BitVec 2) (s : State) : Outcome :=
  let c := n.toNat
  .next ((clearCounters (Cnt.mcCorr c) (Cnt.mcTagcMiss c) s).modMc c fun m => { m with laste := 0 })

end Sys2Proof.Machine
end

