-- ==== Sys2Proof/Machine/Flags.lean ====
section
/-! DEFINITION. Flags: the sticky floating-point flags of CSTAT (07 Table 07-4, 02 R78) and the condition flags of the
sequencer's ALU (11 Table 11-9). -/

namespace Sys2Proof.Machine

/-- A set of floating-point flags in the order of CSTAT.FFLAGS: [0] inexact, [1] underflow, [2] overflow, [3] divide by
zero, [4] invalid. -/
abbrev Fflags := BitVec 5

namespace Fflags
def inexact : Fflags := 1
def underflow : Fflags := 2
def overflow : Fflags := 4
def divZero : Fflags := 8
def invalid : Fflags := 16
end Fflags

/-- The flags accumulate in CSTAT.FFLAGS (R78, R313). -/
def raiseFlags (c : CtxId) (f : Fflags) (s : State) : State :=
  s.modCtx c fun x => { x with cstat := { x.cstat with fflags := x.cstat.fflags ||| f } }

/-- The rounding mode of a context. -/
def roundMode (c : CtxId) (s : State) : BitVec 2 := (s.ctx c).cstat.rm

/-! ### The sequencer's ALU (11 Table 11-4) -/

/-- The payload result of an AOP code; none for a code the table does not give. -/
def microAlu (aop : Nat) (a b : Word) : Option Word :=
  let k := (b.extractLsb' 0 5).toNat
  match aop with
  | 0x00 => some a
  | 0x01 => some (a + b)
  | 0x02 | 0x0C | 0x0D => some (a - b)
  | 0x03 => some (a &&& b)
  | 0x04 => some (a ||| b)
  | 0x05 => some (a ^^^ b)
  | 0x06 => some (a &&& ~~~b)
  | 0x07 => some (a <<< k)
  | 0x08 => some (a >>> k)
  | 0x09 => some (a.sshiftRight k)
  | 0x0A => some (a >>> 16)
  | 0x0B => some (a &&& 0xFFFF)
  | 0x0E => some (if a < b then a else b)
  | 0x0F => some (if a < b then b else a)
  | 0x10 => some (BitVec.ofNat 32 (a.toInt - b.toInt).natAbs)
  | 0x11 => some (if a ≤ b then 1 else 0)
  | 0x12 => some (if a.slt b then 1 else 0)
  | _ => none

/-- C and V of an addition or a subtraction; which of its two forms C has after a subtraction is not stated (log
entry 1). None for the operations whose C and V the spec does not give. -/
def microCarry (aop : Nat) (a b : Word) : Option (Bool × Bool) :=
  match aop with
  | 0x01 => some (decide (2 ^ 32 ≤ a.toNat + b.toNat), decide ((a + b).toInt ≠ a.toInt + b.toInt))
  | 0x02 | 0x0C | 0x0D =>
    some (if Config.subBorrow then decide (a < b) else !decide (a < b), decide ((a - b).toInt ≠ a.toInt - b.toInt))
  | _ => none

end Sys2Proof.Machine
end

