-- ==== Sys2Proof/Machine/Microcode.lean ====
section
/-! DEFINITION. The tag sequencer: customer instructions and their microwords, table mode, commits (11 R351–R370, R376,
R379; 08 R294, R295). -/

namespace Sys2Proof.Machine

/-! ### Fields of a microword (Table 11-2) -/

abbrev Mword := BitVec 144

def Mword.next (w : Mword) : BitVec 13 := w.extractLsb' 0 13
def Mword.brw (w : Mword) : Nat := (w.extractLsb' 13 3).toNat
def Mword.brsel (w : Mword) : Nat := (w.extractLsb' 16 5).toNat
def Mword.seq (w : Mword) : Nat := (w.extractLsb' 21 3).toNat
def Mword.asrc (w : Mword) : BitVec 5 := w.extractLsb' 24 5
def Mword.bsrc (w : Mword) : BitVec 5 := w.extractLsb' 29 5
def Mword.aop (w : Mword) : Nat := (w.extractLsb' 34 6).toNat
def Mword.adst (w : Mword) : Nat := (w.extractLsb' 40 5).toNat
def Mword.top (w : Mword) : Nat := (w.extractLsb' 45 4).toNat
def Mword.ttype (w : Mword) : Ty := w.extractLsb' 49 6
def Mword.tsrc (w : Mword) : Nat := (w.extractLsb' 55 3).toNat
def Mword.mul (w : Mword) : Nat := (w.extractLsb' 58 2).toNat
def Mword.mem (w : Mword) : Nat := (w.extractLsb' 60 4).toNat
def Mword.ma (w : Mword) : BitVec 5 := w.extractLsb' 64 5
def Mword.md (w : Mword) : BitVec 5 := w.extractLsb' 69 5
def Mword.flw (w : Mword) : Bool := w.getLsbD 78
def Mword.tlw (w : Mword) : Bool := w.getLsbD 79
def Mword.cnt (w : Mword) : Nat := (w.extractLsb' 80 2).toNat
def Mword.const (w : Mword) : Word := w.extractLsb' 82 32
def Mword.ctag (w : Mword) : Ty := w.extractLsb' 114 6
def Mword.trapc (w : Mword) : BitVec 8 := w.extractLsb' 122 8

/-- The fields of the customer instruction (R294): registers and customer index. -/
structure Cust where
  rd : R5
  rs : R5
  rt : R5
  index : Nat

/-- A word in the sequencer: the TYPE it had before RETAG gave it another, when it is marked (R357). -/
abbrev Marked := TWord × Option Ty

/-! ### Sources (Table 11-3) -/

/-- The word of a source code; the codes that only the vendor uses answer a free value (log entry 1). -/
def microSrc (c : CtxId) (i : Cust) (w : Mword) (code : BitVec 5) (s : State) : Marked × State :=
  let u := (s.ctx c).micro
  let plain (v : TWord) : Marked × State := ((v, none), s)
  match code.toNat with
  | 0x10 => plain (opnd c i.rs s)
  | 0x11 => plain (opnd c i.rt s)
  | 0x12 => plain (opnd c i.rd s)
  | 0x13 => plain ⟨w.ctag, w.const⟩
  | 0x14 => plain (TWord.raw u.mulh)
  | 0x15 => plain (TWord.raw u.mull)
  | 0x16 => plain u.mdr
  | 0x17 => plain (TWord.raw (s.ctx c).pc)
  | 0x18 => plain (TWord.fix (BitVec.ofNat 32 i.index))
  | 0x19 => plain ⟨Ty.time, s.time.setWidth 32⟩
  | 0x1A => plain (TWord.raw 0)
  | n => if n < 0x10 then (Tab.get (TWord.unset, none) u.m n, s) else
      let (v, s) := s.draw
      ((TWord.raw v, none), s)

def setMicro (c : CtxId) (f : Micro → Micro) (s : State) : State := s.modCtx c fun x => { x with micro := f x.micro }

/-! ### The parts of one microword -/

/-- Whether an operation reads its B source. -/
def readsB (aop : Nat) : Bool := aop ≠ 0 && aop ≠ 0x0A && aop ≠ 0x0B

/-- The ALU's result with its TYPE and mark, after the row-4 checks of the sources it reads (R356); RETAG of the same
microword gives it CTAG and marks it (R357). -/
def microResult (w : Mword) (a b : Marked) (s : State) : Res Marked :=
  (if w.aop = 0 then .ok () s else checkUse a.1 s).bind fun _ s =>
    (if readsB w.aop then checkUse b.1 s else .ok () s).bind fun _ s =>
      let (v, s) := match microAlu w.aop a.1.val b.1.val with
        | some v => (v, s)
        | none => s.draw
      let isBool : Bool := w.aop = 0x11 || w.aop = 0x12
      let ty := if isBool then Ty.bool else a.1.ty
      let mark := if isBool then none else a.2
      if w.top = 4 then .ok (⟨w.ctag, v⟩, some (mark.getD ty)) s else .ok (⟨ty, v⟩, mark) s

/-- N, Z, C and V of the result while FLW is 1; those that the spec does not give are free (log entry 1). -/
def microFlags (c : CtxId) (w : Mword) (a b : Word) (r : Word) (s : State) : State :=
  if !w.flw then s
  else
    let (cv, s) : (Bool × Bool) × State := match microCarry w.aop a b with
      | some cv => (cv, s)
      | none =>
        let (f, s) := s.draw
        ((f.getLsbD 0, f.getLsbD 1), s)
    setMicro c (fun u => { u with n := r.getLsbD 31, z := decide (r = 0), c := cv.1, v := cv.2 }) s

/-- The tag unit (R357): checks, TM while TLW is 1, and the word examined last. -/
def microTag (c : CtxId) (w : Mword) (a b : TWord) (s : State) : Res Unit :=
  let (t, s) : TWord × State := match w.tsrc with
    | 0 => (a, s)
    | 1 => (b, s)
    | 2 => ((s.ctx c).micro.mdr, s)
    | _ => let (v, s) := s.draw; (TWord.raw v, s)
  let setTm (v : Bool) (s : State) : State := if w.tlw then setMicro c (fun u => { u with tm := v }) s else s
  let freeTm (s : State) : State :=
    if w.tlw then
      let (v, s) := s.draw
      setMicro c (fun u => { u with tm := v.getLsbD 0 }) s
    else s
  let note (s : State) : State := setMicro c (fun u => { u with last := t }) s
  match w.top with
  | 1 => .ok () (setTm (decide (t.ty = w.ttype)) (note s))
  | 2 => .ok () (setTm ((w.ttype = 0 && isImmediate t.ty) || (w.ttype = 1 && isPointer t.ty)) (note s))
  | 3 => (checkUse t s).bind fun _ s =>
      if t.ty ≠ w.ttype then trapW Cause.tagMismatch t s else .ok () (freeTm (note s))
  | 5 => (checkUse t s).bind fun _ s => .ok () (freeTm (note s))
  | _ => .ok () (freeTm s)

/-- A marked value is checked by the RETAG columns of Table 02-7 (R367). -/
def checkMark (c : CtxId) (m : Marked) (s : State) : Res Unit :=
  match m.2 with
  | some src => if !retagOk (privOf c s) src m.1.ty then trapW Cause.retagPriv m.1 s else .ok () s
  | none => .ok () s

/-- A cycle of the sequencer: every product in flight moves on, those that are due appear (R365), and a load comes nearer
(R358). -/
def microMulTick (u : Micro) : Micro :=
  let q := u.mulq.map fun (p : Nat × BitVec 64) => (p.1 - 1, p.2)
  let u := { u with mulq := q.filter fun (p : Nat × BitVec 64) => p.1 ≠ 0, late := u.late - 1 }
  match (q.filter fun (p : Nat × BitVec 64) => p.1 = 0).getLast? with
  | some p => { u with mulh := p.2.extractLsb' 32 32, mull := p.2.setWidth 32 }
  | none => u

/-- Cycles of the multiplier. -/
def microTicks : Nat → Micro → Micro
  | 0, u => u
  | n + 1, u => microTicks n (microMulTick u)

/-- Cycles in which the sequencer runs no microword: they pass for the multiplier and for a load too, and count (R352, R358,
R365, R369). After three of them every product has appeared. -/
def microCycles (n : Nat) (u : Micro) : Micro :=
  { microTicks (min n 3) u with words := u.words + n, late := u.late - n }

/-- A microword reads MDR (R358). -/
def readsMdr (w : Mword) : Bool :=
  w.asrc = 0x16 || w.bsrc = 0x16 || (w.mem ≠ 0 && w.ma = 0x16) || ((w.mem = 2 || w.mem = 4) && w.md = 0x16) ||
    w.mem = 4 || (w.top ≠ 0 && w.tsrc = 2) || w.brsel = 5

/-- The cycles of a microword begin: it waits for a load whose value it reads (R358). -/
def microBegin (w : Mword) (u : Micro) : Micro :=
  let u := microMulTick u
  if readsMdr w then microCycles u.late u else u

def microMulStart (w : Mword) (a b : Word) (u : Micro) : Micro :=
  match w.mul with
  | 1 => { u with mulq := u.mulq ++ [(3, a.signExtend 64 * b.signExtend 64)] }
  | 2 => { u with mulq := u.mulq ++ [(3, a.setWidth 64 * b.setWidth 64)] }
  | _ => u

/-- ADST and the micro-counter; CMPU and CMPS keep no result. -/
def microWrite (w : Mword) (r : Marked) (u : Micro) : Micro :=
  let u := match w.cnt with
    | 1 => { u with cnt := w.const.setWidth 16 }
    | 2 => { u with cnt := u.cnt - 1 }
    | _ => u
  if w.aop = 0x0C ∨ w.aop = 0x0D then u
  else if w.adst < 0x10 then { u with m := Tab.set (TWord.unset, none) u.m w.adst r }
  else if w.adst = 0x10 then { u with rd := some r }
  else u

/-- The condition bits of a group, c3 to c0 (Table 11-5). -/
def microCond (c : CtxId) (i : Cust) (w : Mword) (s : State) : BitVec 4 × State :=
  let u := (s.ctx c).micro
  match w.brsel with
  | 0 => (0, s)
  | 1 => (bit u.v ++ bit u.c ++ bit u.z ++ bit u.n, s)
  | 2 => (bit (decide (u.cnt = 0)) ++ bit u.n ++ bit u.z ++ bit u.tm, s)
  | 3 => ((opnd c i.rs s).ty.setWidth 4, s)
  | 4 => ((opnd c i.rt s).ty.setWidth 4, s)
  | 5 => (u.mdr.ty.setWidth 4, s)
  | _ => let (v, s) := s.draw; (v.setWidth 4, s)

/-! ### Sequencing (R360–R362) -/

/-- Where a microword leads: on to a microaddress, or to the end of the instruction. -/
inductive MicroFlow where
  | go (a : BitVec 13)
  | done
  deriving DecidableEq, Repr

/-- The sequencing of a microword; after WAITM the sequencer waits for the instruction's memory operations before it goes on
(Table 11-6). A code that is not customer microcode's leads to a free microaddress (log entry 1). -/
def microSeq (c : CtxId) (i : Cust) (w : Mword) (s : State) : Res MicroFlow :=
  let (k, s) := microCond c i w s
  let mask : BitVec 13 := ((1 : BitVec 13) <<< w.brw) - 1
  let next := w.next ||| (k.setWidth 13 &&& mask)
  let u := (s.ctx c).micro
  match w.seq with
  | 0 => .ok (.go next) s
  | 1 =>
    if 4 ≤ u.stack.length then trapN Cause.ucodeFault s
    else .ok (.go (w.const.setWidth 13)) (setMicro c (fun u => { u with stack := next :: u.stack }) s)
  | 2 =>
    match u.stack with
    | [] => trapN Cause.ucodeFault s
    | a :: r => .ok (.go a) (setMicro c (fun u => { u with stack := r }) s)
  | 3 => .ok .done s
  | 4 => trapW w.trapc u.last s
  | 5 => .ok (.go next) (setMicro c (fun u => { u with waitm := true }) s)
  | _ => let (v, s) := s.draw; .ok (.go (v.setWidth 13)) s

/-! ### The control store (R351–R353, R363) -/

/-- A fetch in service mode; none: nothing is there, or the word is not loaded. -/
def ucFetch (k : Uc) (a : BitVec 13) : Option Mword :=
  let n := a.toNat
  if n < 0x1000 then
    match k.hookAt a with
    | some i => Tab.get none k.patch i
    | none => some (Config.romWord n)
  else if n < 0x1800 then Tab.get none k.patch (n - 0x1000)
  else if n < 0x1C00 then Tab.get none k.live.words (n - 0x1800)
  else none

def State.modUc (s : State) (k : CoreId) (f : Uc → Uc) : State := s.modCore k fun x => { x with uc := f x.uc }

/-- END: the value for RD is checked when it is marked, and written (R367). -/
def microEnd (c : CtxId) (i : Cust) (s : State) : Res Flow :=
  match (s.ctx c).micro.rd with
  | none => .ok .next s
  | some m => (checkMark c m s).bind fun _ s => putR c i.rd m.1 s

/-! ### Commit, rewriting and table mode (R364, R376) -/

/-- No context of the core is within a customer instruction. -/
def ucIdle (k : CoreId) (s : State) : Bool := (ctxsOf k).all fun c => (s.ctx c).micro.at_.isNone

def swapBanks (u : Uc) : Uc := { u with live := u.shadow, shadow := u.live }

/-- The shadow bank becomes live on a core whose sequencer holds no customer instruction, until the power-fail warning (R376,
R378). -/
def execUcCoreCommit (k : CoreId) (s : State) : Outcome :=
  .next (
    if (s.core k).uc.commit && ucIdle k s && !s.pf then ucFinish (s.modUc k fun u => { swapBanks u with commit := false })
    else s)

def execCstoreRewrite (k : CoreId) (s : State) : Outcome :=
  .next (
    if (s.core k).uc.rewrite.isSome ∧ (s.core k).uc.mode = .table then
      resched k (s.modUc k fun u => { u with rewrite := none, mode := .service })
    else s)

/-- A table-mode test that fails (Table 11-7). -/
def ucTestFails (k : CoreId) (op : BitVec 8) (s : State) : State :=
  record 3 (0xC0 + (lanOfCore k).setWidth 8) 0x22 (k.setWidth 64) (op.setWidth 64) 0 0 0
    (s.modUc k fun u => { u with mode := .failed })

/-- The wipe of R353. -/
def ucWipe (u : Uc) : Uc :=
  { u with patch := [], hooks := [], patchVersion := 0, patchValid := false, live := UcBank.empty,
           shadow := UcBank.empty, shadowLoaded := false, commit := false, rewrite := none }

/-- Table mode, while the module runs: a warning stops boot at its step (19 R556). -/
def inTable (k : CoreId) (s : State) : Bool := (s.core k).uc.mode = .table && s.pw.stage = .run

def execUcRomCheck (k : CoreId) (ok : Bool) (s : State) : Outcome :=
  .next (if !inTable k s || ok then s else ucTestFails k 0x01 s)

def execUcRamTest (k : CoreId) (ok : Bool) (s : State) : Outcome :=
  .next (
    if !inTable k s then s
    else
      let s := s.modUc k ucWipe
      if ok then s else ucTestFails k 0x02 s)

/-- A write of a control-store word or hook entry; ROM and unassigned microaddresses take none (Table 11-1). -/
def execUcWordWrite (k : CoreId) (what : UcWrite) (s : State) : Outcome :=
  .next (
    if !inTable k s then s
    else
      s.modUc k fun u =>
        match what with
        | .hook i e => { u with hooks := Tab.set none u.hooks i.toNat (some e) }
        | .word a w =>
          let n := a.toNat
          if n < 0x1000 then u
          else if n < 0x1800 then { u with patch := Tab.set none u.patch (n - 0x1000) (some w) }
          else if n < 0x1C00 then { u with live := { u.live with words := Tab.set none u.live.words (n - 0x1800) (some w) } }
          else u)

/-- A word read back in table mode, where hooks do not act (R363). -/
def execUcWordRead (k : CoreId) (a : BitVec 13) (s : State) : Outcome :=
  .next (
    if !inTable k s then s
    else emit (.ucWord k a (ucFetch { (s.core k).uc with hooks := [] } a)) s)

def execUcBankSwap (k : CoreId) (s : State) : Outcome :=
  .next (if inTable k s then s.modUc k swapBanks else s)

end Sys2Proof.Machine
end

