-- ==== Sys2Proof/Machine/Signature.lean ====
section
/-! DEFINITION. ECDSA over P-384 with SHA-384, as R372 and R521 name it (11; 17): the public standard's arithmetic, on naturals
(PRESUMED: log entry 84 names the standard and the layout of the 96-byte key). -/

namespace Sys2Proof.Machine

/-! ### SHA-384 -/

/-- Round constants of SHA-384. -/
def shaK0 : List Nat :=
  [0x428A2F98D728AE22, 0x7137449123EF65CD, 0xB5C0FBCFEC4D3B2F, 0xE9B5DBA58189DBBC, 0x3956C25BF348B538,
   0x59F111F1B605D019, 0x923F82A4AF194F9B, 0xAB1C5ED5DA6D8118, 0xD807AA98A3030242, 0x12835B0145706FBE,
   0x243185BE4EE4B28C, 0x550C7DC3D5FFB4E2, 0x72BE5D74F27B896F, 0x80DEB1FE3B1696B1, 0x9BDC06A725C71235,
   0xC19BF174CF692694, 0xE49B69C19EF14AD2, 0xEFBE4786384F25E3, 0x0FC19DC68B8CD5B5, 0x240CA1CC77AC9C65]

/-- Round constants of SHA-384. -/
def shaK1 : List Nat :=
  [0x2DE92C6F592B0275, 0x4A7484AA6EA6E483, 0x5CB0A9DCBD41FBD4, 0x76F988DA831153B5, 0x983E5152EE66DFAB,
   0xA831C66D2DB43210, 0xB00327C898FB213F, 0xBF597FC7BEEF0EE4, 0xC6E00BF33DA88FC2, 0xD5A79147930AA725,
   0x06CA6351E003826F, 0x142929670A0E6E70, 0x27B70A8546D22FFC, 0x2E1B21385C26C926, 0x4D2C6DFC5AC42AED,
   0x53380D139D95B3DF, 0x650A73548BAF63DE, 0x766A0ABB3C77B2A8, 0x81C2C92E47EDAEE6, 0x92722C851482353B]

/-- Round constants of SHA-384. -/
def shaK2 : List Nat :=
  [0xA2BFE8A14CF10364, 0xA81A664BBC423001, 0xC24B8B70D0F89791, 0xC76C51A30654BE30, 0xD192E819D6EF5218,
   0xD69906245565A910, 0xF40E35855771202A, 0x106AA07032BBD1B8, 0x19A4C116B8D2D0C8, 0x1E376C085141AB53,
   0x2748774CDF8EEB99, 0x34B0BCB5E19B48A8, 0x391C0CB3C5C95A63, 0x4ED8AA4AE3418ACB, 0x5B9CCA4F7763E373,
   0x682E6FF3D6B2B8A3, 0x748F82EE5DEFB2FC, 0x78A5636F43172F60, 0x84C87814A1F0AB72, 0x8CC702081A6439EC]

/-- Round constants of SHA-384. -/
def shaK3 : List Nat :=
  [0x90BEFFFA23631E28, 0xA4506CEBDE82BDE9, 0xBEF9A3F7B2C67915, 0xC67178F2E372532B, 0xCA273ECEEA26619C,
   0xD186B8C721C0C207, 0xEADA7DD6CDE0EB1E, 0xF57D4F7FEE6ED178, 0x06F067AA72176FBA, 0x0A637DC5A2C898A6,
   0x113F9804BEF90DAE, 0x1B710B35131C471B, 0x28DB77F523047D84, 0x32CAAB7B40C72493, 0x3C9EBE0A15C9BEBC,
   0x431D67C49C100D4C, 0x4CC5D4BECB3E42B6, 0x597F299CFC657E2A, 0x5FCB6FAB3AD6FAEC, 0x6C44198C4A475817]

/-- The initial hash value of SHA-384. -/
def shaStart : List Nat :=
  [0xCBBB9D5DC1059ED8, 0x629A292A367CD507, 0x9159015A3070DD17, 0x152FECD8F70E5939, 0x67332667FFC00B31,
   0x8EB44A8768581511, 0xDB0C2E0D64F98FA7, 0x47B5481DBEFA4FA4]

def rotr64 (n x : Nat) : Nat := ((x >>> n) ||| (x <<< (64 - n))) % 2 ^ 64

def shaSmall0 (x : Nat) : Nat := rotr64 1 x ^^^ rotr64 8 x ^^^ (x >>> 7)
def shaSmall1 (x : Nat) : Nat := rotr64 19 x ^^^ rotr64 61 x ^^^ (x >>> 6)
def shaBig0 (x : Nat) : Nat := rotr64 28 x ^^^ rotr64 34 x ^^^ rotr64 39 x
def shaBig1 (x : Nat) : Nat := rotr64 14 x ^^^ rotr64 18 x ^^^ rotr64 41 x

/-- The working variables a to h after one round. -/
def shaRound (k w : Nat) : List Nat → List Nat
  | [a, b, c, d, e, f, g, h] =>
    let t1 := h + shaBig1 e + ((e &&& f) ^^^ ((2 ^ 64 - 1 - e) &&& g)) + k + w
    let t2 := shaBig0 a + ((a &&& b) ^^^ (a &&& c) ^^^ (b &&& c))
    [(t1 + t2) % 2 ^ 64, a, b, c, (d + t1) % 2 ^ 64, e, f, g]
  | v => v

/-- The rounds of a block; the window holds the 16 message words that follow. -/
def shaRounds : List Nat → List Nat → List Nat → List Nat
  | [], _, v => v
  | k :: ks, ws, v =>
    let w := ws.getD 0 0
    let n := (shaSmall1 (ws.getD 14 0) + ws.getD 9 0 + shaSmall0 (ws.getD 1 0) + w) % 2 ^ 64
    shaRounds ks (ws.drop 1 ++ [n]) (shaRound k w v)

/-- A big-endian number. -/
def beNat (l : List Byte) : Nat := l.foldl (fun n b => 256 * n + b.toNat) 0

def shaBlock (l : List Byte) (h : List Nat) : List Nat :=
  let ws := (List.range 16).map fun i => beNat ((l.drop (8 * i)).take 8)
  (h.zip (shaRounds (shaK0 ++ shaK1 ++ shaK2 ++ shaK3) ws h)).map fun p => (p.1 + p.2) % 2 ^ 64

def shaBlocks : Nat → List Byte → List Nat → List Nat
  | 0, _, h => h
  | n + 1, l, h => shaBlocks n (l.drop 128) (shaBlock (l.take 128) h)

/-- The message padded to blocks of 128 bytes: 0x80, zeros, and its length in bits as 16 bytes. -/
def shaPad (l : List Byte) : List Byte :=
  let z := (239 - l.length % 128) % 128
  let len : List Byte := (List.range 16).map fun i => BitVec.ofNat 8 ((8 * l.length) >>> (8 * (15 - i)))
  l ++ [0x80] ++ List.replicate z 0 ++ len

/-- The 384-bit digest as a number. -/
def sha384 (l : List Byte) : Nat :=
  let m := shaPad l
  ((shaBlocks (m.length / 128) m shaStart).take 6).foldl (fun n x => n * 2 ^ 64 + x) 0

/-! ### The curve P-384 -/

def p384 : Nat := 2 ^ 384 - 2 ^ 128 - 2 ^ 96 + 2 ^ 32 - 1
def p384n : Nat :=
  0xFFFFFFFFFFFFFFFFFFFFFFFFFFFFFFFFFFFFFFFFFFFFFFFFC7634D81F4372DDF581A0DB248B0A77AECEC196ACCC52973
def p384b : Nat :=
  0xB3312FA7E23EE7E4988E056BE3F82D19181D9C6EFE8141120314088F5013875AC656398D8A2ED19D2A85C8EDD3EC2AEF
def p384gx : Nat :=
  0xAA87CA22BE8B05378EB1C71EF320AD746E1D3B628BA79B9859F741E082542A385502F25DBF55296C3A545E3872760AB7
def p384gy : Nat :=
  0x3617DE4A96262C6F5D9E98BF9292DC29F8F41DBD289A147CE9DA3113B5F0B8C00A60B1CE1D7E819D7A431D7C90EA0E5F

/-- x to the power e modulo m, e of n bits. -/
def powMod (m x e : Nat) : Nat → Nat
  | 0 => 1
  | n + 1 =>
    let r := powMod m x (e / 2) n
    let r := r * r % m
    if e % 2 = 1 then r * x % m else r

/-- The inverse modulo a prime of 384 bits. -/
def invMod (m x : Nat) : Nat := powMod m x (m - 2) 384

/-- a - b modulo p. -/
def subP (a b : Nat) : Nat := (a + p384 - b % p384) % p384

/-- A point (x, y, z) of the curve stands for (x / z², y / z³); z 0 is the point at infinity. -/
structure EcPoint where
  x : Nat
  y : Nat
  z : Nat

def EcPoint.infinity : EcPoint := ⟨1, 1, 0⟩

def EcPoint.double (a : EcPoint) : EcPoint :=
  let d := a.z * a.z % p384
  let g := a.y * a.y % p384
  let b := a.x * g % p384
  let al := 3 * (subP a.x d * ((a.x + d) % p384) % p384) % p384
  let x := subP (al * al) (8 * b)
  ⟨x, subP (al * subP (4 * b) x) (8 * (g * g % p384)), 2 * a.y * a.z % p384⟩

def EcPoint.add (a b : EcPoint) : EcPoint :=
  if a.z = 0 then b
  else if b.z = 0 then a
  else
    let z1 := a.z * a.z % p384
    let z2 := b.z * b.z % p384
    let u1 := a.x * z2 % p384
    let u2 := b.x * z1 % p384
    let s1 := a.y * b.z % p384 * z2 % p384
    let s2 := b.y * a.z % p384 * z1 % p384
    let h := subP u2 u1
    let r := subP s2 s1
    if h = 0 then (if r = 0 then a.double else EcPoint.infinity)
    else
      let h2 := h * h % p384
      let h3 := h * h2 % p384
      let v := u1 * h2 % p384
      let x := subP (subP (r * r) h3) (2 * v)
      ⟨x, subP (r * subP v x) (s1 * h3), h * a.z % p384 * b.z % p384⟩

/-- k times a point, k of n bits. -/
def EcPoint.times (k : Nat) (a : EcPoint) : Nat → EcPoint
  | 0 => EcPoint.infinity
  | n + 1 =>
    let r := (EcPoint.times (k / 2) a n).double
    if k % 2 = 1 then r.add a else r

/-- A point of the curve other than infinity, with z 1. -/
def onCurve (x y : Nat) : Bool :=
  x < p384 && y < p384 && (y * y % p384 == (subP (x * x % p384 * x) (3 * x) + p384b) % p384)

/-- The signature r, s of a digest verifies with the public key (x, y). -/
def ecdsaOk (x y e r s : Nat) : Bool :=
  if !(onCurve x y && 0 < r && r < p384n && 0 < s && s < p384n) then false
  else
    let w := invMod p384n s
    let a := (EcPoint.times (e * w % p384n) ⟨p384gx, p384gy, 1⟩ 384).add (EcPoint.times (r * w % p384n) ⟨x, y, 1⟩ 384)
    if a.z = 0 then false
    else a.x * invMod p384 (a.z * a.z % p384) % p384 % p384n = r

/-- Whether a 96-byte signature of a message, r then s, verifies with a 96-byte key, x then y, all big-endian (R372). -/
def ecdsaVerify (key msg sig : List Byte) : Bool :=
  key.length = 96 && sig.length = 96 &&
    ecdsaOk (beNat (key.take 48)) (beNat (key.drop 48)) (sha384 msg) (beNat (sig.take 48)) (beNat (sig.drop 48))

end Sys2Proof.Machine
end

