-- ==== Sys2Proof/Machine/Images.lean ====
section
/-! DEFINITION. Signed images: microcode patches and banks (11 R371–R375), and firmware (17 R522). A check answers the status
of Table 11-14 with its DETAIL, or none when every check passes. -/

namespace Sys2Proof.Machine

/-! ### The header (Table 11-12) -/

def imgByte (l : List Byte) (off : Nat) : Nat := leAt l off 1
def imgKind (l : List Byte) : Nat := imgByte l 0x04
def imgVersion (l : List Byte) : BitVec 16 := BitVec.ofNat 16 (leAt l 0x06 2)
def imgKeyid (l : List Byte) : BitVec 16 := BitVec.ofNat 16 (leAt l 0x08 2)
def imgRomid (l : List Byte) : BitVec 16 := BitVec.ofNat 16 (leAt l 0x0A 2)
def imgWords (l : List Byte) : Nat := leAt l 0x0C 2
def imgHooks (l : List Byte) : Nat := leAt l 0x0E 2
def imgBodylen (l : List Byte) : Nat := leAt l 0x10 4

/-- MAGIC, ABI and the reserved bytes (Table 11-12). -/
def imgHeaderOk (l : List Byte) : Bool :=
  leAt l 0 4 = 0x4D494355 && imgByte l 0x05 = 1 && ((l.drop 0x14).take 44).all fun b => b = 0

/-- The signature covers everything before it (R372). -/
def imgSigned (key l : List Byte) : Bool :=
  let n := 0x40 + imgBodylen l
  ecdsaVerify key (l.take n) ((l.drop n).take 96)

/-- The floor of a kind and key (R374; 17 R522). -/
def floorOf (s : State) (kind : Nat) (keyid : BitVec 16) : BitVec 16 :=
  Tab.get 0 s.mg.stored.floors (kind * 65536 + keyid.toNat)

/-! ### The body (R371) -/

/-- The control-store word in 18 bytes, little-endian (R354). -/
def imgMword (l : List Byte) (off : Nat) : Mword := BitVec.ofNat 144 (leAt l off 18)

/-- Entry i of a bank's dispatch table, word i of a bank, hook i and word i of a patch. -/
def bankEntry (l : List Byte) (i : Nat) : BitVec 16 := BitVec.ofNat 16 (leAt l (0x40 + 2 * i) 2)
def bankWord (l : List Byte) (i : Nat) : Mword := imgMword l (0x40 + 512 + 18 * i)
def patchHook (l : List Byte) (i : Nat) : Word := BitVec.ofNat 32 (leAt l (0x40 + 4 * i) 4)
def patchWord (l : List Byte) (i : Nat) : Mword := imgMword l (0x40 + 4 * imgHooks l + 18 * i)

/-- A microaddress of the customer bank. -/
def inBank (a : BitVec 13) : Bool := 0x1800 ≤ a.toNat && a.toNat < 0x1C00

/-- Customer microcode uses only the codes that the chapter gives it (R373, Tables 11-2 to 11-6). -/
def abiWord (w : Mword) : Bool :=
  let src (c : BitVec 5) : Bool := c.toNat ≤ 0x1A
  (if w.seq = 0 ∨ w.seq = 5 then inBank w.next else true) &&
  (if w.seq = 1 then inBank (w.const.setWidth 13) else true) &&
  w.seq ≤ 5 && w.aop ≤ 0x12 && w.brsel ≤ 5 && w.top ≤ 5 && w.tsrc ≤ 2 && w.mem ≤ 4 &&
  src w.asrc && src w.bsrc && src w.ma && src w.md && w.adst ≤ 0x11 &&
  (if w.aop = 0x0C ∨ w.aop = 0x0D then decide (w.adst = 0x11) else true) &&
  (if w.seq = 3 ∨ w.seq = 4 then decide (w.next = 0) else true) &&
  w.extractLsb' 74 4 = 0 && w.extractLsb' 130 14 = 0 &&
  (if w.seq = 4 then decide (1 ≤ w.trapc.toNat ∧ w.trapc.toNat ≤ 0x0E) else decide (w.trapc = 0))

/-- A dispatch entry: a valid ENTRY is below WORDS, and the bits to be written 0 are 0 (Table 11-10, R373). -/
def abiEntry (words : Nat) (e : BitVec 16) : Bool :=
  e.extractLsb' 12 4 = 0 && (!e.getLsbD 10 || decide ((e.extractLsb' 0 10).toNat < words))

/-- The first index below n that fails a check. -/
def firstBad (ok : Nat → Bool) (n : Nat) : Option Nat := (List.range n).find? fun i => !ok i

/-- A hook of a patch: its ROM address is below 0x1000 and no earlier hook has it, and its offset is below WORDS (R373). -/
def hookOk (l : List Byte) (i : Nat) : Bool :=
  let a (j : Nat) : Nat := ((patchHook l j).extractLsb' 0 13).toNat
  a i < 0x1000 && ((List.range i).all fun j => a j ≠ a i) && decide (((patchHook l i).extractLsb' 16 11).toNat < imgWords l)

/-- The first offending entry, hook or word of the body, in the order of the body (Table 11-14, BAD_WORD). -/
def badBody (l : List Byte) : Option Nat :=
  if imgKind l = 2 then
    match firstBad (fun i => abiEntry (imgWords l) (bankEntry l i)) 256 with
    | some i => some i
    | none => firstBad (fun i => abiWord (bankWord l i)) (imgWords l)
  else firstBad (hookOk l) (imgHooks l)

/-- SIZE: the length, the counts and the body that they make (Tables 11-12, 11-14). -/
def imgSizeOk (l : List Byte) (len : Nat) : Bool :=
  decide (len = 0x40 + imgBodylen l + 96) &&
    (if imgKind l = 1 then
      decide (1 ≤ imgWords l ∧ imgWords l ≤ 2048 ∧ imgHooks l ≤ 64 ∧ imgBodylen l = 4 * imgHooks l + 18 * imgWords l)
    else if imgKind l = 2 then
      decide (1 ≤ imgWords l ∧ imgWords l ≤ 1024 ∧ imgHooks l = 0 ∧ imgBodylen l = 512 + 18 * imgWords l)
    else true)

/-- The enrolled and unrevoked key of a key ID (17 R520). -/
def enrolledKey (s : State) (id : BitVec 16) : Option (List Byte) :=
  (s.mg.stored.keys.find? fun k => k.id = id && !k.revoked).map KeySlot.key

/-- The key that verifies an image: the vendor's for a patch, the enrolled key of KEYID for a bank (R372). -/
def imgKey (s : State) (l : List Byte) : Option (List Byte) :=
  if imgKind l = 1 then some Config.vendorKey else enrolledKey s (imgKeyid l)

/-- The checks of an image from SIZE on, in the order of Table 11-14. -/
def imgCheck (s : State) (l : List Byte) (len : Nat) : Option (BitVec 8 × Nat) :=
  if !imgSizeOk l len then some (3, 0)
  else if !imgHeaderOk l ∨ !(imgKind l = 1 ∨ imgKind l = 2) ∨ (imgKind l = 2 ∧ imgRomid l ≠ 0) then some (4, 0)
  else if imgKind l = 1 ∧ imgRomid l ≠ Config.romId then some (5, 0)
  else
    match imgKey s l with
    | none => some (6, 0)
    | some key =>
      if imgKind l = 1 ∧ imgKeyid l ≠ 0 then some (6, 0)
      else if !imgSigned key l then some (7, 0)
      else if imgVersion l < floorOf s (imgKind l) (imgKeyid l) then some (8, 0)
      else (badBody l).map fun i => (9, i)

/-! ### Loading (R374) -/

/-- Every core's control store. -/
def allCores (f : Uc → Uc) (s : State) : State :=
  (List.range 256).foldl (fun s k => s.modUc (BitVec.ofNat 8 k) f) s

/-- Words loaded from offset 0 of a region. -/
def loadWords {α : Type} (w : Nat → α) (n : Nat) (t : Tab (Option α)) [DecidableEq α] : Tab (Option α) :=
  (List.range n).foldl (fun t i => Tab.set none t i (some (w i))) t

/-- A patch is written to the patch RAM and the hook table (R374). -/
def loadPatch (l : List Byte) (u : Uc) : Uc :=
  { u with
    patch := loadWords (patchWord l) (imgWords l) u.patch
    hooks := loadWords (patchHook l) (imgHooks l) []
    patchVersion := imgVersion l
    patchValid := true }

/-- A bank is written to the shadow bank and table (R374). -/
def loadBank (l : List Byte) (u : Uc) : Uc :=
  { u with
    shadow :=
      { words := loadWords (bankWord l) (imgWords l) u.shadow.words
        disp := loadWords (bankEntry l) 256 u.shadow.disp
        version := imgVersion l
        keyid := imgKeyid l
        valid := true }
    shadowLoaded := true }

/-! ### Firmware (17 R522, R524) -/

/-- A firmware image: KIND 3 with the fields that R522 fixes, a body of up to 8 MiB, the vendor's signature and a VERSION not
below the floor; the status of the first check that fails. -/
def fwCheck (s : State) (l : List Byte) (len : Nat) : Option (BitVec 8) :=
  if len ≠ 0x40 + imgBodylen l + 96 ∨ 0x800000 < imgBodylen l ∨ imgWords l ≠ 0 ∨ imgHooks l ≠ 0 then some 3
  else if !imgHeaderOk l ∨ imgKind l ≠ 3 then some 4
  else if imgRomid l ≠ 0 then some 5
  else if imgKeyid l ≠ 0 then some 6
  else if !imgSigned Config.vendorKey l then some 7
  else if imgVersion l < floorOf s 3 0 then some 8
  else none

/-! ### Bytes of device memory -/

/-- Bytes by physical address: the payloads of their words, least significant byte first (00 R10). -/
def physBytes (pa : PA) (n : Nat) (s : State) : List Byte × State :=
  let k := pa.toNat % 4
  let (ws, s) := physReads (pa - BitVec.ofNat 53 k) ((k + n + 3) / 4) s
  ((ws.flatMap (fun w : MWord => wordBytes w.val)).drop k |>.take n, s)

end Sys2Proof.Machine
end

