-- ==== Sys2Proof/Machine/Recorder.lean ====
section
/-! DEFINITION. The event recorder (18 R532–R544): SEQ and its header in MRAM, coalescing, the volatile buffer, flushes,
the log rings and the reads of a record. -/

namespace Sys2Proof.Machine

/-- The 64 bytes of a record: Q0–Q7 of Table 18-1, with the CRC over bytes 0–59 (R532). -/
def ErRec.image (e : ErRec) : List Byte :=
  let q0 : BitVec 64 := (1 : BitVec 4) ++ e.r.src ++ (0 : BitVec 1) ++ bit e.opened ++ e.r.sev ++ BitVec.ofNat 48 e.seq
  let q2 : BitVec 64 := (0 : BitVec 16) ++ e.node ++ e.count ++ e.r.reason
  let body := [q0, e.r.time, q2, e.r.a0, e.r.a1, e.r.a2, e.r.a3].flatMap bytes8 ++ wordBytes e.r.a4
  body ++ wordBytes (crc32c body)

/-! ### SEQ (R533) -/

/-- The next SEQ: after a reset M as boot read it, or 1 when the header has never been written (R533). -/
def seqNext (s : State) : Nat :=
  match s.er.next with
  | some n => n
  | none => match s.er.atBoot with | some h => h.mark | none => 1

/-- M, kept at least 4,096 above the next SEQ by raising it 8,192 at a time (R533). -/
def raiseMark (mark next : Nat) : Nat := if mark < next + 4096 then mark + 8192 else mark

/-- Before the first SEQ is assigned, the header is written with a raised M and with the valid bit clear (R533). -/
def seqBoot (s : State) : State :=
  match s.er.next with
  | some _ => s
  | none =>
    let n := seqNext s
    let h : SeqHeader := ⟨n + 8192, match s.er.atBoot with | some h => h.last | none => 0, false⟩
    { s with er := { s.er with next := some n, mram := { s.er.mram with hdr := some h } } }

/-- Takes the next SEQ. -/
def takeSeq (s : State) : Nat × State :=
  let s := seqBoot s
  let n := seqNext s
  let hdr := s.er.mram.hdr.map fun h => { h with mark := raiseMark h.mark (n + 1) }
  (n, { s with er := { s.er with next := some (n + 1), mram := { s.er.mram with hdr := hdr } } })

/-! ### The buffer (R536) -/

/-- The closed record that a new one of severity sev replaces: of the lowest severity present and no higher than sev,
flushed before unflushed, then the oldest (R536). -/
def erVictim (buf : List ErRec) (sev : BitVec 2) : Option Nat :=
  let better (a b : ErRec) : Bool :=
    decide (a.r.sev.toNat < b.r.sev.toNat) || (decide (a.r.sev = b.r.sev) && a.flushed && !b.flushed)
  let best := buf.foldl (fun (best : Option ErRec) e =>
    if e.opened then best
    else match best with
      | none => some e
      | some b => if better e b then some e else best) none
  match best with
  | some b => if b.r.sev.toNat ≤ sev.toNat then some b.seq else none
  | none => none

/-- Records not in MRAM with their present content. -/
def unflushed (s : State) : Nat := s.er.buf.countP fun e => !e.flushed

/-- Puts a numbered record into the buffer, at the cost of another when it is full (R536). -/
def erStore (e : ErRec) (s : State) : State :=
  if s.er.buf.length < 8192 then { s with er := { s.er with buf := s.er.buf ++ [e] } }
  else
    match erVictim s.er.buf e.r.sev with
    | some v =>
      bump Cnt.erOverwrite { s with er := { s.er with buf := (s.er.buf.filter fun x => decide (x.seq ≠ v)) ++ [e] } }
    | none => bump Cnt.erDrop s

/-! ### Log rings and the ER vector (R542) -/

/-- The closed records at the front, up to the first that is OPEN. -/
def closedPrefix : List ErRec → List ErRec
  | [] => []
  | e :: r => if e.opened then [] else e :: closedPrefix r

/-- Closed records go to every RUNNING log ring in SEQ order; one that is still OPEN holds back those behind it (R542). -/
def feedLogs (s : State) : State :=
  let todo := s.er.buf.filter fun e => decide (s.er.logNext ≤ e.seq)
  let ready := closedPrefix todo
  let s := ready.foldl (fun s e =>
    if e.r.sev.toNat < s.er.logmin.toNat then s
    else (runningRings s 3).foldl (fun s r => pushEntry r e.image Cnt.hiLogdrop s) s) s
  let upto := match (todo.drop ready.length).head? with | some e => e.seq | none => seqNext s
  { s with er := { s.er with logNext := upto } }

/-- The ER vector, at most once a millisecond, for closed records of IRQMIN or more not yet reported (R542). -/
def erVector (s : State) : State :=
  let isDue (e : ErRec) : Bool := !e.opened && !e.reported && decide (s.er.irqmin.toNat ≤ e.r.sev.toNat)
  if !s.er.irqSent && s.hi.svecEn.getLsbD 2 && s.er.buf.any isDue then
    serviceIrq 2 { s with er := { s.er with
      irqSent := true, buf := s.er.buf.map fun e => if isDue e then { e with reported := true } else e } }
  else s

/-- What closing a record leads to. -/
def afterClose (s : State) : State := erVector (feedLogs s)

/-! ### Records handed over (R533, R534, R538) -/

/-- The record merges into one that is OPEN (R534). -/
def mergesInto (r : Rec) (e : ErRec) : Bool :=
  e.opened && decide (e.r.src = r.src) && decide (e.r.reason = r.reason) && decide (e.r.a2 = r.a2)

/-- The record with one more occurrence (R534). -/
def mergeRec (r : Rec) (e : ErRec) : ErRec :=
  if mergesInto r e then
    { e with
      count := if e.count = 0xFFFF then e.count else e.count + 1
      r := { e.r with a4 := r.a4 }
      flushed := false }
  else e

/-- Every OPEN record closes (R534). -/
def closeAll (s : State) : State :=
  if s.er.buf.any fun e => e.opened then
    afterClose { s with er := { s.er with buf := s.er.buf.map fun e =>
      if e.opened then { e with opened := false, flushed := false } else e } }
  else s

/-- A flush starts: it closes every OPEN record (R534, R538). -/
def startFlush (s : State) : State :=
  let s := closeAll s
  { s with er := { s.er with flushing := true } }

/-- 6,144 unflushed records start a flush (R538). -/
def fullFlush (s : State) : State := if 6144 ≤ unflushed s ∧ !s.er.flushing then startFlush s else s

/-- Takes one record: it merges, or takes a SEQ and a place in the buffer. A CRIT record starts a flush at once; that of an
ERROR record starts when its 1 ms ends (R533, R534, R536, R538; log entry 51). -/
def takeRec (r : Rec) (s : State) : State :=
  if decide (r.sev ≠ 3) && s.er.buf.any (mergesInto r) then
    fullFlush (bump Cnt.erCoalesce { s with er := { s.er with buf := s.er.buf.map (mergeRec r) } })
  else
    let (n, s) := takeSeq s
    let s := erStore ⟨n, r, s.node, 1, decide (r.sev ≠ 3), false, false⟩ s
    if r.sev = 3 then startFlush (afterClose s) else fullFlush s

/-- The record handed over first: the earliest, and of those of one time the lowest SOURCE (R533). -/
def firstRec : List Rec → Option (Rec × List Rec)
  | [] => none
  | r :: rest =>
    match firstRec rest with
    | none => some (r, [])
    | some (q, others) =>
      if q.time = r.time ∧ q.src.toNat < r.src.toNat then some (q, r :: others) else some (r, q :: others)

/-- A block hands over a record; in standby it is lost and takes no SEQ (R539). -/
def handOver (s : State) : State :=
  match firstRec s.recs with
  | none => s
  | some (r, rest) =>
    let s := { s with recs := rest }
    if s.pw.stage = .standby ∨ s.pw.stage = .off then s else takeRec r s

/-- Every record that waits. -/
def handOverAll (s : State) : State := s.recs.foldl (fun s _ => handOver s) s

def execRecordHandover (s : State) : Outcome := .next (handOver s)

/-- The records that wait and merge into one are taken before it closes (R543). -/
def takeMerging (e : ErRec) (s : State) : State :=
  let mine := s.recs.filter fun r => mergesInto r e && decide (r.sev ≠ 3)
  mine.foldl (fun s r => takeRec r s) { s with recs := s.recs.filter fun r => !(mergesInto r e && decide (r.sev ≠ 3)) }

/-- The 1 ms of a record ends: it closes, and one of severity ERROR starts a flush (R534, R538, R543). -/
def execRecordClose (seq : BitVec 48) (s : State) : Outcome :=
  .next (
    match s.er.buf.find? fun e => decide (e.seq = seq.toNat) && e.opened with
    | some e =>
      let s := takeMerging e s
      let s := afterClose { s with er := { s.er with buf := s.er.buf.map fun e =>
        if e.seq = seq.toNat then { e with opened := false, flushed := false } else e } }
      if e.r.sev = 2 then startFlush s else fullFlush s
    | none => s)

/-! ### MRAM and flushes (R537–R539) -/

/-- The record slot of a SEQ (R537). -/
def mramSlot (seq : Nat) : Nat := seq % 524287

/-- Writes a record into its slot (R537). -/
def mramWrite (e : ErRec) (s : State) : State :=
  { s with er := { s.er with
    mram := { s.er.mram with slots := Tab.set none s.er.mram.slots (mramSlot e.seq) (some e) }
    written := max s.er.written e.seq } }

/-- Writes every buffered record that MRAM does not hold, in SEQ order (R538). -/
def flushAll (s : State) : State :=
  let s := (s.er.buf.filter fun e => !e.flushed).foldl (fun s e => mramWrite e s) s
  { s with er := { s.er with buf := s.er.buf.map fun e => { e with flushed := true } } }

/-- The highest SEQ assigned goes into E with its valid bit (R533). -/
def writeLast (s : State) : State :=
  let s := seqBoot s
  { s with er := { s.er with mram := { s.er.mram with
    hdr := s.er.mram.hdr.map fun h => { h with last := seqNext s - 1, valid := true } } } }

/-- A flush at a reset: every record is taken, closed and written, and E follows (R538, R533). -/
def flushAtReset (s : State) : State :=
  let s := flushAll (closeAll (handOverAll s))
  writeLast (bump Cnt.erFlush { s with er := { s.er with flushing := false } })

/-- 100 ms after the oldest unflushed record (R538). -/
def execFlushAgeExpiry (s : State) : Outcome :=
  .next (if unflushed s = 0 then s else startFlush s)

/-- The flush ends. At power-fail the records still to come are taken and PF_WARN is handed over and written last; E
follows and the management processor enters standby (R538, R539, 17 R529). R45 names no SOURCE of PF_WARN; it has that of the
management processor (DESIGN CHOICE, log entry 91). -/
def execRecorderFlushDone (s : State) : Outcome :=
  .next (
    if !s.er.flushing then s
    else if s.pw.stage = .shed then
      let s := flushAll (handOverAll s)
      let s := if s.pw.warned then
          flushAll (takeRec ⟨3, 0x90, 4, s.time, BitVec.ofNat 64 s.pw.issued, s.hub.pfAccepts.setWidth 64, 0, 0, 0⟩ s)
        else s
      let s := writeLast (bump Cnt.erFlush { s with er := { s.er with flushing := false } })
      { s with pw := { s.pw with stage := .standby } }
    else
      let s := flushAll s
      bump Cnt.erFlush { s with er := { s.er with flushing := false } })

/-! ### Reading (R540, R541) -/

/-- Record s with its status of Table 18-4: 0 OK, 1 GONE, 2 FUTURE. -/
def erRead (n : Nat) (s : State) : BitVec 2 × Option ErRec :=
  if seqNext s ≤ n then (2, none)
  else
    match s.er.buf.find? fun e => decide (e.seq = n) with
    | some e => (0, some e)
    | none =>
      match Tab.get none s.er.mram.slots (mramSlot n) with
      | some e => if e.seq = n then (0, some e) else (1, none)
      | none => (1, none)

/-- The words of a record image, low word first. -/
def imageWords (bs : List Byte) : List Word :=
  (List.range 16).map fun i => BitVec.ofNat 32 (leAt bs (4 * i) 4)

/-- FETCH: the copy and its status; without a record the window reads as before (R541). -/
def execErFetch (s : State) : Outcome :=
  .next (
    match erRead s.er.rdSel.toNat s with
    | (st, some e) => { s with er := { s.er with rdStat := st, rdData := imageWords e.image } }
    | (st, none) => { s with er := { s.er with rdStat := st } })

/-- The 48-bit registers: 0 ER_SEQ_NEXT, 1 ER_FLUSHED, 2 ER_RD_SEL (R544). -/
def erWide (which : BitVec 2) (s : State) : BitVec 48 :=
  if which = 0 then BitVec.ofNat 48 (seqNext s)
  else if which = 1 then BitVec.ofNat 48 s.er.written
  else s.er.rdSel

/-- VFs have no read port (R541). -/
def erReads : Reader → Bool
  | .fn n => n = 0
  | _ => true

/-- The low half of a register and, for the reader's latch, its high half (R544; 15 R469). -/
def erLowRead (which : BitVec 2) (reader : Reader) (s : State) : Word × State :=
  let v := erWide which s
  if erReads reader then
    (hostValue reader (v.setWidth 32) s, match hostLatch reader s with
      | some n => { s with er := { s.er with
          latch := Tab.set 0 s.er.latch (n * 4 + which.toNat) ((v >>> 32).setWidth 32) } }
      | none => s)
  else (0, s)

/-- A read of a low half answers it and latches the high half for the reader. -/
def execErWideLowRead (which : BitVec 2) (reader : Reader) (s : State) : Outcome :=
  .next (
    if which = 3 then s
    else
      let (v, s) := erLowRead which reader s
      emit (.readValue v) s)

def execErCntclr (s : State) : Outcome := .next (clearCounters Cnt.erDrop Cnt.erFlush s)

end Sys2Proof.Machine
end

