-- ==== Sys2Proof/Machine/Taper.lean ====
section
/-! DEFINITION. Graph and move jobs (06 R222–R230, R236). -/

namespace Sys2Proof.Machine

/-! ### What a job reads and writes (R217, R225) -/

/-- A span that a job may reach. -/
def jobSpanOk (s : State) (j : Job) (pa : PA) : Bool :=
  match poolIndex s pa with
  | none => true
  | some i =>
    match (s.cn.span i).st with
    | .persistent => true
    | .candle => (match j.owner with | some h => ownedBy (s.cn.span i) h | none => false)
    | _ => false

/-- A check of the pages of some words from an address, in the address space and at the level of a job. -/
def jobWords (e : Nat) (j : Job) (kind : AccKind) (ok : State → PA → Bool) (va : Word) (words : Nat) (s : State) :
    Bool × State :=
  engineWords e j.asid j.priv kind ok va words s

/-- The check of R225 for words from an address. -/
def jobRange (e : Nat) (j : Job) (kind : AccKind) (va : Word) (words : Nat) (s : State) : Bool × State :=
  jobWords e j kind (fun s => jobSpanOk s j) va words s

/-- The address lies in a PERSISTENT span (R230). -/
def inPersistent (s : State) (pa : PA) : Bool :=
  match poolIndex s pa with
  | some i => decide ((s.cn.span i).st = .persistent)
  | none => false

def jobRead (e : Nat) (j : Job) (va : Word) (s : State) : Option MWord × State :=
  match taperXlate e j.asid j.priv .load va s with
  | (some pa, s) => let (w, s) := physRead pa s; (some w, s)
  | (none, s) => (none, s)

/-- A word is written; whether its address translated. -/
def jobWrite (e : Nat) (j : Job) (va : Word) (w : MWord) (s : State) : Bool × State :=
  match taperXlate e j.asid j.priv .store va s with
  | (some pa, s) => (true, physWrite none pa w s)
  | (none, s) => (false, s)

/-- Words from an address, none when one does not translate. -/
def jobReads (e : Nat) (j : Job) (va : Word) : Nat → State → Option (List MWord) × State
  | 0, s => (some [], s)
  | n + 1, s =>
    match jobRead e j va s with
    | (none, s) => (none, s)
    | (some w, s) =>
      match jobReads e j (va + 4) n s with
      | (some l, s) => (some (w :: l), s)
      | (none, s) => (none, s)

/-- Words are written in order up to one whose address does not translate: how many. -/
def jobWrites (e : Nat) (j : Job) (va : Word) : List MWord → State → Nat × State
  | [], s => (0, s)
  | w :: r, s =>
    match jobWrite e j va w s with
    | (true, s) =>
      let (n, s) := jobWrites e j (va + 4) r s
      (n + 1, s)
    | (false, s) => (0, s)

/-! ### Starting (Tables 06-1 to 06-3, R224, R230) -/

/-- A plan that ends with a status. -/
def failPlan (kind : BitVec 3) (status : BitVec 3) (ok : Bool) : JobPlan :=
  { kind := kind, hops := 0, status := status, writable := ok, vtx := 0, edge := 0, lab := 0, v := 0, e := 0,
    seedth := 0, growth := 0 }

/-- HDR of a homogeneous vector of a subtype. -/
def vecHdr (sub : BitVec 8) (w : MWord) : Bool := w.ty = Ty.hdr && w.val.extractLsb' 24 8 = sub

def hdrWords (w : MWord) : Nat := (w.val.extractLsb' 0 24).toNat

/-- Checks 2 to 5 of Table 06-3, the headers having passed check 1. -/
def graphPlan (e : Nat) (j : Job) (w : List MWord) (hv he hl : MWord) (ok : Bool) (s : State) : JobPlan × State :=
  let word (i : Nat) : Word := (lineWord w i).val
  let kind : BitVec 3 := (word 1).setWidth 3
  let next (p : Bool × State) (kind : AccKind) (i n : Nat) : Bool × State :=
    if p.1 then jobRange e j kind (word i) (1 + n) p.2 else p
  let (fine, s) := next (next (next (ok, s) .load 2 (hdrWords hv)) .load 3 (hdrWords he)) .store 4 (hdrWords hl)
  let bad (st : BitVec 3) : JobPlan × State := (failPlan kind st ok, s)
  if !fine then bad 4
  else if 65536 < hdrWords hv ∨ (kind ≠ 1 ∧ 262144 < hdrWords he) then bad 3
  else if hdrWords hl < hdrWords hv then bad 2
  else if hl.imm then bad 5
  else
    ({ kind := kind, hops := ((word 1).extractLsb' 8 8).toNat, status := 0, writable := ok, vtx := word 2, edge := word 3,
       lab := word 4, v := hdrWords hv, e := hdrWords he, seedth := word 5, growth := word 6 }, s)

/-- The header of a vector of a job: its HDR of the right subtype, or the status with which the job ends. -/
def readHdr (e : Nat) (j : Job) (va : Word) (sub : BitVec 8) (s : State) : Sum (BitVec 3) MWord × State :=
  match jobRead e j va s with
  | (none, s) => (.inl 4, s)
  | (some h, s) => (if vecHdr sub h then .inr h else .inl 1, s)

/-- A graph job's headers are read and checked one after the other (check 1). -/
def readGraph (e : Nat) (j : Job) (w : List MWord) (ok : Bool) (s : State) : JobPlan × State :=
  let at' (i : Nat) : MWord := lineWord w i
  let kind : BitVec 3 := (at' 1).val.setWidth 3
  let tags : Bool := (at' 2).ty = Ty.vec && (at' 3).ty = Ty.vec && (at' 4).ty = Ty.vec && (at' 5).ty = Ty.fix &&
    (at' 6).ty = Ty.fix
  if kind = 0 ∨ 5 ≤ kind.toNat ∨ !tags then (failPlan kind 1 ok, s)
  else
    match readHdr e j (at' 2).val 0x01 s with
    | (.inl st, s) => (failPlan kind st ok, s)
    | (.inr hv, s) =>
      match readHdr e j (at' 3).val 0x07 s with
      | (.inl st, s) => (failPlan kind st ok, s)
      | (.inr he, s) =>
        match readHdr e j (at' 4).val 0x01 s with
        | (.inl st, s) => (failPlan kind st ok, s)
        | (.inr hl, s) => graphPlan e j w hv he hl ok s

/-- The object of a MOVE: its length from its pointer and first word. A move plan keeps the source in vtx, the destination
in edge and the words in v. R230 gives no status for a misaligned destination or a pointer that names no object, which have TYPE
here, and no order of the checks, which is PRIV, TYPE, ACCESS, IMM; it names 8-byte alignment for a cons cell alone, which is
asked of an EXT cell too (DESIGN CHOICE, log entry 107). -/
def movePlan (e : Nat) (j : Job) (w : List MWord) (ok : Bool) (s : State) : JobPlan × State :=
  let p := lineWord w 2
  let d := lineWord w 3
  let tags : Bool := isPointer p.ty && d.ty = Ty.raw && (lineWord w 4).ty = Ty.nil && (lineWord w 5).ty = Ty.fix &&
    (lineWord w 6).ty = Ty.fix
  let bad (st : BitVec 3) (s : State) : JobPlan × State := (failPlan 4 st ok, s)
  let align := if p.ty = Ty.cons ∨ p.ty = Ty.ext then 8 else 4
  if j.priv = 0 then bad 7 s
  else if !tags || d.val.toNat % align ≠ 0 then bad 1 s
  else
    match jobRead e j p.val s with
    | (none, s) => bad 4 s
    | (some first, s) =>
      match (if first.ty = Ty.fwd then none else objectExtent p.ty first) with
      | none => bad 1 s
      | some n =>
        let (a, s) := jobRange e j .store p.val n s
        let (b, s) := if a then jobWords e j .store inPersistent d.val n s else (false, s)
        if !(ok && b) then bad 4 s
        else
          match jobReads e j p.val n s with
          | (none, s) => bad 4 s
          | (some src, s) =>
            match jobReads e j d.val n s with
            | (none, s) => bad 4 s
            | (some old, s) =>
              if (src ++ old).any fun w => w.imm then bad 5 s
              else ({ failPlan 4 0 ok with vtx := p.val, edge := d.val, v := n }, s)

/-- The record is read (R221, Table 06-1): its words 0 to 6, and whether it may be written. One that cannot be read is not
tried for the write, so that it raises one fault (12 R403). -/
def readRecord (e : Nat) (j : Job) (s : State) : Option (List MWord) × Bool × State :=
  match jobReads e j j.record 7 s with
  | (none, s) => (none, false, s)
  | (some w, s) =>
    let (ok, s) := jobRange e j .store j.record 13 s
    (some w, ok, s)

def recordOk (w : List MWord) : Bool :=
  let h := lineWord w 0
  let k := lineWord w 1
  h.ty = Ty.hdr && h.val = 0xC300000C && k.ty = Ty.fix && k.val.extractLsb' 16 16 = 0

/-- The next job of an engine: the earliest deadline, then the lower job ID (R229); a job of a killed event does not start
(R236). -/
def jobKey (e : Nat × Job) : Nat := e.2.deadline.toNat * 65536 + (e.2.gen.toNat * 1024 + e.1)

def nextJob (s : State) (e : Nat) : Option (Nat × Job) :=
  ((queuedOn s e).filter fun j => !j.2.killed).foldl (fun (b : Option (Nat × Job)) j =>
    match b with | some k => if jobKey j < jobKey k then some j else b | none => some j) none

/-- The kind that a job's record gives, 0 where it cannot be read. -/
def jobKind (w : Option (List MWord)) : BitVec 3 := match w with | some l => (lineWord l 1).val.setWidth 3 | none => 0

/-- The engine is free and its next job starts. Its record's HDR and word 1 are checked before anything of its kind (log entry
107). -/
def startJob (isMove : Bool) (e : Nat) (s : State) : State :=
  let g := s.engine e
  match nextJob s e with
  | none => s
  | some (i, j) =>
    if g.run.isSome ∨ g.evac.isSome ∨ !g.evacQ.isEmpty ∨ s.pf then s
    else
      let (w, ok, s') := readRecord e j s
      if decide (jobKind w = 4) ≠ isMove then { s with miss := s'.miss }
      else
        let (p, s') := match w with
          | none => (failPlan 0 4 ok, s')
          | some l =>
            if !recordOk l then (failPlan (jobKind w) 1 ok, s')
            else if isMove then movePlan e j l ok s'
            else readGraph e j l ok s'
        (s'.setJob i (some { j with plan := some p })).modEngine e fun x => { x with run := some i }

def execGraphJobStart (e : BitVec 3) (s : State) : Outcome := .next (withLines (startJob false e.toNat) s)

/-- Words of a MOVE are copied and their originals become FWD, of the same IMM (R230; 02 R74). -/
def moveWords (e : Nat) (j : Job) (src dst : Word) : Nat → State → State
  | 0, s => s
  | n + 1, s =>
    match taperXlate e j.asid j.priv .store src s with
    | (none, s) => s
    | (some p, s) =>
      match taperXlate e j.asid j.priv .store dst s with
      | (none, s) => s
      | (some q, s) =>
        let (w, s) := physRead p s
        let s := taperWrite q (copyOf s w) s
        moveWords e j (src + 4) (dst + 4) n (physWrite none p ⟨Ty.fwd, w.imm, false, dst⟩ s)

/-- POISON words of the source. -/
def movePoison (e : Nat) (j : Job) (p : JobPlan) (s : State) : Nat :=
  match (jobReads e j p.vtx p.v s).1 with
  | some l => (l.filter fun w => w.ty = Ty.poison).length
  | none => 0

/-- MOVE_JOB_START: the checks, and the copy of a job that passes them. The POISON words copied are kept in the plan for
the completion record. -/
def moveStart (e : Nat) (s : State) : State :=
  let t := startJob true e s
  if (s.engine e).run.isSome then t
  else match (t.engine e).run.bind fun i => (t.job i).bind fun j => j.plan.map fun p => (i, j, p) with
    | none => t
    | some (i, j, p) =>
      if p.status = 0 then
        moveWords e j p.vtx p.edge p.v (t.setJob i (some { j with plan := some { p with e := movePoison e j p t } }))
      else t

def execMoveJobStart (e : BitVec 3) (s : State) : Outcome := .next (withLines (moveStart e.toNat) s)

/-! ### Graph results (R226–R228, Table 06-4) -/

/-- Elements of a homogeneous vector from an address, none for POISON, up to one that does not translate or has another
TYPE: what was read, and the status with which the job stops there. -/
def readElems (e : Nat) (j : Job) (ty : Ty) (va : Word) : Nat → State → List (Option Word) × Option (BitVec 3) × State
  | 0, s => ([], none, s)
  | n + 1, s =>
    match jobRead e j va s with
    | (none, s) => ([], some 4, s)
    | (some w, s) =>
      if w.ty = ty ∨ w.ty = Ty.poison then
        let (l, st, s) := readElems e j ty (va + 4) n s
        ((if w.ty = ty then some w.val else none) :: l, st, s)
      else ([], some 1, s)

/-- POISON elements. -/
def poisons (l : List (Option Word)) : Nat := (l.filter Option.isNone).length

/-- The vertex is included, and it is a seed. -/
def included (growth : Word) (v : Option Word) : Bool := match v with | some x => growth.sle x | none => false
def isSeed (growth seedth : Word) (v : Option Word) : Bool :=
  included growth v && (match v with | some x => seedth.sle x | none => false)

/-- Edges with both ends below V and included, as index pairs. -/
def usedEdges (growth : Word) (vs : List (Option Word)) (es : List (Option Word)) : List (Nat × Nat) :=
  es.filterMap fun x => match x with
    | none => none
    | some w =>
      let a := (w.extractLsb' 0 16).toNat
      let b := (w.extractLsb' 16 16).toNat
      if included growth (vs.getD a none) && included growth (vs.getD b none) then some (a, b) else none

/-- Edges with an index of V or above. -/
def badEdges (v : Nat) (es : List (Option Word)) : Nat :=
  (es.filter fun x => match x with
    | none => false
    | some w => decide (v ≤ (w.extractLsb' 0 16).toNat) || decide (v ≤ (w.extractLsb' 16 16).toNat)).length

/-- The lesser of two labels, where a label may be absent. -/
def lesser (a b : Option Nat) : Option Nat :=
  match a, b with
  | some x, some y => some (min x y)
  | some x, none => some x
  | none, y => y

/-- One pass in which both ends of each edge take the lesser label. -/
def passBoth (ls : List (Option Nat)) (es : List (Nat × Nat)) : List (Option Nat) :=
  es.foldl (fun ls e => let m := lesser (ls.getD e.1 none) (ls.getD e.2 none); (ls.set e.1 m).set e.2 m) ls

/-- One pass in which the destination of each edge takes the lesser label. -/
def passDown (ls : List (Option Nat)) (es : List (Nat × Nat)) : List (Option Nat) :=
  es.foldl (fun ls e => ls.set e.2 (lesser (ls.getD e.2 none) (ls.getD e.1 none))) ls

/-- One hop: an unlabelled vertex takes the lowest label of its neighbours that were labelled before. -/
def hop (ls : List (Option Nat)) (es : List (Nat × Nat)) : List (Option Nat) :=
  ls.zipIdx.map fun l => match l.1 with
    | some x => some x
    | none => es.foldl (fun m e =>
        if e.1 = l.2 then lesser m (ls.getD e.2 none) else if e.2 = l.2 then lesser m (ls.getD e.1 none) else m) none

/-- Labels of the vertices under a kind (Table 06-4). -/
def labels (p : JobPlan) (vs : List (Option Word)) (es : List (Nat × Nat)) : List (Option Nat) :=
  let seeds := vs.zipIdx.map fun v => if isSeed p.growth p.seedth v.1 then some v.2 else none
  if p.kind = 1 then
    let own := vs.zipIdx.map fun v => if included p.growth v.1 then some v.2 else none
    Nat.iterate (fun ls => passBoth ls es) p.v own
  else if p.kind = 2 then
    ((Nat.iterate (fun ls => passDown ls es) p.v seeds).zip seeds).map fun x => if x.2.isSome then x.2 else x.1
  else Nat.iterate (fun ls => hop ls es) (if p.hops = 0 then p.v else p.hops) seeds

/-- A label word: POISON with source 0x6 for a POISON vertex, −1 for a vertex without a label. -/
def labelWord (v : Option Word) (l : Option Nat) : MWord :=
  match v, l with
  | none, _ => MWord.poison 6
  | _, some x => (TWord.fix (BitVec.ofNat 32 x)).m
  | _, none => (TWord.fix 0xFFFFFFFF).m

/-- What the completion record holds beside STATUS. -/
structure JobResult where
  status : BitVec 3
  visits : Nat
  comps : Nat
  bad : Nat
  poisoned : Nat
  words : Nat
  out : List MWord

/-- A job that stops: the POISON words that it has met and the words that it has processed still count (R228, Table 06-10). -/
def failResult (st : BitVec 3) (poisoned words : Nat) : JobResult := ⟨st, 0, 0, 0, poisoned, words, []⟩

/-- The words of a second pass over the edges (Table 06-4). -/
def secondPass (p : JobPlan) : Nat := if p.kind = 1 then 0 else p.e

/-- The result of a graph job with its elements. -/
def graphOut (p : JobPlan) (vs es : List (Option Word)) : JobResult :=
  let used := usedEdges p.growth vs es
  let ls := labels p vs used
  let out := (vs.zip ls).map fun x => labelWord x.1 x.2
  let written := ((vs.zip ls).filterMap fun x => if x.1.isSome then x.2 else none).dedup
  { status := 0, visits := used.length, comps := written.length, bad := badEdges p.v es,
    poisoned := poisons vs + poisons es, words := 2 * p.v + p.e + secondPass p, out := out }

/-- The result of a graph job. -/
def graphResult (e : Nat) (j : Job) (p : JobPlan) (s : State) : JobResult × State :=
  if p.v = 0 then (failResult 0 0 0, s)
  else
    match readElems e j Ty.fix (p.vtx + 4) p.v s with
    | (vs, some st, s) => (failResult st (poisons vs) vs.length, s)
    | (vs, none, s) =>
      match readElems e j Ty.raw (p.edge + 4) p.e s with
      | (es, some st, s) => (failResult st (poisons vs + poisons es) (vs.length + es.length), s)
      | (es, none, s) => (graphOut p vs es, s)

/-- The result of a job that has run. -/
def jobResult (e : Nat) (j : Job) (p : JobPlan) (s : State) : JobResult × State :=
  if p.status ≠ 0 then (failResult p.status 0 0, s)
  else if p.kind = 4 then (⟨0, p.v, 0, 0, p.e, 3 * p.v, []⟩, s)
  else graphResult e j p s

/-! ### Completion (R222, R223, R236) -/

/-- The completion words can be written: R225 holds for the record, and none of them is UNSET or POISON. -/
def canComplete (e : Nat) (j : Job) (ok : Bool) (s : State) : Bool × State :=
  if !ok then (false, s)
  else match jobReads e j (j.record + 28) 6 s with
    | (some l, s) => (l.all fun w => !(w.ty = Ty.unset || w.ty = Ty.poison), s)
    | (none, s) => (false, s)

/-- Words 7 to 12 are written, or the record is abandoned; the job is counted and its entry freed. -/
def finishJob (e i : Nat) (j : Job) (ok : Bool) (r : JobResult) (s : State) : State :=
  let (can, s) := canComplete e j ok s
  let fix (n : Nat) : MWord := (TWord.fix (BitVec.ofNat 32 n)).m
  let ws := if r.status = 0 then [fix r.visits, fix r.comps, fix r.bad, fix r.poisoned] else [fix 0, fix 0, fix 0, fix 0]
  let (n, s) := if can then
      jobWrites e j (j.record + 28) ([fix r.status.toNat] ++ ws ++ [(TWord.m ⟨Ty.time, s.time.setWidth 32⟩)]) s
    else (0, s)
  let err : Bool := !(r.status = 0 || r.status = 6) || decide (n ≠ 6)
  let s := if err then bump Cnt.tpErr s else s
  let s := if r.status = 6 then bump Cnt.tpKilled s else s
  bumpBy Cnt.tpWords r.words (bump Cnt.tpJobs (s.setJob i none))

/-- The TAPER wake-up of a job (Table 05-3). -/
def jobWake (i : Nat) (j : Job) (s : State) : State :=
  match j.task with
  | some t => if s.pf then s else readyTask t (fun d => d.waitKind = 3 && d.waitId = j.gen ++ BitVec.ofNat 10 i) s
  | none => s

/-- A job that runs on an engine with its plan. -/
def runningJob (s : State) (e : Nat) : Option (Nat × Job × JobPlan) :=
  (s.engine e).run.bind fun i => (s.job i).bind fun j => j.plan.map fun p => (i, j, p)

/-- The labels of a job are written; a fault of translation stops it with status ACCESS (12 R392). -/
def writeLabels (e : Nat) (j : Job) (p : JobPlan) (r : JobResult) (s : State) : JobResult × State :=
  let (n, s) := jobWrites e j (p.lab + 4) r.out s
  (if n = r.out.length then r else failResult 4 r.poisoned (r.words - (r.out.length - n)), s)

/-- A running job ends: labels are written, then the completion record, then the wake-up (R222). -/
def completeJob (e i : Nat) (j : Job) (p : JobPlan) (s : State) : State :=
  let (r, s) := jobResult e j p s
  let (r, s) := writeLabels e j p r s
  let s := if p.kind = 4 then s else bumpBy Cnt.tpPoison r.poisoned s
  jobWake i j (finishJob e i j p.writable r (s.modEngine e fun x => { x with run := none }))

/-- JOB_COMPLETE. A job whose event has been killed is left to ENGINE_KILL. -/
def execJobComplete (e : BitVec 3) (s : State) : Outcome :=
  let e := e.toNat
  .next (match runningJob s e with
    | none => s
    | some (i, j, p) =>
      if j.killed ∨ (s.engine e).evac.isSome ∨ s.pf then s else withLines (completeJob e i j p) s)

/-- A job that has not started completes at once with status KILLED. -/
def killQueued (e : Nat) (i : Nat) (j : Job) (s : State) : State :=
  let (ok, s) := jobRange e j .store j.record 13 s
  finishJob e i j ok (failResult 6 0 0) s

/-- A running job stops at a word boundary (R236, R239): how many of its words it has processed, of the vertices, the edges and
the labels, and of a second pass over the edges, is free (log entry 1). The words and the POISON words among them count, and the
labels among them stand. A move has copied all its words. -/
def stopJob (e : Nat) (j : Job) (p : JobPlan) (s : State) : JobResult × State :=
  if p.status ≠ 0 then (failResult 6 0 0, s)
  else if p.kind = 4 then (failResult 6 0 (3 * p.v), s)
  else
    let (n, s) := s.pick (2 * p.v + p.e + 1)
    let (vs, _, s) := readElems e j Ty.fix (p.vtx + 4) (min n p.v) s
    let (es, _, s) := readElems e j Ty.raw (p.edge + 4) (min (n - p.v) p.e) s
    let r (words : Nat) : JobResult := failResult 6 (poisons vs + poisons es) words
    if n < p.v + p.e then (r (vs.length + es.length), s)
    else
      let (m, s) := s.pick (secondPass p + 1)
      let (d, s) := jobResult e j p s
      let (k, s) := jobWrites e j (p.lab + 4) (d.out.take (n - p.v - p.e)) s
      (r (vs.length + es.length + m + k), s)

/-- A running job is killed: its record has status KILLED. -/
def killRunning (e : Nat) (i : Nat) (j : Job) (p : JobPlan) (s : State) : State :=
  let (r, s) := stopJob e j p s
  let s := if p.kind = 4 then s else bumpBy Cnt.tpPoison r.poisoned s
  finishJob e i j p.writable r (s.modEngine e fun x => { x with run := none })

/-- The jobs of killed events on an engine end. -/
def killJobs (e : Nat) (s : State) : State :=
  ((allJobs s).filter fun (j : Nat × Job) => decide (j.2.eng.toNat = e) && j.2.killed).foldl
    (fun s (x : Nat × Job) => match x.2.plan with
      | none => killQueued e x.1 x.2 s
      | some p => killRunning e x.1 x.2 p s) s

/-- ENGINE_KILL: the jobs of killed events on the engine complete KILLED, with no wake-up (R236). -/
def execEngineKill (e : BitVec 3) (s : State) : Outcome := .next (if s.pf then s else withLines (killJobs e.toNat) s)

end Sys2Proof.Machine
end

