-- ==== Sys2Proof/Machine/Power.lean ====
section
/-! DEFINITION. Module resets (17 R516, R517, R61) and the power-fail sequence (01 R45; 03 R138; 04 R176; 05 R213; 06 R239;
11 R378; 14 R458; 16 R510; 17 R529; 19 R551–R556). -/

namespace Sys2Proof.Machine

/-! ### Events without a decision -/

/-- The handle of a slot. -/
def slotHandle (s : State) (i : Nat) : BitVec 19 := mkHandle i (s.slot i).gen

/-- Puts a slot into its place by crossing. -/
def insertByCrossing (s : State) (i : Nat) : List Nat → List Nat
  | [] => [i]
  | j :: r => if (s.event i).crossing < (s.event j).crossing then i :: j :: r else j :: insertByCrossing s i r

/-- The slots whose events have no decision, in crossing order. These are the events that a reset ends while they are open: an
event that is DECIDED, SNUFFED or RETIRING has its record and does not count (R44 does not say which; DESIGN CHOICE, log entry
89). -/
def undecidedSlots (s : State) : List Nat :=
  ((s.cn.slots.map Prod.fst).filter fun i => undecided s (slotHandle s i)).foldr (insertByCrossing s) []

/-! ### The active slot (17 R523, R524) -/

/-- The firmware slot (true: B) that was active when this boot began; a slot that SLOT or FW_ACTIVATE names is active from the
next reset. -/
def activeSlot (s : State) : Bool := s.mg.bootB != s.mg.fallback

/-! ### Module reset (17 R517) -/

/-- The record of R44: events open, the lowest and highest crossing among them, and the records formed but not sent
(R212). R44 names no SOURCE; the record has that of the HUB (DESIGN CHOICE, log entry 90). -/
def resetRecord (s : State) : State :=
  let xs := (undecidedSlots s).map fun i => (s.event i).crossing
  let ends : BitVec 48 × BitVec 48 := match xs.head?, xs.getLast? with | some a, some b => (a, b) | _, _ => (0, 0)
  record 1 0x01 0x03 (BitVec.ofNat 64 xs.length) (ends.1.setWidth 64) (ends.2.setWidth 64)
    (BitVec.ofNat 64 (s.dp.queue.length + s.dp.rob.length)) 0 s

/-- A module reset: the recorder is flushed unless it has been already, and everything but fuses, floors, NOR and MRAM takes
its state after reset; entry to RETIRED wipes MRAM (17 R516–R518; R61). The module holds its own reset while RESET# is low
(19 R551). -/
def moduleReset (lc : LcState) (flush : Bool) (s : State) : State :=
  let s := if flush then flushAtReset (resetRecord s) else s
  let mram := if lc = .retired ∧ s.mg.stored.lc ≠ .retired then MramSt.empty else s.er.mram
  let pw : PwSt :=
    { PwSt.reset with straps := s.pw.straps, pin := s.pw.pin, stage := if s.pw.pin then .run else .held }
  { State.boot s.build { s.mg.stored with lc := lc } mram pw s.freeCtr with pending := s.pending, out := s.out, tap := s.tap }

/-- A reset by pin or command (17 R516). After a power-fail warning it is ignored while the module sheds and in standby; it ends
the shedding and the standby of a thermal trip (19 R555, R556; log entry 97). -/
def commandReset (s : State) : State :=
  match s.pw.stage with
  | .run => moduleReset s.mg.stored.lc true s
  | .shed => if s.pw.trip ∧ !s.pw.warned then moduleReset s.mg.stored.lc true s else s
  | .standby => if s.pw.trip then moduleReset s.mg.stored.lc false s else s
  | .off | .held => s

/-- RESET_PIN: RESET# has been low for 10 µs, which resets the module and holds its reset, or high for 1 ms, which releases it
(17 R516; 19 R551). -/
def execResetPin (high : Bool) (s : State) : Outcome :=
  let s := { s with pw := { s.pw with pin := high } }
  .next (
    if !high then commandReset s
    else if s.pw.stage = .held then { s with pw := { s.pw with stage := .run } }
    else s)

/-! ### Shedding (19 Table 19-5) -/

/-- A wick stops and discards its burst buffer (04 R176). -/
def wickStops (n : Nat) (s : State) : State :=
  let w := s.wick n
  let frames := (w.entries.map fun e => e.frames.length).sum +
    w.lanes.countP fun (l : Nat × LaneRx) => match l.2.rx with | some f => decide (f.units ≠ 0) | none => false
  let s := record 0 (0x10 + BitVec.ofNat 8 n) 0x40 (BitVec.ofNat 64 frames) 0 0 0 0 s
  s.modWick n fun w => { w with
    entries := w.entries.map fun e => { e with frames := [] }
    lanes := w.lanes.map fun (l : Nat × LaneRx) => (l.1, { l.2 with rx := none, skip := l.2.skip || l.2.rx.isSome }) }

/-- The job that an engine runs stops, with the words that it has processed; where a line of it is not there, at its first. -/
def runningStops (e : Nat) (s : State) : State :=
  match runningJob s e with
  | none => s
  | some (_, j, p) =>
    let (r, t) := stopJob e j p { s with miss := none }
    if t.miss.isSome then s else bumpBy Cnt.tpWords r.words (if p.kind = 4 then t else bumpBy Cnt.tpPoison r.poisoned t)

/-- An engine stops its jobs (06 R239): its record counts the graph, move, evacuation and mark jobs. -/
def engineStops (e : Nat) (s : State) : State :=
  let g := s.engine e
  let one (b : Bool) : BitVec 64 := if b then 1 else 0
  let isMove : Bool := match runningJob s e with
    | some (_, _, p) => decide (p.kind = 4)
    | none => false
  let s := runningStops e s
  let s := record 0 (0x40 + BitVec.ofNat 8 e) 0x38 (one (g.run.isSome && !isMove)) (one (g.run.isSome && isMove))
    (one g.evac.isSome) (one g.mark) 0 s
  s.modEngine e fun g => { g with run := none, evac := none, mark := false }

/-- A core stops: no context of it runs (19 Table 19-5 step 4). -/
def coreStops (k : CoreId) (s : State) : State :=
  let s := match (s.core k).running with
    | some n => s.modCtx (ctxOf k n) fun x => { x with st := .runnable }
    | none => s
  s.modCore k fun x => { x with running := none, uc := { x.uc with mode := .table } }

/-- A mailbox command is abandoned, as is one of I2C; one for microcode leaves a record, and no core's live bank changes any more (11 R378; 17
R529). -/
def mailboxStops (s : State) : State :=
  let uc : Bool := s.mg.go && 0x20 ≤ s.mg.cmd.toNat && s.mg.cmd.toNat ≤ 0x22
  let s := if uc then record 1 0x90 0x08 (s.mg.cmd.setWidth 64) 0 0 0 0 s else s
  { s with mg := { s.mg with go := false, ucWait := false, i2cSeq := none },
           cores := s.cores.map fun e => (e.1, { e.2 with uc := { e.2.uc with commit := false } }) }

/-- The power-fail sequence, once: the POWERFAIL decisions in crossing order, every block's stop and its record, the transit
packets and the POWERFAIL notices, and then the loads shed: fabric optics and PCIe (14 R458; 16 R510), and the start of the
flush. -/
def shed (s : State) : State :=
  if s.pw.stage ≠ .run ∧ s.pw.stage ≠ .held then s
  else
    let s := { s with pf := true }
    let slots := s.cn.slots
    let count (p : SlotSt → Bool) : BitVec 64 := BitVec.ofNat 64 (slots.countP fun (e : Nat × CnSlot) => p e.2.st)
    let s := (List.range 6).foldl (fun s n => wickStops n s) s
    let open' := undecidedSlots s
    let s := open'.foldl (fun s i => fallback (slotHandle s i) 5 s) { s with pw := { s.pw with issued := open'.length } }
    let s := record 0 0x30 0x33 (count fun x => decide (x ≠ .free)) (count fun x => decide (x = .retiring)) 0 0 0 s
    let s := (s.ctxs.map Prod.fst).foldl (fun s c => endWindowRead (BitVec.ofNat 10 c) none s) s
    let s := (s.cores.map Prod.fst).foldl (fun s k => coreStops (BitVec.ofNat 8 k) s) s
    let s := (List.range 8).foldl (fun s e => engineStops e s) s
    let s := record 0 0x70 0x73 (BitVec.ofNat 64 s.bl.reqs.length) 0 0 0 0 s
    let s := routeTransit s
    let s := ((List.range 16).filter fun p => (s.port p).st = .up).foldl (fun s p => linkFlit p 3 [] [] s) s
    startFlush (mailboxStops { s with pw := { s.pw with stage := .shed } })

/-- The input leaves its range (19 R553). With a thermal trip there is one sequence and both records (R556). -/
def execPowerFailWarning (s : State) : Outcome :=
  .next (
    let s := if s.pw.stage = .off ∨ s.pw.stage = .standby then s else { s with pw := { s.pw with warned := true } }
    shed s)

/-- The bus reaches the dropout: what is not in MRAM is lost (19 R556, Table 19-6). -/
def execInputDropout (s : State) : Outcome :=
  .next (
    if s.pw.stage = .shed ∨ s.pw.stage = .standby then
      { s with recs := [], er := ErSt.boot s.er.mram, pw := { s.pw with stage := .off } }
    else s)

/-- The input returns for 100 ms: a module reset, but not after a thermal trip (19 R555). -/
def execStandbyRelease (s : State) : Outcome :=
  .next (if s.pw.stage = .standby ∧ !s.pw.trip then moduleReset s.mg.stored.lc false s else s)

/-- PWRGD is high while every logic rail is in regulation: from power-up until a warning or a trip sheds load (19 R551, R553). -/
def pwrgd (s : State) : Bool := decide (s.pw.stage = .run ∨ s.pw.stage = .held)

/-- ALERT# is low from a warning or a trip until the release from standby, and while MG_STATUS.BOOTERR reads 1 (19 R553, R555,
Table 19-10). -/
def alertLow (s : State) : Bool := decide (s.pw.stage ≠ .off) && (s.mg.booterr || s.pw.warned || s.pw.trip)

/-- Power-up: straps are sampled, the rails come up, and the module's own reset is released if RESET# is high (19 R551,
R562). -/
def execInputPowerUp (straps : BitVec 3) (high : Bool) (s : State) : Outcome :=
  .next (
    if s.pw.stage = .off then
      { moduleReset s.mg.stored.lc false { s with pw := { s.pw with straps := straps, pin := high } } with tap := TapSt.reset }
    else s)

end Sys2Proof.Machine
end

