-- ==== Sys2Proof/Machine/Management.lean ====
section
/-! DEFINITION. The management plane: the millisecond's duties (17 R513–R515), the mailbox (17 R518–R526; 11 R374–R376) and
the MG_ commits (17 R531). -/

namespace Sys2Proof.Machine

/-! ### Sensors, clocks and trips (R513–R515) -/

def sensor (s : State) (n : Nat) : BitVec 16 := Tab.get 0 s.mg.sensors n

/-- The trip limit of a sensor in eighths of a degree: lanterns and the HUB 105 °C, HBM 100 °C; the others have none
(R515; sensors in the order of Table 17-1). -/
def tripLimit (n : Nat) : Option Int :=
  if n < 32 ∨ n = 36 then some 840 else if n < 36 then some 800 else none

def atTrip (n : Nat) (v : BitVec 16) : Bool := match tripLimit n with | some t => decide (t ≤ v.toInt) | none => false

/-- A lantern's clock after a sample: down a step above TARGET, up a step at or below TARGET − 3 °C, and no higher than the
ceiling (R514, Table 17-9). -/
def stepClock (target : BitVec 8) (temp : BitVec 16) (ceil now : BitVec 5) : BitVec 5 :=
  let t : Int := 8 * target.toNat
  if ceil.toNat < now.toNat then ceil
  else if t < temp.toInt then (if 8 < now.toNat then now - 1 else now)
  else if temp.toInt ≤ t - 24 then (if now.toNat < ceil.toNat then now + 1 else now)
  else now

/-- A thermal trip of a sensor: its record, its count and the power-fail sequence (R515). -/
def thermalTrip (n : Nat) (v : BitVec 16) (s : State) : State :=
  bump Cnt.mgTrip (record 3 0x90 0x05 (BitVec.ofNat 64 n) (v.setWidth 64) 0 0 0 { s with pw := { s.pw with trip := true } })

/-! ### Error sums (R513, Table 17-12) -/

def lanesOf (cnt : Nat → Nat → Nat) : List Nat := (List.range 6).flatMap fun n => (List.range 16).map fun p => cnt n p
def perPort (cnt : Nat → Nat) : List Nat := (List.range 16).map cnt
def perMc (cnt : Nat → Nat) : List Nat := (List.range 4).map cnt

/-- Each sum with the counters that it adds. -/
def sumOf : List (Nat × List Nat) :=
  [(Cnt.mgSumMemcorr, [Cnt.ccL1Corr, Cnt.ccL2Corr] ++ perMc Cnt.mcCorr ++ perMc Cnt.mcScrubCorr),
   (Cnt.mgSumMemunc, [Cnt.ccMbUncorr, Cnt.ccL2Uncorr] ++ perMc Cnt.mcUncorr ++ perMc Cnt.mcScrubUncorr),
   (Cnt.mgSumLane, lanesOf Cnt.wkCrc ++ lanesOf Cnt.wkLen ++ lanesOf Cnt.wkFmt ++ lanesOf Cnt.wkFraming ++
     lanesOf Cnt.wkSyncErr),
   (Cnt.mgSumFabric, perPort Cnt.blCrc ++ perPort Cnt.blFecUnc ++ perPort Cnt.blLost ++ [Cnt.blTimeout]),
   (Cnt.mgSumFallback, [Cnt.snDeadline, Cnt.snNocandle, Cnt.snPoison, Cnt.snFault, Cnt.snPowerfail])]

/-- What a counter has counted since the last sum, before it was cleared too. -/
def countedSince (s : State) (off : Nat) : Nat := Tab.get 0 s.mg.unsummed off + sinceSeen s off

def addSum (s : State) (e : Nat × List Nat) : State :=
  let s := bumpBy e.1 ((e.2.map (countedSince s)).sum) s
  { s with mg := { s.mg with seen := e.2.foldl (fun t off => Tab.set 0 t off (s.counter off)) s.mg.seen } }

/-- The sums of the millisecond. -/
def addSums (s : State) : State :=
  let s := bumpBy Cnt.mgSumMemcorr s.ms.cstoreCorr s
  let s := sumOf.foldl addSum { s with ms := { s.ms with cstoreCorr := 0 } }
  { s with mg := { s.mg with unsummed := [] } }

/-- The records that gather a millisecond's happenings (Table 18-3: DEFER_DROP, NODEST, BL_TIMEOUT). -/
def msRecords (s : State) : State :=
  let n (k : Nat) : BitVec 64 := BitVec.ofNat 64 k
  let s := if s.ms.deferDrop = 0 then s else record 1 0x20 0x12 (n s.ms.deferDrop) 0 0 0 0 s
  let s := if s.ms.nodest = 0 then s else record 2 0x22 0x13 (n s.ms.nodest) 0 0 0 0 s
  let s := if s.ms.blTimeout = 0 then s else record 2 0x70 0x70 (n s.ms.blTimeout) 0 0 0 0 s
  { s with ms := { s.ms with deferDrop := 0, nodest := 0, blTimeout := 0 } }

/-- The sample: readings, the commit of MG_THERM that takes effect with it, clocks and trips: a lantern or the HUB at its
limit in two consecutive samples, an HBM stack in one (R515). A trip that meets a power-fail warning's sequence leaves its
record too (19 Table 19-6); standby has no further trip. -/
def takeSample (readings : List (BitVec 16)) (s : State) : State :=
  let reads : Tab (BitVec 16) := (List.range 50).foldl (fun t i => Tab.set 0 t i (readings.getD i 0)) []
  let hotNow := (List.range 37).filter fun n => atTrip n (readings.getD n 0)
  let trips := hotNow.filter fun n => s.mg.hot.contains n || (decide (32 ≤ n) && decide (n < 36))
  let therm := if s.mg.therm.pend then s.mg.therm.commit else s.mg.therm
  let freq := (List.range 32).foldl (fun (t : Tab (BitVec 5)) l =>
    Tab.set 16 t l (stepClock therm.lv (readings.getD l 0) (Tab.get 16 s.mg.ceil l) (Tab.get 16 t l))) s.mg.freq
  let s := { s with mg := { s.mg with sensors := reads, sampled := s.time, hot := hotNow, therm := therm, freq := freq } }
  let s := trips.foldl (fun s n =>
    if s.pw.trip || !(decide (s.pw.stage = .run) || decide (s.pw.stage = .shed)) then s
    else thermalTrip n (readings.getD n 0) s) s
  if s.pw.trip then shed s else s

/-- MG_MS_TICK: the duties of a millisecond; late: its sample was missed (R513). -/
def execMgMsTick (readings : List (BitVec 16)) (late : Bool) (s : State) : Outcome :=
  .next (
    if s.pw.stage = .off ∨ s.pw.stage = .held then s
    else
      let s := { s with er := { s.er with irqSent := false } }
      let s := if late then bump Cnt.mgLate s else takeSample readings s
      erVector (msRecords (addSums s)))

/-! ### The mailbox (R526) -/

def mbArg (s : State) (n : Nat) : Word := Tab.get 0 s.mg.args n
/-- A physical address in two arguments. -/
def mbAddr (s : State) (n : Nat) : PA := (mbArg s (n + 1) ++ mbArg s n).setWidth 53
def setRes (n : Nat) (v : Word) (s : State) : State := { s with mg := { s.mg with res := Tab.set 0 s.mg.res n v } }

/-- An LC_SET that fails a check (R521). -/
def lcRefused (target : Word) (status : BitVec 8) (s : State) : State :=
  mbDone status 0 (record 2 0x90 0x06 (target.setWidth 64) (status.setWidth 64) 0 0 0 s)

/-- A refused microcode command leaves a record (R374). -/
def ucRefused (status : BitVec 8) (detail : Nat) (s : State) : State :=
  mbDone status (BitVec.ofNat 16 detail)
    (record 2 0x90 0x07 (s.mg.cmd.setWidth 64) (status.setWidth 64) (BitVec.ofNat 64 detail) 0 0 s)

/-- RETIRED refuses every command (Table 17-4; 11 R375). -/
def retiredRefuses (code : BitVec 8) (s : State) : State :=
  if code = 0x11 then lcRefused (mbArg s 0) 2 s
  else if 0x20 ≤ code.toNat ∧ code.toNat ≤ 0x22 then ucRefused 2 0 s
  else mbDone 2 0 s

/-- The command that the mailbox holds is performed: RETIRED refuses every one (Table 17-4). -/
def onMailbox (code : BitVec 8) (f : State → State) (s : State) : Outcome :=
  .next (
    if s.mg.go ∧ s.mg.cmd = code ∧ s.mg.ready ∧ !s.mg.ucWait ∧ s.pw.stage = .run then
      if s.mg.stored.lc = .retired then retiredRefuses code s else withLines f s
    else s)

def execMbTelem (s : State) : Outcome :=
  onMailbox 0x01 (fun s =>
    let n := (mbArg s 0).toNat
    if 50 ≤ n then mbDone 12 0 s
    else
      mbDone 0 0 (setRes 2 (s.mg.sampled.extractLsb' 32 32) (setRes 1 (s.mg.sampled.setWidth 32)
        (setRes 0 ((sensor s n).setWidth 32) s)))) s

def execMbReset (s : State) : Outcome :=
  onMailbox 0x08 (fun s => if mbArg s 0 = 0x52545354 then moduleReset s.mg.stored.lc true s else mbDone 12 0 s) s

/-! ### Life cycle and keys (R518–R521) -/

def execLcNonce (s : State) : Outcome :=
  onMailbox 0x10 (fun s =>
    let at_ := s.freeCtr
    let (ws, s) := drawWords 8 s
    let s := { s with mg := { s.mg with nonce := at_, nonceTold := true } }
    mbDone 0 0 ((List.range 8).foldl (fun s i => setRes i (ws.getD i 0) s) s)) s

/-- Life-cycle states by number (Table 17-4). -/
def LcState.code : LcState → BitVec 3
  | .blank => 0 | .provisioned => 1 | .operational => 2 | .service => 3 | .retired => 4

def lcOf (n : Word) : Option LcState :=
  if n = 1 then some .provisioned else if n = 2 then some .operational else if n = 3 then some .service
  else if n = 4 then some .retired else none

/-- The signed transitions of Table 17-4. -/
def lcStep : LcState → LcState → Bool
  | .provisioned, .operational | .operational, .service | .operational, .provisioned | .service, .operational
  | .service, .provisioned | .provisioned, .retired | .operational, .retired | .service, .retired => true
  | _, _ => false

/-- The words of a nonce, from the first of its free values. -/
def nonceWords (at_ : Nat) : List Word := (List.range 8).map fun i => Config.freeWord (at_ + i)

/-- The 64 bytes that LC_SET signs (R521). -/
def lcMessage (target : Word) (nonce : List Word) : List Byte :=
  target.setWidth 8 :: List.replicate 15 0 ++ Config.serial ++ nonce.flatMap wordBytes

/-- A number of 48 bytes as device memory holds it, least significant byte first (00 R13), in the order that ecdsaVerify takes
it; two of them make a key or a signature. -/
def memoryPair (l : List Byte) : List Byte := (l.take 48).reverse ++ (l.drop 48).reverse

/-- LC_SET: arguments target and the signature's address; the nonce serves once, if LC_NONCE has returned it (R521). -/
def execLcSet (s : State) : Outcome :=
  onMailbox 0x11 (fun s =>
    let target := mbArg s 0
    let told := s.mg.nonceTold
    let msg := lcMessage target (nonceWords s.mg.nonce)
    let s := { s with mg := { s.mg with nonceTold := false } }
    match lcOf target with
    | none => lcRefused target 2 s
    | some lc =>
      if !lcStep s.mg.stored.lc lc then lcRefused target 2 s
      else
        let (sig, s) := physBytes (mbAddr s 1) 96 s
        if told && s.miss.isNone && s.mg.stored.keys.any fun k => !k.revoked && ecdsaVerify k.key msg (memoryPair sig)
        then moduleReset lc true s
        else lcRefused target 7 s) s

/-- KEY_ENROLL: arguments key ID and the key's address (R520); the first key in BLANK is a transition (Table 17-4). -/
def execKeyEnroll (s : State) : Outcome :=
  onMailbox 0x12 (fun s =>
    let lc := s.mg.stored.lc
    let id := (mbArg s 0)
    let n := s.mg.stored.keys.length
    if lc ≠ .blank ∧ lc ≠ .provisioned then mbDone 2 0 s
    else if id.toNat = 0 ∨ 0x7FFF < id.toNat ∨ s.mg.stored.keys.any (fun k => k.id.toNat = id.toNat) then mbDone 12 0 s
    else if 8 ≤ n then mbDone 13 0 s
    else
      let (key, s) := physBytes (mbAddr s 1) 96 s
      let keys := s.mg.stored.keys ++ [⟨id.setWidth 16, memoryPair key, false⟩]
      let s := setRes 0 (BitVec.ofNat 32 n) { s with mg := { s.mg with stored := { s.mg.stored with keys := keys } } }
      if lc = .blank ∧ s.miss.isNone then moduleReset .provisioned true s else mbDone 0 0 s) s

/-- KEY_REVOKE: only in PROVISIONED and while another unrevoked slot remains (R520). -/
def execKeyRevoke (s : State) : Outcome :=
  onMailbox 0x13 (fun s =>
    let id := mbArg s 0
    let keys := s.mg.stored.keys
    let isIt (k : KeySlot) : Bool := decide (k.id.toNat = id.toNat) && !k.revoked
    if s.mg.stored.lc ≠ .provisioned then mbDone 2 0 s
    else if !keys.any isIt then mbDone 12 0 s
    else if !keys.any (fun k => !k.revoked && !isIt k) then mbDone 2 0 s
    else
      let slot := (keys.findIdx? isIt).getD 0
      let keys := keys.map fun k => if isIt k then { k with revoked := true } else k
      mbDone 0 0 (setRes 0 (BitVec.ofNat 32 slot) { s with mg := { s.mg with stored := { s.mg.stored with keys := keys } } })) s

/-! ### Microcode (11 R374–R376) -/

/-- R375: banks in OPERATIONAL and SERVICE; patches in SERVICE while the Lamplighter is off and idle; any other KIND is left
to the header's check. -/
def ucAccepted (s : State) (kind : Nat) : Bool :=
  if kind = 2 then eventsAllowed s
  else if kind = 1 then s.mg.stored.lc = .service && !s.ll.enable && (liveTasks s).isEmpty
  else true

/-- Every core commits at the first cycle that lets it; the command completes when all have (R376). -/
def startCommit (s : State) : State :=
  let s := allCores (fun u => { u with commit := true, shadowLoaded := false }) s
  { s with mg := { s.mg with ucWait := true } }

/-- The longest image (Table 11-12). -/
def imgMax : Nat := 0x40 + 4 * 64 + 18 * 2048 + 96

/-- UC_LOAD: arguments address, length and LIVE. -/
def execUcLoad (s : State) : Outcome :=
  onMailbox 0x20 (fun s =>
    let len := (mbArg s 2).toNat
    let (l, s) := physBytes (mbAddr s 0) (min len imgMax) s
    if !ucAccepted s (imgKind l) then ucRefused 2 0 s
    else
      match imgCheck s l len with
      | some (st, d) => ucRefused st d s
      | none =>
        if imgKind l = 1 then mbDone 0 0 (allCores (loadPatch l) s)
        else
          let s := allCores (loadBank l) s
          if (mbArg s 3).getLsbD 0 then startCommit s else mbDone 0 0 s) s

/-- UC_COMMIT. -/
def execUcCommit (s : State) : Outcome :=
  onMailbox 0x21 (fun s =>
    if !eventsAllowed s then ucRefused 2 0 s
    else if !(s.core 0).uc.shadowLoaded then ucRefused 10 0 s
    else startCommit s) s

/-- The live version of a kind and key: of core 0's patch or bank, or the running firmware (Table 11-14, ROLLBACK). -/
def liveVersion (s : State) (kind : Nat) (keyid : BitVec 16) : BitVec 16 :=
  let u := (s.core 0).uc
  if kind = 1 then u.patchVersion
  else if kind = 2 then (if u.live.valid ∧ u.live.keyid = keyid then u.live.version else 0)
  else s.mg.fwVersion

/-- UC_FLOOR: arguments KIND, KEYID and VERSION; KIND 3 is firmware (17 R522). A key ID that no enrolled key carries is
NO_KEY, as is one other than 0 of a kind that the vendor signs. A floor is never lowered. -/
def execUcFloor (s : State) : Outcome :=
  onMailbox 0x22 (fun s =>
    let kind := (mbArg s 0).toNat
    let key : BitVec 16 := (mbArg s 1).setWidth 16
    let v : BitVec 16 := (mbArg s 2).setWidth 16
    if !ucAccepted s kind then ucRefused 2 0 s
    else if kind = 0 ∨ 3 < kind then ucRefused 12 0 s
    else if (if kind = 2 then (enrolledKey s key).isNone else decide (key ≠ 0)) then ucRefused 6 0 s
    else if liveVersion s kind key < v then ucRefused 8 0 s
    else
      let i := kind * 65536 + key.toNat
      let f := if floorOf s kind key < v then v else floorOf s kind key
      mbDone 0 0 { s with mg := { s.mg with stored := { s.mg.stored with floors := Tab.set 0 s.mg.stored.floors i f } } }) s

/-! ### Firmware (17 R524) -/

/-- FW_STAGE: arguments address and length; the inactive slot takes the image, which is verified as it is read back. -/
def execFwStage (s : State) : Outcome :=
  onMailbox 0x30 (fun s =>
    let len := (mbArg s 2).toNat
    if 0x1000000 < len then mbDone 3 0 s
    else
      let (l, s) := physBytes (mbAddr s 0) len s
      let slot : Nat := if activeSlot s then 0 else 1
      let bad := fwCheck s l len
      let s := setRes 0 (BitVec.ofNat 32 slot) { s with mg := { s.mg with
        staged := bad.isNone
        stored := { s.mg.stored with images := Tab.set none s.mg.stored.images slot (some l) } } }
      mbDone (bad.getD 0) 0 s) s

/-- FW_ACTIVATE: the staged slot is active, with its attempt flag, from the next reset. -/
def execFwActivate (s : State) : Outcome :=
  onMailbox 0x31 (fun s =>
    if !s.mg.staged then mbDone 10 0 s
    else
      let b := !activeSlot s
      let st := { s.mg.stored with
        slotB := b
        attemptA := if b then s.mg.stored.attemptA else true
        attemptB := if b then true else s.mg.stored.attemptB
        fresh := some b }
      mbDone 0 0 (setRes 0 (if b then 1 else 0) { s with mg := { s.mg with stored := st, staged := false } })) s

/-! ### DEBUG_REQ and LCEIL (10 R338; 17 R514, R519) -/

def execMbDebugReq (s : State) : Outcome :=
  onMailbox 0x40 (fun s =>
    if s.mg.stored.lc ≠ .service then mbDone 2 0 s
    else if 0x400 ≤ (mbArg s 0).toNat then mbDone 12 0 s
    else mbDone 0 0 (s.modCtx ((mbArg s 0).setWidth 10) fun x => { x with dbg := true })) s

/-- LCEIL: arguments lantern mask and ceiling, 8 to 16 steps of 100 MHz. -/
def execLceil (s : State) : Outcome :=
  onMailbox 0x41 (fun s =>
    let c := (mbArg s 1).toNat
    if c < 8 ∨ 16 < c then mbDone 12 0 s
    else
      let ceil := (List.range 32).foldl (fun (t : Tab (BitVec 5)) l =>
        if (mbArg s 0).getLsbD l then Tab.set 16 t l (BitVec.ofNat 5 c) else t) s.mg.ceil
      mbDone 0 0 { s with mg := { s.mg with ceil := ceil } }) s

/-! ### Commits (R531) -/

/-- THERM_COMMIT takes effect at the next sample; a TARGET outside 70–100 is refused. -/
def execMgThermCommit (s : State) : Outcome :=
  .next { s with mg :=
    if 70 ≤ s.mg.therm.sh.toNat ∧ s.mg.therm.sh.toNat ≤ 100 then { s.mg with therm := s.mg.therm.request }
    else { s.mg with therm := s.mg.therm.refuse, cfgerr := true } }

def execMgCntclr (s : State) : Outcome := .next (clearCounters Cnt.mgSumMemcorr Cnt.mgTrip s)

end Sys2Proof.Machine
end

