-- ==== Sys2Proof/Machine/Boot.lean ====
section
/-! DEFINITION. The end of boot (17 R523–R525). -/

namespace Sys2Proof.Machine

/-- The slot that boot runs from (true: B): the active one, unless it does not verify or its attempt flag was set; then the
other; none when no slot is left (R523). -/
def bootSlot (s : State) (okA okB : Bool) : Option Bool :=
  let active := activeSlot s
  let ok (b : Bool) : Bool := if b then okB else okA
  if !s.mg.skip && ok active then some active
  else if ok !active then some !active
  else none

/-- The image in firmware slot b of the NOR, and the one in the vendor patch slot of that letter (Table 17-5). -/
def slotImage (s : State) (b : Bool) : List Byte := s.mg.stored.region (if b then 1 else 0)
def patchImage (s : State) (b : Bool) : List Byte := s.mg.stored.region (if b then 3 else 2)

/-- A vendor patch slot verifies (11 R373, R375). -/
def patchOk (s : State) (l : List Byte) : Bool := decide (imgKind l = 1) && decide (imgCheck s l l.length = none)

/-- The vendor patch of boot: of the slot with the firmware's letter, and where that does not verify of the other (R523). -/
def patchOf (s : State) (slot : Bool) : Option (List Byte) :=
  let same := patchImage s slot
  let other := patchImage s !slot
  if patchOk s same then some same else if patchOk s other then some other else none

/-- The vendor patch is loaded in every state but RETIRED (11 R375). -/
def bootPatch (patch : Option (List Byte)) (s : State) : State :=
  match patch with
  | none => s
  | some l => if s.mg.stored.lc ≠ .retired then allCores (loadPatch l) s else s

/-- In OPERATIONAL and SERVICE every core whose tests passed enters service mode (17 Table 17-6, 11 Table 11-7). -/
def releaseCores (s : State) : State :=
  if eventsAllowed s then
    (List.range 256).foldl (fun s k =>
      let k : CoreId := BitVec.ofNat 8 k
      if (s.core k).uc.mode = .table then resched k (s.modUc k fun u => { u with mode := .service }) else s) s
  else s

/-- The SRAMs are wiped again (17 Table 17-6 step 8): contexts, and what the cores hold beside their control stores; L2s and
walk caches, directories and tag caches; the burst buffers of the wicks. What the registers of the blocks hold stays, and so do
requests under way (log entry 97). -/
def wipeSrams (s : State) : State :=
  { s with
    ctxs := []
    cores := s.cores.map fun (e : Nat × CoreSt) => (e.1, { CoreSt.reset with uc := e.2.uc })
    lans := []
    mcs := s.mcs.map fun (e : Nat × McSt) => (e.1, { e.2 with dir := [], dirClock := 0, tagc := [] })
    wk := { s.wk with wicks := s.wk.wicks.map fun (e : Nat × WkSt) => (e.1, { e.2 with
      entries := e.2.entries.map fun x => { x with frames := [] }
      lanes := e.2.lanes.map fun (l : Nat × LaneRx) => (l.1, { l.2 with rx := none, skip := l.2.skip || l.2.rx.isSome }) }) } }

/-- Steps 8 and 9 of boot: the SRAMs are wiped, the attempt flag of the slot is cleared, READY is set and BOOT_DONE recorded
(R524, R525). -/
def bootDone (slot : Bool) (version : BitVec 16) (s : State) : State :=
  let s := wipeSrams s
  let st := s.mg.stored
  let st := { st with
    attemptA := if slot then st.attemptA else false
    attemptB := if slot then false else st.attemptB }
  let s := { s with mg := { s.mg with
    stored := st, ready := true, fwVersion := version } }
  let e : Nat := match s.er.atBoot with | some h => if h.valid then h.last else 0 | none => 0
  let m : Nat := match s.er.atBoot with | some h => h.mark | none => 0
  record 0 0x90 0x01 (version.setWidth 64) ((bit s.mg.fallback ++ bit slot).setWidth 64) (BitVec.ofNat 64 e) (BitVec.ofNat 64 m) 0
    (releaseCores s)

/-- The slot that boot uses, and FALLBACK when it is not the active one (R523). -/
def bootFrom (slot : Bool) (s : State) : State :=
  { s with mg := { s.mg with fallback := decide (slot ≠ activeSlot s), bootB := slot } }

/-- BOOT_READY: the step that failed, if one did after the slot was chosen, and the PCIe link that trained. The boot ROM
verifies the slots of the NOR with the vendor key and the floor (R522), and where neither verifies it stays (R523). The HBM
wipe has ended. -/
def execBootReady (fail : Option (BitVec 4)) (speed : BitVec 4) (width : BitVec 5) (s : State) : Outcome :=
  let ok (b : Bool) : Bool := decide (fwCheck s (slotImage s b) (slotImage s b).length = none)
  .next (
    if s.mg.ready ∨ s.mg.booterr ∨ s.mg.romOnly ∨ s.pw.stage ≠ .run then s
    else
      match bootSlot s (ok false) (ok true) with
      | none => { s with mg := { s.mg with romOnly := true } }
      | some slot =>
        match fail with
        | some step =>
          let s := bootFrom slot s
          record 3 0x90 0x02 (step.setWidth 64) 0 0 0 0 { s with mg := { s.mg with booterr := true } }
        | none =>
          if (List.range 4).any fun c => (s.mc c).wipeBusy then s
          else
            bootDone slot (imgVersion (slotImage s slot))
              (bootPatch (patchOf s slot) { bootFrom slot s with hi := { s.hi with speed := speed, width := width } }))

end Sys2Proof.Machine
end

