-- ==== Sys2Proof/Machine/MemTest.lean ====
section
/-! DEFINITION. The commands of the translation block (12 R403, R404) and of the memory controllers' test and error registers
(13 R426, R429). -/

namespace Sys2Proof.Machine

/-! ### MM_ (R403, R404) -/

/-- ROOT_COMMIT acts at once, between walks; a BASE that R403 does not allow is refused. -/
def execMmRootCommit (s : State) : Outcome :=
  let b := s.mm.rootSh
  let ok : Bool := b.toNat % 0x8000 = 0 && nodeOf b = s.node && localOf b + 0x8000 ≤ sidecarBase s.build
  .next { s with mm := if ok then { s.mm with root := b, en := s.mm.enSh } else { s.mm with cfgerr := true } }

def execMmCntclr (s : State) : Outcome := .next (clearCounters Cnt.mmWalks Cnt.mmFaults s)

def execMmLastfClr (s : State) : Outcome := .next { s with mm := { s.mm with lastVa := 0, lastInfo := 0 } }

/-! ### MC_LASTE (R426) -/

/-- The latch of a reader of MC_LASTE: cores have one too (R426). -/
def lasteReader (r : Reader) (s : State) : Option Nat :=
  match r with
  | .core k => some (coreLatch k)
  | r => hostLatch r s

/-- A read of the low half answers it and latches the high half for the reader (R426; 15 R469). -/
def execMcLasteLowRead (n : BitVec 2) (reader : Reader) (s : State) : Outcome :=
  let v := (s.mc n.toNat).laste
  .next (emit (.readValue (hostValue reader (v.setWidth 32) s)) (match lasteReader reader s with
    | some r => latchLaste n.toNat r s
    | none => s))

/-! ### Test accesses (R429) -/

/-- One past the last byte of HBM (00 Table 00-1). -/
def hbmEnd : Build → Nat
  | .h64 => 0x1000000000
  | .h32 => 0x0800000000

/-- A test access; a line of the tagged data region is first recalled from every holder (R429), and one of the sidecar waits
for the wipe of its controller (R428). -/
def testCmd (n : BitVec 2) (write : Bool) (s : State) : State :=
  let c := n.toNat
  let m := s.mc c
  let loc := m.testAddr.toNat / 64 * 64
  if s.mg.stored.lc ≠ .service then s.modMc c fun m => { m with cfgerr := true }
  else if m.testBusy then s
  else if inData s loc then
    let s := s.modMc c fun m => { m with testBusy := true }
    homeRequest ⟨s.node, 0, 0, none⟩ (.test c write) (lineNo (mkPa s.node loc)) s
  else if loc < hbmEnd s.build then
    if (s.mc (sidecarAgent s loc)).wipeBusy then s.modMc c fun m => { m with testBusy := true, testHeld := some (write, loc) }
    else testSidecar c write loc s
  else unpopulated (mkPa s.node loc) s

def execMcTestRead (n : BitVec 2) (s : State) : Outcome := .next (testCmd n false s)
def execMcTestWrite (n : BitVec 2) (s : State) : Outcome := .next (testCmd n true s)

end Sys2Proof.Machine
end

