-- ==== Sys2Proof/Machine/RegRead.lean ====
section
/-! DEFINITION. The value of every register, by its BAR0 offset (00 R15–R17, R19; the register tables of chapters 03 to 06 and 12
to 18), and the load of a register by a core (12 R382). A reserved offset and a reserved field read 0. -/

namespace Sys2Proof.Machine

/-! ### Fields -/

/-- A field with its lowest bit at a place. -/
def fld {w : Nat} (lo : Nat) (v : BitVec w) : Word := v.setWidth 32 <<< lo
def fldB (lo : Nat) (b : Bool) : Word := fld lo (bit b)
def fldN (lo n : Nat) : Word := BitVec.ofNat 32 n <<< lo

/-- The halves of a value that takes two registers (R15). -/
def loHalf {w : Nat} (v : BitVec w) : Word := v.setWidth 32
def hiHalf {w : Nat} (v : BitVec w) : Word := (v >>> 32).setWidth 32

/-- An offset is one of n registers that stand step bytes apart from a base: its number. -/
def regAt (base step n o : Nat) : Option Nat :=
  if base ≤ o ∧ (o - base) % step = 0 ∧ (o - base) / step < n then some ((o - base) / step) else none

/-! ### Codes of states -/

def SlotSt.code : SlotSt → BitVec 3
  | .free => 0
  | .opened => 1
  | .closed => 2
  | .decided => 3
  | .snuffed => 4
  | .retiring => 5

def SpanSt.code : SpanSt → BitVec 3
  | .free => 0
  | .persistent => 1
  | .candle => 2
  | .cooling => 3
  | .retired => 4

def MarkPhase.code : MarkPhase → BitVec 3
  | .idle => 0
  | .grace => 1
  | .trace => 2
  | .sweep => 3

def LaneStep.code : LaneStep → BitVec 3
  | .off => 0
  | .acquire => 1
  | .locking => 2
  | .align => 3
  | .up => 4

def PortStep.code : PortStep → BitVec 3
  | .off => 0
  | .phy => 1
  | .align => 2
  | .negot => 3
  | .up => 4
  | .retrain => 5
  | .isolated => 6

def LockStep.code : LockStep → BitVec 2
  | .noref => 0
  | .acquire => 1
  | .locked => 2
  | .holdover => 3

/-- A span table entry as a word (Table 03-1). -/
def SpanEnt.pack (e : SpanEnt) : Word :=
  fld 0 e.st.code ||| fld 3 e.slot ||| fld 14 e.gen ||| fldB 22 e.newborn ||| fldB 23 e.retpend

/-- The span that CN_SPAN_SEL names, in bank × 2,048 + k. -/
def selSpan (s : State) : Nat := s.cn.spanSel.toNat

/-! ### The candle manager (Tables 03-10 to 03-14) -/

def cnBankWord (b : CnBank) : Word := fld 0 b.base ||| fld 17 b.spans ||| fldB 31 b.en

/-- EVAC_LOW is as last evaluated, so that it reads 0 after reset (R16, R126; log entry 70). -/
def cnStatus (s : State) : Word :=
  fldB 0 (cnIdle s) ||| fldB 1 s.cn.cfgerr ||| fldB 2 s.cn.evacWasLow |||
    fldB 3 (2 ^ s.cn.pool.lv.eovfSize.toNat ≤ s.cn.eovf.length) ||| fldB 4 (mlogFull s) ||| fldB 5 (freeSpans s.cn = 0)

def cnSlotWord (e : CnSlot) : Word :=
  fld 0 e.st.code ||| fld 3 e.gen ||| fldN 11 e.spans.length ||| fld 20 e.bank ||| fldB 25 e.elogOvf |||
    fldB 26 e.precycle ||| fldB 27 (!e.stall.isEmpty)

def cnRead (o : Nat) (s : State) : Word :=
  let c := s.cn
  let p := c.pool.sh
  match o with
  | 0x000 => 2
  | 0x004 => fldB 0 c.enable
  | 0x008 => cnStatus s
  | 0x00C => fldB 0 c.run.pend ||| fldB 1 c.pool.pend
  | 0x010 => fld 0 c.run.sh.initSpans ||| fld 16 c.run.sh.growSpans
  | 0x014 => fld 0 c.run.sh.chunk
  | 0x018 => c.run.sh.coolExtra
  | 0x01C => fld 0 p.asid
  | 0x020 => loHalf p.elogBase
  | 0x024 => hiHalf p.elogBase
  | 0x028 => fld 0 p.elogSize
  | 0x030 => loHalf p.eovfBase
  | 0x034 => hiHalf p.eovfBase
  | 0x038 => fld 0 p.eovfSize
  | 0x03C => fldN 0 c.eovf.length
  | 0x040 => loHalf p.evacBase
  | 0x044 => hiHalf p.evacBase
  | 0x048 => fld 0 p.evacSize
  | 0x04C => fld 0 c.evacProd
  | 0x050 => fld 0 c.evacCons
  | 0x054 => fld 0 c.evacLow
  | 0x060 => loHalf p.mlogBase
  | 0x064 => hiHalf p.mlogBase
  | 0x068 => fld 0 p.mlogSize
  | 0x06C => fldN 0 c.mlogUsed
  | 0x070 => fldB 2 c.autofree
  | 0x074 => fld 0 c.phase.code ||| fldB 3 c.sense ||| fldB 4 (quiescent s) ||| fld 16 c.reqIn
  | 0x078 => c.rootVa
  | 0x07C => fld 0 c.rootAsid
  | 0x080 => fld 0 c.spanSel
  | 0x084 => (c.span (selSpan s)).pack
  | 0x088 => fldN 0 (Tab.get 0 c.spanLive (selSpan s))
  | 0x08C => fld 4 c.spanResult
  | 0x090 => fld 0 c.slotSel
  | 0x094 => cnSlotWord (s.slot c.slotSel.toNat)
  | 0x0A0 => fldN 0 (freeSpans c)
  | 0x0A4 => fld 0 c.freeMin
  | _ => match regAt 0x100 4 24 o with
    | some n => cnBankWord (poolBank p n)
    | none => if 0x0C0 ≤ o then s.counter (0x300000 + o) else 0

/-! ### Wicks (Tables 04-10 to 04-13) -/

def laneCfgWord (c : LaneCfg) : Word := fldB 0 c.en ||| fldB 1 c.fmt ||| fldB 2 c.src ||| fldB 3 c.pol

def laneStat (l : LaneRx) : Word := fld 0 l.st.code ||| fldB 3 l.los ||| fldB 4 l.lockLost ||| fld 16 l.lastLseq

/-- WK_MAP_DATA: the shadow entry that WK_MAP_SEL names. -/
def mapData (w : WkSt) : Word := Tab.get 0 w.mapSh w.mapSel.toNat

/-- WK_GCTRL and the event group, which wick 0 holds for all. -/
def wkGlobal (o : Nat) (s : State) : Word :=
  let e := s.wk.event.sh
  match o with
  | 0x010 => fldB 0 s.wk.enable
  | 0x014 => fldB 0 e.mode ||| fld 16 e.extUnits
  | 0x018 => fld 0 e.winto
  | 0x01C => fld 0 e.hold
  | 0x020 => fld 0 e.batch
  | _ => 0

def wkRead (n o : Nat) (s : State) : Word :=
  let w := s.wick n
  match o with
  | 0x000 => 2 ||| fldN 16 n
  | 0x004 => fldB 0 w.stash ||| fldB 2 w.autoinc
  | 0x008 => fldB 0 w.cfgerr ||| fldB 1 w.loading.isSome ||| fldB 2 w.maperr ||| fldN 8 w.entries.length
  | 0x00C => fldB 0 w.lcfg.pend ||| fldB 1 w.mapPend ||| fldB 2 (decide (n = 0) && s.wk.event.pend)
  | 0x010 | 0x014 | 0x018 | 0x01C | 0x020 => if n = 0 then wkGlobal o s else 0
  | 0x024 => fldN 0 (bufUsed w)
  | 0x028 => fld 0 w.bufHwm
  | 0x02C => fld 0 (upMask s n)
  | 0x030 => fld 0 w.mapSel
  | 0x034 => mapData w
  | 0x038 => loHalf w.mapSrc
  | 0x03C => hiHalf w.mapSrc
  | _ =>
    match regAt 0x100 0x40 16 o, regAt 0x104 0x40 16 o with
    | some p, _ => laneCfgWord (Tab.get LaneCfg.reset w.lcfg.sh p)
    | _, some p => laneStat (Tab.get LaneRx.reset w.lanes p)
    | none, none => if 0x050 ≤ o then s.counter (0x100000 + 0x10000 * n + o) else 0

/-! ### The Lamplighter, the Snuffer and the decision port (Tables 05-11 to 05-14) -/

/-- A count that saturates at 1,023. -/
def sat1023 (n : Nat) : Nat := min n 1023

def llLstat (l : Nat) (s : State) : Word :=
  let k : Lan := BitVec.ofNat 5 l
  let busy := (s.ctxs.filter fun (e : Nat × Ctx) => decide (e.1 / 32 = l) && decide (e.2.st ≠ .empty)).length
  fldN 0 (sat1023 (queueOf s k).length) ||| fldN 10 busy ||| fldN 16 (sat1023 (levelOne s k))

def llRead (o : Nat) (s : State) : Word :=
  let l := s.ll
  let p := l.pool.sh
  let m := l.menu.sh
  match o with
  | 0x000 => 2
  | 0x004 => fldB 0 l.enable ||| fldB 2 l.homemode
  | 0x008 => fldB 0 l.cfgerr ||| fldB 1 (deferSize s ≤ l.defer.length) ||| fldB 2 (liveTasks s).isEmpty |||
      fldN 16 (storeTasks s).length
  | 0x00C => fldB 0 l.menu.pend ||| fldB 1 l.pool.pend
  | 0x010 => loHalf p.taskBase
  | 0x014 => hiHalf p.taskBase
  | 0x018 => fld 0 p.taskLog2 ||| fld 8 p.resv
  | 0x020 => loHalf p.saveBase
  | 0x024 => hiHalf p.saveBase
  | 0x028 => loHalf p.deferBase
  | 0x02C => hiHalf p.deferBase
  | 0x030 => fld 0 p.deferLog2
  | 0x034 => fldN 0 l.defer.length
  | 0x038 => loHalf m.tmplBase
  | 0x03C => hiHalf m.tmplBase
  | 0x040 => fld 0 m.version ||| fld 16 m.tmpls
  | 0x044 => l.lanmask
  | 0x048 => fld 0 l.migMin ||| fldB 8 l.migEn
  | _ => match regAt 0x100 4 32 o with
    | some k => llLstat k s
    | none => if 0x060 ≤ o then s.counter (0x200000 + o) else 0

def snRead (o : Nat) (s : State) : Word :=
  let m := s.ll.menu.sh
  match o with
  | 0x000 => 2
  | 0x008 => fldB 0 s.sn.cfgerr ||| fldN 16 s.hub.hards.length
  | 0x010 => fld 0 m.deadline
  | 0x014 => fld 0 m.warn
  | 0x018 => fld 0 m.policy ||| fld 16 m.prescale
  | 0x01C => fld 0 s.sn.prescaleCnt
  | _ => if 0x040 ≤ o then s.counter (0x204000 + o) else 0

def dpRead (o : Nat) (s : State) : Word :=
  let c := s.dp.cfg.sh
  match o with
  | 0x000 => 2
  | 0x008 => fldB 0 s.dp.cfgerr ||| fldN 16 s.dp.rob.length
  | 0x00C => fldB 0 s.dp.cfg.pend
  | 0x010 => fldB 0 c.order ||| fldB 1 c.lanemode ||| fldB 2 c.hostcopy ||| fldB 3 c.beat
  | 0x014 => fld 0 c.lanes ||| fld 8 c.pol
  | 0x018 => fld 0 s.dp.rseq
  | 0x01C => fld 0 s.dp.hwm
  | _ => if 0x040 ≤ o then s.counter (0x208000 + o) else 0

/-! ### Taper (Tables 06-8 to 06-10) -/

/-- What an engine runs (Table 06-9): 5 evacuation, 6 mark, else the kind of its graph or move job; a job of a reserved KIND, which
fails its first check, reads as none (log entry 100). -/
def tpEstat (e : Nat) (s : State) : Word :=
  let g := s.engine e
  let kind : BitVec 3 := match g.run with
    | some i => ((s.job i).bind fun j => j.plan.map JobPlan.kind).getD 0
    | none => 0
  fld 0 (if g.evac.isSome then 5 else if g.mark then 6 else if kind.toNat ≤ 4 then kind else 0) ||| fldB 3 (g.evac.isSome && g.run.isSome) |||
    fldN 4 ((queuedOn s e).length + g.evacQ.length)

def tpRead (o : Nat) (s : State) : Word :=
  let t := s.tp
  match o with
  | 0x000 => 2
  | 0x004 => fld 0 t.graphMask ||| fld 8 t.markMask
  | 0x008 => fldB 0 t.cfgerr ||| fldB 1 t.incomplete ||| fldN 16 ((allJobs s).length + evacJobs s)
  | 0x00C => fldB 0 t.mark.pend
  | 0x010 => loHalf t.mark.sh.base
  | 0x014 => hiHalf t.mark.sh.base
  | 0x018 => fld 0 t.mark.sh.log2
  | 0x01C => fldN 0 t.mstkUsed
  | _ => match regAt 0x100 4 8 o with
    | some e => tpEstat e s
    | none => if 0x040 ≤ o then s.counter (0x400000 + o) else 0

/-! ### Translation, coherence and memory controllers (Tables 12-8 to 12-10, 13-5 to 13-7) -/

def mmRead (o : Nat) (s : State) : Word :=
  let m := s.mm
  match o with
  | 0x000 => 2
  | 0x008 => fldB 0 m.cfgerr ||| fldB 1 m.en
  | 0x010 => loHalf m.rootSh
  | 0x014 => hiHalf m.rootSh ||| fldB 31 m.enSh
  | 0x020 => m.lastVa
  | 0x024 => m.lastInfo
  | _ => if 0x040 ≤ o then s.counter (0x880000 + o) else 0

/-- Directory entries now coarse, of all agents. -/
def coarseCount (s : State) : Nat :=
  (s.mcs.map fun (e : Nat × McSt) => (e.2.dir.filter fun (d : Nat × DirEnt) => d.2.coarse.isSome).length).sum

def ccRead (o : Nat) (s : State) : Word :=
  match o with
  | 0x000 => 2
  | 0x004 => fldB 0 s.cc.prefetchD ||| fldB 1 s.cc.prefetchI ||| fldB 2 s.cc.hints
  | 0x008 => fldN 0 (coarseCount s)
  | _ => match regAt 0x100 4 32 o with
    | some l =>
      let q := (s.lan (BitVec.ofNat 5 l)).ranges
      fldB 0 (!q.isEmpty) ||| fldN 1 (min (q.length - 1) 8)
    | none => if 0x040 ≤ o then s.counter (0x700000 + o) else 0

/-- Four tag bytes of the test registers. -/
def testTags (m : McSt) (k : Nat) : Word :=
  (List.range 4).foldl (fun w j => w ||| fld (8 * j) (Tab.get 0 m.testTag (4 * k + j))) 0

def mcRead (c o : Nat) (s : State) : Word :=
  let m := s.mc c
  match o with
  | 0x000 => 2 ||| fldN 16 c ||| fldN 18 (match s.build with | .h64 => 16 | .h32 => 8)
  | 0x004 => fldB 0 m.scrubEn
  | 0x008 => fldB 0 m.cfgerr ||| fldB 1 m.wipeBusy ||| fldB 2 m.testBusy ||| fldB 3 m.scrubDone
  | 0x010 => fld 0 m.hours
  | 0x014 => fld 0 m.scrubPos
  | 0x018 => loHalf m.laste
  | 0x020 => loHalf m.testAddr
  | 0x024 => hiHalf m.testAddr
  | 0x028 => fldB 2 m.rawchk
  | 0x090 => loHalf m.testChk
  | 0x094 => hiHalf m.testChk
  | _ =>
    match regAt 0x040 4 16 o, regAt 0x080 4 4 o with
    | some i, _ => Tab.get 0 m.testData i
    | _, some k => testTags m k
    | none, none => if 0x0A0 ≤ o then s.counter (0x800000 + 0x10000 * c + o) else 0

/-! ### The fabric (Tables 14-11 to 14-13) -/

def pcfgWord (c : PortCfg) : Word := fldB 0 c.en ||| fld 1 c.rate ||| fld 3 c.vmask ||| fldB 5 c.loop ||| fld 6 c.uncTh

def pstatWord (x : PortSt) : Word :=
  fld 0 x.st.code ||| fldB 3 x.half ||| fld 4 (if x.st = .up then x.version else 0) ||| fld 6 x.reason

def blRead (o : Nat) (s : State) : Word :=
  let b := s.bl
  match o with
  | 0x000 => 2 ||| fldN 16 3
  | 0x004 => fld 1 b.ttl
  | 0x008 => fldB 0 b.cfgerr ||| fldB 1 b.rtLoad.isSome ||| fld 16 (upMaskBl s)
  | 0x00C => fldB 1 b.rtPend ||| fldB 2 b.pcfg.pend ||| fldB 3 b.ring.pend
  | 0x010 => fld 0 b.nodeSh
  | 0x014 => fld 0 b.ring.sh.timeout
  | 0x018 => loHalf b.ring.sh.base
  | 0x01C => hiHalf b.ring.sh.base
  | 0x020 => fld 0 b.ring.sh.cnt
  | 0x024 => fld 0 b.rtSel
  | 0x028 => fld 0 (Tab.get 0 b.rtSh b.rtSel.toNat)
  | 0x02C => loHalf b.rtSrc
  | 0x030 => hiHalf b.rtSrc
  | _ =>
    match regAt 0x100 0x40 16 o, regAt 0x108 0x40 16 o, regAt 0x10C 0x40 16 o with
    | some p, _, _ => pcfgWord (Tab.get PortCfg.reset b.pcfg.sh p)
    | _, some p, _ => pstatWord (s.port p)
    | _, _, some p => fld 0 (s.port p).peerNode ||| fld 16 (s.port p).peerPort
    | none, none, none => if 0x040 ≤ o then s.counter (0x600000 + o) else 0

/-! ### The time base (Tables 15-5 to 15-7) -/

/-- TB_CMP_CTRL, TB_CMP_VAL and TB_CMP_CNT (k 0, 1, 2) of a channel; while the HUB holds the channel they read as the HUB has
loaded it (R471). -/
def cmpRead (n k : Nat) (s : State) : Word :=
  let c := cmpCh s n
  if hubHolds s n then
    match hubLoaded s n, k with
    | some _, 0 => fldB 0 true ||| fldB 8 true
    | some x, 1 => loHalf x.time
    | none, 1 => Tab.get 0 s.hub.lastVal n
    | _, _ => 0
  else
    match k with
    | 0 => fldB 0 c.cfg.sh.en ||| fldB 1 c.cfg.sh.mode ||| fldB 2 c.cfg.sh.wake ||| fldB 3 c.cfg.sh.irq ||| fldB 8 c.armed
    | 1 => c.cfg.sh.val
    | 2 => c.cnt
    | _ => 0

/-- TB_CMP_COMMIT of channels 32h to 32h + 31. -/
def cmpPend (h : Nat) (s : State) : Word :=
  (List.range 32).foldl (fun w i => w ||| fldB i (cmpCh s (32 * h + i)).cfg.pend) 0

def tbRead (o : Nat) (s : State) : Word :=
  let t := s.tb
  let c := t.cfg.sh
  match o with
  | 0x000 => 2
  | 0x008 => fld 0 t.lock.code ||| fldB 2 t.aligned ||| fldB 3 t.refrange ||| fldB 4 t.cfgerr
  | 0x00C => fldB 0 t.cfg.pend
  | 0x010 => loHalf s.time
  | 0x014 => hiHalf s.time
  | 0x018 => fld 0 t.bx
  | 0x01C => t.orbit
  | 0x020 => fld 0 c.len
  | 0x024 => fldB 0 c.acceptEn ||| fldB 1 c.resetEn ||| fldB 2 c.chkbx ||| fldB 3 c.resync ||| fldB 4 c.pol
  | 0x028 => fld 0 t.khz
  | 0x034 => loHalf t.snapTime
  | 0x038 => hiHalf t.snapTime
  | 0x03C => fld 0 t.snapBx
  | 0x040 => t.snapOrbit
  | 0x080 => cmpPend 0 s
  | 0x084 => cmpPend 1 s
  | 0x088 => loHalf t.fired
  | 0x08C => hiHalf t.fired
  | _ =>
    if 0x100 ≤ o ∧ o < 0x500 then cmpRead ((o - 0x100) / 0x10) (o % 0x10 / 4) s
    else if 0x050 ≤ o then s.counter (0x500000 + o) else 0

/-! ### The host interface (Tables 16-10 to 16-12) -/

/-- Registers 0 to 6 of a ring: HI_RCFG, HI_RBASE, HI_RSB, HI_RMOD and HI_RSTAT. -/
def ringRead (r k : Nat) (s : State) : Word :=
  let x := s.ring r
  match k with
  | 0 => fldB 0 (decide (x.st = .running) || decide (x.st = .error)) ||| fld 1 x.ty ||| fld 4 x.log2 ||| fld 8 x.func ||| fld 13 x.vector |||
      fldB 21 x.irqen
  | 1 => loHalf x.rbase
  | 2 => hiHalf x.rbase
  | 3 => loHalf x.rsb
  | 4 => hiHalf x.rsb
  | 5 => fld 0 x.holdoff ||| fld 16 x.count
  | 6 => fld 0 x.st.code ||| fld 4 x.err ||| fldN 16 x.index
  | _ => 0

/-- Rings 64 to 1,023 do not exist under version 1 (R486). -/
def ringExists (s : State) (r : Nat) : Bool := r < 1024 && !(s.hi.active = 1 && 64 ≤ r)

/-- A word of the MSI-X table of a function, and of its pending-bit array (R483, R492). -/
def msixRead (fn o : Nat) (s : State) : Word := (Tab.get msixReset s.hi.msix (fn * 256 + o / 16)).extractLsb' (8 * (o % 16)) 32

def pbaRead (fn o : Nat) (s : State) : Word :=
  (List.range 32).foldl (fun w i => w ||| fldB i (s.hi.pba.contains (fn * 256 + 8 * o + i))) 0

/-- The ring, and the register of it, at an offset from ring 0's registers. -/
def ringAt (o : Nat) : Nat × Nat := (o / 0x20, o % 0x20 / 4)

def idRead (o : Nat) (s : State) : Word :=
  match o with
  | 0x000 => 0x00020256
  | 0x004 => fldN 0 (match s.build with | .h64 => 64 | .h32 => 32) ||| fld 8 Config.siliconRev
  | _ =>
    if 0x2000 ≤ o ∧ o < 0x3000 then msixRead 0 (o - 0x2000) s
    else if 0x3000 ≤ o ∧ o < 0x3020 then pbaRead 0 (o - 0x3000) s
    else 0

def hiRead (o : Nat) (s : State) : Word :=
  let h := s.hi
  match o with
  | 0x000 => 2
  | 0x008 => fldB 0 h.cfgerr ||| fld 16 h.speed ||| fld 20 h.width
  | 0x00C => 3 ||| fld 4 h.req ||| fld 8 h.active
  | 0x010 => h.svec
  | 0x014 => fld 0 h.svecEn
  | _ =>
    if 0x8000 ≤ o ∧ ringExists s (ringAt (o - 0x8000)).1 then ringRead (ringAt (o - 0x8000)).1 (ringAt (o - 0x8000)).2 s
    else
      match regAt 0x100 8 64 o, regAt 0x104 8 64 o, regAt 0x408 8 31 o, regAt 0x40C 8 31 o with
      | some w, _, _, _ => Tab.get 0 h.winLo w
      | _, some w, _, _ => Tab.get 0 h.winHi w
      | _, _, some v, _ => fld 0 (Tab.get 0 h.vfapLo (v + 1))
      | _, _, _, some v => fld 0 (Tab.get 0 h.vfapHi (v + 1))
      | _, _, _, _ => if 0x040 ≤ o ∧ o < 0x060 then s.counter (0x010000 + o) else 0

/-! ### The management plane and the recorder (Tables 17-10 to 17-12, 18-6 to 18-8) -/

/-- MG_STATUS. -/
def mgStatus (s : State) : Word :=
  let m := s.mg
  fld 0 m.stored.lc.code ||| fldB 3 m.ready ||| fldB 4 (activeSlot s) ||| fldB 5 m.fallback ||| fldB 6 m.booterr |||
    fldB 7 m.cfgerr

def mgRead (o : Nat) (s : State) : Word :=
  let m := s.mg
  match o with
  | 0x000 => 2
  | 0x008 => mgStatus s
  | 0x00C => fldB 0 m.therm.pend
  | 0x010 => fld 0 m.code ||| fldB 31 m.go
  | 0x014 => fld 0 m.status ||| fld 16 m.detail
  | 0x060 => fld 0 m.therm.sh
  | _ =>
    match regAt 0x020 4 8 o, regAt 0x040 4 8 o, regAt 0x080 4 32 o, regAt 0x100 4 50 o with
    | some n, _, _, _ => Tab.get 0 m.args n
    | _, some n, _, _ => Tab.get 0 m.res n
    | _, _, some l, _ => fld 0 (Tab.get 16 m.ceil l) ||| fld 8 (Tab.get 16 m.freq l)
    | _, _, _, some n => fld 0 (sensor s n)
    | _, _, _, _ => if 0x200 ≤ o then s.counter (0x900000 + o) else 0

def erRegRead (o : Nat) (s : State) : Word :=
  match o with
  | 0x000 => 2
  | 0x004 => fld 0 s.er.logmin ||| fld 2 s.er.irqmin
  | 0x008 => fldN 0 s.er.buf.length ||| fldB 14 s.er.flushing
  | 0x010 => loHalf (erWide 0 s)
  | 0x014 => hiHalf (erWide 0 s)
  | 0x018 => loHalf (erWide 1 s)
  | 0x01C => hiHalf (erWide 1 s)
  | 0x020 => loHalf (erWide 2 s)
  | 0x024 => hiHalf (erWide 2 s)
  | 0x02C => fld 0 s.er.rdStat
  | _ => match regAt 0x040 4 16 o with
    | some i => s.er.rdData.getD i 0
    | none => if 0x080 ≤ o then s.counter (0xA00000 + o) else 0

/-! ### By BAR0 offset -/

/-- The value of the register at a BAR0 offset. -/
def regRead (off : Nat) (s : State) : Word :=
  let o := off % 0x10000
  match off / 0x10000 with
  | 0x00 => idRead o s
  | 0x01 => hiRead o s
  | 0x10 | 0x11 | 0x12 | 0x13 | 0x14 | 0x15 => wkRead (off / 0x10000 - 0x10) o s
  | 0x20 => if o < 0x4000 then llRead o s else if o < 0x8000 then snRead (o - 0x4000) s else dpRead (o - 0x8000) s
  | 0x30 => cnRead o s
  | 0x40 => tpRead o s
  | 0x50 => tbRead o s
  | 0x60 => blRead o s
  | 0x70 => ccRead o s
  | 0x80 | 0x81 | 0x82 | 0x83 => mcRead (off / 0x10000 - 0x80) o s
  | 0x88 => mmRead o s
  | 0x90 => mgRead o s
  | 0xA0 => erRegRead o s
  | _ => 0

/-- WK_MAP_SEL increments after each WK_MAP_DATA access while AUTOINC is 1 (Table 04-11). -/
def mapStep (n : Nat) (s : State) : State :=
  if (s.wick n).autoinc then s.modWick n fun w => { w with mapSel := w.mapSel + 1 } else s

/-- The high half of a latch: of the reader's, where it has one; a core has none for it, and reads the live half. -/
def latched (latch : Nat → Word) (off : Nat) (r : Reader) (s : State) : Word :=
  match hostLatch r s with
  | some n => latch n
  | none => regRead off s

/-- A read of a register by its BAR0 offset, with what the read does: latches of the reader (R469, 13 R426, 18 R544) and
AUTOINC (Table 04-11). -/
def busRead (r : Reader) (off : Nat) (s : State) : Word × State :=
  match regAt 0x800018 0x10000 4 off, regAt 0x80001C 0x10000 4 off, regAt 0xA00010 8 3 off, regAt 0xA00014 8 3 off with
  | some c, _, _, _ => (regRead off s, match lasteReader r s with
    | some n => latchLaste c n s
    | none => s)
  | _, some c, _, _ => (match lasteReader r s with
    | some n => Tab.get 0 (s.mc c).lasteLatch n
    | none => 0, s)
  | _, _, some i, _ => erLowRead (BitVec.ofNat 2 i) r s
  | _, _, _, some i => (latched (fun n => Tab.get 0 s.er.latch (n * 4 + i)) off r s, s)
  | _, _, _, _ =>
    if off = 0x500010 then tbLowRead r s
    else if off = 0x500014 then (latched (Tab.get 0 s.tb.latch) off r s, s)
    else
      (regRead off s,
        match regAt 0x100034 0x10000 6 off with
        | some n => mapStep n s
        | none => s)

/-- The load of a register by a core (12 R382). -/
def devRead (k : CoreId) (off : Nat) (s : State) : Word × State := busRead (.core k) off s

/-- The mailbox, which answers before READY (17 R525): MG_MB_CMD to MG_MB_RES. -/
def inMailbox (off : Nat) : Bool := 0x900010 ≤ off && off < 0x900060

/-- A read over the PF's BAR0 or by the management processor; until READY a read over BAR0 of anything but the mailbox
answers 0 (17 R525). -/
def hostRead (r : Reader) (off : Nat) (s : State) : Word × State :=
  match r with
  | .fn _ => if s.mg.ready ∨ inMailbox off then busRead r off s else (0, s)
  | r => busRead r off s

/-- A read over a VF's BAR0 (16 R483): the identity registers, its own MSI-X table and pending-bit array, and the registers of
its own rings; 0 elsewhere. -/
def vfRead (fn : BitVec 5) (off : Nat) (s : State) : Word :=
  if !s.mg.ready then 0
  else if off < 0x1000 then idRead off s
  else if 0x2000 ≤ off ∧ off < 0x3000 then msixRead fn.toNat (off - 0x2000) s
  else if 0x3000 ≤ off ∧ off < 0x3020 then pbaRead fn.toNat (off - 0x3000) s
  else
    let r := (ringAt (off - 0x8000)).1
    if 0x8000 ≤ off ∧ ringExists s r ∧ reaches s fn r then ringRead r (ringAt (off - 0x8000)).2 s else 0

end Sys2Proof.Machine
end

