-- ==== Sys2Proof/Machine/TaskRun.lean ====
section
/-! DEFINITION. The Lamplighter's placing of tasks on contexts, its commits and its registers' commands (05 R179, R189,
R192–R194, R211, R214, R215; 07 R252–R258, R265, R565). -/

namespace Sys2Proof.Machine

/-! ### A lantern's queue and contexts (R192) -/

/-- Level, deadline and index order two queued tasks. -/
def taskBefore (a b : Nat × TaskD) : Bool :=
  a.2.prio < b.2.prio || (a.2.prio == b.2.prio &&
    (a.2.deadline < b.2.deadline || (a.2.deadline == b.2.deadline && a.1 < b.1)))

/-- The head of a list of queued tasks. -/
def headTask : List (Nat × TaskD) → Option (Nat × TaskD)
  | [] => none
  | e :: r => match headTask r with
    | none => some e
    | some f => if taskBefore f e then some f else some e

/-- Contexts of a core that hold a task. -/
def occupied (s : State) (k : CoreId) : Nat := ((ctxsOf k).filter fun c => (s.ctx c).st ≠ .empty).length

/-- The core with the fewest occupied contexts, the lower-numbered on a tie. -/
def leastCore (s : State) : List CoreId → Option CoreId
  | [] => none
  | k :: r => match leastCore s r with
    | none => some k
    | some m => if occupied s m < occupied s k then some m else some k

/-- A core whose sequencer is not in service mode takes no dispatch (R364). -/
def inService (s : State) (k : CoreId) : Bool := (s.core k).uc.mode = .service

/-- The context that takes the next task of a lantern, of the core that R192 names: the lowest EMPTY one, which the rule leaves open
(DESIGN CHOICE, log entry 105). -/
def freeContext (s : State) (l : Lan) : Option CtxId :=
  match leastCore s ((coresOf l).filter (inService s)) with
  | some k => (ctxsOf k).find? fun c => (s.ctx c).st = .empty
  | none => none

/-! ### Dispatch (R181, R265, R565) -/

/-- The task is running on a context. -/
def taskRuns (i : Nat) (c : CtxId) (s : State) : State :=
  bump Cnt.llDispatch (putTask i (fun t => { t with st := .running, saved := false, ctx := some c }) s)

/-! ### Preemption (R194, R252, R258) -/

/-- A context may be saved off the core now (R252): not on the shadow bank, in a delay slot or a mode-change shadow, with
no exception about to be entered, not inside an instruction that waits for an answer or has written a part of its object, and
with no load outstanding. -/
def savable (x : Ctx) : Bool :=
  !x.cstat.shadow && !x.cstat.ldf && x.msh.isNone && x.raised.isNone && x.mcheck.isEmpty && x.micro.at_.isNone && x.alloc.isNone &&
    !(x.loads.any fun p => p.late) &&
    (match x.st, x.stall with
     | .running, _ | .runnable, _ | .waiting, _ => true
     | .stalled, .store | .stalled, .escape | .stalled, .mlog => true
     | _, _ => false)

/-- Whether the task of an occupied context is taken before that of another: greatest level, then a WAITING one, then the
latest deadline, then the higher index. -/
def takenBefore (a b : Nat × TaskD) : Bool :=
  let w (t : TaskD) : Bool := t.st = .waiting
  b.2.prio < a.2.prio || (a.2.prio == b.2.prio &&
    ((w a.2 && !w b.2) || (w a.2 == w b.2 &&
      (b.2.deadline < a.2.deadline || (a.2.deadline == b.2.deadline && b.1 < a.1)))))

def firstTaken : List (Nat × TaskD) → Option (Nat × TaskD)
  | [] => none
  | e :: r => match firstTaken r with
    | none => some e
    | some f => if takenBefore f e then some f else some e

/-- Tasks on the contexts of a lantern with a level numerically greater than one. -/
def onLantern (s : State) (l : Lan) (level : BitVec 2) : List (Nat × TaskD) :=
  s.ll.tasks.filter fun (e : Nat × TaskD) => decide (e.2.ctx.map lanOf = some l) && decide (level < e.2.prio) &&
    (match e.2.ctx with | some c => inService s (coreOf c) | none => false)

/-! ### Migration (R193, Table 05-10) -/

def movable (s : State) (l : Lan) : List (Nat × TaskD) := (queueOf s l).filter fun e => e.2.affinity ≠ 2

/-- The lantern of a list with the most queued tasks, the lower number on a tie. -/
def mostQueued (s : State) : List Lan → Option Lan
  | [] => none
  | l :: r => match mostQueued s r with
    | none => some l
    | some m => if (queueOf s l).length < (queueOf s m).length then some m else some l

/-- The lantern that lantern l takes a task from: if l is masked, one that has left the mask, whatever EN and MIN say (Table
05-10); else as R193. -/
def migrateFrom (l : Lan) (s : State) : Option Lan :=
  let m := lanMask s
  let left := ((List.range 32).map (BitVec.ofNat 5)).filter fun l => !m.contains l && !(movable s l).isEmpty
  if !left.isEmpty && m.contains l then mostQueued s left
  else if s.ll.migEn then
    match mostQueued s m with
    | some l => if s.ll.migMin.toNat ≤ (queueOf s l).length then some l else none
    | none => none
  else none

/-- MIGRATION: a lantern with a free context and an empty queue takes a task (R193). -/
def execMigration (l : Lan) (s : State) : Outcome :=
  .next (
    if llRuns s && (freeContext s l).isSome && (queueOf s l).isEmpty then
      match (migrateFrom l s).bind fun f => headTask (movable s f) with
      | some e => bump Cnt.llMigrate (putTask e.1 (fun t => { t with lan := l }) s)
      | none => s
    else s)

/-! ### The defer ring (R189) -/

/-- The entry that is next: level 0 first, then 2, then 3, each in ring order. -/
def nextDeferred (l : List Inst) : Option Inst :=
  let at' (n : BitVec 2) : Option Inst := l.find? fun i => i.level = n
  (at' 0).orElse fun _ => (at' 2).orElse fun _ => at' 3

/-- DEFER_DRAIN: the next entry is made when there is space, or discarded when its event has been decided or snuffed. -/
def execDeferDrain (s : State) : Outcome :=
  .next (
    match nextDeferred s.ll.defer with
    | none => s
    | some i =>
      let rest := { s with ll := { s.ll with defer := s.ll.defer.erase i, deferHead := (s.ll.deferHead + 1) % deferSize s } }
      let dead : Bool := match i.handle with | some h => !wakeable s h | none => false
      if dead then rest
      else if !llRuns s then s
      else (tryMake i rest).getD s)

/-! ### Commits (R179, R202, R214) -/

/-- A refused commit leaves the live copies and sets CFGERR of the block that the value belongs to. -/
def menuRefused (ll : Bool) (s : State) : State :=
  let s := { s with ll := { s.ll with menu := s.ll.menu.refuse } }
  if ll then { s with ll := { s.ll with cfgerr := true } } else { s with sn := { s.sn with cfgerr := true } }

/-- A template from its eight words; false: a word's tag breaks Table 05-1. -/
def readTempl (w : List MWord) : Templ × Bool :=
  let x (i : Nat) : MWord := lineWord w i
  let v := (x 2).val
  let priv : BitVec 2 := v.extractLsb' 5 2
  let args := (List.range 4).map fun i => (x (4 + i)).t
  let tags : Bool := (x 0).ty = Ty.hdr && (x 1).ty = Ty.code && (x 2).ty = Ty.raw && (x 3).ty = Ty.raw &&
    args.all fun a => storable (if priv = 0 then 0 else 1) true a.ty
  let count : BitVec 4 := v.extractLsb' 22 4
  if !tags then (Templ.off, false)
  else
    ({ entry := (x 1).t, kind := v.extractLsb' 0 3, prio := v.extractLsb' 3 2, priv := priv,
       affinity := v.extractLsb' 7 2, pin := v.extractLsb' 9 5, sel := v.extractLsb' 14 8, count := count,
       rel := (x 3).val.setWidth 24, args := args, en := decide (priv.toNat < 2) && decide (count ≠ 0) }, true)

/-- Loads n templates from template i on into the shadow store. -/
def loadTempls (base : PA) (i : Nat) : Nat → State → State
  | 0, s => s
  | n + 1, s =>
    let (w, s) := physReads (base + BitVec.ofNat 53 (32 * i)) 8 s
    let (t, ok) := readTempl w
    let ll := { s.ll with templSh := Tab.set Templ.off s.ll.templSh i t, cfgerr := s.ll.cfgerr || !ok }
    loadTempls base (i + 1) n { s with ll := ll }

/-- The table of the menu group is loaded into the shadow store. -/
def menuLoad (s : State) : State :=
  let m := s.ll.menu.sh
  loadTempls m.tmplBase 0 m.tmpls.toNat { s with ll := { s.ll with menuLoaded := true, templSh := [] } }

/-- LL_MENU_COMMIT: the group is checked and the table is loaded into the shadow store. -/
def execLlMenuCommit (s : State) : Outcome :=
  let m := s.ll.menu.sh
  .next (
    if s.ll.menu.pend then s
    else if m.deadline.toNat < 8000 ∨ 12800000 < m.deadline.toNat ∨ m.deadline ≤ m.warn ∨ m.policy = 3 ∨ m.prescale = 0 then
      menuRefused false s
    else if 256 < m.tmpls.toNat ∨ m.tmplBase.toNat % 32 ≠ 0 then menuRefused true s
    else
      withLines menuLoad { s with ll := { s.ll with menu := s.ll.menu.request, menuLoaded := false, templSh := [] } })

/-- The shadow store and the menu group become live; a change of POLICY or PRESCALE sets the count to 0 (R201). -/
def applyMenu (s : State) : State :=
  if !s.ll.menuLoaded then s
  else
    let o := s.ll.menu.lv
    let n := s.ll.menu.sh
    let s := { s with ll := { s.ll with menu := s.ll.menu.commit, templ := s.ll.templSh, menuLoaded := false } }
    if o.policy ≠ n.policy ∨ o.prescale ≠ n.prescale then { s with sn := { s.sn with prescaleCnt := 0 } } else s

/-- MENU_COMMIT_APPLY: a table that could not be read at the commit is read first. -/
def execMenuCommitApply (s : State) : Outcome :=
  .next (if s.ll.menu.pend && !s.ll.menuLoaded then withLines (fun s => applyMenu (menuLoad s)) s else applyMenu s)

def llIdle (s : State) : Bool := (liveTasks s).isEmpty

/-- LL_POOL_COMMIT: the commit bit reads 1 until ENABLE is 0 and IDLE is 1. -/
def execLlPoolCommit (s : State) : Outcome :=
  .next { s with ll := { s.ll with pool := s.ll.pool.request } }

/-- The ranges of Table 05-12 and R214. -/
def llPoolOk (p : LlPool) : Bool :=
  12 ≤ p.taskLog2.toNat && p.taskLog2.toNat ≤ 16 && 1 ≤ p.resv.toNat && p.resv.toNat ≤ 4 &&
    2048 * p.resv.toNat + 1024 ≤ 2 ^ p.taskLog2.toNat && 8 ≤ p.deferLog2.toNat && p.deferLog2.toNat ≤ 16 &&
    p.taskBase.toNat % 64 = 0 && p.saveBase.toNat % 1024 = 0 && p.deferBase.toNat % 32 = 0

def execLlPoolCommitApply (s : State) : Outcome :=
  .next (
    if !s.ll.pool.pend || s.ll.enable || !llIdle s then s
    else if llPoolOk s.ll.pool.sh then { s with ll := { s.ll with pool := s.ll.pool.commit } }
    else { s with ll := { s.ll with pool := s.ll.pool.refuse, cfgerr := true } })

/-- LL_ENABLE_WRITE: a menu that is loaded when ENABLE goes to 0 becomes live at once (Table 05-15). -/
def execLlEnableWrite (v : Bool) (s : State) : Outcome :=
  let s := { s with ll := { s.ll with enable := v } }
  .next (if v then s else applyMenu s)

def execLlCntclr (s : State) : Outcome :=
  .next (clearCounters 0x204040 0x204060 (clearCounters 0x200060 0x20008C s))

def execSnCntclr (s : State) : Outcome := .next (clearCounters 0x204040 0x204060 s)

end Sys2Proof.Machine
end

