-- ==== Sys2Proof/Machine/RegWrite.lean ====
section
/-! DEFINITION. A write of every register, by its BAR0 offset and under its access code (00 R17–R21; the register tables and the
tables of fields without commit of chapters 03 to 06 and 12 to 18). A field whose write is a command of its own acts as that
command does. -/

namespace Sys2Proof.Machine

/-- The state after a command that goes on. -/
def after (o : Outcome) (s : State) : State := match o with | .next t => t | _ => s

/-- A command acts when the bit that asks for it is written 1. -/
def onBit (v : Word) (i : Nat) (f : State → Outcome) (s : State) : State := if v.getLsbD i then after (f s) s else s

/-- The halves of a value that takes two registers are written (R15). -/
def setLo {w : Nat} (p : BitVec w) (v : Word) : BitVec w := ((p >>> 32) <<< 32) ||| v.setWidth w
def setHi {w : Nat} (p : BitVec w) (v : Word) : BitVec w := (v.setWidth w <<< 32) ||| (loHalf p).setWidth w

/-- A W1C bit. -/
def w1c (old : Bool) (v : Word) (i : Nat) : Bool := old && !v.getLsbD i

/-! ### The candle manager -/

def modCnRun (f : CnRun → CnRun) (s : State) : State := { s with cn := { s.cn with run := s.cn.run.write f } }
def modCnPool (f : CnPool → CnPool) (s : State) : State := { s with cn := { s.cn with pool := s.cn.pool.write f } }

/-- CN_SPAN_CMD: other values of OP are ignored. A CLAIM in the HUB cycle of a grant is the command CN_SPAN_CLAIM's own. -/
def spanCommand (op : BitVec 3) (s : State) : State :=
  if op = 1 then after (execCnSpanClaim false s) s
  else if op = 2 then after (execCnSpanRelease s) s
  else if op = 3 then after (execCnSpanRetire s) s
  else s

def bankOf (v : Word) : CnBank := ⟨v.extractLsb' 0 17, v.extractLsb' 17 12, v.getLsbD 31⟩

def cnWrite (o : Nat) (v : Word) (s : State) : State :=
  match o with
  | 0x004 => onBit v 1 execCnCntclr (after (execCnEnableWrite (v.getLsbD 0) s) s)
  | 0x008 => { s with cn := { s.cn with cfgerr := w1c s.cn.cfgerr v 1 } }
  | 0x00C => onBit v 1 execCnPoolCommit (onBit v 0 execCnRunCommit s)
  | 0x010 => modCnRun (fun g => { g with initSpans := v.extractLsb' 0 9, growSpans := v.extractLsb' 16 9 }) s
  | 0x014 => modCnRun (fun g => { g with chunk := v.extractLsb' 0 3 }) s
  | 0x018 => modCnRun (fun g => { g with coolExtra := v }) s
  | 0x01C => modCnPool (fun g => { g with asid := v.extractLsb' 0 12 }) s
  | 0x020 => modCnPool (fun g => { g with elogBase := setLo g.elogBase v }) s
  | 0x024 => modCnPool (fun g => { g with elogBase := setHi g.elogBase v }) s
  | 0x028 => modCnPool (fun g => { g with elogSize := v.extractLsb' 0 4 }) s
  | 0x030 => modCnPool (fun g => { g with eovfBase := setLo g.eovfBase v }) s
  | 0x034 => modCnPool (fun g => { g with eovfBase := setHi g.eovfBase v }) s
  | 0x038 => modCnPool (fun g => { g with eovfSize := v.extractLsb' 0 5 }) s
  | 0x040 => modCnPool (fun g => { g with evacBase := setLo g.evacBase v }) s
  | 0x044 => modCnPool (fun g => { g with evacBase := setHi g.evacBase v }) s
  | 0x048 => modCnPool (fun g => { g with evacSize := v.extractLsb' 0 4 }) s
  | 0x04C => noteLow { s with cn := { s.cn with evacProd := v.extractLsb' 0 13 } }
  | 0x054 => noteLow { s with cn := { s.cn with evacLow := v.extractLsb' 0 13 } }
  | 0x060 => modCnPool (fun g => { g with mlogBase := setLo g.mlogBase v }) s
  | 0x064 => modCnPool (fun g => { g with mlogBase := setHi g.mlogBase v }) s
  | 0x068 => modCnPool (fun g => { g with mlogSize := v.extractLsb' 0 5 }) s
  | 0x070 => onBit v 1 execMarkFinish (onBit v 0 execMarkStart { s with cn := { s.cn with autofree := v.getLsbD 2 } })
  | 0x078 => { s with cn := { s.cn with rootVa := v } }
  | 0x07C => { s with cn := { s.cn with rootAsid := v.extractLsb' 0 12 } }
  | 0x080 => { s with cn := { s.cn with spanSel := v.extractLsb' 0 16 } }
  | 0x08C => spanCommand (v.extractLsb' 0 3) s
  | 0x090 => { s with cn := { s.cn with slotSel := v.extractLsb' 0 11 } }
  | _ => match regAt 0x100 4 24 o with
    | some n => modCnPool (fun g => { g with banks := Tab.set CnBank.reset g.banks n (bankOf v) }) s
    | none => s

/-! ### Wicks -/

def modWkEvent (f : WkEvent → WkEvent) (s : State) : State := { s with wk := { s.wk with event := s.wk.event.write f } }

def laneCfgOf (v : Word) : LaneCfg := ⟨v.getLsbD 0, v.getLsbD 1, v.getLsbD 2, v.getLsbD 3⟩

/-- WK_GCTRL and the event group. -/
def wkGlobalWrite (o : Nat) (v : Word) (s : State) : State :=
  match o with
  | 0x010 => after (execWkEnableWrite (v.getLsbD 0) s) s
  | 0x014 => modWkEvent (fun g => { g with mode := v.getLsbD 0, extUnits := v.extractLsb' 16 6 }) s
  | 0x018 => modWkEvent (fun g => { g with winto := v.extractLsb' 0 18 }) s
  | 0x01C => modWkEvent (fun g => { g with hold := v.extractLsb' 0 16 }) s
  | 0x020 => modWkEvent (fun g => { g with batch := v.extractLsb' 0 5 }) s
  | _ => s

def wkWrite (n o : Nat) (v : Word) (s : State) : State :=
  let n3 : BitVec 3 := BitVec.ofNat 3 n
  match o with
  | 0x004 => onBit v 1 (execWkCntclr n3) (s.modWick n fun w => { w with stash := v.getLsbD 0, autoinc := v.getLsbD 2 })
  | 0x008 => s.modWick n fun w => { w with cfgerr := w1c w.cfgerr v 0, maperr := w1c w.maperr v 2 }
  | 0x00C =>
    let s := onBit v 1 (execWkMapCommit n3) (onBit v 0 (execWkLaneCommit n3) s)
    if n = 0 then onBit v 2 execWkEventCommit s else s
  | 0x010 | 0x014 | 0x018 | 0x01C | 0x020 => if n = 0 then wkGlobalWrite o v s else s
  | 0x030 => s.modWick n fun w => { w with mapSel := v.extractLsb' 0 16 }
  | 0x034 => after (execWkMapDataAccess n3 (some v) s) s
  | 0x038 => s.modWick n fun w => { w with mapSrc := setLo w.mapSrc v }
  | 0x03C => s.modWick n fun w => { w with mapSrc := setHi w.mapSrc v }
  | 0x040 => onBit v 0 (execWkMapLoad n3) s
  | _ =>
    match regAt 0x100 0x40 16 o, regAt 0x104 0x40 16 o with
    | some p, _ =>
      s.modWick n fun w => { w with lcfg := w.lcfg.write fun t => Tab.set LaneCfg.reset t p (laneCfgOf v) }
    | _, some p => s.modLane n p fun l => { l with lockLost := w1c l.lockLost v 4 }
    | none, none => s

/-! ### The Lamplighter, the Snuffer and the decision port -/

def modLlPool (f : LlPool → LlPool) (s : State) : State := { s with ll := { s.ll with pool := s.ll.pool.write f } }
def modLlMenu (f : LlMenu → LlMenu) (s : State) : State := { s with ll := { s.ll with menu := s.ll.menu.write f } }
def modDpCfg (f : DpCfg → DpCfg) (s : State) : State := { s with dp := { s.dp with cfg := s.dp.cfg.write f } }

def llWrite (o : Nat) (v : Word) (s : State) : State :=
  match o with
  | 0x004 =>
    onBit v 1 execLlCntclr (after (execLlEnableWrite (v.getLsbD 0) { s with ll := { s.ll with homemode := v.getLsbD 2 } }) s)
  | 0x008 => { s with ll := { s.ll with cfgerr := w1c s.ll.cfgerr v 0 } }
  | 0x00C => onBit v 1 execLlPoolCommit (onBit v 0 execLlMenuCommit s)
  | 0x010 => modLlPool (fun g => { g with taskBase := setLo g.taskBase v }) s
  | 0x014 => modLlPool (fun g => { g with taskBase := setHi g.taskBase v }) s
  | 0x018 => modLlPool (fun g => { g with taskLog2 := v.extractLsb' 0 5, resv := v.extractLsb' 8 3 }) s
  | 0x020 => modLlPool (fun g => { g with saveBase := setLo g.saveBase v }) s
  | 0x024 => modLlPool (fun g => { g with saveBase := setHi g.saveBase v }) s
  | 0x028 => modLlPool (fun g => { g with deferBase := setLo g.deferBase v }) s
  | 0x02C => modLlPool (fun g => { g with deferBase := setHi g.deferBase v }) s
  | 0x030 => modLlPool (fun g => { g with deferLog2 := v.extractLsb' 0 5 }) s
  | 0x038 => modLlMenu (fun g => { g with tmplBase := setLo g.tmplBase v }) s
  | 0x03C => modLlMenu (fun g => { g with tmplBase := setHi g.tmplBase v }) s
  | 0x040 => modLlMenu (fun g => { g with version := v.extractLsb' 0 16, tmpls := v.extractLsb' 16 9 }) s
  | 0x044 => { s with ll := { s.ll with lanmask := v } }
  | 0x048 => { s with ll := { s.ll with migMin := v.extractLsb' 0 8, migEn := v.getLsbD 8 } }
  | _ => s

def snWrite (o : Nat) (v : Word) (s : State) : State :=
  match o with
  | 0x004 => onBit v 0 execSnCntclr s
  | 0x008 => { s with sn := { s.sn with cfgerr := w1c s.sn.cfgerr v 0 } }
  | 0x010 => modLlMenu (fun g => { g with deadline := v.extractLsb' 0 24 }) s
  | 0x014 => modLlMenu (fun g => { g with warn := v.extractLsb' 0 24 }) s
  | 0x018 => modLlMenu (fun g => { g with policy := v.extractLsb' 0 2, prescale := v.extractLsb' 16 16 }) s
  | _ => s

def dpWrite (o : Nat) (v : Word) (s : State) : State :=
  match o with
  | 0x004 => onBit v 0 execDpCntclr s
  | 0x008 => { s with dp := { s.dp with cfgerr := w1c s.dp.cfgerr v 0 } }
  | 0x00C => onBit v 0 execDpOutCommit s
  | 0x010 => modDpCfg (fun g =>
      { g with order := v.getLsbD 0, lanemode := v.getLsbD 1, hostcopy := v.getLsbD 2, beat := v.getLsbD 3 }) s
  | 0x014 => modDpCfg (fun g => { g with lanes := v.extractLsb' 0 8, pol := v.extractLsb' 8 8 }) s
  | _ => s

/-! ### Taper, translation, coherence and memory controllers -/

def modTpMark (f : TpMark → TpMark) (s : State) : State := { s with tp := { s.tp with mark := s.tp.mark.write f } }

def tpWrite (o : Nat) (v : Word) (s : State) : State :=
  match o with
  | 0x004 =>
    onBit v 16 execTpCntclr { s with tp := { s.tp with graphMask := v.extractLsb' 0 8, markMask := v.extractLsb' 8 8 } }
  | 0x008 => { s with tp := { s.tp with cfgerr := w1c s.tp.cfgerr v 0 } }
  | 0x00C => onBit v 0 execTpMarkCommit s
  | 0x010 => modTpMark (fun g => { g with base := setLo g.base v }) s
  | 0x014 => modTpMark (fun g => { g with base := setHi g.base v }) s
  | 0x018 => modTpMark (fun g => { g with log2 := v.extractLsb' 0 5 }) s
  | _ => s

def mmWrite (o : Nat) (v : Word) (s : State) : State :=
  match o with
  | 0x004 => onBit v 1 execMmLastfClr (onBit v 0 execMmCntclr s)
  | 0x008 => { s with mm := { s.mm with cfgerr := w1c s.mm.cfgerr v 0 } }
  | 0x00C => onBit v 0 execMmRootCommit s
  | 0x010 => { s with mm := { s.mm with rootSh := setLo s.mm.rootSh v } }
  | 0x014 => { s with mm := { s.mm with rootSh := setHi s.mm.rootSh v, enSh := v.getLsbD 31 } }
  | _ => s

def ccWrite (o : Nat) (v : Word) (s : State) : State :=
  match o with
  | 0x004 => onBit v 3 execCcCntclr { s with cc := ⟨v.getLsbD 0, v.getLsbD 1, v.getLsbD 2⟩ }
  | _ => s

/-- Four tag bytes of the test registers are written. -/
def setTags (k : Nat) (v : Word) (t : Tab Byte) : Tab Byte :=
  (List.range 4).foldl (fun (t : Tab Byte) j => Tab.set 0 t (4 * k + j) (v.extractLsb' (8 * j) 8)) t

/-- The test registers are accepted only in SERVICE, and elsewhere set CFGERR (R429). -/
def testReg (c : Nat) (f : McSt → McSt) (s : State) : State :=
  s.modMc c fun m => if s.mg.stored.lc = .service then f m else { m with cfgerr := true }

def mcWrite (c o : Nat) (v : Word) (s : State) : State :=
  let c2 : BitVec 2 := BitVec.ofNat 2 c
  match o with
  | 0x004 => onBit v 1 (execMcCntclr c2) (s.modMc c fun m => { m with scrubEn := v.getLsbD 0 })
  | 0x008 => s.modMc c fun m => { m with cfgerr := w1c m.cfgerr v 0, scrubDone := w1c m.scrubDone v 3 }
  | 0x010 => s.modMc c fun m => { m with hours := if v.extractLsb' 0 16 = 0 then 1 else v.extractLsb' 0 16 }
  | 0x020 => testReg c (fun m => { m with testAddr := setLo m.testAddr (v &&& 0xFFFFFFC0) }) s
  | 0x024 => testReg c (fun m => { m with testAddr := setHi m.testAddr v }) s
  | 0x028 =>
    onBit v 1 (execMcTestWrite c2) (onBit v 0 (execMcTestRead c2) (testReg c (fun m => { m with rawchk := v.getLsbD 2 }) s))
  | 0x090 => testReg c (fun m => { m with testChk := setLo m.testChk v }) s
  | 0x094 => testReg c (fun m => { m with testChk := setHi m.testChk v }) s
  | _ =>
    match regAt 0x040 4 16 o, regAt 0x080 4 4 o with
    | some i, _ => testReg c (fun m => { m with testData := Tab.set 0 m.testData i v }) s
    | _, some k => testReg c (fun m => { m with testTag := setTags k v m.testTag }) s
    | none, none => s

/-! ### The fabric -/

def modBlRing (f : BlRing → BlRing) (s : State) : State := { s with bl := { s.bl with ring := s.bl.ring.write f } }

def pcfgOf (v : Word) : PortCfg := ⟨v.getLsbD 0, v.extractLsb' 1 2, v.extractLsb' 3 2, v.getLsbD 5, v.extractLsb' 6 8⟩

/-- BL_PCTRL. -/
def pctrl (p : Nat) (v : Word) (s : State) : State :=
  let p4 : BitVec 4 := BitVec.ofNat 4 p
  onBit v 2 (execBlRelease p4) (onBit v 1 (execBlIsolate p4) (onBit v 0 (execBlRetrain p4) s))

def blWrite (o : Nat) (v : Word) (s : State) : State :=
  let b := s.bl
  match o with
  | 0x004 =>
    let ttl := v.extractLsb' 1 7
    onBit v 0 execBlCntclr { s with bl := { b with ttl := if ttl = 0 then 1 else ttl } }
  | 0x008 => { s with bl := { b with cfgerr := w1c b.cfgerr v 0 } }
  | 0x00C =>
    onBit v 3 execBlRingCommit (onBit v 2 execBlPortCommit (onBit v 1 execBlRtCommit (onBit v 0 execBlNodeCommit s)))
  | 0x010 => { s with bl := { b with nodeSh := v.extractLsb' 0 16 } }
  | 0x014 => modBlRing (fun g => { g with timeout := v.extractLsb' 0 16 }) s
  | 0x018 => modBlRing (fun g => { g with base := setLo g.base v }) s
  | 0x01C => modBlRing (fun g => { g with base := setHi g.base v }) s
  | 0x020 => modBlRing (fun g => { g with cnt := v.extractLsb' 0 11 }) s
  | 0x024 => { s with bl := { b with rtSel := v.extractLsb' 0 16 } }
  | 0x028 => if b.rtPend then s else { s with bl := { b with rtSh := Tab.set 0 b.rtSh b.rtSel.toNat (rtEntry (v.extractLsb' 0 16)) } }
  | 0x02C => { s with bl := { b with rtSrc := setLo b.rtSrc v } }
  | 0x030 => { s with bl := { b with rtSrc := setHi b.rtSrc v } }
  | 0x034 => onBit v 0 execBlRtLoad s
  | _ =>
    match regAt 0x100 0x40 16 o, regAt 0x104 0x40 16 o with
    | some p, _ => { s with bl := { b with pcfg := b.pcfg.write fun t => Tab.set PortCfg.reset t p (pcfgOf v) } }
    | _, some p => pctrl p v s
    | none, none => s

/-! ### The time base -/

def modTbCfg (f : TbCfg → TbCfg) (s : State) : State := s.modTb fun t => { t with cfg := t.cfg.write f }

/-- Bits of TB_CMP_COMMIT for channels 32h to 32h + 31. -/
def cmpCommits (h : Nat) (v : Word) (s : State) : State :=
  (List.range 32).foldl (fun s i => onBit v i (execTbCmpCommit (BitVec.ofNat 6 (32 * h + i))) s) s

/-- The shadow fields of a channel; ignored while the HUB holds it (R471). -/
def modCmp (n : Nat) (f : CmpCfg → CmpCfg) (s : State) : State :=
  if hubHolds s n then s else modCh n (fun c => { c with cfg := c.cfg.write f }) s

def tbWrite (o : Nat) (v : Word) (s : State) : State :=
  match o with
  | 0x004 => onBit v 0 execTbCntclr s
  | 0x008 => s.modTb fun t => { t with refrange := w1c t.refrange v 3, cfgerr := w1c t.cfgerr v 4 }
  | 0x00C => onBit v 0 execTbCfgCommit s
  | 0x020 => modTbCfg (fun g => { g with len := v.extractLsb' 0 16 }) s
  | 0x024 => modTbCfg (fun g => { g with
      acceptEn := v.getLsbD 0, resetEn := v.getLsbD 1, chkbx := v.getLsbD 2, resync := v.getLsbD 3, pol := v.getLsbD 4 }) s
  | 0x030 => onBit v 0 execTbSnap s
  | 0x080 => cmpCommits 0 v s
  | 0x084 => cmpCommits 1 v s
  | 0x088 => s.modTb fun t => { t with fired := t.fired &&& ~~~(v.setWidth 64) }
  | 0x08C => s.modTb fun t => { t with fired := t.fired &&& ~~~(v.setWidth 64 <<< 32) }
  | _ =>
    match regAt 0x100 0x10 64 o, regAt 0x104 0x10 64 o with
    | some n, _ => modCmp n (fun g =>
        { g with en := v.getLsbD 0, mode := v.getLsbD 1, wake := v.getLsbD 2, irq := v.getLsbD 3 }) s
    | _, some n => modCmp n (fun g => { g with val := v }) s
    | none, none => s

/-! ### The host interface -/

/-- A word of a function's MSI-X table; a vector that is unmasked while it is pending is sent (R492). -/
def msixWrite (fn o : Nat) (v : Word) (s : State) : State :=
  let i := fn * 256 + o / 16
  let sh := 8 * (o % 16)
  let old := Tab.get msixReset s.hi.msix i
  let new := (old &&& ~~~((0xFFFFFFFF : BitVec 128) <<< sh)) ||| (v.setWidth 128 <<< sh)
  let s := { s with hi := { s.hi with msix := Tab.set msixReset s.hi.msix i new } }
  if s.hi.pba.contains i && !new.getLsbD 96 then
    sendMsix fn (BitVec.ofNat 8 (o / 16)) { s with hi := { s.hi with pba := s.hi.pba.erase i } }
  else s

/-- A base address of a ring: taken while the ring is DISABLED, else CFGERR (Table 16-13). -/
def ringBase (r : Nat) (f : RingSt → RingSt) (s : State) : State :=
  if (s.ring r).st = .disabled then s.modRing r f else badHi s

/-- IRQ flags of posted descriptors, which stand in host memory: free where the write that disables a ring brings none (log
entry 98). -/
def freeFlags : Nat → State → List Bool × State
  | 0, s => ([], s)
  | n + 1, s =>
    let (w, s) := s.draw
    let (r, s) := freeFlags n s
    (w.getLsbD 0 :: r, s)

/-- A write of register k of ring r by a function; one that does not reach the ring is ignored and counted (R483). -/
def ringWrite (fn : BitVec 5) (r k : Nat) (v : Word) (s : State) : State :=
  let r10 : BitVec 10 := BitVec.ofNat 10 r
  if !ringExists s r then s
  else if !reaches s fn r then dropBell s
  else
    match k with
    | 0 =>
      if v.getLsbD 0 then after (execRingEnable r10 fn v s) s
      else
        let (irqs, s) := freeFlags (s.ring r).used s
        after (execRingDisable r10 fn v irqs s) s
    | 1 => ringBase r (fun x => { x with rbase := setLo x.rbase v }) s
    | 2 => ringBase r (fun x => { x with rbase := setHi x.rbase v }) s
    | 3 => ringBase r (fun x => { x with rsb := setLo x.rsb v }) s
    | 4 => ringBase r (fun x => { x with rsb := setHi x.rsb v }) s
    | 5 => s.modRing r fun x =>
        { x with holdoff := v.extractLsb' 0 16, count := if v.extractLsb' 16 8 = 0 then 1 else v.extractLsb' 16 8 }
    | _ => s

def idWrite (o : Nat) (v : Word) (s : State) : State :=
  if 0x2000 ≤ o ∧ o < 0x3000 then msixWrite 0 (o - 0x2000) v s else s

/-- HI_WIN_LO, HI_WIN_HI, HI_VFAP_LO and HI_VFAP_HI. -/
def winWrite (o : Nat) (v : Word) (s : State) : State :=
  let h := s.hi
  match regAt 0x100 8 64 o, regAt 0x104 8 64 o, regAt 0x408 8 31 o, regAt 0x40C 8 31 o with
  | some w, _, _, _ => { s with hi := { h with winLo := Tab.set 0 h.winLo w (v &&& 0xFFFFF001) } }
  | _, some w, _, _ =>
    if (Tab.get 0 h.winLo w).getLsbD 0 then badHi s else { s with hi := { h with winHi := Tab.set 0 h.winHi w v } }
  | _, _, some n, _ => { s with hi := { h with vfapLo := Tab.set 0 h.vfapLo (n + 1) (v.extractLsb' 0 17) } }
  | _, _, _, some n => { s with hi := { h with vfapHi := Tab.set 0 h.vfapHi (n + 1) (v.extractLsb' 0 17) } }
  | _, _, _, _ => s

def hiWrite (o : Nat) (v : Word) (s : State) : State :=
  match o with
  | 0x004 => onBit v 0 execHiCntclr s
  | 0x008 => { s with hi := { s.hi with cfgerr := w1c s.hi.cfgerr v 0 } }
  | 0x00C => after (execHiIfverWrite (v.extractLsb' 4 2) s) s
  | 0x010 => { s with hi := { s.hi with svec := v } }
  | 0x014 => { s with hi := { s.hi with svecEn := v.extractLsb' 0 4 } }
  | _ => if 0x8000 ≤ o then ringWrite 0 (ringAt (o - 0x8000)).1 (ringAt (o - 0x8000)).2 v s else winWrite o v s

/-! ### The management plane and the recorder -/

/-- The codes of Table 17-7. -/
def mbKnown (code : BitVec 8) : Bool :=
  [0x01, 0x08, 0x10, 0x11, 0x12, 0x13, 0x20, 0x21, 0x22, 0x30, 0x31, 0x40, 0x41].contains code

/-- A command completes BUSY (1); a microcode command that is so refused leaves its record (11 R374). GO and a command that
runs are not disturbed (17 R526). -/
def mbBusy (code : BitVec 8) (s : State) : State :=
  let s := if 0x20 ≤ code.toNat ∧ code.toNat ≤ 0x22 then record 2 0x90 0x07 (code.setWidth 64) 1 0 0 0 s else s
  serviceIrq 3 { s with mg := { s.mg with status := 1, detail := 0 } }

/-- MG_MB_CMD (17 R525, R526): CODE is written; with GO the command starts, and its row then performs it, unless another
runs. -/
def mbCommand (v : Word) (s : State) : State :=
  let code := v.extractLsb' 0 8
  let s := { s with mg := { s.mg with code := code } }
  if !v.getLsbD 31 then s
  else if s.mg.go ∨ !s.mg.ready then mbBusy code s
  else if !mbKnown code then mbDone 11 0 s
  else { s with mg := { s.mg with go := true, cmd := code } }

def mgWrite (o : Nat) (v : Word) (s : State) : State :=
  match o with
  | 0x004 => onBit v 0 execMgCntclr s
  | 0x008 => { s with mg := { s.mg with cfgerr := w1c s.mg.cfgerr v 7 } }
  | 0x00C => onBit v 0 execMgThermCommit s
  | 0x010 => mbCommand v s
  | 0x060 => { s with mg := { s.mg with therm := s.mg.therm.write fun _ => v.extractLsb' 0 8 } }
  | _ => match regAt 0x020 4 8 o with
    | some n => { s with mg := { s.mg with args := Tab.set 0 s.mg.args n v } }
    | none => s

def erWrite (o : Nat) (v : Word) (s : State) : State :=
  match o with
  | 0x004 =>
    erVector (onBit v 4 execErCntclr { s with er := { s.er with logmin := v.extractLsb' 0 2, irqmin := v.extractLsb' 2 2 } })
  | 0x020 => { s with er := { s.er with rdSel := setLo s.er.rdSel v } }
  | 0x024 => { s with er := { s.er with rdSel := setHi s.er.rdSel v } }
  | 0x028 => onBit v 0 execErFetch s
  | _ => s

/-! ### By BAR0 offset -/

/-- A write of the register at a BAR0 offset, by the PF, the management processor or a core. -/
def devWrite (off : Nat) (v : Word) (s : State) : State :=
  let o := off % 0x10000
  match off / 0x10000 with
  | 0x00 => idWrite o v s
  | 0x01 => hiWrite o v s
  | 0x10 | 0x11 | 0x12 | 0x13 | 0x14 | 0x15 => wkWrite (off / 0x10000 - 0x10) o v s
  | 0x20 =>
    if o < 0x4000 then llWrite o v s else if o < 0x8000 then snWrite (o - 0x4000) v s else dpWrite (o - 0x8000) v s
  | 0x30 => cnWrite o v s
  | 0x40 => tpWrite o v s
  | 0x50 => tbWrite o v s
  | 0x60 => blWrite o v s
  | 0x70 => ccWrite o v s
  | 0x80 | 0x81 | 0x82 | 0x83 => mcWrite (off / 0x10000 - 0x80) o v s
  | 0x88 => mmWrite o v s
  | 0x90 => mgWrite o v s
  | 0xA0 => erWrite o v s
  | _ => s

/-- A write over a VF's BAR0: its MSI-X table and the ring registers (16 R483). -/
def vfWrite (fn : BitVec 5) (off : Nat) (v : Word) (s : State) : State :=
  if 0x2000 ≤ off ∧ off < 0x3000 then msixWrite fn.toNat (off - 0x2000) v s
  else if 0x8000 ≤ off ∧ off < 0x10000 then ringWrite fn (ringAt (off - 0x8000)).1 (ringAt (off - 0x8000)).2 v s
  else s

/-! ### Doorbell pages and configuration space (16 R479, R480, R491) -/

/-- A write over BAR2: the doorbells of ring r's page; another offset or another size is ignored and counted. -/
def bellWrite (fn : BitVec 5) (size off : Nat) (v : Word) (s : State) : State :=
  let r : BitVec 10 := BitVec.ofNat 10 (off / 0x1000)
  if size ≠ 4 then dropBell s
  else
    match off % 0x1000 with
    | 0 => after (execDbProd r v fn s) s
    | 4 => after (execDbCons r v fn s) s
    | 8 => after (execDbArm r fn s) s
    | _ => dropBell s

/-- The items of configuration space that the module acts under, by the model's numbers: 0 the maximum payload size, 1 the
maximum read request size, 2 SR-IOV VF Enable, 3 the AER status of the function (log entry 98). -/
def configRead (fn : BitVec 5) (item : Nat) (s : State) : Word :=
  let p := s.hi.pcie
  match item with
  | 0 => fld 0 p.mps
  | 1 => fld 0 p.mrrs
  | 2 => fldB 0 p.vfEn
  | 3 => fldB 12 (p.aer.contains fn.toNat)
  | _ => 0

/-- A write of one: sizes that Table 16-1 does not support are not taken; VF Enable cleared resets the VFs; AER status is W1C. -/
def configWrite (fn : BitVec 5) (item : Nat) (v : Word) (s : State) : State :=
  let put (p : PcieSt) (s : State) : State := { s with hi := { s.hi with pcie := p } }
  let p := s.hi.pcie
  match item with
  | 0 => if fn = 0 ∧ v.toNat ≤ 2 then put { p with mps := v.setWidth 3 } s else s
  | 1 => if fn = 0 ∧ v.toNat ≤ 5 then put { p with mrrs := v.setWidth 3 } s else s
  | 2 =>
    if fn ≠ 0 then s
    else
      let s := if p.vfEn ∧ !v.getLsbD 0 then resetFunctions (· ≠ 0) s else s
      put { s.hi.pcie with vfEn := v.getLsbD 0 } s
  | 3 => if v.getLsbD 12 then put { p with aer := p.aer.filter (· ≠ fn.toNat) } s else s
  | _ => s

/-! ### REGISTER_WRITE -/

/-- An access to a space: a write of v, or, with none, a read, which answers its value too (log entry 98). -/
def spaceAccess (who : Reader) (space : RegSpace) (off : Nat) (v : Option Word) (s : State) : State :=
  let answer (r : Word × State) : State := emit (.readValue r.1) r.2
  let off4 := off / 4 * 4
  match space, who, v with
  | .bar0, .fn n, some v => if n = 0 then devWrite off4 v s else vfWrite n off4 v s
  | .bar0, .fn n, none => answer (if n = 0 then hostRead who off4 s else (vfRead n off4 s, s))
  | .bar0, _, some v => devWrite off4 v s
  | .bar0, _, none => answer (hostRead who off4 s)
  | .bar2 size, .fn n, some v => bellWrite n size off v s
  | .bar2 _, .fn _, none => answer (0, s)
  | .config, .fn n, some v => configWrite n off v s
  | .config, .fn n, none => answer (configRead n off s, s)
  | _, _, _ => s

/-- REGISTER_WRITE: an access at an offset of BAR0, aligned and of 4 bytes, by the PF, a VF, the management processor or a core;
of a function's BAR2; or of its configuration space. Registers are reached while the module runs. -/
def execRegisterWrite (who : Reader) (space : RegSpace) (off : BitVec 25) (v : Option Word) (s : State) : Outcome :=
  .next (if s.pw.stage = .run then spaceAccess who space off.toNat v s else s)

end Sys2Proof.Machine
end

