-- ==== Sys2Proof/Machine/CoreAccess.lean ====
section
/-! DEFINITION. Loads and stores of a core by virtual address (09 Table 09-1 rows 6 to 8; 02 R65, R71, R73; 03 R107, R108, R110, R128;
12 R382). -/

namespace Sys2Proof.Machine

/-- The word at a virtual address that has been translated: the region's answer (R2, R58, R382), after the ownership
check of R107. bytes is the width of the access: a register block takes whole words only, a host window every width. -/
def loadAt (c : CtxId) (bytes : Nat) (va : Word) (pa : PA) (s : State) : Res MWord :=
  match regionOf s pa with
  | .regs =>
    if bytes ≠ 4 then trapA Cause.align va TWord.unset s
    else
      let (v, s) := devRead (coreOf c) (localOf pa - 0x1000000000) s
      .ok (rawM v) s
  | .window =>
    match (s.ctx c).answer with
    | v :: r => .ok v.m (s.modCtx c fun x => { x with answer := r })
    | [] => .wait .window (winLoad c (localOf pa) bytes s)
  | .reserved => .ok (MWord.poison 4) s
  | .unpopulated => .ok (MWord.poison 4) (unpopulated pa s)
  | .data => (checkOwner c va pa s).bind fun _ s => readPaWord c va pa s

/-- The word at a virtual address with the checks of a load, and its physical address (Table 09-1 rows 6 to 8). -/
def loadVa (c : CtxId) (kind : AccKind) (va : Word) (s : State) (bytes : Nat := 4) : Res (MWord × PA) :=
  (translate c kind va s).bind fun pa s => (loadAt c bytes va pa s).bind fun w s => .ok (w, pa) s

/-- A load with the one-hop redirect of a FWD word (R128, R306): the word, its address and its physical address. The word is
FWD where the redirect leads to another. -/
def loadHop (c : CtxId) (kind : AccKind) (va : Word) (s : State) (bytes : Nat := 4) : Res (MWord × Word × PA) :=
  (loadVa c kind va s bytes).bind fun w s =>
    if w.1.ty = Ty.fwd then
      let at' := w.1.val + (va &&& 3)
      if w.1.val.extractLsb' 0 2 ≠ 0 then trapA Cause.align w.1.val w.1.t s
      else (loadVa c kind at' s bytes).bind fun w2 s => .ok (w2.1, at', w2.2) s
    else .ok (w.1, va, w.2) s

/-- A second FWD word is not followed (R306; row 8). -/
def checkHop (w : TWord) (s : State) : Res Unit := if w.ty = Ty.fwd then trapW Cause.tagMismatch w s else .ok () s

/-- As loadHop, with that check. -/
def loadFwd (c : CtxId) (kind : AccKind) (va : Word) (s : State) (bytes : Nat := 4) : Res (MWord × Word × PA) :=
  (loadHop c kind va s bytes).bind fun r s => (checkHop r.1.t s).bind fun _ s => .ok r s

/-- A word load that follows FWD and checks the loaded value; bytes: 8 for each word of a pair. -/
def loadWord (c : CtxId) (va : Word) (s : State) (bytes : Nat := 4) : Res MWord :=
  if va.extractLsb' 0 2 ≠ 0 then trapA Cause.align va TWord.unset s
  else (loadFwd c .load va s bytes).bind fun r s =>
    (checkLoaded c r.2.1 r.2.2 r.1.t s).bind fun _ s => .ok r.1 s

/-- The checks of one stored word at its target (R65, R73, R107, R110; Table 09-1 rows 6 to 8); hop: it has been reached
through a FWD word. The exchange of R132 needs R and W (R387). A target that is FWD answers with the address that the FWD word names (R306). -/
def storeCheck (c : CtxId) (how : StoreHow) (kind : AccKind) (va : Word) (v : TWord) (hop : Bool) (s : State) : Res Target :=
  (translate c kind va s).bind fun pa s =>
    match regionOf s pa with
    | .regs | .window | .reserved =>
      if !isImmediate v.ty then trapA Cause.storeClass va v s
      else if how.pair && regionOf s pa = .regs then trapA Cause.align va TWord.unset s
      else .ok ⟨va, pa, MWord.unset, none⟩ s
    | .unpopulated => (valueCandle c va v s).bind fun dst s => .ok ⟨va, pa, MWord.unset, dst⟩ s
    | .data =>
      (checkOwner c va pa s).bind fun _ s =>
        (valueCandle c va v s).bind fun dst s =>
          (readTarget c pa s).bind fun old s =>
            if old.ty = Ty.fwd then
              if hop then trapW Cause.tagMismatch old.t s
              else .ok ⟨old.val, pa, old, dst⟩ s
            else if old.imm && !how.free then trapW Cause.immStore old.t s
            else if snapshotLogs c pa old.t v s = [] then .ok ⟨va, pa, old, dst⟩ s
            else (translate c .rmw va s).bind fun _ s => .ok ⟨va, pa, old, dst⟩ s

/-- As storeCheck, following one FWD word. -/
def storeTarget (c : CtxId) (how : StoreHow) (kind : AccKind) (va : Word) (v : TWord) (s : State) : Res Target :=
  (storeCheck c how kind va v false s).bind fun r s =>
    if r.old.ty = Ty.fwd then
      if r.va.extractLsb' 0 2 ≠ 0 then trapA Cause.align r.va r.old.t s else storeCheck c how kind r.va v true s
    else .ok r s

/-- The store itself, by region (R2, R382). A store that reaches no memory is discarded and counted, with its escape entry
(R113). -/
def storeDo (c : CtxId) (v : TWord) (t : Target) (s : State) : Res Unit :=
  match regionOf s t.pa with
  | .regs => .ok () (devWrite (localOf t.pa - 0x1000000000) v.val s)
  | .window => .ok () (winStore (localOf t.pa) (wordBytes v.val) s)
  | .reserved => .ok () s
  | .unpopulated => (escapeEntry c t.dst t.pa true s).bind fun _ s => .ok () (unpopulated t.pa s)
  | .data => performStore c t.pa v t.old t.dst s

/-- Rows 6 and 7 of Table 09-1 for a target and the values to be stored there, before any word is read (R299): translation,
ownership, and what each value leads into (R107, R110). -/
def checkReached (c : CtxId) (kind : AccKind) (va : Word) (vs : List TWord) (s : State) : Res Unit :=
  (translate c kind va s).bind fun pa s =>
    let values (s : State) : Res Unit :=
      vs.foldl (fun r v => r.bind fun _ s => (valueCandle c va v s).bind fun _ s => .ok () s) (.ok () s)
    match regionOf s pa with
    | .data => (checkOwner c va pa s).bind fun _ s => values s
    | .unpopulated => values s
    | _ => .ok () s

/-- A whole-word store of a checked value. -/
def storeWord (c : CtxId) (how : StoreHow) (va : Word) (v : TWord) (s : State) : Res Unit :=
  if va.extractLsb' 0 2 ≠ 0 then trapA Cause.align va TWord.unset s
  else (storeTarget c how .store va v s).bind fun t s => storeDo c v t s

end Sys2Proof.Machine
end

