-- ==== Sys2Proof/Machine/CoreAlloc.lean ====
section
/-! DEFINITION. Objects that an instruction makes (03 R103, R104; 08). -/

namespace Sys2Proof.Machine

/-- How the words of a new object are stored: IMM does not stop them (R73). -/
def allocHow : StoreHow := ⟨true, false⟩

/-- The checks of every word of a new object, before any is written (R88, R107, R110, R382): a trap leaves memory as it
was. Answers the words with their targets. -/
def allocCheck (c : CtxId) : Word → List TWord → State → Res (List (Target × TWord))
  | _, [], s => .ok [] s
  | va, v :: r, s =>
    (storeCheck c allocHow .store va v false s).bind fun t s =>
      (allocCheck c (va + 4) r s).bind fun l s => .ok ((t, v) :: l) s

/-- A word of a new object is written, with no redirect and with its barriers (R86, R113). -/
def allocWord (c : CtxId) (t : Target) (v : TWord) (s : State) : Res Unit :=
  if regionOf s t.pa = .data then
    (readTarget c t.pa s).bind fun old s =>
      (makeRoom c (lineNo t.pa) s).bind fun _ s => storeDo c v { t with old := old } s
  else storeDo c v t s

/-- Words of a new object that have passed their checks are written. Where a store waits, those that are left stay with the
context, and the instruction goes on with them when it issues again (R406). -/
def allocWords (c : CtxId) (base : Word) : List (Target × TWord) → State → Res Unit
  | [], s => .ok () (s.modCtx c fun x => { x with alloc := none })
  | w :: r, s =>
    match allocWord c w.1 w.2 s with
    | .ok _ s => allocWords c base r s
    | .trap t s => .trap t s
    | .wait o s => .wait o (s.modCtx c fun x => { x with alloc := some (base, w :: r) })

/-- The place of a new object is taken once its words have passed their checks; new spans belong to the candle while they
are checked. -/
def allocTake (c : CtxId) (p : Place) (ws : List TWord) (s : State) : Res (List (Target × TWord)) :=
  let commit := p.commit (lanOf c) (4 * ws.length)
  match p with
  | .run .. =>
    match allocCheck c p.va ws (commit s) with
    | .ok l t => .ok l t
    | .trap k t => .trap k { t with cn := s.cn }
    | .wait w t => .wait w { t with cn := s.cn }
  | _ => (allocCheck c p.va ws s).bind fun l s => .ok l (commit s)

/-- A new object of some words, each written (R99); answers its virtual address. -/
def allocObject (c : CtxId) (align : Nat) (ws : List TWord) (s : State) : Res Word :=
  (place c (4 * ws.length) align s).bind fun p s =>
    (allocTake c p ws s).bind fun l s => (allocWords c p.va l s).bind fun _ s => .ok p.va s

/-- An instruction that allocates, with an object of TYPE t in rd as its result: one whose words were still being written goes
on with them, and checks nothing again (R88, R406). -/
def allocating (t : Ty) (rd : R5) (body : CtxId → State → Res Flow) (c : CtxId) (s : State) : Res Flow :=
  match (s.ctx c).alloc with
  | some (va, l) => (allocWords c va l s).bind fun _ s => putR c rd ⟨t, va⟩ s
  | none => body c s

end Sys2Proof.Machine
end

