-- ==== Sys2Proof/Machine/Float.lean ====
section
/-! DEFINITION. IEEE 754 binary32 (02 R78; 09 R313, R314): exact dyadic values, rounding in the four modes with tininess
detected after rounding, arithmetic, remainder, square root, fused multiply-add, comparisons and conversions. A number is
sign, magnitude m and exponent e: m · 2^e. -/

namespace Sys2Proof.Machine

/-- A binary32 value taken apart. -/
inductive F32 where
  | nan (signalling : Bool)
  | inf (neg : Bool)
  | num (neg : Bool) (m : Nat) (e : Int)
  deriving DecidableEq, Repr

def f32Nan : Word := 0x7FC00000
def f32Inf (neg : Bool) : Word := if neg then 0xFF800000 else 0x7F800000
def f32Zero (neg : Bool) : Word := if neg then 0x80000000 else 0
def f32Max (neg : Bool) : Word := if neg then 0xFF7FFFFF else 0x7F7FFFFF

def f32Of (w : Word) : F32 :=
  let neg := w.getLsbD 31
  let e := (w.extractLsb' 23 8).toNat
  let m := (w.extractLsb' 0 23).toNat
  if e = 255 then (if m = 0 then .inf neg else .nan (!w.getLsbD 22))
  else if e = 0 then .num neg m (-149)
  else .num neg (m + 0x800000) ((e : Int) - 150)

def isSnan (w : Word) : Bool := decide (f32Of w = .nan true)
def isNan (w : Word) : Bool := match f32Of w with | .nan _ => true | _ => false

/-- Rounds away from zero: mode 0 nearest even, 1 toward 0, 2 toward +∞, 3 toward −∞ (Table 07-4), for a magnitude with
quotient q and remainder r of 2^s. -/
def roundUp (rm : BitVec 2) (neg : Bool) (q r s : Nat) : Bool :=
  if r = 0 then false
  else if rm = 0 then 2 ^ s < 2 * r || (2 * r = 2 ^ s && q % 2 = 1)
  else if rm = 1 then false
  else if rm = 2 then !neg
  else neg

/-- m · 2^e to a multiple of 2^q, when e < q: the multiple and whether it is exact. -/
def roundTo (rm : BitVec 2) (neg : Bool) (m : Nat) (e q : Int) : Nat × Bool :=
  if q ≤ e then (m * 2 ^ (e - q).toNat, true)
  else
    let s := (q - e).toNat
    let n := m / 2 ^ s
    let r := m % 2 ^ s
    (if roundUp rm neg n r s then n + 1 else n, decide (r = 0))

/-- The binary32 result of a magnitude other than 0 and its flags (R78). The lowest bit of m may stand for a discarded
remainder when m has at least 27 bits. -/
def roundPack (rm : BitVec 2) (neg : Bool) (m : Nat) (e : Int) : Word × Fflags :=
  if m = 0 then (f32Zero neg, 0)
  else
    let top : Int := e + Nat.log2 m
    let q := max (top - 23) (-149)
    let (n, exact) := roundTo rm neg m e q
    let (n, q) := if n = 0x1000000 then (0x800000, q + 1) else (n, q)
    if n ≥ 0x800000 ∧ q > 104 then
      (if rm = 0 || (rm = 2 && !neg) || (rm = 3 && neg) then f32Inf neg else f32Max neg,
        Fflags.overflow ||| Fflags.inexact)
    else
      let tiny := top < -126 ∧ ¬ (top = -127 ∧ (roundTo rm neg m e (top - 23)).1 = 0x1000000)
      let fl : Fflags := if exact then 0 else if tiny then Fflags.inexact ||| Fflags.underflow else Fflags.inexact
      let body := if n ≥ 0x800000 then ((q + 150).toNat <<< 23) + (n - 0x800000) else n
      (f32Zero neg ||| BitVec.ofNat 32 body, fl)

/-- A signed dyadic n · 2^e as binary32; an exact zero has the given sign. -/
def packInt (rm : BitVec 2) (zeroNeg : Bool) (n : Int) (e : Int) : Word × Fflags :=
  if n = 0 then (f32Zero zeroNeg, 0) else roundPack rm (n < 0) n.natAbs e

/-- An integer converted in a rounding mode (R78). -/
def f32OfInt (rm : BitVec 2) (n : Int) : Word × Fflags := packInt rm false n 0

def sgn (neg : Bool) (m : Nat) : Int := if neg then -(m : Int) else m

/-- The sum of two dyadics as one: numerator over 2^e. -/
def addDy (n1 : Int) (e1 : Int) (n2 : Int) (e2 : Int) : Int × Int :=
  let e := min e1 e2
  (n1 * 2 ^ (e1 - e).toNat + n2 * 2 ^ (e2 - e).toNat, e)

/-- The sign of an exact zero sum (IEEE 754): the common sign, else + except toward −∞. -/
def zeroSign (rm : BitVec 2) (a b : Bool) : Bool := if a = b then a else decide (rm = 3)

def f32Add (rm : BitVec 2) (x y : Word) : Word × Fflags :=
  match f32Of x, f32Of y with
  | .nan _, _ | _, .nan _ => (f32Nan, 0)
  | .inf a, .inf b => if a = b then (f32Inf a, 0) else (f32Nan, Fflags.invalid)
  | .inf a, .num _ _ _ => (f32Inf a, 0)
  | .num _ _ _, .inf b => (f32Inf b, 0)
  | .num a m e, .num b n f =>
    let r := addDy (sgn a m) e (sgn b n) f
    packInt rm (zeroSign rm a b) r.1 r.2

def f32Neg (x : Word) : Word := x ^^^ 0x80000000
def f32Abs (x : Word) : Word := x &&& 0x7FFFFFFF

def f32Sub (rm : BitVec 2) (x y : Word) : Word × Fflags := if isNan y then (f32Nan, 0) else f32Add rm x (f32Neg y)

def f32Mul (rm : BitVec 2) (x y : Word) : Word × Fflags :=
  match f32Of x, f32Of y with
  | .nan _, _ | _, .nan _ => (f32Nan, 0)
  | .inf a, .inf b => (f32Inf (a != b), 0)
  | .inf a, .num b n _ | .num b n _, .inf a => if n = 0 then (f32Nan, Fflags.invalid) else (f32Inf (a != b), 0)
  | .num a m e, .num b n f => roundPack rm (a != b) (m * n) (e + f)

def f32Div (rm : BitVec 2) (x y : Word) : Word × Fflags :=
  match f32Of x, f32Of y with
  | .nan _, _ | _, .nan _ => (f32Nan, 0)
  | .inf _, .inf _ => (f32Nan, Fflags.invalid)
  | .inf a, .num b _ _ => (f32Inf (a != b), 0)
  | .num a _ _, .inf b => (f32Zero (a != b), 0)
  | .num a m e, .num b n f =>
    if n = 0 then (if m = 0 then (f32Nan, Fflags.invalid) else (f32Inf (a != b), Fflags.divZero))
    else
      let q := m * 2 ^ 60 / n
      let sticky := if m * 2 ^ 60 % n = 0 then 0 else 1
      roundPack rm (a != b) (2 * q + sticky) (e - f - 61)

/-- IEEE 754 remainder: x − n·y with n the quotient rounded to nearest even; it is exact (R77). -/
def f32Rem (x y : Word) : Word × Fflags :=
  match f32Of x, f32Of y with
  | .nan _, _ | _, .nan _ => (f32Nan, 0)
  | .inf _, _ => (f32Nan, Fflags.invalid)
  | .num _ _ _, .inf _ => (x, 0)
  | .num a m e, .num _ n f =>
    if n = 0 then (f32Nan, Fflags.invalid)
    else
      let g : Int := min e f
      let m' : Nat := m * 2 ^ (Int.toNat (e - g))
      let n' : Nat := n * 2 ^ Int.toNat (f - g)
      let q := m' / n'
      let r := m' % n'
      if n' < 2 * r ∨ (2 * r = n' ∧ q % 2 = 1) then packInt 0 a (sgn a r - sgn a n') g
      else packInt 0 a (sgn a r) g

def f32Sqrt (rm : BitVec 2) (x : Word) : Word × Fflags :=
  match f32Of x with
  | .nan _ => (f32Nan, 0)
  | .inf neg => if neg then (f32Nan, Fflags.invalid) else (f32Inf false, 0)
  | .num neg m e =>
    if m = 0 then (x, 0)
    else if neg then (f32Nan, Fflags.invalid)
    else
      let (m, e) := if e % 2 = 0 then (m, e) else (2 * m, e - 1)
      let m := m * 2 ^ 60
      let q := Nat.sqrt m
      let sticky := if q * q = m then 0 else 1
      roundPack rm false (2 * q + sticky) (e / 2 - 30 - 1)

/-- x · y + z rounded once. Answers also whether the operation is 0 · ∞ + NaN, whose invalid flag IEEE 754 leaves to the
implementation. -/
def f32Fma (rm : BitVec 2) (x y z : Word) : Word × Fflags × Bool :=
  let zeroInf : Bool := match f32Of x, f32Of y with
    | .inf _, .num _ n _ | .num _ n _, .inf _ => n = 0
    | _, _ => false
  if isNan x ∨ isNan y then (f32Nan, 0, false)
  else if zeroInf then (if isNan z then (f32Nan, 0, true) else (f32Nan, Fflags.invalid, false))
  else
    match f32Of x, f32Of y, f32Of z with
    | _, _, .nan _ => (f32Nan, 0, false)
    | .num a m e, .num b n f, .num d k g =>
      let r := addDy (sgn (a != b) (m * n)) (e + f) (sgn d k) g
      let p := packInt rm (zeroSign rm (a != b) d) r.1 r.2
      (p.1, p.2, false)
    | .num _ _ _, .num _ _ _, .inf d => (f32Inf d, 0, false)
    | p, q, .inf d =>
      let neg := (p matches .inf true | .num true _ _) != (q matches .inf true | .num true _ _)
      if neg = d then (f32Inf d, 0, false) else (f32Nan, Fflags.invalid, false)
    | p, q, .num _ _ _ =>
      (f32Inf ((p matches .inf true | .num true _ _) != (q matches .inf true | .num true _ _)), 0, false)

/-- A real operand of a comparison. -/
inductive RealV where
  | nan
  | inf (neg : Bool)
  | fin (n : Int) (e : Int)
  deriving DecidableEq, Repr

def realOfF32 (w : Word) : RealV :=
  match f32Of w with
  | .nan _ => .nan
  | .inf a => .inf a
  | .num a m e => .fin (sgn a m) e

/-- Exact order of two real values; none when unordered. -/
def realCmp : RealV → RealV → Option Ordering
  | .nan, _ | _, .nan => none
  | .inf a, .inf b => some (if a = b then .eq else if a then .lt else .gt)
  | .inf a, .fin _ _ => some (if a then .lt else .gt)
  | .fin _ _, .inf b => some (if b then .gt else .lt)
  | .fin n e, .fin m f =>
    let g := min e f
    some (compare (n * 2 ^ (e - g).toNat) (m * 2 ^ (f - g).toNat))

/-- Minimum or maximum; one quiet NaN yields the other operand; −0 is below +0 (log entry 20). -/
def f32MinMax (max : Bool) (x y : Word) : Word :=
  match isNan x, isNan y with
  | true, true => f32Nan
  | true, false => y
  | false, true => x
  | false, false =>
    match realCmp (realOfF32 x) (realOfF32 y) with
    | some .lt => if max then y else x
    | some .gt => if max then x else y
    | _ => if max then (if x.getLsbD 31 then y else x) else (if x.getLsbD 31 then x else y)

/-- To a FIX in a rounding mode (R314). -/
def f32ToInt (rm : BitVec 2) (x : Word) : Word × Fflags :=
  match f32Of x with
  | .nan _ => (0x80000000, Fflags.invalid)
  | .inf neg => (if neg then 0x80000000 else 0x7FFFFFFF, Fflags.invalid)
  | .num neg m e =>
    let (n, exact) := roundTo rm neg m e 0
    let v := sgn neg n
    if v < -0x80000000 ∨ 0x7FFFFFFF < v then (if neg then 0x80000000 else 0x7FFFFFFF, Fflags.invalid)
    else (BitVec.ofInt 32 v, if exact then 0 else Fflags.inexact)

end Sys2Proof.Machine
end

