-- ==== Sys2Proof/Machine/Generic.lean ====
section
/-! DEFINITION. Object headers (02 R66, R67) and the generic operations on tagged words (02 R77–R85): integers and BIG,
binary32, BCD and TIME, logical operations, shifts, decimal adjust and comparisons. -/

namespace Sys2Proof.Machine

/-! ### Object headers -/

/-- The object that a pointer names: the address of its HDR, after a redirect through FWD (R128, R306), and the HDR. -/
def objHead (c : CtxId) (w : TWord) (s : State) : Res (Word × MWord) :=
  if w.val.extractLsb' 0 2 ≠ 0 then trapA Cause.align w.val w s
  else
    (loadFwd c .load w.val s).bind fun r s =>
      if r.1.ty = Ty.poison then trapW Cause.poison r.1.t s
      else if r.1.ty ≠ Ty.hdr then trapW Cause.hdrMissing r.1.t s
      else if !hdrOk w.ty r.1.val then trapW Cause.badPayload r.1.t s
      else .ok (r.2.1, r.1) s

/-- As objHead, with the HDR's payload. -/
def objHdr (c : CtxId) (w : TWord) (s : State) : Res (Word × Word) :=
  (objHead c w s).bind fun h s => .ok (h.1, h.2.val) s

/-- The address of body word i. -/
def bodyVa (base : Word) (i : Nat) : Word := base + 4 + BitVec.ofNat 32 (4 * i)

/-! ### Integers -/

/-- The words of a BIG from an address, each RAW. -/
def readLimbs (c : CtxId) : Nat → Word → State → Res (List Word)
  | 0, _, s => .ok [] s
  | n + 1, va, s =>
    (loadVa c .load va s).bind fun r s =>
      (checkTy (· == Ty.raw) r.1.t s).bind fun _ s =>
        (readLimbs c n (va + 4) s).bind fun l s => .ok (r.1.val :: l) s

/-- Two's-complement value of limbs, least significant first. -/
def limbsNat : List Word → Nat
  | [] => 0
  | w :: r => w.toNat + 2 ^ 32 * limbsNat r

def limbsInt (l : List Word) : Int :=
  if 2 ^ (32 * l.length) ≤ 2 * limbsNat l then (limbsNat l : Int) - 2 ^ (32 * l.length) else limbsNat l

/-- The integer of a FIX or BIG operand. -/
def intOf (c : CtxId) (w : TWord) (s : State) : Res Int :=
  if w.ty = Ty.fix then .ok w.val.toInt s
  else
    (objHdr c w s).bind fun h s =>
      (readLimbs c (hdrLen h.2) (h.1 + 4) s).bind fun l s => .ok (limbsInt l) s

/-- Whether n fits k limbs. -/
def fitsLimbs (k : Nat) (n : Int) : Bool := decide (-(2 ^ (32 * k - 1) : Int) ≤ n ∧ n < 2 ^ (32 * k - 1))

/-- The fewest limbs of an integer, up to 65. -/
def limbCount (n : Int) : Nat := ((List.range 65).find? fun i => fitsLimbs (i + 1) n).getD 64 + 1

def limbsOf (n : Int) : Nat → List TWord
  | 0 => []
  | k + 1 => TWord.raw (BitVec.ofInt 32 n) :: limbsOf (n / 2 ^ 32) k

/-- An integer result: a FIX where it fits, else a new BIG of the fewest limbs (R79). -/
def intResult (c : CtxId) (n : Int) (s : State) : Res TWord :=
  if fitsLimbs 1 n then .ok (TWord.fix (BitVec.ofInt 32 n)) s
  else
    let k := limbCount n
    if 64 < k then trapN Cause.bigLimit s
    else (allocObject c 4 (mkHdr 0 k :: limbsOf n k) s).bind fun va s => .ok ⟨Ty.big, va⟩ s

/-! ### BCD -/

def bcdDigits : Nat → Word → Nat
  | 0, _ => 0
  | n + 1, w => (w.extractLsb' 0 4).toNat + 10 * bcdDigits n (w >>> 4)

def digitsWord : Nat → Nat → Word
  | 0, _ => 0
  | k + 1, n => (digitsWord k (n / 10) <<< 4) ||| BitVec.ofNat 32 (n % 10)

/-- Digits [31:4] as a number. -/
def bcdMag (w : Word) : Nat := bcdDigits 7 (w >>> 4)
def bcdInt (w : Word) : Int := if w.extractLsb' 0 4 = 0xD then -(bcdMag w : Int) else bcdMag w
/-- A BCD word; zero carries 0xC (R80). -/
def bcdWord (n : Int) : TWord := ⟨Ty.bcd, (digitsWord 7 n.natAbs <<< 4) ||| (if n < 0 then 0xD else 0xC)⟩

def bcdResult (n : Int) (s : State) : Res TWord :=
  if 10000000 ≤ n.natAbs then trapN Cause.decOverflow s else .ok (bcdWord n) s

/-! ### Binary and unary arithmetic -/

inductive Gop where
  | add | sub | mul | div | rem
  deriving DecidableEq, Repr

def isInt (t : Ty) : Bool := t = Ty.fix || t = Ty.big
def isNum (t : Ty) : Bool := isInt t || t = Ty.flt

/-- TYPEs that an operation accepts in some pairing (Table 02-9). -/
def Gop.accepts (op : Gop) (t : Ty) : Bool :=
  isNum t || ((op = .add || op = .sub) && (t = Ty.bcd || t = Ty.time))

/-- The pairs of Table 02-9 that give a result. -/
def Gop.pairs (op : Gop) (a b : Ty) : Bool :=
  (isNum a && isNum b) ||
    (match op with
      | .add => (a = Ty.bcd && b = Ty.bcd) || (a = Ty.time && b = Ty.fix) || (a = Ty.fix && b = Ty.time)
      | .sub => (a = Ty.bcd && b = Ty.bcd) || (a = Ty.time && b = Ty.fix) || (a = Ty.time && b = Ty.time)
      | _ => false)

/-- Row 4 of Table 09-1 for two operands whose TYPEs must pair: each in turn, a pair that is not accepted at the later
(Table 10-4). -/
def checkPair (acc : Ty → Bool) (pairs : Ty → Ty → Bool) (a b : TWord) (s : State) : Res Unit :=
  (checkTy acc a s).bind fun _ s => checkTy (fun t => acc t && pairs a.ty t) b s

/-- A signalling NaN operand traps (R78). -/
def checkSnan (w : TWord) (s : State) : Res Unit :=
  if w.ty = Ty.flt ∧ isSnan w.val then trapW Cause.snan w s else .ok () s

def Gop.ints (op : Gop) (x y : Int) : Int :=
  match op with
  | .add => x + y
  | .sub => x - y
  | .mul => x * y
  | .div => x.tdiv y
  | .rem => x.tmod y

def Gop.floats (op : Gop) (rm : BitVec 2) (x y : Word) : Word × Fflags :=
  match op with
  | .add => f32Add rm x y
  | .sub => f32Sub rm x y
  | .mul => f32Mul rm x y
  | .div => f32Div rm x y
  | .rem => f32Rem x y

/-- An operand as binary32, an integer converted in the rounding mode with its flags (R78). -/
def floatOf (c : CtxId) (w : TWord) (s : State) : Res Word :=
  if w.ty = Ty.flt then .ok w.val s
  else (intOf c w s).bind fun n s =>
    let r := f32OfInt (roundMode c s) n
    .ok r.1 (raiseFlags c r.2 s)

def Gop.isDiv (op : Gop) : Bool := op = .div || op = .rem

/-- ADD, SUB, MUL, DIV and REM (Table 02-9). -/
def arith (c : CtxId) (op : Gop) (a b : TWord) (s : State) : Res TWord :=
  (checkPair op.accepts op.pairs a b s).bind fun _ s =>
    if isInt a.ty && isInt b.ty then
      if op.isDiv && b.ty = Ty.fix && b.val = 0 then trapW Cause.arithDiv0 b s
      else
        (intOf c a s).bind fun x s =>
          (intOf c b s).bind fun y s =>
            if op.isDiv && y = 0 then trapW Cause.arithDiv0 b s else intResult c (op.ints x y) s
    else if isNum a.ty && isNum b.ty then
      (checkSnan a s).bind fun _ s =>
        (checkSnan b s).bind fun _ s =>
          (floatOf c a s).bind fun x s =>
            (floatOf c b s).bind fun y s =>
              let r := op.floats (roundMode c s) x y
              .ok ⟨Ty.flt, r.1⟩ (raiseFlags c r.2 s)
    else if a.ty = Ty.bcd then bcdResult (op.ints (bcdInt a.val) (bcdInt b.val)) s
    else if op = .add then .ok ⟨Ty.time, a.val + b.val⟩ s
    else if b.ty = Ty.time then .ok (TWord.fix (a.val - b.val)) s
    else .ok ⟨Ty.time, a.val - b.val⟩ s

def negAcc (t : Ty) : Bool := isNum t || t = Ty.bcd

/-- NEG and ABS (Table 02-10). -/
def unary (c : CtxId) (isAbs : Bool) (a : TWord) (s : State) : Res TWord :=
  (checkTy negAcc a s).bind fun _ s =>
    if isInt a.ty then
      (intOf c a s).bind fun x s => intResult c (if isAbs then (x.natAbs : Int) else -x) s
    else if a.ty = Ty.flt then .ok ⟨Ty.flt, if isAbs then f32Abs a.val else f32Neg a.val⟩ s
    else .ok (bcdWord (if isAbs then (bcdMag a.val : Int) else -(bcdInt a.val))) s

/-! ### Logical operations and shifts (R83) -/

inductive Lop where
  | and | or | xor | andn
  deriving DecidableEq, Repr

def isLogic (t : Ty) : Bool := t = Ty.fix || t = Ty.raw || t = Ty.bool

def Lop.words (op : Lop) (x y : Word) : Word :=
  match op with
  | .and => x &&& y
  | .or => x ||| y
  | .xor => x ^^^ y
  | .andn => x &&& ~~~y

def logic (op : Lop) (a b : TWord) (s : State) : Res TWord :=
  (checkPair isLogic (· == ·) a b s).bind fun _ s => .ok ⟨a.ty, op.words a.val b.val⟩ s

/-- NOT; of a BOOL, the other truth value (Table 02-2). -/
def logicNot (a : TWord) (s : State) : Res TWord :=
  (checkTy isLogic a s).bind fun _ s => .ok ⟨a.ty, if a.ty = Ty.bool then a.val ^^^ 1 else ~~~a.val⟩ s

inductive Shop where
  | shl | shr | sar
  deriving DecidableEq, Repr

def Shop.words (op : Shop) (x : Word) (n : Nat) : Word :=
  match op with
  | .shl => x <<< n
  | .shr => x >>> n
  | .sar => x.sshiftRight n

def isShift (t : Ty) : Bool := t = Ty.fix || t = Ty.raw

def shift (op : Shop) (a n : TWord) (s : State) : Res TWord :=
  (checkTy isShift a s).bind fun _ s =>
    (checkFixTo 31 n s).bind fun _ s => .ok ⟨a.ty, op.words a.val n.val.toNat⟩ s

/-! ### Decimal adjust (R81) -/

def decimalOk (w : Word) : Bool := (List.range 7).all fun i => (w.extractLsb' (4 + 4 * i) 4).toNat ≤ 9

def checkDecimal (w : TWord) (s : State) : Res Unit :=
  (checkUse w s).bind fun _ s =>
    if w.ty ≠ Ty.bcd ∧ w.ty ≠ Ty.raw then trapW Cause.tagMismatch w s
    else if !decimalOk w.val then trapW Cause.badPayload w s
    else .ok () s

/-- The seven-digit sum and the carry. -/
def decimalAdjust (x y : Word) : TWord × Bool :=
  let n := bcdMag x + bcdMag y
  (bcdWord ((n % 10000000 : Nat) : Int), decide (10000000 ≤ n))

/-! ### Comparisons (Table 02-11) -/

inductive Cop where
  | eq | ne | lt | le | gt | ge
  deriving DecidableEq, Repr

/-- The outcome of a relation; unordered operands satisfy NE alone. -/
def Cop.holds (op : Cop) (o : Option Ordering) : Bool :=
  match o, op with
  | none, .ne => true
  | none, _ => false
  | some o, .eq => o = .eq
  | some o, .ne => o ≠ .eq
  | some o, .lt => o = .lt
  | some o, .le => o ≠ .gt
  | some o, .gt => o = .gt
  | some o, .ge => o ≠ .lt

def Cop.accepts (op : Cop) (t : Ty) : Bool :=
  isNum t || t = Ty.bcd || t = Ty.char || t = Ty.time || t = Ty.chid ||
    ((op = .eq || op = .ne) && (t = Ty.bool || t = Ty.nil))

def Cop.pairs (a b : Ty) : Bool := (isNum a && isNum b) || a = b

def realOf (c : CtxId) (w : TWord) (s : State) : Res RealV :=
  if w.ty = Ty.flt then .ok (realOfF32 w.val) s else (intOf c w s).bind fun n s => .ok (.fin n 0) s

def compareWords (c : CtxId) (op : Cop) (a b : TWord) (s : State) : Res Bool :=
  (checkPair op.accepts Cop.pairs a b s).bind fun _ s =>
    if isNum a.ty then
      (checkSnan a s).bind fun _ s =>
        (checkSnan b s).bind fun _ s =>
          (realOf c a s).bind fun x s =>
            (realOf c b s).bind fun y s => .ok (op.holds (realCmp x y)) s
    else
      let o : Ordering :=
        if a.ty = Ty.bcd then compare (bcdInt a.val) (bcdInt b.val)
        else if a.ty = Ty.time then compare (a.val - b.val).toInt 0
        else compare a.val.toNat b.val.toNat
      .ok (op.holds (some o)) s

/-- EQI: equal TYPE and payload (R84). -/
def identical (a b : TWord) (s : State) : Res Bool :=
  (checkUse a s).bind fun _ s => (checkUse b s).bind fun _ s => .ok (decide (a = b)) s

end Sys2Proof.Machine
end

