-- ==== Sys2Proof/Machine/Arith.lean ====
section
/-! DEFINITION. Integer, generic, logical, shift, compare and predicate instructions (09 Tables 09-2, 09-4; 08 Table 08-3;
09 Table 09-14). -/

namespace Sys2Proof.Machine

/-- A binary generic operation (Table 02-9). -/
def arithBody (op : Gop) (rd rs rt : R5) (c : CtxId) (s : State) : Res Flow :=
  (arith c op (opnd c rs s) (opnd c rt s) s).bind fun v s => putR c rd v s

def execAdd (iss : Iss) (rd rs rt : R5) (s : State) : Outcome :=
  run (formG 0x00 0 0x1 rd rs rt 0) iss (allocating Ty.big rd (arithBody .add rd rs rt)) s
def execSub (iss : Iss) (rd rs rt : R5) (s : State) : Outcome :=
  run (formG 0x00 1 0x2 rd rs rt 1) iss (allocating Ty.big rd (arithBody .sub rd rs rt)) s
def execMul (iss : Iss) (rd rs rt : R5) (s : State) : Outcome :=
  run (formR 0x00 2 rd rs rt (some (0x00, 2))) iss (allocating Ty.big rd (arithBody .mul rd rs rt)) s
def execDiv (iss : Iss) (rd rs rt : R5) (s : State) : Outcome :=
  run (formR 0x00 3 rd rs rt (some (0x00, 3))) iss (allocating Ty.big rd (arithBody .div rd rs rt)) s
def execRem (iss : Iss) (rd rs rt : R5) (s : State) : Outcome :=
  run (formR 0x00 4 rd rs rt (some (0x00, 4))) iss (allocating Ty.big rd (arithBody .rem rd rs rt)) s

/-- NEG and ABS (Table 02-10). -/
def unaryBody (isAbs : Bool) (rd rs : R5) (c : CtxId) (s : State) : Res Flow :=
  (unary c isAbs (opnd c rs s) s).bind fun v s => putR c rd v s

def execNeg (iss : Iss) (rd rs : R5) (s : State) : Outcome :=
  run { formR 0x00 5 rd rs 0 (some (0x00, 5)) with names := [rd, rs] } iss (allocating Ty.big rd (unaryBody false rd rs)) s
def execAbs (iss : Iss) (rd rs : R5) (s : State) : Outcome :=
  run { formR 0x00 6 rd rs 0 (some (0x00, 6)) with names := [rd, rs] } iss (allocating Ty.big rd (unaryBody true rd rs)) s

/-- AND, OR, XOR, ANDN (R83). -/
def logicBody (op : Lop) (rd rs rt : R5) (c : CtxId) (s : State) : Res Flow :=
  (logic op (opnd c rs s) (opnd c rt s) s).bind fun v s => putR c rd v s

def execAnd (iss : Iss) (rd rs rt : R5) (s : State) : Outcome :=
  run (formG 0x01 0 0x3 rd rs rt 16) iss (logicBody .and rd rs rt) s
def execOr (iss : Iss) (rd rs rt : R5) (s : State) : Outcome :=
  run (formG 0x01 1 0x4 rd rs rt 17) iss (logicBody .or rd rs rt) s
def execXor (iss : Iss) (rd rs rt : R5) (s : State) : Outcome :=
  run (formG 0x01 2 0x5 rd rs rt 18) iss (logicBody .xor rd rs rt) s
def execAndn (iss : Iss) (rd rs rt : R5) (s : State) : Outcome :=
  run (formR 0x01 3 rd rs rt (some (0x00, 19))) iss (logicBody .andn rd rs rt) s
def execNot (iss : Iss) (rd rs : R5) (s : State) : Outcome :=
  run { formR 0x01 4 rd rs 0 (some (0x00, 20)) with names := [rd, rs] } iss
    (fun c s => (logicNot (opnd c rs s) s).bind fun v s => putR c rd v s) s

/-- SHL, SHR, SAR by a register count (R83, R302). -/
def shiftBody (op : Shop) (rd rs rt : R5) (c : CtxId) (s : State) : Res Flow :=
  (shift op (opnd c rs s) (opnd c rt s) s).bind fun v s => putR c rd v s

def execShl (iss : Iss) (rd rs rt : R5) (s : State) : Outcome :=
  run (formR 0x01 5 rd rs rt (some (0x00, 21))) iss (shiftBody .shl rd rs rt) s
def execShr (iss : Iss) (rd rs rt : R5) (s : State) : Outcome :=
  run (formR 0x01 6 rd rs rt (some (0x00, 22))) iss (shiftBody .shr rd rs rt) s
def execSar (iss : Iss) (rd rs rt : R5) (s : State) : Outcome :=
  run (formR 0x01 7 rd rs rt (some (0x00, 23))) iss (shiftBody .sar rd rs rt) s

/-- MOV carries any word (R62, R64); its short form is not the halfword 0 (Table 08-3). -/
def execMov (iss : Iss) (rd rs : R5) (s : State) : Outcome :=
  run { formR 0x02 0 rd rs 0 (some (0x00, 32)) with names := [rd, rs], short := if rd = 0 ∧ rs = 0 then none else some (encS 0x0 rd rs) } iss
    (fun c s => putR c rd (opnd c rs s) s) s
def execMovp (iss : Iss) (rd : R5) (ps : P3) (s : State) : Outcome :=
  run { formR 0x02 1 rd (p5 ps) 0 with names := [rd] } iss (fun c s => putR c rd (TWord.bool ((s.ctx c).pred ps)) s) s

/-- DADJ (R81). -/
def execDadj (iss : Iss) (rd rs rt : R5) (pd : P3) (s : State) : Outcome :=
  run (formR 0x03 (p5 pd) rd rs rt) iss
    (fun c s =>
      (checkDecimal (opnd c rs s) s).bind fun _ s =>
        (checkDecimal (opnd c rt s) s).bind fun _ s =>
          let r := decimalAdjust (opnd c rs s).val (opnd c rt s).val
          .ok .next (s.modCtx c fun x => (x.setReg rd r.1).setPred pd r.2)) s

/-- rs + a FIX immediate, as ADD (R302). -/
def addImmBody (rd rs : R5) (imm : Word) (c : CtxId) (s : State) : Res Flow :=
  (arith c .add (opnd c rs s) (TWord.fix imm) s).bind fun v s => putR c rd v s

def execAddi (iss : Iss) (rd rs : R5) (imm : BitVec 16) (s : State) : Outcome :=
  run { long := if fitsI10 imm then some (encM 0x04 rd rs (imm.setWidth 10)) else none,
        zek := some (encZI 0x01 rd rs imm), names := [rd, rs] } iss
    (allocating Ty.big rd (addImmBody rd rs (imm.signExtend 32))) s
/-- ADDQ, the short form of ADDI (Table 08-3). -/
def execAddq (iss : Iss) (rd : R5) (imm : BitVec 5) (s : State) : Outcome :=
  run { short := some (encS 0x6 rd imm), names := [rd] } iss
    (allocating Ty.big rd (addImmBody rd rd (imm.signExtend 32))) s
def execAndi (iss : Iss) (rd rs : R5) (imm : BitVec 10) (s : State) : Outcome :=
  run { long := some (encM 0x05 rd rs imm), names := [rd, rs] } iss
    (fun c s => (checkFix (opnd c rs s) s).bind fun _ s =>
      putR c rd (TWord.fix ((opnd c rs s).val &&& imm.signExtend 32)) s) s
/-- SHI: k 0 SHL, 1 SHR, 2 SAR, 3 ILL_ENC (Table 09-2). -/
def execShi (iss : Iss) (rd rs : R5) (k : BitVec 2) (n : BitVec 5) (s : State) : Outcome :=
  run { formR 0x06 ((0 : BitVec 3) ++ k) rd rs n with
          names := [rd, rs], bad := if k = 3 then some Cause.illEnc else none } iss
    (fun c s =>
      (shift (if k = 0 then .shl else if k = 1 then .shr else .sar) (opnd c rs s) (TWord.fix (n.setWidth 32)) s).bind
        fun v s => putR c rd v s) s
def execMovi (iss : Iss) (rd : R5) (imm : BitVec 16) (s : State) : Outcome :=
  run { long := if fitsI10 imm then some (encM 0x07 rd 0 (imm.setWidth 10)) else none,
        zek := some (encZI 0x02 rd 0 imm), names := [rd] } iss
    (fun c s => putR c rd (TWord.fix (imm.signExtend 32)) s) s
/-- MOVQ, the short form of MOVI (Table 08-3). -/
def execMovq (iss : Iss) (rd : R5) (imm : BitVec 5) (s : State) : Outcome :=
  run { short := some (encS 0x7 rd imm), names := [rd] } iss
    (fun c s => putR c rd (TWord.fix (imm.signExtend 32)) s) s
def execNop (iss : Iss) (s : State) : Outcome :=
  run { short := some (encS 0xC 0 0) } iss (fun _ s => .ok .next s) s

/-! ### Compare and predicates (Table 09-4) -/

/-- A numeric compare (R85). -/
def compareBody (op : Cop) (pd rs rt : R5) (c : CtxId) (s : State) : Res Flow :=
  (compareWords c op (opnd c rs s) (opnd c rt s) s).bind fun v s => putB c pd v s

def execEq (iss : Iss) (pd rs rt : R5) (s : State) : Outcome :=
  run (formC 0x08 0 pd rs rt (some (0x03, 0))) iss (compareBody .eq pd rs rt) s
def execNe (iss : Iss) (pd rs rt : R5) (s : State) : Outcome :=
  run (formC 0x08 1 pd rs rt (some (0x03, 1))) iss (compareBody .ne pd rs rt) s
def execLt (iss : Iss) (pd rs rt : R5) (s : State) : Outcome :=
  run (formC 0x08 2 pd rs rt (some (0x03, 2))) iss (compareBody .lt pd rs rt) s
def execLe (iss : Iss) (pd rs rt : R5) (s : State) : Outcome :=
  run (formC 0x08 3 pd rs rt (some (0x03, 3))) iss (compareBody .le pd rs rt) s
def execGt (iss : Iss) (pd rs rt : R5) (s : State) : Outcome :=
  run (formC 0x08 4 pd rs rt (some (0x03, 4))) iss (compareBody .gt pd rs rt) s
def execGe (iss : Iss) (pd rs rt : R5) (s : State) : Outcome :=
  run (formC 0x08 5 pd rs rt (some (0x03, 5))) iss (compareBody .ge pd rs rt) s
/-- EQI (R84). -/
def execEqi (iss : Iss) (pd rs rt : R5) (s : State) : Outcome :=
  run (formC 0x08 6 pd rs rt (some (0x03, 6))) iss
    (fun c s => (identical (opnd c rs s) (opnd c rt s) s).bind fun v s => putB c pd v s) s

/-- Predicate logic. -/
def predBody (f : Bool → Bool → Bool) (pd ps pt : P3) (c : CtxId) (s : State) : Res Flow :=
  putP c pd (f ((s.ctx c).pred ps) ((s.ctx c).pred pt)) s

/-- The long form of predicate logic. -/
def formP (fn : BitVec 5) (pd ps pt : P3) : Form := { long := some (encR 0x09 (p5 pd) (p5 ps) (p5 pt) fn) }

def execPand (iss : Iss) (pd ps pt : P3) (s : State) : Outcome :=
  run (formP 0 pd ps pt) iss (predBody (· && ·) pd ps pt) s
def execPor (iss : Iss) (pd ps pt : P3) (s : State) : Outcome :=
  run (formP 1 pd ps pt) iss (predBody (· || ·) pd ps pt) s
def execPxor (iss : Iss) (pd ps pt : P3) (s : State) : Outcome :=
  run (formP 2 pd ps pt) iss (predBody Bool.xor pd ps pt) s
def execPandn (iss : Iss) (pd ps pt : P3) (s : State) : Outcome :=
  run (formP 3 pd ps pt) iss (predBody (fun a b => a && !b) pd ps pt) s
def execPnot (iss : Iss) (pd ps : P3) (s : State) : Outcome :=
  run (formP 4 pd ps 0) iss (fun c s => putP c pd (!(s.ctx c).pred ps) s) s
def execPset (iss : Iss) (pd : P3) (rs : R5) (s : State) : Outcome :=
  run { long := some (encR 0x09 (p5 pd) rs 0 5), names := [rs] } iss
    (fun c s => (checkTy (· == Ty.bool) (opnd c rs s) s).bind fun _ s =>
      putP c pd ((opnd c rs s).val.getLsbD 0) s) s

end Sys2Proof.Machine
end

