-- ==== Sys2Proof/Machine/LoadStore.lean ====
section
/-! DEFINITION. Loads and stores (09 Table 09-5, R304–R308; 08 R279, R280; 02 R55, R60, R71–R73). -/

namespace Sys2Proof.Machine

/-! ### Forms -/

/-- A byte displacement as the 10-bit word displacement of format M, when it is one. -/
def dispField (d : BitVec 16) : Option (BitVec 10) :=
  if d.extractLsb' 0 2 = 0 ∧ fitsI10 (d.sshiftRight 2) then some ((d.sshiftRight 2).setWidth 10) else none

/-- LD and ST: format M with a byte displacement, and format ZI (Table 09-14). -/
def formM (op zop : BitVec 6) (rd rs : R5) (d : BitVec 16) : Form :=
  { long := (dispField d).map fun k => encM op rd rs k, zek := some (encZI zop rd rs d), names := [rd, rs] }

/-- A pair names an even register (R304). -/
def oddPair (rd : R5) : Option (BitVec 8) := if rd.getLsbD 0 then some Cause.illOperand else none

def formPair (op : BitVec 6) (rd rs : R5) (d : BitVec 10) : Form :=
  { long := some (encM op rd rs d), names := [rd, rd + 1, rs], bad := oddPair rd }

/-- Bank addressing: format K, and a short form for r w8–w11 (R279). -/
def formBank (sub : BitVec 3) (store : Bool) (r : R5) (b : BitVec 2) (d : BitVec 10) : Form :=
  { long := some (encK sub r b d), names := [r],
    short := if 8 ≤ r.toNat ∧ r.toNat < 12 then some (encSB store b ((r - 8).setWidth 2) d) else none }

def formBankPair (sub : BitVec 3) (r : R5) (b : BitVec 2) (d : BitVec 10) : Form :=
  { long := some (encK sub r b d), names := [r, r + 1], bad := oddPair r }

/-! ### Whole words -/

/-- The displacement of a Zekief LD or ST is a multiple of 4 (Table 09-14). -/
def checkDisp (c : CtxId) (va : Word) (d : BitVec 16) (s : State) : Res Unit :=
  if (s.ctx c).cstat.mode ∧ d.extractLsb' 0 2 ≠ 0 then trapA Cause.align va TWord.unset s else .ok () s

/-- A load through a checked base: the base's checks (R71, R53), then the word. -/
def loadBase (c : CtxId) (base : TWord) (va : Word) (s : State) : Res MWord :=
  (checkBase (privOf c s) base s).bind fun _ s =>
    (checkDeref base va s).bind fun _ s => loadWord c va s

def execLd (iss : Iss) (rd rs : R5) (d : BitVec 16) (s : State) : Outcome :=
  run (formM 0x0C 0x04 rd rs d) iss
    (fun c s =>
      let b := opnd c rs s
      let va := b.val + d.signExtend 32
      (checkBase (privOf c s) b s).bind fun _ s =>
        (checkDisp c va d s).bind fun _ s =>
          (checkDeref b va s).bind fun _ s =>
            (loadWord c va s).bind fun w s => putLoad c rd w.t s) s

/-- A store of v through a base: rows 4 to 8 of Table 09-1, then the store. -/
def storeBody (c : CtxId) (v base : TWord) (va : Word) (extra : State → Res Unit) (s : State) : Res Flow :=
  (checkCarry v s).bind fun _ s =>
    (checkBase (privOf c s) base s).bind fun _ s =>
      (checkClass (privOf c s) false v s).bind fun _ s =>
        (extra s).bind fun _ s =>
          (checkDeref base va s).bind fun _ s =>
            (storeWord c ⟨freeBase base, false⟩ va v s).bind fun _ s => .ok .next s

def execSt (iss : Iss) (rd rs : R5) (d : BitVec 16) (s : State) : Outcome :=
  run (formM 0x0D 0x05 rd rs d) iss
    (fun c s =>
      let b := opnd c rs s
      let va := b.val + d.signExtend 32
      storeBody c (opnd c rd s) b va (checkDisp c va d) s) s

/-- A FIX index that is a multiple of 4 (Table 09-5). -/
def checkIndex (va : Word) (i : TWord) (s : State) : Res Unit :=
  if i.val.extractLsb' 0 2 ≠ 0 then trapA Cause.align va i s else .ok () s

def execLdx (iss : Iss) (rd rs rt : R5) (s : State) : Outcome :=
  run (formR 0x0E 6 rd rs rt) iss
    (fun c s =>
      let b := opnd c rs s
      let i := opnd c rt s
      let va := b.val + i.val
      (checkBase (privOf c s) b s).bind fun _ s =>
        (checkFix i s).bind fun _ s =>
          (checkIndex va i s).bind fun _ s =>
            (checkDeref b va s).bind fun _ s =>
              (loadWord c va s).bind fun w s => putLoad c rd w.t s) s

def execStx (iss : Iss) (rd rs rt : R5) (s : State) : Outcome :=
  run (formR 0x0E 7 rd rs rt) iss
    (fun c s =>
      let v := opnd c rd s
      let b := opnd c rs s
      let i := opnd c rt s
      let va := b.val + i.val
      (checkCarry v s).bind fun _ s =>
        (checkBase (privOf c s) b s).bind fun _ s =>
          (checkFix i s).bind fun _ s =>
            (checkClass (privOf c s) false v s).bind fun _ s =>
              (checkIndex va i s).bind fun _ s =>
                (checkDeref b va s).bind fun _ s =>
                  (storeWord c ⟨freeBase b, false⟩ va v s).bind fun _ s => .ok .next s) s

/-- LDNF: SUPERVISOR and MONITOR; a FWD word itself is loaded (R306). -/
def execLdnf (iss : Iss) (rd rs rt : R5) (s : State) : Outcome :=
  run (formR 0x12 4 rd rs rt) iss
    (fun c s =>
      let b := opnd c rs s
      let i := opnd c rt s
      let va := b.val + i.val
      (needPriv c s).bind fun _ s =>
        (checkBase (privOf c s) b s).bind fun _ s =>
          (checkFix i s).bind fun _ s =>
            (checkDeref b va s).bind fun _ s =>
              if va.extractLsb' 0 2 ≠ 0 then trapA Cause.align va TWord.unset s
              else
                (loadVa c .load va s).bind fun r s =>
                  (checkLoaded c va r.2 r.1.t s).bind fun _ s => putLoad c rd r.1.t s) s

/-- LDL reads a RAW word of code at (PC & ~3) + 4 × d (R304). -/
def execLdl (iss : Iss) (rd : R5) (d : BitVec 10) (s : State) : Outcome :=
  run { long := some (encM 0x13 rd 0 d), names := [rd] } iss
    (fun c s =>
      let va := ((s.ctx c).pc &&& 0xFFFFFFFC) + disp10 d
      (loadVa c .fetch va s).bind fun r s =>
        if r.1.ty ≠ Ty.raw then trapW Cause.fetchTag r.1.t s else putLoad c rd r.1.t s) s

/-! ### Sub-words (R60) -/

/-- The bytes of a sub-word in its word, extended to 32 bits. -/
def subValue (w : Word) (va : Word) (bytes : Nat) (signed : Bool) : Word :=
  let x := w >>> (8 * (va.toNat % 4))
  if bytes = 1 then (if signed then (x.setWidth 8).signExtend 32 else (x.setWidth 8).setWidth 32)
  else (if signed then (x.setWidth 16).signExtend 32 else (x.setWidth 16).setWidth 32)

/-- The word with a sub-word replaced. -/
def subMerge (w : Word) (va : Word) (bytes : Nat) (v : Word) : Word :=
  let sh := 8 * (va.toNat % 4)
  let mask : Word := (if bytes = 1 then 0xFF else 0xFFFF) <<< sh
  (w &&& ~~~mask) ||| ((v <<< sh) &&& mask)

/-- A halfword at an odd address (R304). -/
def checkHalf (va : Word) (bytes : Nat) (s : State) : Res Unit :=
  if bytes = 2 ∧ va.getLsbD 0 then trapA Cause.align va TWord.unset s else .ok () s

def subLoadBody (bytes : Nat) (signed : Bool) (rd rs rt : R5) (c : CtxId) (s : State) : Res Flow :=
  let b := opnd c rs s
  let i := opnd c rt s
  let va := b.val + i.val
  (checkBase (privOf c s) b s).bind fun _ s =>
    (checkFix i s).bind fun _ s =>
      (checkDeref b va s).bind fun _ s =>
        (checkHalf va bytes s).bind fun _ s =>
          (loadFwd c .load va s bytes).bind fun r s =>
            (checkUse r.1.t s).bind fun _ s =>
              putLoad c rd (TWord.fix (subValue r.1.val r.2.1 bytes signed)) s

def execLbs (iss : Iss) (rd rs rt : R5) (s : State) : Outcome :=
  run (formR 0x0E 0 rd rs rt) iss (subLoadBody 1 true rd rs rt) s
def execLbu (iss : Iss) (rd rs rt : R5) (s : State) : Outcome :=
  run (formR 0x0E 1 rd rs rt) iss (subLoadBody 1 false rd rs rt) s
def execLhs (iss : Iss) (rd rs rt : R5) (s : State) : Outcome :=
  run (formR 0x0E 2 rd rs rt) iss (subLoadBody 2 true rd rs rt) s
def execLhu (iss : Iss) (rd rs rt : R5) (s : State) : Outcome :=
  run (formR 0x0E 3 rd rs rt) iss (subLoadBody 2 false rd rs rt) s

/-- A sub-word store at its target: IMM first, then the TYPE of the word (R60, R65); an UNSET word becomes RAW. -/
def subStoreAt (c : CtxId) (bytes : Nat) (v : Word) (va : Word) (hop : Bool) (s : State) : Res (Option Word) :=
  (translate c .store va s).bind fun pa s =>
    match regionOf s pa with
    | .regs => trapA Cause.align va TWord.unset s
    | .window => .ok none (winStore (localOf pa) ((wordBytes v).take bytes) s)
    | .reserved => .ok none s
    | .unpopulated => .ok none (unpopulated pa s)
    | .data =>
      (checkOwner c va pa s).bind fun _ s =>
        (readTarget c pa s).bind fun old s =>
          if old.ty = Ty.fwd then
            if hop then trapW Cause.tagMismatch old.t s
            else if old.val.extractLsb' 0 2 ≠ 0 then trapA Cause.align old.val old.t s
            else .ok (some (old.val + (va &&& 3))) s
          else if old.imm then trapW Cause.immStore old.t s
          else if old.ty = Ty.poison then trapW Cause.poison old.t s
          else if old.ty ≠ Ty.raw ∧ old.ty ≠ Ty.unset then trapW Cause.tagMismatch old.t s
          else
            let w := subMerge (if old.ty = Ty.unset then 0 else old.val) va bytes v
            (performStore c pa (TWord.raw w) old none s).bind fun _ s => .ok none s

def subStoreBody (bytes : Nat) (rd rs rt : R5) (c : CtxId) (s : State) : Res Flow :=
  let v := opnd c rd s
  let b := opnd c rs s
  let i := opnd c rt s
  let va := b.val + i.val
  (checkTy isShift v s).bind fun _ s =>
    (checkBase (privOf c s) b s).bind fun _ s =>
      (checkFix i s).bind fun _ s =>
        (checkDeref b va s).bind fun _ s =>
          (checkHalf va bytes s).bind fun _ s =>
            (subStoreAt c bytes v.val va false s).bind fun r s =>
              match r with
              | none => .ok .next s
              | some va' => (subStoreAt c bytes v.val va' true s).bind fun _ s => .ok .next s

def execSb (iss : Iss) (rd rs rt : R5) (s : State) : Outcome :=
  run (formR 0x0E 4 rd rs rt) iss (subStoreBody 1 rd rs rt) s
def execSh (iss : Iss) (rd rs rt : R5) (s : State) : Outcome :=
  run (formR 0x0E 5 rd rs rt) iss (subStoreBody 2 rd rs rt) s

/-! ### Pairs (R55, R304) -/

/-- Two words at an 8-byte-aligned address; rows 6 and 7 of both come before row 8 of either (Table 09-1). -/
def pairLoad (c : CtxId) (rd : R5) (base : TWord) (va : Word) (s : State) : Res Flow :=
  (checkBase (privOf c s) base s).bind fun _ s =>
    (checkDeref base va s).bind fun _ s =>
      if va.extractLsb' 0 3 ≠ 0 then trapA Cause.align va TWord.unset s
      else
        (loadHop c .load va s 8).bind fun a s =>
          (loadHop c .load (va + 4) s 8).bind fun b s =>
            (checkLoaded c a.2.1 a.2.2 a.1.t s).bind fun _ s =>
              (checkLoaded c b.2.1 b.2.2 b.1.t s).bind fun _ s =>
                (checkHop a.1.t s).bind fun _ s =>
                  (checkHop b.1.t s).bind fun _ s =>
                    .ok .next (addLoad c (regLoc (s.ctx c) (rd + 1)) b.1.t true
                      (addLoad c (regLoc (s.ctx c) rd) a.1.t true s))

/-- A store that waits for a log leaves STALL set in the slot that the log belongs to (Table 03-13). -/
def stallOf (c : CtxId) (o : StallOn) (t : Target) (s : State) : State :=
  match o, t.dst with
  | .escape, some d => addStall c d.1 s
  | .mlog, _ => match handleOf s c with | some h => addStall c (hSlot h) s | none => s
  | _, _ => s

/-- Both words of a pair are performed, or neither. Through a window they are one posted write of 8 bytes (16 R507). -/
def storeBoth (c : CtxId) (v0 v1 : TWord) (t0 t1 : Target) (s : State) : Res Flow :=
  if regionOf s t0.pa = .window ∧ t1.pa = t0.pa + 4 then
    .ok .next (winStore (localOf t0.pa) (wordBytes v0.val ++ wordBytes v1.val) s)
  else match storeDo c v0 t0 s with
  | .ok _ s1 =>
    match storeDo c v1 t1 s1 with
    | .ok _ s2 => .ok .next s2
    | .trap t s2 => .trap t s2
    | .wait o _ => .wait o (stallOf c o t1 s)
  | .trap t s1 => .trap t s1
  | .wait o s1 => .wait o s1

/-- A pair's store: rows 6 and 7 of both words come before row 8 of either (Table 09-1). -/
def pairStore (c : CtxId) (rd : R5) (base : TWord) (va : Word) (s : State) : Res Flow :=
  let v0 := opnd c rd s
  let v1 := opnd c (rd + 1) s
  (checkCarry v0 s).bind fun _ s =>
    (checkCarry v1 s).bind fun _ s =>
      (checkBase (privOf c s) base s).bind fun _ s =>
        (checkClass (privOf c s) true v0 s).bind fun _ s =>
          (checkClass (privOf c s) true v1 s).bind fun _ s =>
            (checkDeref base va s).bind fun _ s =>
              if va.extractLsb' 0 3 ≠ 0 then trapA Cause.align va TWord.unset s
              else
                (checkReached c .store va [v0, v1] s).bind fun _ s =>
                  (storeTarget c ⟨freeBase base, true⟩ .store va v0 s).bind fun t0 s =>
                    (storeTarget c ⟨freeBase base, true⟩ .store (va + 4) v1 s).bind fun t1 s =>
                      storeBoth c v0 v1 t0 t1 s

def execLdp (iss : Iss) (rd rs : R5) (d : BitVec 10) (s : State) : Outcome :=
  run (formPair 0x0F rd rs d) iss (fun c s => pairLoad c rd (opnd c rs s) ((opnd c rs s).val + disp10 d) s) s
def execStp (iss : Iss) (rd rs : R5) (d : BitVec 10) (s : State) : Outcome :=
  run (formPair 0x10 rd rs d) iss (fun c s => pairStore c rd (opnd c rs s) ((opnd c rs s).val + disp10 d) s) s

/-! ### Bank addressing (R279) -/

/-- The payload of a bank register plus 4 × D10, unsigned. -/
def bankVa (c : CtxId) (b : BitVec 2) (d : BitVec 10) (s : State) : Word :=
  ((s.ctx c).bank b).val + (d.setWidth 32 <<< 2)

def execLdB (iss : Iss) (r : R5) (b : BitVec 2) (d : BitVec 10) (s : State) : Outcome :=
  run (formBank 0 false r b d) iss
    (fun c s => (loadBase c ((s.ctx c).bank b) (bankVa c b d s) s).bind fun w s => putLoad c r w.t s) s
def execStB (iss : Iss) (r : R5) (b : BitVec 2) (d : BitVec 10) (s : State) : Outcome :=
  run (formBank 1 true r b d) iss
    (fun c s => storeBody c (opnd c r s) ((s.ctx c).bank b) (bankVa c b d s) (fun s => .ok () s) s) s
def execLdpB (iss : Iss) (r : R5) (b : BitVec 2) (d : BitVec 10) (s : State) : Outcome :=
  run (formBankPair 2 r b d) iss (fun c s => pairLoad c r ((s.ctx c).bank b) (bankVa c b d s) s) s
def execStpB (iss : Iss) (r : R5) (b : BitVec 2) (d : BitVec 10) (s : State) : Outcome :=
  run (formBankPair 3 r b d) iss (fun c s => pairStore c r ((s.ctx c).bank b) (bankVa c b d s) s) s

/-! ### Compare-and-swap and exchange (R72, R308) -/

/-- The word that an exchange will answer, through one FWD word, with its address and its physical address (rows 6 and 7);
none outside the tagged data. -/
def rmwOld (c : CtxId) (va : Word) (v : TWord) (s : State) : Res (Option (MWord × Word × PA)) :=
  let word (va : Word) (s : State) : Res (Option (MWord × Word × PA)) :=
    (checkReached c .rmw va [v] s).bind fun _ s =>
      (translate c .rmw va s).bind fun pa s =>
        match regionOf s pa with
        | .data => (readTarget c pa s).bind fun w s => .ok (some (w, va, pa)) s
        | _ => .ok none s
  (word va s).bind fun r s =>
    match r with
    | some (w, _, _) => if w.ty = Ty.fwd ∧ w.val.extractLsb' 0 2 = 0 then word w.val s else .ok r s
    | none => .ok none s

/-- The target of a read-modify-write: its address and its old word, not POISON. What the old word leads into is checked before
IMM (R108; rows 7 and 8). -/
def rmwTarget (c : CtxId) (how : StoreHow) (va : Word) (v : TWord) (s : State) : Res Target :=
  if va.extractLsb' 0 2 ≠ 0 then trapA Cause.align va TWord.unset s
  else
    (rmwOld c va v s).bind fun r s =>
    (match r with
      | some (w, a, pa) => checkLoaded c a pa w.t s
      | none => .ok () s).bind fun _ s =>
    (storeTarget c how .rmw va v s).bind fun t s =>
      match regionOf s t.pa with
      | .data => if t.old.ty = Ty.poison then trapW Cause.poison t.old.t s else .ok t s
      | _ => (loadAt c 4 t.va t.pa s).bind fun w s => .ok { t with old := w } s

/-- The old word is answered; the new one is written when go holds of the old, in the L2 in M after the line has been
acquired (R415). -/
def rmwDo (c : CtxId) (v : TWord) (go : TWord → Bool) (t : Target) (s : State) : Res TWord :=
  let done (s : State) : Res TWord := .ok t.old.t s
  match regionOf s t.pa with
  | .data =>
    (drainLine c (lineNo t.pa) (t.pa.toNat / 4 % 16) s).bind fun _ s =>
      if go t.old.t then
        (performStore c t.pa v t.old t.dst s).bind fun _ s =>
          (drainLine c (lineNo t.pa) (t.pa.toNat / 4 % 16) s).bind fun _ s => done s
      else done s
  | _ => if go t.old.t then (storeDo c v t s).bind fun _ s => done s else done s

/-- Operands of CAS and XCHG in mnemonic order; every earlier store is performed first (Table 08-6). -/
def rmwBody (c : CtxId) (rd rs rt : R5) (expect : Bool) (s : State) : Res Flow :=
  let e := opnd c rd s
  let b := opnd c rs s
  let v := opnd c rt s
  (if expect then checkUse e s else .ok () s).bind fun _ s =>
    (checkBase (privOf c s) b s).bind fun _ s =>
      (checkCarry v s).bind fun _ s =>
        (checkClass (privOf c s) false v s).bind fun _ s =>
          (checkDeref b b.val s).bind fun _ s =>
            (drainAll c 8 s).bind fun _ s =>
              (rmwTarget c ⟨freeBase b, false⟩ b.val v s).bind fun t s =>
                (rmwDo c v (fun old => !expect || old = e) t s).bind fun w s => putR c rd w s

def execCas (iss : Iss) (rd rs rt : R5) (s : State) : Outcome :=
  run (formR 0x12 0 rd rs rt) iss (fun c s => rmwBody c rd rs rt true s) s
def execXchg (iss : Iss) (rd rs rt : R5) (s : State) : Outcome :=
  run (formR 0x12 1 rd rs rt) iss (fun c s => rmwBody c rd rs rt false s) s

end Sys2Proof.Machine
end

