-- ==== Sys2Proof/Machine/Objects.lean ====
section
/-! DEFINITION. List and object operations (02 R66–R70, R74, R86, R87, Table 02-12; 09 Table 09-6, R309). -/

namespace Sys2Proof.Machine

/-! ### Cells -/

/-- The address of a cell's car or cdr; a CONS pointer is 8-byte aligned (R53). -/
def cellVa (w : TWord) (cdr : Bool) (s : State) : Res Word :=
  let va := if cdr then w.val + 4 else w.val
  (checkDeref w va s).bind fun _ s => .ok va s

/-- CAR and CDR; of NIL, NIL without an access (R87). -/
def carBody (cdr : Bool) (rd rs : R5) (c : CtxId) (s : State) : Res Flow :=
  let w := opnd c rs s
  (checkTy (fun t => t = Ty.cons || t = Ty.nil) w s).bind fun _ s =>
    if w.ty = Ty.nil then putLoad c rd TWord.nil s
    else (cellVa w cdr s).bind fun va s => (loadWord c va s).bind fun v s => putLoad c rd v.t s

def formCar (fn : BitVec 5) (sop : BitVec 4) (rd rs : R5) : Form :=
  { formR 0x12 fn rd rs 0 with names := [rd, rs], short := some (encS sop rd rs) }

def execCar (iss : Iss) (rd rs : R5) (s : State) : Outcome := run (formCar 2 0x8 rd rs) iss (carBody false rd rs) s
def execCdr (iss : Iss) (rd rs : R5) (s : State) : Outcome := run (formCar 3 0x9 rd rs) iss (carBody true rd rs) s

def execCons (iss : Iss) (rd rs rt : R5) (s : State) : Outcome :=
  run (formR 0x14 0 rd rs rt (some (0x06, 0))) iss
    (allocating Ty.cons rd fun c s =>
      let a := opnd c rs s
      let d := opnd c rt s
      (checkCarry a s).bind fun _ s =>
        (checkCarry d s).bind fun _ s =>
          (checkClass (privOf c s) false a s).bind fun _ s =>
            (checkClass (privOf c s) false d s).bind fun _ s =>
              (valueCandle c 0 a s).bind fun _ s =>
                (valueCandle c 0 d s).bind fun _ s =>
                  (allocObject c 8 [a, d] s).bind fun va s => putR c rd ⟨Ty.cons, va⟩ s) s

/-- SETCAR and SETCDR. -/
def setCarBody (cdr : Bool) (rs rt : R5) (c : CtxId) (s : State) : Res Flow :=
  let w := opnd c rs s
  let v := opnd c rt s
  (checkTy (· == Ty.cons) w s).bind fun _ s =>
    (checkCarry v s).bind fun _ s =>
      (checkClass (privOf c s) false v s).bind fun _ s =>
        (cellVa w cdr s).bind fun va s => (storeWord c ⟨false, false⟩ va v s).bind fun _ s => .ok .next s

def execSetcar (iss : Iss) (rs rt : R5) (s : State) : Outcome :=
  run { formR 0x14 1 0 rs rt (some (0x06, 1)) with names := [rs, rt] } iss (setCarBody false rs rt) s
def execSetcdr (iss : Iss) (rs rt : R5) (s : State) : Outcome :=
  run { formR 0x14 2 0 rs rt (some (0x06, 2)) with names := [rs, rt] } iss (setCarBody true rs rt) s

def execNull (iss : Iss) (pd rs : R5) (s : State) : Outcome :=
  run { formC 0x15 0 pd rs 0 (some (0x06, 4)) with names := [rs] } iss
    (fun c s => (checkUse (opnd c rs s) s).bind fun _ s => putB c pd ((opnd c rs s).ty = Ty.nil) s) s
def execConsp (iss : Iss) (pd rs : R5) (s : State) : Outcome :=
  run { formC 0x15 1 pd rs 0 (some (0x06, 5)) with names := [rs] } iss
    (fun c s => (checkUse (opnd c rs s) s).bind fun _ s => putB c pd ((opnd c rs s).ty = Ty.cons) s) s

/-! ### Objects -/

def isRefable (t : Ty) : Bool := t = Ty.vec || t = Ty.rec_ || t = Ty.sym || t = Ty.hitv
def isSetable (t : Ty) : Bool := t = Ty.vec || t = Ty.rec_ || t = Ty.sym

def execVlen (iss : Iss) (rd rs : R5) (s : State) : Outcome :=
  run { formR 0x16 0 rd rs 0 (some (0x06, 16)) with names := [rd, rs] } iss
    (fun c s =>
      let w := opnd c rs s
      (checkTy isObject w s).bind fun _ s =>
        (objHdr c w s).bind fun h s => putR c rd (TWord.fix (BitVec.ofNat 32 (hdrLen h.2))) s) s

/-- The address of the body word that a FIX index names, or BOUNDS (R87). -/
def indexVa (h : Word × Word) (i : TWord) (s : State) : Res Word :=
  let va := h.1 + 4 + (i.val <<< 2)
  if i.val.getLsbD 31 ∨ hdrLen h.2 ≤ i.val.toNat then trapA Cause.bounds va i s else .ok va s

def execVref (iss : Iss) (rd rs rt : R5) (s : State) : Outcome :=
  run (formR 0x16 1 rd rs rt (some (0x06, 17))) iss
    (fun c s =>
      let w := opnd c rs s
      let i := opnd c rt s
      (checkTy isRefable w s).bind fun _ s =>
        (checkFix i s).bind fun _ s =>
          (objHdr c w s).bind fun h s =>
            (indexVa h i s).bind fun va s => (loadWord c va s).bind fun v s => putLoad c rd v.t s) s

/-- A homogeneous VEC receives its own TYPE only (Table 02-5). -/
def checkElem (t : Ty) (h : Word) (v : TWord) (s : State) : Res Unit :=
  if t = Ty.vec ∧ hdrSub h ≠ 0 ∧ hdrSub h ≠ v.ty.setWidth 8 then trapW Cause.elemType v s else .ok () s

/-- VSET: the object pointer's alignment, then translation, ownership and what the value leads into, are checked before the
header is read (Table 09-1 rows 5 to 8). -/
def execVset (iss : Iss) (rd rs rt : R5) (s : State) : Outcome :=
  run (formR 0x16 2 rd rs rt (some (0x06, 18))) iss
    (fun c s =>
      let v := opnd c rd s
      let w := opnd c rs s
      let i := opnd c rt s
      (checkCarry v s).bind fun _ s =>
        (checkTy isSetable w s).bind fun _ s =>
          (checkFix i s).bind fun _ s =>
            (checkClass (privOf c s) false v s).bind fun _ s =>
              if w.val.extractLsb' 0 2 ≠ 0 then trapA Cause.align w.val w s
              else
                (checkReached c .load w.val [] s).bind fun _ s =>
                  (valueCandle c (w.val + 4 + (i.val <<< 2)) v s).bind fun _ s =>
                    (objHdr c w s).bind fun h s =>
                      (indexVa h i s).bind fun va s =>
                        (storeTarget c ⟨false, false⟩ .store va v s).bind fun t s =>
                          (checkElem w.ty h.2 v s).bind fun _ s =>
                            (storeDo c v t s).bind fun _ s => .ok .next s) s

/-- A new object with LENGTH from rs and subtype from rt; its body is UNSET (Table 02-12). -/
def allocBody (t : Ty) (rd rs rt : R5) (c : CtxId) (s : State) : Res Flow :=
  let n := opnd c rs s
  let sub := opnd c rt s
  let len := n.val.toNat
  (checkFix n s).bind fun _ s =>
    (checkFix sub s).bind fun _ s =>
      if 0xFF < sub.val.toNat ∨ !hdrOk t (sub.val.setWidth 8 ++ BitVec.ofNat 24 (if len = 0 then 0 else 1)) then
        trapW Cause.badPayload sub s
      else if 0xFFFFFF < len then trapW Cause.bounds n s
      else
        (allocObject c 4 (mkHdr (sub.val.setWidth 8) len :: List.replicate len TWord.unset) s).bind fun va s =>
          putR c rd ⟨t, va⟩ s

def execAllocv (iss : Iss) (rd rs rt : R5) (s : State) : Outcome :=
  run (formR 0x16 3 rd rs rt (some (0x06, 19))) iss (allocating Ty.vec rd (allocBody Ty.vec rd rs rt)) s
def execAllocr (iss : Iss) (rd rs rt : R5) (s : State) : Outcome :=
  run (formR 0x16 4 rd rs rt (some (0x06, 20))) iss (allocating Ty.rec_ rd (allocBody Ty.rec_ rd rs rt)) s
def execAllocs (iss : Iss) (rd rs rt : R5) (s : State) : Outcome :=
  run (formR 0x16 5 rd rs rt (some (0x06, 21))) iss (allocating Ty.str rd (allocBody Ty.str rd rs rt)) s

/-- The checks of the words that FREEZE will mark, in order. -/
def freezeCheck (c : CtxId) : Nat → Word → State → Res Unit
  | 0, _, s => .ok () s
  | n + 1, va, s =>
    (translate c .store va s).bind fun pa s =>
      (checkOwner c va pa s).bind fun _ s => freezeCheck c n (va + 4) s

/-- Sets IMM on one word of an L2 line held in M. -/
def setImm (l : Lan) (ln i : Nat) (s : State) : State :=
  let x := s.l2 l ln
  writeL2 l ln .M [(i, some { lineWord x.words i with imm := true })] s

/-- Sets IMM on n words of tagged data from an address, in the L2, after every core's pending store to each line (R76). -/
def freezeWords (c : CtxId) : Nat → Word → State → Res Unit
  | 0, _, s => .ok () s
  | n + 1, va, s =>
    (translate c .store va s).bind fun pa s =>
      match regionOf s pa with
      | .data =>
        (drainOthers c (lineNo pa) s).bind fun _ s => (drainLine c (lineNo pa) (pa.toNat / 4 % 16) s).bind fun _ s =>
          freezeWords c n (va + 4) (setImm (lanOf c) (lineNo pa) (pa.toNat / 4 % 16) s)
      | _ => freezeWords c n (va + 4) s

def isFreezable (t : Ty) : Bool := isObject t || t = Ty.cons

/-- The first word and the number of words that FREEZE marks: a cell, or a header and its body (R74). -/
def freezeRange (c : CtxId) (w : TWord) (s : State) : Res (Word × Nat) :=
  if w.ty = Ty.cons then
    (cellVa w false s).bind fun va s =>
      (loadFwd c .load va s).bind fun r s => .ok (r.2.1, 2) s
  else (objHdr c w s).bind fun h s => .ok (h.1, hdrLen h.2 + 1) s

def execFreeze (iss : Iss) (rs : R5) (s : State) : Outcome :=
  run { formR 0x16 6 0 rs 0 (some (0x06, 22)) with names := [rs] } iss
    (fun c s =>
      let w := opnd c rs s
      (checkTy isFreezable w s).bind fun _ s =>
        (freezeRange c w s).bind fun r s =>
          (freezeCheck c r.2 r.1 s).bind fun _ s =>
            (freezeWords c r.2 r.1 s).bind fun _ s => .ok .next s) s

/-! ### Tags -/

def execTagof (iss : Iss) (rd rs : R5) (s : State) : Outcome :=
  run { formR 0x16 7 rd rs 0 (some (0x06, 23)) with names := [rd, rs] } iss
    (fun c s => putR c rd (TWord.fix ((opnd c rs s).ty.setWidth 32)) s) s

/-- TAGOF of the word at rs: the whole tag byte, not redirected (R306). -/
def execTagofMem (iss : Iss) (rd rs : R5) (s : State) : Outcome :=
  run { formR 0x16 8 rd rs 0 (some (0x06, 24)) with names := [rd, rs] } iss
    (fun c s =>
      let b := opnd c rs s
      (checkBase (privOf c s) b s).bind fun _ s =>
        (checkDeref b b.val s).bind fun _ s =>
          if b.val.extractLsb' 0 2 ≠ 0 then trapA Cause.align b.val TWord.unset s
          else (loadVa c .load b.val s).bind fun r s => putR c rd (TWord.fix (r.1.tag.setWidth 32)) s) s

/-- RETAG; a FIX type code outside 0 to 0x3F, whose cause the spec does not name, raises BAD_PAYLOAD (DESIGN CHOICE, log entry
83). -/
def execRetag (iss : Iss) (rd rs rt : R5) (s : State) : Outcome :=
  run (formR 0x16 9 rd rs rt (some (0x06, 25))) iss
    (fun c s =>
      let w := opnd c rs s
      let t := opnd c rt s
      (checkUse w s).bind fun _ s =>
        (checkFixTo 0x3F t s).bind fun _ s =>
          if !retagOk (privOf c s) w.ty (t.val.setWidth 6) then trapW Cause.retagPriv t s
          else putR c rd ⟨t.val.setWidth 6, w.val⟩ s) s

end Sys2Proof.Machine
end

