-- ==== Sys2Proof/Machine/SaveList.lean ====
section
/-! DEFINITION. Save areas and frames, the shadow stack and lazy floating-point state (07 R253–R262; 09 R322). -/

namespace Sys2Proof.Machine

/-! ### Accesses at SUPERVISOR rights in the context's ASID (R256) -/

/-- The physical address of a save-list or shadow-stack word, or none where the access faults; ownership of a pool span
counts as an access fault. -/
def svPa (c : CtxId) (kind : AccKind) (va : Word) (s : State) : Res (Option PA) :=
  if va.extractLsb' 0 2 ≠ 0 then .ok none s
  else
    (xlate (coreOf c) (s.ctx c).asid 1 kind va s).bind fun o s =>
      match o with
      | .inl _ => .ok none s
      | .inr pa =>
        match checkOwner c va pa s with
        | .ok _ s => .ok (some pa) s
        | .trap _ s => .ok none s
        | .wait w s => .wait w s

def svLoad (c : CtxId) (va : Word) (s : State) : Res (Option MWord) :=
  (svPa c .load va s).bind fun o s =>
    match o with
    | none => .ok none s
    | some pa =>
      match loadAt c 4 va pa s with
      | .ok w s => .ok (some w) s
      | .trap _ s => .ok none s
      | .wait w s => .wait w s

/-- Whether a save-list or shadow-stack word can be written with its tag. -/
def svCan (c : CtxId) (va : Word) (v : TWord) (s : State) : Res Bool :=
  (svPa c .store va s).bind fun o s =>
    match o with
    | none => .ok false s
    | some pa =>
      match regionOf s pa with
      | .data | .unpopulated => .ok true s
      | _ => .ok (isImmediate v.ty) s

/-- A word written with its tag, without barriers and IMM checks. -/
def svStore (c : CtxId) (va : Word) (v : TWord) (s : State) : Res (Option Unit) :=
  (svPa c .store va s).bind fun o s =>
    match o with
    | none => .ok none s
    | some pa =>
      match regionOf s pa with
      | .data =>
        (makeRoom c (lineNo pa) s).bind fun _ s => (mergeStore c pa v s).bind fun _ s => .ok (some ()) s
      | .unpopulated => .ok (some ()) (unpopulated pa s)
      | _ =>
        if isImmediate v.ty then (storeDo c v ⟨va, pa, MWord.unset, none⟩ s).bind fun _ s => .ok (some ()) s
        else .ok none s

/-- A save-list word, or SAVE_ACCESS. -/
def saveLoad (c : CtxId) (va : Word) (s : State) : Res MWord :=
  (svLoad c va s).bind fun o s =>
    match o with
    | some w => .ok w s
    | none => trapA Cause.saveAccess va TWord.unset s

def saveStore (c : CtxId) (va : Word) (v : TWord) (s : State) : Res Unit :=
  (svStore c va v s).bind fun o s =>
    match o with
    | some _ => .ok () s
    | none => trapA Cause.saveAccess va v s

def saveLoads (c : CtxId) : Nat → Word → State → Res (List MWord)
  | 0, _, s => .ok [] s
  | n + 1, va, s =>
    (saveLoad c va s).bind fun w s => (saveLoads c n (va + 4) s).bind fun l s => .ok (w :: l) s

/-- Words that a save operation will write, in order, and the cause where one cannot be written: SAVE_ACCESS on the save list,
SS_FAULT on the shadow stack. -/
structure SvWrite where
  va : Word
  v : TWord
  ss : Bool

/-- The words of a frame at an address. -/
def frameAt (va : Word) (ws : List TWord) : List SvWrite :=
  (List.range ws.length).map fun i => ⟨va + BitVec.ofNat 32 (4 * i), ws.getD i TWord.unset, false⟩

def svTrap {α : Type} (w : SvWrite) (s : State) : Res α :=
  if w.ss then trapN Cause.ssFault s else trapA Cause.saveAccess w.va w.v s

/-- Every word can be written: an operation that traps has written none (R88, R261). -/
def svCheck (c : CtxId) : List SvWrite → State → Res Unit
  | [], s => .ok () s
  | w :: r, s => (svCan c w.va w.v s).bind fun ok s => if ok then svCheck c r s else svTrap w s

/-- The words are written. -/
def svWrites (c : CtxId) : List SvWrite → State → Res Unit
  | [], s => .ok () s
  | w :: r, s => (svStore c w.va w.v s).bind fun o s => if o.isSome then svWrites c r s else svTrap w s

def saveStores (c : CtxId) : Word → List TWord → State → Res Unit
  | _, [], s => .ok () s
  | va, v :: r, s => (saveStore c va v s).bind fun _ s => saveStores c (va + 4) r s

/-! ### Push and pop (R254, R255) -/

def saveWord (a : Word) : TWord := ⟨Ty.save, a⟩
def areaOf (p : Word) : Word := p &&& 0xFFFFFC00
def offOf (p : Word) : Word := p &&& 0x3FF

/-- The place of a push of n lines: SAVEP, or the first line of the next area, with FILL and BACK to be written. -/
def pushAt (c : CtxId) (p : Word) (n : Nat) (s : State) : Res (Word × List SvWrite) :=
  if (offOf p).toNat + 64 * n ≤ 0x3C0 then .ok (p, []) s
  else
    (saveLoad c (areaOf p + 0x3FC) s).bind fun next s =>
      if next.ty ≠ Ty.save then trapA Cause.saveFull (areaOf p + 0x3FC) next.t s
      else
        let links : List SvWrite :=
          [⟨areaOf p + 0x3F4, TWord.raw (offOf p), false⟩, ⟨next.val + 0x3F8, saveWord (areaOf p), false⟩]
        (svCheck c links s).bind fun _ s => .ok (next.val + 0x040, links) s

/-- A spill frame keeps out of the last 9 lines of an area whose NEXT is NIL (R255). -/
def spillRoom (c : CtxId) (p : Word) (s : State) : Res Unit :=
  if (offOf p).toNat < 0x180 then .ok () s
  else
    (saveLoad c (areaOf p + 0x3FC) s).bind fun next s =>
      if next.ty = Ty.nil then trapA Cause.saveFull (areaOf p + 0x3FC) next.t s else .ok () s

def checkSavep (p : TWord) (s : State) : Res Unit :=
  if p.ty ≠ Ty.save then trapA Cause.saveFmt p.val p s else .ok () s

/-- A push of lines onto the save list that p tops, checked: the words to write and the new SAVEP payload. -/
def pushPlan (c : CtxId) (p : TWord) (spill : Bool) (ws : List TWord) (s : State) : Res (List SvWrite × Word) :=
  (checkSavep p s).bind fun _ s =>
    (pushAt c p.val (ws.length / 16) s).bind fun a s =>
      (if spill then spillRoom c a.1 s else .ok () s).bind fun _ s =>
        (svCheck c (frameAt a.1 ws) s).bind fun _ s =>
          .ok (a.2 ++ frameAt a.1 ws, a.1 + BitVec.ofNat 32 (4 * ws.length)) s

/-- A push of lines onto the save list that p tops; answers the new SAVEP payload. -/
def push (c : CtxId) (p : TWord) (spill : Bool) (ws : List TWord) (s : State) : Res Word :=
  (pushPlan c p spill ws s).bind fun r s => (svWrites c r.1 s).bind fun _ s => .ok r.2 s

/-- A pop of n lines; answers the words and the new SAVEP payload, which the caller writes. -/
def pop (c : CtxId) (p : TWord) (n : Nat) (s : State) : Res (List MWord × Word) :=
  (checkSavep p s).bind fun _ s =>
    (if offOf p.val = 0x040 then
      (saveLoad c (areaOf p.val + 0x3F8) s).bind fun back s =>
        if back.ty ≠ Ty.save then trapA Cause.saveEmpty (areaOf p.val + 0x3F8) back.t s
        else (saveLoad c (back.val + 0x3F4) s).bind fun fill s => .ok (back.val + fill.val) s
    else .ok p.val s).bind fun a s =>
      if (offOf a).toNat < 0x040 + 64 * n then trapA Cause.saveEmpty a TWord.unset s
      else
        let b := a - BitVec.ofNat 32 (64 * n)
        (saveLoads c (16 * n) b s).bind fun ws s => .ok (ws, b) s

def setSavep (c : CtxId) (p : Word) (s : State) : State := s.modCtx c fun x => { x with savep := saveWord p }

/-! ### The shadow stack (R259, R261, Table 07-9) -/

/-- Entries as the shadow stack takes them below SSP, oldest first. -/
def shadowWords (ssp : Word) (l : List Word) : List SvWrite :=
  (List.range l.length).map fun i => ⟨ssp - BitVec.ofNat 32 (4 * (i + 1)), ⟨Ty.ret, l.getD i 0⟩, true⟩

/-- A spill of the n oldest entries of the return stack, checked, or SS_FAULT: the words to write, and the entries that stay
and SSP. An SSP that is no RAW word names no stack, on which R261 is silent: SS_FAULT (DESIGN CHOICE, log entry 108). -/
def spillPlan (c : CtxId) (n : Nat) (s : State) : Res (List SvWrite × List (Word × Bool) × TWord) :=
  let x := s.ctx c
  if n = 0 then .ok ([], x.rs, x.ssp) s
  else if x.ssp.ty ≠ Ty.raw then trapN Cause.ssFault s
  else
    let ws := shadowWords x.ssp.val ((x.rs.reverse.take n).map Prod.fst)
    (svCheck c ws s).bind fun _ s =>
      .ok (ws, x.rs.take (x.rs.length - n), TWord.raw (x.ssp.val - BitVec.ofNat 32 (4 * ws.length))) s

/-- Spills the n oldest entries of the return stack; answers the entries that stay and SSP. -/
def spillStack (c : CtxId) (n : Nat) (s : State) : Res (List (Word × Bool) × TWord) :=
  (spillPlan c n s).bind fun r s => (svWrites c r.1 s).bind fun _ s => .ok r.2 s

/-- What a fill reads: the entries, top first, and the SSP after them. -/
def fillFrom (c : CtxId) : Nat → Word → State → Res (List (Word × Bool) × Word)
  | 0, ssp, s => .ok ([], ssp) s
  | n + 1, ssp, s =>
    (svLoad c ssp s).bind fun o s =>
      match o with
      | none => trapN Cause.ssFault s
      | some w =>
        if w.ty = Ty.nil then .ok ([], ssp) s
        else if w.ty = Ty.ret then
          (fillFrom c n (ssp + 4) s).bind fun r s => .ok ((w.val, true) :: r.1, r.2) s
        else trapW Cause.ssCorrupt w.t s

/-- The return stack that a return is checked against: an empty one is filled while RSMODE is 1 (Table 07-9, order 3). An SSP that is
no RAW word: SS_FAULT, as for a spill (log entry 108). -/
def filledStack (c : CtxId) (s : State) : Res (List (Word × Bool) × TWord) :=
  let x := s.ctx c
  if x.rs ≠ [] ∨ !x.cstat.rsmode then .ok (x.rs, x.ssp) s
  else if x.ssp.ty ≠ Ty.raw then trapN Cause.ssFault s
  else (fillFrom c 8 x.ssp.val s).bind fun r s => .ok (r.1, TWord.raw r.2) s

def satUnchk (u : BitVec 8) (n : Nat) : BitVec 8 := BitVec.ofNat 8 (min 255 (u.toNat + n))

/-- The return stack and control registers after a return address has been pushed (R259). -/
def pushReturn (c : CtxId) (a : Word) (s : State) : Res (List (Word × Bool) × TWord × BitVec 8) :=
  let x := s.ctx c
  if x.rs.length < 16 then .ok ((a, true) :: x.rs, x.ssp, x.wptr.unchk) s
  else if !x.cstat.rsmode then .ok ((a, true) :: x.rs.take 15, x.ssp, satUnchk x.wptr.unchk 1) s
  else (spillStack c 8 s).bind fun r s => .ok ((a, true) :: r.1, r.2, (s.ctx c).wptr.unchk) s

/-! ### Frames (Table 07-8) -/

def ringWords (x : Ctx) : List TWord := (List.range 128).map fun i => Tab.get TWord.unset x.ring i
def listTab (l : List TWord) : Tab TWord :=
  ((List.range l.length).zip l).filter fun e => e.2 ≠ TWord.unset

/-- The lower frame of a context with a resume PC. -/
def lowerFrame (x : Ctx) (pc : Word) : List TWord :=
  ((List.range 8).map fun i => Tab.get TWord.unset x.g i) ++ ((List.range 4).map fun i => Tab.get TWord.unset x.b i) ++
    [TWord.raw x.cstat.pack, ⟨Ty.code, pc⟩, TWord.raw (x.wptr.pack.extractLsb' 0 24 ++ (x.p &&& 0xFE)),
     TWord.raw (if x.ssp.ty = Ty.unset then 0 else x.ssp.val)]

/-- SAVEL empties the return stack, to the shadow stack or into UNCHK (R262), and pushes the lower frame; cs is CSTAT as
the instruction after it finds it. -/
def saveLower (c : CtxId) (pc : Word) (cs : Cstat) (s : State) : Res Unit :=
  let x := s.ctx c
  (checkSavep x.savep s).bind fun _ s =>
    (if x.cstat.rsmode then (spillPlan c x.rs.length s).bind fun r s => .ok (r.1, r.2.2, x.wptr.unchk) s
     else .ok ([], x.ssp, satUnchk x.wptr.unchk x.rs.length) s).bind fun r s =>
      let y := { s.ctx c with rs := [], ssp := r.2.1, wptr := { x.wptr with unchk := r.2.2 }, cstat := cs }
      (pushPlan c x.savep false (lowerFrame y pc) s).bind fun p s =>
        (svWrites c (r.1 ++ p.1) s).bind fun _ s =>
          .ok () (s.modCtx c fun z =>
            { z with rs := [], ssp := r.2.1, wptr := { z.wptr with unchk := r.2.2 }, savep := saveWord p.2 })

/-- SAVEH pushes the ring. -/
def saveUpper (c : CtxId) (s : State) : Res Unit :=
  (push c (s.ctx c).savep false (ringWords (s.ctx c)) s).bind fun p s => .ok () (setSavep c p s)

/-- RSTH pops the ring. -/
def restoreUpper (c : CtxId) (s : State) : Res Unit :=
  (pop c (s.ctx c).savep 8 s).bind fun r s =>
    .ok () (s.modCtx c fun x =>
      { x with ring := listTab (r.1.map MWord.t), savep := saveWord r.2,
               loads := x.loads.filter fun p => match p.loc with | .ring _ => false | _ => true })

/-- The TYPEs that RSTL accepts for a word of a lower frame (R256). -/
def lowerWordOk (i : Nat) (t : Ty) : Bool :=
  if i = 13 then t = Ty.code || t = Ty.ret else if 12 ≤ i then t = Ty.raw else true

/-- RSTL accepts the tags of a lower frame. -/
def lowerOk (ws : List MWord) : Bool := (List.range 16).all fun i => lowerWordOk i (lineWord ws i).ty

/-- SAVE_FMT at the first word of the frame at p that RSTL does not accept. -/
def lowerTrap (p : Word) (ws : List MWord) (s : State) : Res Unit :=
  match (List.range 16).find? fun i => !lowerWordOk i (lineWord ws i).ty with
  | some i => trapA Cause.saveFmt (p + 4 * BitVec.ofNat 32 i) (lineWord ws i).t s
  | none => .ok () s

/-- The context that a lower frame restores; FPA follows the core's owner record (R257). -/
def Ctx.restoreLower (x : Ctx) (ws : List MWord) (owner : Bool) (p : Word) : Ctx :=
  let w14 := (lineWord ws 14).val
  let cs := Cstat.unpack (lineWord ws 12).val
  { x with
    g := listTab ((ws.take 8).map MWord.t), b := listTab (((ws.drop 8).take 4).map MWord.t),
    cstat := { cs with fpa := owner }, pc := (lineWord ws 13).val,
    p := w14.setWidth 8 &&& 0xFE, wptr := Wptr.unpack (w14 >>> 8),
    ssp := if (lineWord ws 15).val = 0 then TWord.unset else TWord.raw (lineWord ws 15).val,
    rs := [], rdtb := 0, savep := saveWord p,
    loads := x.loads.filter fun p => match p.loc with | .glob _ => false | _ => true }

/-- RSTL at a level: pops the lower frame, checks it and continues at its resume PC (R253, R256). -/
def restoreLower (c : CtxId) (priv : BitVec 2) (s : State) : Res Unit :=
  (pop c (s.ctx c).savep 1 s).bind fun r s =>
    if !lowerOk r.1 then lowerTrap r.2 r.1 s
    else if priv < (Cstat.unpack (lineWord r.1 12).val).priv then trapW Cause.privEsc (lineWord r.1 12).t s
    else
      let owner : Bool := ((s.core (coreOf c)).fpOwner.map Prod.fst) = some (c.extractLsb' 0 2)
      .ok () (s.modCtx c fun x => x.restoreLower r.1 owner r.2)

/-- CSTAT as the instruction after the present one finds it. -/
def nextCstat (x : Ctx) : Cstat := { x.cstat with gcnt := decG x.cstat.gcnt, ldf := false, rpt := false }

/-! ### Lazy floating-point state (R257, R258) -/

def fpWords (k : CoreSt) : List TWord := (List.range 16).map fun i => ⟨Ty.flt, Tab.get 0 k.fp i⟩

/-- The owner's file is written to its FP frame, and its FPV is set. -/
def writeFp (o : CtxId) (root : Word) (s : State) : Res Unit :=
  (saveStores o root (fpWords (s.core (coreOf o))) s).bind fun _ s =>
    .ok () ((s.modCtx o fun x => { x with cstat := { x.cstat with fpv := true } }).modCore (coreOf o) fun k =>
      { k with fpDirty := false })

/-- Loads of f registers that have not been written are written while their context still owns the file. -/
def flushFp (o : CtxId) (s : State) : State :=
  let isFp (p : PLoad) : Bool := match p.loc with | .fp _ => true | _ => false
  (writeLoads o ((s.ctx o).loads.filter isFp) s).modCtx o fun x => { x with loads := x.loads.filter fun p => !isFp p }

/-- The lazy-FP trap: an FP instruction in a context without the file takes it over (R257). A fault of the write to the owner's frame
is raised in the context that executes, which the rule leaves open (DESIGN CHOICE, log entry 109). -/
def takeFp (c : CtxId) (s : State) : Res Unit :=
  if (s.ctx c).cstat.fpa then .ok () s
  else
    (match (s.core (coreOf c)).fpOwner with
     | some (n, root) =>
       let o := ctxOf (coreOf c) n
       let s := flushFp o s
       (if (s.core (coreOf c)).fpDirty then writeFp o root s else .ok () s).bind fun _ s =>
         .ok () ((s.modCtx o fun x => { x with cstat := { x.cstat with fpa := false } }).modCore (coreOf c) fun k =>
           { k with fpOwner := none, fpDirty := false })
     | none => .ok () s).bind fun _ s =>
      (if (s.ctx c).cstat.fpv then
        (if (s.ctx c).saveb.ty ≠ Ty.save then trapA Cause.saveFmt (s.ctx c).saveb.val (s.ctx c).saveb s
         else saveLoads c 16 (s.ctx c).saveb.val s)
       else .ok [] s).bind fun ws s =>
        let file : Tab Word := ((List.range 16).map fun i => (i, (lineWord ws i).val)).filter fun e => e.2 ≠ 0
        .ok () ((s.modCtx c fun x => { x with cstat := { x.cstat with fpa := true } }).modCore (coreOf c) fun k =>
          { k with fp := file, fpOwner := some (c.extractLsb' 0 2, (s.ctx c).saveb.val), fpDirty := false })

/-! ### Instructions -/

def execSavel (iss : Iss) (s : State) : Outcome :=
  run { formZero 0x2D 0 with all := true } iss
    (fun c s => (needPriv c s).bind fun _ s =>
      (saveLower c ((s.ctx c).pc + 4) (nextCstat (s.ctx c)) s).bind fun _ s => .ok .next s) s
def execSaveh (iss : Iss) (s : State) : Outcome :=
  run { formZero 0x2D 1 with all := true } iss
    (fun c s => (needPriv c s).bind fun _ s => (saveUpper c s).bind fun _ s => .ok .next s) s
/-- RSTL transfers to the restored resume PC; the instruction after it is not executed (R253). -/
def execRstl (iss : Iss) (s : State) : Outcome :=
  run { formZero 0x2D 2 with all := true } iss
    (fun c s => (needPriv c s).bind fun _ s =>
      (restoreLower c (privOf c s) s).bind fun _ s => .ok .placed s) s
def execRsth (iss : Iss) (s : State) : Outcome :=
  run { formZero 0x2D 3 with all := true } iss
    (fun c s => (needPriv c s).bind fun _ s => (restoreUpper c s).bind fun _ s => .ok .next s) s

/-- Ring cells of a spill frame whose w8–w15 are the private cells of window o (R322). -/
def spillCells (o : Nat) : List Nat :=
  ((List.range 8).map fun j => 16 * ((o + 7) % 8) + 8 + j) ++ ((List.range 8).map fun j => 16 * (o % 8) + j)

def execSpill (iss : Iss) (s : State) : Outcome :=
  run { formZero 0x2D 4 with all := true } iss
    (fun c s => (needPriv c s).bind fun _ s =>
      let x := s.ctx c
      if x.wptr.resw = 1 then trapN Cause.illOperand s
      else
        let o := x.wptr.cwp.toNat + 8 - x.wptr.resw.toNat + 1
        (push c x.savep true ((spillCells o).map fun i => Tab.get TWord.unset x.ring i) s).bind fun p s =>
          .ok .next (s.modCtx c fun x =>
            { x with savep := saveWord p, wptr := { x.wptr with resw := x.wptr.resw - 1, wspill := x.wptr.wspill + 1 } })) s

def execFill (iss : Iss) (s : State) : Outcome :=
  run { formZero 0x2D 5 with all := true } iss
    (fun c s => (needPriv c s).bind fun _ s =>
      let x := s.ctx c
      if x.wptr.resw = 7 ∨ x.wptr.wspill = 0 then trapN Cause.illOperand s
      else
        let o := x.wptr.cwp.toNat + 8 - x.wptr.resw.toNat + 1
        (pop c x.savep 1 s).bind fun r s =>
          .ok .next (s.modCtx c fun x =>
            let ring := ((spillCells (o + 7)).zip (r.1.map MWord.t)).foldl
              (fun t e => Tab.set TWord.unset t e.1 e.2) x.ring
            { x with ring := ring, savep := saveWord r.2,
                     wptr := { x.wptr with resw := x.wptr.resw + 1, wspill := x.wptr.wspill - 1 } })) s

end Sys2Proof.Machine
end

