-- ==== Sys2Proof/Machine/Control.lean ====
section
/-! DEFINITION. Control flow and guards (08 R275–R278, R292; 09 Table 09-7, R310, R311; 07 R244–R246, R259, R260). -/

namespace Sys2Proof.Machine

/-- A branch target: the address of the branch plus a displacement in units of 2 bytes. -/
def branchTo (c : CtxId) (d : Word) (s : State) : Word := (s.ctx c).pc + (d <<< 1)

def execBr (iss : Iss) (d : BitVec 20) (s : State) : Outcome :=
  run { long := some (encB 0x18 d) } iss (fun c s => .ok (.jump (branchTo c (d.signExtend 32) s)) s) s
/-- BRS, the short branch (Table 08-3). -/
def execBrs (iss : Iss) (d : BitVec 10) (s : State) : Outcome :=
  run { short := some (d ++ (0xD : BitVec 4) ++ (0 : BitVec 2)) } iss
    (fun c s => .ok (.jump (branchTo c (d.signExtend 32) s)) s) s

/-- A native call: window overflow, the push on the return stack, then the new window with the return address in its w7
(R245, R246, R259). -/
def callTo (c : CtxId) (iss : Iss) (target : Word) (s : State) : Res Flow :=
  if (s.ctx c).wptr.resw = 7 then trapN Cause.wovf s
  else
    let ret := (s.ctx c).pc + (if iss.short then 2 else 4)
    (pushReturn c ret s).bind fun r s =>
      .ok (.jump target) (s.modCtx c fun x =>
        let y := { x with rs := r.1, ssp := r.2.1,
                          wptr := { x.wptr with cwp := x.wptr.cwp + 1, resw := x.wptr.resw + 1, unchk := r.2.2 } }
        y.setReg 7 ⟨Ty.ret, ret⟩)

def execCall (iss : Iss) (d : BitVec 20) (s : State) : Outcome :=
  run { long := some (encB 0x19 d), names := [23] } iss
    (fun c s => (notOnShadow c s).bind fun _ s => callTo c iss (branchTo c (d.signExtend 32) s) s) s

/-- The target of JR and CALLR: a CODE word, aligned to 4 bytes (R311). -/
def checkTarget (w : TWord) (s : State) : Res Unit :=
  (checkUse w s).bind fun _ s =>
    if w.ty ≠ Ty.code then trapW Cause.badTarget w s
    else if w.val.extractLsb' 0 2 ≠ 0 then trapA Cause.align w.val w s
    else .ok () s

def execJr (iss : Iss) (rs : R5) (s : State) : Outcome :=
  run { formR 0x1A 0 0 rs 0 (some (0x0B, 1)) with names := [rs], short := some (encS 0xA 0 rs) } iss
    (fun c s => (checkTarget (opnd c rs s) s).bind fun _ s => .ok (.jump (opnd c rs s).val) s) s
def execCallr (iss : Iss) (rs : R5) (s : State) : Outcome :=
  run { formR 0x1A 1 0 rs 0 with short := some (encS 0xA 1 rs), names := [rs, 23] } iss
    (fun c s => (notOnShadow c s).bind fun _ s =>
      (checkTarget (opnd c rs s) s).bind fun _ s => callTo c iss (opnd c rs s).val s) s

/-- The return stack after a checked return to a target (Table 07-9, orders 3 to 7): entries, SSP and UNCHK. -/
def checkReturn (c : CtxId) (w : TWord) (s : State) : Res (List (Word × Bool) × TWord × BitVec 8) :=
  (filledStack c s).bind fun r s =>
    let u := (s.ctx c).wptr.unchk
    match r.1 with
    | [] => if u ≠ 0 then .ok ([], r.2, u - 1) s else trapN Cause.rsEmpty s
    | (a, checked) :: rest =>
      if checked ∧ a ≠ w.val then trapW Cause.rsMismatch w s else .ok (rest, r.2, u) s

def execRet (iss : Iss) (s : State) : Outcome :=
  run { formZero 0x1A 2 with short := some (encS 0xB 0 0), names := [7] } iss
    (fun c s => (notOnShadow c s).bind fun _ s =>
      let w := opnd c 7 s
      if w.ty ≠ Ty.ret then trapW Cause.badTarget w s
      else if (s.ctx c).wptr.resw = 1 then
        trapN (if (s.ctx c).wptr.wspill = 0 then Cause.frameEmpty else Cause.wunf) s
      else
        (checkReturn c w s).bind fun r s =>
          .ok (.jump w.val) (s.modCtx c fun x =>
            { x with rs := r.1, ssp := r.2.1,
                     wptr := { x.wptr with cwp := x.wptr.cwp - 1, resw := x.wptr.resw - 1, unchk := r.2.2 } })) s

/-- DBNZ (R292). -/
def execDbnz (iss : Iss) (rc : R5) (d : BitVec 15) (s : State) : Outcome :=
  run { long := some (encD 0x1B rc d), names := [rc] } iss
    (fun c s =>
      let w := opnd c rc s
      (checkFix w s).bind fun _ s =>
        if w.val.getLsbD 31 then trapW Cause.badPayload w s
        else if w.val = 0 then .ok .next s
        else
          .ok (if w.val = 1 then .next else .jump (branchTo c (d.signExtend 32) s))
            (s.modCtx c fun x => x.setReg rc (TWord.fix (w.val - 1)))) s

/-- The halfword of a GUARD prefix (Table 08-3). -/
def encGuard (p : P3) (inv : Bool) (cm1 : BitVec 2) : Word :=
  (0 : BitVec 20) ++ cm1 ++ bit inv ++ p ++ (0xF : BitVec 4) ++ (0 : BitVec 2)

/-- GUARD issues with the first instruction it guards (R276): it is no slot instruction and ends no mode-change shadow
(log entry 11); one met within a guard run raises GUARD_RULE (R278). -/
def execGuard (iss : Iss) (p : P3) (inv : Bool) (cm1 : BitVec 2) (s : State) : Outcome :=
  let c := iss.ctx
  let x := s.ctx c
  .next (
    if !canIssue x || x.cstat.mode || !iss.short || iss.gi || iss.gp ≠ 0 then s
    else
      let bad (k : BitVec 8) : State := raiseTrap c x (mkTrap k 0 TWord.unset) (encGuard p inv cm1) 2 s
      if x.pc.getLsbD 0 then bad Cause.illAlign
      else if x.cstat.gcnt ≠ 0 then bad Cause.guardRule
      else s.modCtx c fun x =>
        { x with pc := x.pc + 2, cstat := { x.cstat with gcnt := cm1.setWidth 3 + 1, gpred := p, ginv := inv } })

end Sys2Proof.Machine
end

