-- ==== Sys2Proof/Machine/Block.lean ====
section
/-! DEFINITION. Block-repeat instructions (08 R288–R291; 09 Table 09-8, R312). A command runs one iteration: there is a boundary
after it, at which an interrupt, a kill or a change of context may come, and the next command goes on with RPT set. -/

namespace Sys2Proof.Machine

/-- A repeat names distinct registers (R288). -/
def distinct3 (a b d : R5) : Option (BitVec 8) :=
  if a = b ∨ b = d ∨ a = d then some Cause.illOperand else none

/-- The count register: a FIX, not negative (R288). -/
def checkCount (w : TWord) (s : State) : Res Unit :=
  (checkFix w s).bind fun _ s => if w.val.getLsbD 31 then trapW Cause.badPayload w s else .ok () s

/-- A register that an iteration advances by 4, keeping its TYPE. -/
def advance (c : CtxId) (r : R5) (s : State) : State :=
  s.modCtx c fun x => x.setReg r { x.reg r with val := (x.reg r).val + 4 }

def countDown (c : CtxId) (r : R5) (s : State) : State :=
  s.modCtx c fun x => x.setReg r (TWord.fix ((x.reg r).val - 1))

/-- One iteration of a repeat: body does it and says whether the repeat ends there; a repeat with iterations left stays at
its boundary (R291). -/
def iterate (c : CtxId) (rc : R5) (body : State → Res Bool) (s : State) : Res Flow :=
  (body s).bind fun stop s => if stop || (opnd c rc s).val = 0 then .ok .next s else .ok .again s

/-- A repeat: with a FIX count of 0 nothing is checked and nothing happens (R289); else the operands are checked in mnemonic
order, the count last (Table 09-1 row 4), and an iteration follows. -/
def repeatBody (c : CtxId) (rc : R5) (pre : State → Res Unit) (body : State → Res Bool) (s : State) : Res Flow :=
  if opnd c rc s = TWord.fix 0 then .ok .next s
  else (pre s).bind fun _ s => (checkCount (opnd c rc s) s).bind fun _ s => iterate c rc body s

/-- The address rule of a repeat's pointer (Table 09-1 row 5). -/
def repeatAlign (base : TWord) (s : State) : Res Unit :=
  (checkDeref base base.val s).bind fun _ s =>
    if base.val.extractLsb' 0 2 ≠ 0 then trapA Cause.align base.val TWord.unset s else .ok () s

/-- A store of a repeat (R290). -/
def repeatStore (c : CtxId) (base v : TWord) (s : State) : Res Unit :=
  (checkCarry v s).bind fun _ s =>
    (checkBase (privOf c s) base s).bind fun _ s =>
      (checkClass (privOf c s) false v s).bind fun _ s =>
        (repeatAlign base s).bind fun _ s =>
            (storeTarget c ⟨freeBase base, false⟩ .store base.val v s).bind fun t s =>
              match regionOf s t.pa with
              | .data => (makeRoom c (lineNo t.pa) s).bind fun _ s => storeDo c v t s
              | _ => storeDo c v t s

def formRep (op : BitVec 6) (rd rs rt : R5) (fn : BitVec 5) : Form :=
  { formR op fn rd rs rt with bad := distinct3 rd rs rt, isRepeat := true }

/-- One iteration of RMOV: the word at ws is stored at wd. The checks of both addresses come before the word is read (rows 5
to 7 of Table 09-1); the rule gives no order among the addresses of a row, and the source comes first (DESIGN CHOICE, log
entry 82). -/
def rmovStep (wd ws wc : R5) (c : CtxId) (s : State) : Res Bool :=
  let d := opnd c wd s
  let b := opnd c ws s
  (checkBase (privOf c s) d s).bind fun _ s =>
    (checkBase (privOf c s) b s).bind fun _ s =>
      (repeatAlign d s).bind fun _ s =>
        (repeatAlign b s).bind fun _ s =>
          (checkReached c .load b.val [] s).bind fun _ s =>
            (checkReached c .store d.val [] s).bind fun _ s =>
              (loadBase c b b.val s).bind fun w s =>
                (repeatStore c d w.t s).bind fun _ s => .ok false (countDown c wc (advance c wd (advance c ws s)))

def execRmov (iss : Iss) (rd rs rt : R5) (s : State) : Outcome :=
  run (formRep 0x1C rd rs rt 0) iss
    (fun c s => repeatBody c rt (fun s => (checkBase (privOf c s) (opnd c rd s) s).bind fun _ s => checkBase (privOf c s) (opnd c rs s) s)
      (rmovStep rd rs rt c) s) s

/-- One iteration of RFILL. -/
def rfillStep (wd wv wc : R5) (c : CtxId) (s : State) : Res Bool :=
  (checkBase (privOf c s) (opnd c wd s) s).bind fun _ s =>
    (repeatStore c (opnd c wd s) (opnd c wv s) s).bind fun _ s => .ok false (countDown c wc (advance c wd s))

def execRfill (iss : Iss) (rd rs rt : R5) (s : State) : Outcome :=
  run (formRep 0x1D rd rs rt 0) iss
    (fun c s => repeatBody c rt (fun s => (checkBase (privOf c s) (opnd c rd s) s).bind fun _ s => checkCarry (opnd c rs s) s)
      (rfillStep rd rs rt c) s) s

/-- One iteration of RSCAN: EQI of the word at ws with wv; the last word without a match leaves pd 0. -/
def rscanStep (ws wv wc : R5) (pd : P3) (c : CtxId) (s : State) : Res Bool :=
  let b := opnd c ws s
  let v := opnd c wv s
  (checkBase (privOf c s) b s).bind fun _ s =>
    (checkUse v s).bind fun _ s =>
      (loadBase c b b.val s).bind fun w s =>
        (checkUse w.t s).bind fun _ s =>
          if w.t = v then .ok true (s.modCtx c fun x => x.setPred pd true)
          else
            let s := countDown c wc (advance c ws s)
            if (opnd c wc s).val = 0 then .ok true (s.modCtx c fun x => x.setPred pd false) else .ok false s

def execRscan (iss : Iss) (rd rs rt : R5) (pd : P3) (s : State) : Outcome :=
  run (formRep 0x1E rd rs rt (p5 pd)) iss
    (fun c s => repeatBody c rt (fun s => (checkBase (privOf c s) (opnd c rd s) s).bind fun _ s => checkUse (opnd c rs s) s)
      (rscanStep rd rs rt pd c) s) s

end Sys2Proof.Machine
end

