-- ==== Sys2Proof/Machine/Board.lean ====
section
/-! DEFINITION. The board's side: the I2C target (17 R527; 18 R541) and the TAP (17 R528). -/

namespace Sys2Proof.Machine

/-! ### I2C (Table 17-8) -/

/-- The result of a command, its length first; an unknown command, and one that is not served, returns a length of 0. -/
def i2cResult (bytes : List Byte) (s : State) : State := emit (.i2c (BitVec.ofNat 8 bytes.length :: bytes)) s

/-- The commands of Table 17-8. -/
inductive I2cCmd where
  | status | telem | errsum | record | reset | slot
  deriving DecidableEq, Repr

/-- Which commands are served: the boot ROM serves STATUS and SLOT, RETIRED STATUS and TELEM, standby the four of 19 R555
and, after a thermal trip, RESET, which is taken while the module sheds too (17 R519, R523; log entry 97). -/
def i2cServes (s : State) (c : I2cCmd) : Bool :=
  match s.pw.stage with
  | .off | .held => false
  | .standby =>
    if s.mg.stored.lc = .retired then c = .status || c = .telem
    else c ≠ .slot && (c ≠ .reset || s.pw.trip)
  | .shed =>
    if s.mg.stored.lc = .retired then c = .status || c = .telem
    else c ≠ .slot && (c ≠ .reset || (s.pw.trip && !s.pw.warned))
  | .run =>
    if s.mg.romOnly then c = .status || c = .slot
    else s.mg.stored.lc ≠ .retired || c = .status || c = .telem

/-- A transaction at a 7-bit address: the target answers at its own while the module is powered and out of reset (R527). -/
def onAddr (addr : BitVec 7) (f : State → State) (s : State) : Outcome :=
  .next (if s.pw.stage = .off ∨ s.pw.stage = .held ∨ addr ≠ s.pw.i2cAddress then s else f s)

def onI2c (addr : BitVec 7) (c : I2cCmd) (f : State → State) (s : State) : Outcome :=
  onAddr addr (fun s => if i2cServes s c then f s else i2cResult [] s) s

/-- The bytes of a value, least significant first. -/
def halfBytes (v : BitVec 16) : List Byte := [v.extractLsb' 0 8, v.extractLsb' 8 8]

/-- The highest temperature: of the lanterns, stacks, HUB, HOST and optics. -/
def hottest (s : State) : BitVec 16 :=
  (List.range 41).foldl (fun (b : BitVec 16) n => if b.toInt < (sensor s n).toInt then sensor s n else b) (sensor s 0)

/-- MG_STATUS, the life-cycle state, the highest temperature and the input power. -/
def i2cStatus (s : State) : State :=
  i2cResult (wordBytes (mgStatus s) ++ [s.mg.stored.lc.code.setWidth 8] ++ halfBytes (hottest s) ++ halfBytes (sensor s 49)) s

/-- I2C_STATUS: a transaction whose command byte is 0x01, STATUS; any other byte without a row of its own is unknown and returns
a length of 0, as do the bytes of the other rows without their arguments (Table 17-8). -/
def execI2cStatus (addr : BitVec 7) (byte : Byte) (s : State) : Outcome :=
  if byte = 0x01 then onI2c addr .status i2cStatus s else onAddr addr (i2cResult []) s

def execI2cTelem (addr : BitVec 7) (n : Byte) (s : State) : Outcome :=
  onI2c addr .telem (fun s => if n.toNat < 50 then i2cResult (halfBytes (sensor s n.toNat)) s else i2cResult [] s) s

/-- ERRSUM: the counters of Table 17-12 in their order. -/
def execI2cErrsum (addr : BitVec 7) (s : State) : Outcome :=
  onI2c addr .errsum (fun s =>
    i2cResult ((List.range 7).flatMap fun i => wordBytes (s.counter (Cnt.mgSumMemcorr + 4 * i))) s) s

/-- The result of RECORD s: the record, or its status (18 R541). -/
def i2cRecord (seq : BitVec 48) (s : State) : State :=
  match erRead seq.toNat s with
  | (_, some e) => i2cResult e.image s
  | (st, none) => i2cResult [st.setWidth 8] s

/-- I2C_RECORD: the write of the command with its argument s, or the repeated-start read of the result; a read whose command a
reset or the power-fail warning has ended has none (R527, R529; 18 R543). -/
def execI2cRecord (addr : BitVec 7) (seq : Option (BitVec 48)) (s : State) : Outcome :=
  match seq with
  | some q => onAddr addr (fun s => { s with mg := { s.mg with i2cSeq := some q } }) s
  | none => onI2c addr .record (fun s =>
      match s.mg.i2cSeq with
      | some q => i2cRecord q { s with mg := { s.mg with i2cSeq := none } }
      | none => i2cResult [] s) s

/-- RESET 0x5A 0xA5; other argument bytes are ignored. -/
def execI2cReset (addr : BitVec 7) (a b : Byte) (s : State) : Outcome :=
  onI2c addr .reset (fun s => if a = 0x5A ∧ b = 0xA5 then commandReset (i2cResult [] s) else i2cResult [] s) s

/-- SLOT a: 0 A, 1 B; the slot is active for the next boot. -/
def execI2cSlot (addr : BitVec 7) (a : Byte) (s : State) : Outcome :=
  onI2c addr .slot (fun s =>
    let s := if a = 0 ∨ a = 1 then
        { s with mg := { s.mg with stored := { s.mg.stored with slotB := decide (a = 1) } } }
      else s
    i2cResult [] s) s

/-! ### The TAP (R528) -/

/-- Bits through a one-bit register that captures 0. -/
def bypassBits (tdi : List Bool) : List Bool := (false :: tdi).take tdi.length

/-- Bits through a register that has captured some. -/
def shiftBits (captured tdi : List Bool) : List Bool := (captured ++ tdi).take tdi.length

/-- The low bits of a word, first bit first. -/
def lowBits (n : Nat) (v : Word) : List Bool := (List.range n).map fun i => v.getLsbD i

/-- An instruction stands in the instruction register; it says what drives the pins, and bits leave at TDO. -/
def tapOut (ir : TapIr) (pins : JtagPins) (bits : List Bool) (s : State) : State :=
  emit (.tdo bits) { s with tap := { s.tap with ir := ir, pins := pins } }

def execBypass (tdi : List Bool) (s : State) : Outcome := .next (tapOut .bypass .functional (bypassBits tdi) s)

/-- IDCODE: version 1, part 0x0256, manufacturer 0x4D3 and bit 0 set. -/
def execIdcode (tdi : List Bool) (s : State) : Outcome :=
  .next (tapOut .idcode .functional (shiftBits (lowBits 32 0x102569A7) tdi) s)

/-- SAMPLE/PRELOAD: the pins are captured and shifted out while the boundary register is loaded. -/
def execSamplePreload (pins preload : List Bool) (s : State) : Outcome :=
  .next (tapOut .sample .functional pins { s with tap := { s.tap with boundary := preload } })

/-- EXTEST: the boundary register drives the pins. -/
def execExtest (pins preload : List Bool) (s : State) : Outcome :=
  .next (tapOut .extest .boundary pins { s with tap := { s.tap with boundary := preload } })

def execClamp (tdi : List Bool) (s : State) : Outcome := .next (tapOut .clamp .boundary (bypassBits tdi) s)
def execHighz (tdi : List Bool) (s : State) : Outcome := .next (tapOut .highz .highz (bypassBits tdi) s)

/-- A private instruction 0x20–0x2F: BYPASS outside SERVICE; in SERVICE the spec does not say what it does. -/
def execJtagPrivate (code : BitVec 4) (tdi : List Bool) (s : State) : Outcome :=
  if s.mg.stored.lc = .service then .refused .privateJtag else .next (tapOut (.priv code) .functional (bypassBits tdi) s)

end Sys2Proof.Machine
end

