-- ==== Sys2Proof/Machine/Entry.lean ====
section
/-! DEFINITION. Taking an exception, machine checks and the DEBUG interrupt (10 R331–R338, R346–R348). -/

namespace Sys2Proof.Machine

/-- The vector word is fetched and the handler begins; a word that is not CODE, or a fetch that faults, is VEC_BAD. A
fetch that waits for another node leaves the context as old: the exception stays pending (R330). -/
def takeVector (c : CtxId) (e : Entry) (old : Ctx) (s : State) : State :=
  let s := waitLoads c s
  let x := s.ctx c
  let level := entryLevel x.cstat e.trap.vec
  let s := s.setCtx c { x.entered e with cstat := x.cstat.handler level, msh := none }
  match loadVa c .load (vectorVa level e.trap.vec) s with
  | .ok w s =>
    if w.1.ty = Ty.code then s.modCtx c fun y => { y with pc := w.1.val }
    else faulted c Cause.vecBad 0 s
  | .trap _ s => faulted c Cause.vecBad 0 s
  | .wait on s => leave c .stalled on (s.setCtx c old)

/-- An exception is entered, or the context enters FAULTED (R331, R346, R347, R370); old: the context with the exception
pending. -/
def enter (c : CtxId) (e : Entry) (old : Ctx) (s : State) : State :=
  if (s.ctx c).cstat.shadow then faulted c e.trap.cause e.trap.vec (s.modCtx c fun x => { x with raised := none })
  else if e.trap.vec = 0 ∨ (e.trap.vec = 2 ∧ (handleOf s c).isSome) then
    faulted c e.trap.cause 0 (s.modCtx c fun x => x.entered e)
  else takeVector c e old s

/-- A machine check that waits is taken at a boundary, before a raised synchronous exception, which is raised again when its
instruction is re-executed (R330, R336, R349); none where there is none or no boundary. -/
def takeMcheck (c : CtxId) (s : State) : Option State :=
  let x := s.ctx c
  match x.mcheck with
  | [] => none
  | (k, w1) :: rest =>
    if atBoundary x then
      let s := unstall c s
      let old := s.ctx c
      let s := s.modCtx c fun x => { x with raised := none, mcheck := rest }
      some (enter c (asyncEntry (s.ctx c) 32 k w1) old s)
    else none

/-- EXCEPTION_ENTRY: a machine check that waits, or the raised synchronous exception of the running context (R330). -/
def execExceptionEntry (c : CtxId) (s : State) : Outcome :=
  let x := s.ctx c
  .next (match takeMcheck c s with
    | some t => t
    | none =>
      match x.raised with
      | some r => if x.st = .running then enter c r.entry x s else s
      | none => s)

/-- MACHINE_CHECK: CSTAT, and any condition found while SHADOW is 1, puts the context in FAULTED (R337); otherwise MCHECK is
taken at once, or waits for the next boundary behind those found before it (R330, R336). -/
def execMachineCheck (c : CtxId) (what : McheckAt) (s : State) : Outcome :=
  .next (
    if (s.ctx c).st = .empty then s
    else
      match mcheckLose c what s with
      | none => s
      | some (k, t) =>
        let y := t.ctx c
        if what = .cstat then faulted c Cause.cstatEcc 0 t
        else if y.cstat.shadow then faulted c (if k = 0x74 then Cause.rsEcc else Cause.cstatEcc) 0 t
        else
          let (v, t) := t.draw
          let t := t.modCtx c fun x => { x with mcheck := x.mcheck ++ [(k, ⟨Ty.poison, v⟩)] }
          (takeMcheck c t).getD t)

/-- DEBUG_INTERRUPT: a pending request is taken when IE is 1 and neither a machine check nor a synchronous exception is before
it (R330, R336, R338). -/
def execDebugInterrupt (c : CtxId) (s : State) : Outcome :=
  let x := s.ctx c
  .next (
    if x.dbg && x.cstat.ie && x.raised.isNone && x.mcheck.isEmpty && atBoundary x then
      let s := unstall c s
      let old := s.ctx c
      let s := s.modCtx c fun x => { x with dbg := false }
      enter c (asyncEntry (s.ctx c) 33 Cause.debugReq TWord.unset) old s
    else s)

end Sys2Proof.Machine
end

