-- ==== Sys2Proof/Machine/CustomerCode.lean ====
section
/-! DEFINITION. Customer instructions: a microword, and the run from dispatch to END (11 R358, R360–R370; 08 R294, R295). -/

namespace Sys2Proof.Machine

/-- The cycles of an access to the word at va, where the spec gives them: through an entry of the DTLB, a hit in the L1 D or in
the lantern L2 (Table 13-2). -/
def accCycles (c : CtxId) (va : Word) (s : State) : Option (Nat × MWord) :=
  let k := s.core (coreOf c)
  match k.dtlb.find? fun t => t.hits (s.ctx c).asid va with
  | none => none
  | some t =>
    let pa := t.pa va
    let ln := lineNo pa
    let i := pa.toNat / 4 % 16
    let l2 := s.l2 (lanOf c) ln
    if s.strike ≠ .none ∨ regionOf s pa ≠ .data then none
    else
      match l1Find k.l1d ln with
      | some x =>
        if x.keyErr ∨ Tab.get CellErr.clean x.errs i = .uncorr then none else some (3, lineWord x.words i)
      | none => if l2.st = .I then none else some (20, lineWord (overlay k.merge ln l2.words) i)

/-- The cycles of a load, with those of a redirect (R300, R306); none: the spec does not give them. -/
def loadCycles (c : CtxId) (va : Word) (s : State) : Option Nat :=
  match accCycles c va s with
  | none => none
  | some (n, w) => if w.ty = Ty.fwd then (accCycles c w.val s).map fun m => n + 12 + m.1 else some n

/-- The cycles of an exchange: 24 where the line is in M (R304). -/
def casCycles (c : CtxId) (va : Word) (s : State) : Option Nat :=
  match (s.core (coreOf c)).dtlb.find? fun t => t.hits (s.ctx c).asid va with
  | some t => if (s.l2 (lanOf c) (lineNo (t.pa va))).st = .M ∧ s.strike = .none then some 24 else none
  | none => none

/-- A value is on its way to MDR (R358): for the cycles that the spec gives, or for a free number (log entry 1). -/
def setMdr (c : CtxId) (n : Option Nat) (v : TWord) (s : State) : State :=
  let (n, s) : Nat × State := match n with
    | some n => (n, s)
    | none => let (v, s) := s.draw; (v.toNat, s)
  setMicro c (fun u => { u with mdr := v, late := n }) s

/-- The memory operation (R358). -/
def microMem (c : CtxId) (w : Mword) (ma md : Marked) (s : State) : Res Unit :=
  let va := ma.1.val
  let s₀ := s
  let loaded (n : Option Nat) (v : TWord) (s : State) : Res Unit := .ok () (setMdr c n v s)
  match w.mem with
  | 1 => (loadBase c ma.1 va s).bind fun r s => loaded (loadCycles c va s₀) r.t s
  | 2 =>
    (checkCarry md.1 s).bind fun _ s =>
      (checkBase (privOf c s) ma.1 s).bind fun _ s =>
        (checkMark c md s).bind fun _ s =>
          (checkClass (privOf c s) false md.1 s).bind fun _ s =>
            (checkDeref ma.1 va s).bind fun _ s => storeWord c ⟨freeBase ma.1, false⟩ va md.1 s
  | 3 => (loadBase c ma.1 va s).bind fun r s => loaded (loadCycles c va s₀) (TWord.fix (r.tag.setWidth 32)) s
  | 4 =>
    let e := (s.ctx c).micro.mdr
    (checkUse e s).bind fun _ s =>
      (checkBase (privOf c s) ma.1 s).bind fun _ s =>
        (checkCarry md.1 s).bind fun _ s =>
          (checkMark c md s).bind fun _ s =>
            (checkClass (privOf c s) false md.1 s).bind fun _ s =>
              (checkDeref ma.1 va s).bind fun _ s => (drainAll c 8 s).bind fun _ s =>
                (rmwTarget c ⟨freeBase ma.1, false⟩ va md.1 s).bind fun t s =>
                  (rmwDo c md.1 (fun old => decide (old = e)) t s).bind fun old s => loaded (casCycles c va s₀) old s
  | _ => .ok () s

/-- One microword: sources are read before anything is written. -/
def microWord (c : CtxId) (i : Cust) (w : Mword) (s : State) : Res MicroFlow :=
  let s := setMicro c (microBegin w) s
  let (a, s) := microSrc c i w w.asrc s
  let (b, s) := microSrc c i w w.bsrc s
  let (ma, s) := if w.mem = 0 then ((TWord.unset, none), s) else microSrc c i w w.ma s
  let (md, s) := if w.mem = 2 ∨ w.mem = 4 then microSrc c i w w.md s else ((TWord.unset, none), s)
  (microResult w a b s).bind fun r s =>
    (microTag c w a.1 b.1 s).bind fun _ s =>
      (microMem c w ma md s).bind fun _ s =>
        let s := microFlags c w a.1.val b.1.val r.1.val s
        microSeq c i w (setMicro c (fun u => microWrite w r (microMulStart w a.1.val b.1.val u)) s)

/-- What stops a run of microwords within one command: an error at a fetch, counted in microwords from the start of the
command, with whether it is uncorrectable (R352), and a boundary, counted alike, at which the command ends (R369). -/
structure MicroStop where
  ecc : Option (Nat × Bool)
  words : Option Nat

/-- Runs microwords from a microaddress, i of them run so far by this command, until END, a trap, a wait, 65,536 cycles of
the instruction (R369), or the command's end; an instruction that goes on later keeps its place. -/
def microRun (c : CtxId) (i : Cust) (stop : MicroStop) : Nat → Nat → BitVec 13 → State → Res Flow
  | 0, _, _, s => trapN Cause.ucodeFault s
  | n + 1, run, a, s =>
    let hold (u : Micro) (s : State) : State := setMicro c (fun _ => { u with at_ := some a }) s
    let before := (s.ctx c).micro
    if 65536 ≤ before.words then trapN Cause.ucodeFault s
    else
      match (if before.waitm then drainAll c 8 s else .ok () s) with
      | .trap t s => .trap t s
      | .wait on s => .wait on (hold { before with waited := true } s)
      | .ok _ s =>
        let s := if before.waitm then setMicro c (fun u => microCycles (u.late - 1) { u with waitm := false }) s else s
        if stop.words = some run then .ok .held (hold (s.ctx c).micro s)
        else if stop.ecc = some (run, true) then cstoreError c a s
        else
          let s := if stop.ecc = some (run, false) then setMicro c (microCycles 1) (cstoreCorrect s) else s
          match ucFetch (s.core (coreOf c)).uc a with
          | none => trapN Cause.ucodeFault s
          | some w =>
            let before := (s.ctx c).micro
            match microWord c i w s with
            | .trap t s => .trap t s
            | .wait on s => .wait on (hold { before with waited := true } s)
            | .ok .done s => microEnd c i s
            | .ok (.go b) s => microRun c i stop n (run + 1) b (setMicro c (fun u => { u with words := u.words + 1 }) s)

/-- The instruction starts, or goes on where it waited. The cycles that it has waited are not stated: they are a free number,
and the products in flight have moved on by as many (log entry 1). -/
def custBody (i : Cust) (entry : BitVec 16) (stop : MicroStop) (c : CtxId) (s : State) : Res Flow :=
  (if entry.getLsbD 11 then needPriv c s else .ok () s).bind fun _ s =>
    let x := s.ctx c
    match x.micro.at_ with
    | some a =>
      let (v, s) := if x.micro.waited then s.draw else ((0 : Word), s)
      let s := setMicro c (fun u =>
        { microCycles v.toNat u with at_ := none, waited := false }) s
      microRun c i stop 65537 0 a s
    | none => microRun c i stop 65537 0 (0x1800 + (entry.extractLsb' 0 10).setWidth 13) (setMicro c (fun _ => Micro.start) s)

/-- CUSTOMER_INSTRUCTION (R294, R295, R366); words: the boundary at which the command ends, so that a kill may come there
(R369); none: it runs to its end. A context whose fetch meets an uncorrectable error enters FAULTED at once,
since its core leaves service (Table 11-7). -/
def execCustomerInstruction (iss : Iss) (op : BitVec 3) (cidx rd rs rt : R5) (ecc : Option (Nat × Bool)) (words : Option Nat)
    (s : State) : Outcome :=
  let c := iss.ctx
  let k := coreOf c
  let index := 32 * op.toNat + cidx.toNat
  let entry := (Tab.get none (s.core k).uc.live.disp index).getD 0
  let f : Form := { formR (0x38 + op.setWidth 6) cidx rd rs rt with
    bad := if entry.getLsbD 10 then none else some Cause.custUndef }
  let t := issue f iss (custBody ⟨rd, rs, rt, index⟩ entry ⟨ecc, words⟩) s
  .next (
    if (t.core k).uc.mode = .service then t
    else
      match (t.ctx c).raised with
      | some r => enter c r.entry (t.ctx c) t
      | none => t)

end Sys2Proof.Machine
end

