-- ==== Sys2Proof/Machine/Fp.lean ====
section
/-! DEFINITION. Floating-point instructions (09 Table 09-9, R313, R314; 07 R257). -/

namespace Sys2Proof.Machine

def isFlt (t : Ty) : Bool := t = Ty.flt

/-- An FP register field holds 0–15 (R313). -/
def badFp (l : List R5) : Option (BitVec 8) := if l.any fun f => 16 ≤ f.toNat then some Cause.illEnc else none

def formF (op : BitVec 6) (fn : BitVec 5) (fd fs ft : R5) : Form :=
  { long := some (encR op fd fs ft fn), bad := badFp [fd, fs, ft], fps := [fd, fs, ft] }

/-- The value of an f register of the core's file. -/
def fget (c : CtxId) (f : R5) (s : State) : Word := Tab.get 0 (s.core (coreOf c)).fp f.toNat

/-- A write to an f register sets the dirty bit (R257). -/
def fput (c : CtxId) (f : R5) (v : Word) (s : State) : State :=
  s.modCore (coreOf c) fun k => { k with fp := Tab.set 0 k.fp f.toNat v, fpDirty := true }

/-- A signalling NaN operand traps (R78, R313). -/
def checkF (c : CtxId) (f : R5) (s : State) : Res Unit := checkSnan ⟨Ty.flt, fget c f s⟩ s

/-- An operation of two operands with its flags. -/
def fBinary (op : BitVec 2 → Word → Word → Word × Fflags) (fd fs ft : R5) (c : CtxId) (s : State) : Res Flow :=
  (takeFp c s).bind fun _ s =>
    (checkF c fs s).bind fun _ s =>
      (checkF c ft s).bind fun _ s =>
        let r := op (roundMode c s) (fget c fs s) (fget c ft s)
        .ok .next (raiseFlags c r.2 (fput c fd r.1 s))

def execFadd (iss : Iss) (fd fs ft : R5) (s : State) : Outcome :=
  run (formF 0x20 0 fd fs ft) iss (fBinary f32Add fd fs ft) s
def execFsub (iss : Iss) (fd fs ft : R5) (s : State) : Outcome :=
  run (formF 0x20 1 fd fs ft) iss (fBinary f32Sub fd fs ft) s
def execFmul (iss : Iss) (fd fs ft : R5) (s : State) : Outcome :=
  run (formF 0x20 2 fd fs ft) iss (fBinary f32Mul fd fs ft) s
def execFdiv (iss : Iss) (fd fs ft : R5) (s : State) : Outcome :=
  run (formF 0x20 3 fd fs ft) iss (fBinary f32Div fd fs ft) s
def execFsqrt (iss : Iss) (fd fs : R5) (s : State) : Outcome :=
  run { formF 0x20 4 fd fs 0 with fps := [fd, fs] } iss
    (fun c s => (takeFp c s).bind fun _ s => (checkF c fs s).bind fun _ s =>
      let r := f32Sqrt (roundMode c s) (fget c fs s)
      .ok .next (raiseFlags c r.2 (fput c fd r.1 s))) s
def execFmin (iss : Iss) (fd fs ft : R5) (s : State) : Outcome :=
  run (formF 0x20 5 fd fs ft) iss (fBinary (fun _ x y => (f32MinMax false x y, 0)) fd fs ft) s
def execFmax (iss : Iss) (fd fs ft : R5) (s : State) : Outcome :=
  run (formF 0x20 6 fd fs ft) iss (fBinary (fun _ x y => (f32MinMax true x y, 0)) fd fs ft) s

/-- FMA: fd = fs × ft + fd rounded once. Whether 0 × ∞ + NaN raises the invalid flag is a free value (log entry 1). -/
def execFma (iss : Iss) (fd fs ft : R5) (s : State) : Outcome :=
  run (formF 0x20 7 fd fs ft) iss
    (fun c s => (takeFp c s).bind fun _ s =>
      (checkF c fd s).bind fun _ s => (checkF c fs s).bind fun _ s => (checkF c ft s).bind fun _ s =>
        let r := f32Fma (roundMode c s) (fget c fs s) (fget c ft s) (fget c fd s)
        let (v, s) := if r.2.2 then s.draw else ((0 : Word), s)
        let fl : Fflags := if v.getLsbD 0 then r.2.1 ||| Fflags.invalid else r.2.1
        .ok .next (raiseFlags c fl (fput c fd r.1 s))) s

/-- FNEG, FABS, FMV: no flags and no trap for any operand. -/
def fUnary (op : Word → Word) (fd fs : R5) (c : CtxId) (s : State) : Res Flow :=
  (takeFp c s).bind fun _ s => .ok .next (fput c fd (op (fget c fs s)) s)

def execFneg (iss : Iss) (fd fs : R5) (s : State) : Outcome :=
  run { formF 0x20 8 fd fs 0 with fps := [fd, fs] } iss (fUnary f32Neg fd fs) s
def execFabs (iss : Iss) (fd fs : R5) (s : State) : Outcome :=
  run { formF 0x20 9 fd fs 0 with fps := [fd, fs] } iss (fUnary f32Abs fd fs) s
def execFmv (iss : Iss) (fd fs : R5) (s : State) : Outcome :=
  run { formF 0x22 0 fd fs 0 with fps := [fd, fs] } iss (fUnary id fd fs) s

/-- A comparison into a predicate; quiet: a quiet NaN raises no flag. -/
def fCompare (f : Option Ordering → Bool) (quiet : Bool) (pd : P3) (fs ft : R5) (c : CtxId) (s : State) : Res Flow :=
  (takeFp c s).bind fun _ s =>
    (checkF c fs s).bind fun _ s =>
      (checkF c ft s).bind fun _ s =>
        let o := realCmp (realOfF32 (fget c fs s)) (realOfF32 (fget c ft s))
        putP c pd (f o) (if o = none ∧ !quiet then raiseFlags c Fflags.invalid s else s)

def formFC (fn : BitVec 5) (pd : P3) (fs ft : R5) : Form :=
  { long := some (encR 0x21 (p5 pd) fs ft fn), bad := badFp [fs, ft], fps := [fs, ft] }

def execFeq (iss : Iss) (pd : P3) (fs ft : R5) (s : State) : Outcome :=
  run (formFC 0 pd fs ft) iss (fCompare (fun o => o == some .eq) true pd fs ft) s
def execFlt (iss : Iss) (pd : P3) (fs ft : R5) (s : State) : Outcome :=
  run (formFC 1 pd fs ft) iss (fCompare (fun o => o == some .lt) false pd fs ft) s
def execFle (iss : Iss) (pd : P3) (fs ft : R5) (s : State) : Outcome :=
  run (formFC 2 pd fs ft) iss (fCompare (fun o => o == some .lt || o == some .eq) false pd fs ft) s
def execFun (iss : Iss) (pd : P3) (fs ft : R5) (s : State) : Outcome :=
  run (formFC 3 pd fs ft) iss (fCompare Option.isNone true pd fs ft) s

def execMtf (iss : Iss) (fd rs : R5) (s : State) : Outcome :=
  run { formR 0x22 1 fd rs 0 with names := [rs], bad := badFp [fd], fps := [fd] } iss
    (fun c s => (takeFp c s).bind fun _ s =>
      (checkTy isFlt (opnd c rs s) s).bind fun _ s => .ok .next (fput c fd (opnd c rs s).val s)) s
def execMff (iss : Iss) (rd fs : R5) (s : State) : Outcome :=
  run { formR 0x22 2 rd fs 0 with names := [rd], bad := badFp [fs], fps := [fs] } iss
    (fun c s => (takeFp c s).bind fun _ s => putR c rd ⟨Ty.flt, fget c fs s⟩ s) s
def execCvtif (iss : Iss) (fd rs : R5) (s : State) : Outcome :=
  run { formR 0x22 3 fd rs 0 with names := [rs], bad := badFp [fd], fps := [fd] } iss
    (fun c s => (takeFp c s).bind fun _ s =>
      (checkTy isInt (opnd c rs s) s).bind fun _ s =>
        (floatOf c (opnd c rs s) s).bind fun v s => .ok .next (fput c fd v s)) s
def execCvtfi (iss : Iss) (rd fs : R5) (s : State) : Outcome :=
  run { formR 0x22 4 rd fs 0 with names := [rd], bad := badFp [fs], fps := [fs] } iss
    (fun c s => (takeFp c s).bind fun _ s => (checkF c fs s).bind fun _ s =>
      let r := f32ToInt (roundMode c s) (fget c fs s)
      putR c rd (TWord.fix r.1) (raiseFlags c r.2 s)) s

/-- FLD accepts a FLT word only and opens no delay slot (R307, R314). -/
def execFld (iss : Iss) (fd : BitVec 4) (rs : R5) (d : BitVec 10) (s : State) : Outcome :=
  run { long := some (encM 0x23 ((0 : BitVec 1) ++ fd) rs d), names := [rs], fps := [fd.setWidth 5] } iss
    (fun c s => (takeFp c s).bind fun _ s =>
      let b := opnd c rs s
      (loadBase c b (b.val + disp10 d) s).bind fun w s =>
        (checkTy isFlt w.t s).bind fun _ s => .ok .next (addLoad c (.fp fd.toNat) w.t false s)) s
def execFst (iss : Iss) (fd : BitVec 4) (rs : R5) (d : BitVec 10) (s : State) : Outcome :=
  run { long := some (encM 0x23 ((1 : BitVec 1) ++ fd) rs d), names := [rs], fps := [fd.setWidth 5] } iss
    (fun c s => (takeFp c s).bind fun _ s =>
      let b := opnd c rs s
      storeBody c ⟨Ty.flt, fget c (fd.setWidth 5) s⟩ b (b.val + disp10 d) (fun s => .ok () s) s) s

end Sys2Proof.Machine
end

