-- ==== Sys2Proof/Machine/Messages.lean ====
section
/-! DEFINITION. TSUB, MSEND, XLD and XST (09 Table 09-11; 06 R219, R220; 14 R449, R450). -/

namespace Sys2Proof.Machine

def execTsub (iss : Iss) (rd rs : R5) (s : State) : Outcome :=
  run { formR 0x26 0 rd rs 0 with names := [rd, rs] } iss
    (fun c s =>
      let w := opnd c rs s
      (checkTy (· == Ty.rec_) w s).bind fun _ s =>
        (objHead c w s).bind fun h s =>
          if hdrLen h.2.val ≠ 12 ∨ hdrSub h.2.val ≠ 0xC3 then trapW Cause.badPayload h.2.t s
          else if h.2.imm then trapW Cause.immStore h.2.t s
          else
            (drainAll c 8 s).bind fun _ s =>
              let (v, s) := submitJob c h.1 s
              putR c rd v s) s

/-- The words of an object's body as they travel. MSEND is no carrier of UNSET, of POISON or of a reserved TYPE (R51, R62,
R64). -/
def objectWords (c : CtxId) : Nat → Word → State → Res (List MWord)
  | 0, _, s => .ok [] s
  | n + 1, va, s =>
    (loadVa c .load va s).bind fun w s =>
      (checkUse w.1.t s).bind fun _ s =>
        (objectWords c n (va + 4) s).bind fun l s => .ok (remoteForm w.1.t :: l) s

def execMsend (iss : Iss) (rd rs rt : R5) (s : State) : Outcome :=
  run (formR 0x27 0 rd rs rt (some (0x0E, 0))) iss
    (fun c s =>
      let a := opnd c rs s
      let w := opnd c rt s
      (checkFix a s).bind fun _ s =>
        if a.val.extractLsb' 10 6 ≠ 0 then trapW Cause.badPayload a s
        else
          (checkTy isSendable w s).bind fun _ s =>
            (objHead c w s).bind fun h s =>
              if 63 < hdrLen h.2.val then trapA Cause.bounds h.1 w s
              else
                (objectWords c (hdrLen h.2.val) (h.1 + 4) s).bind fun body s =>
                  (drainAll c 8 s).bind fun _ s =>
                    if 8 ≤ (s.core (coreOf c)).send.length then putR c rd (TWord.bool false) s
                    else
                      let m : SendMsg :=
                        { node := a.val.extractLsb' 16 16, ring := a.val.extractLsb' 0 10,
                          crossing := (handleOf s c).map fun h => (s.event (hSlot h)).crossing, ty := w.ty,
                          words := h.2.t.m :: body, owner := handleOf s c, ctx := c }
                      putR c rd (TWord.bool true)
                        (s.modCore (coreOf c) fun k => { k with send := k.send ++ [m] })) s

/-- The two words of an EXT handle cell (Table 02-6). -/
def extCell (c : CtxId) (w : TWord) (s : State) : Res (MWord × MWord) :=
  if w.val.extractLsb' 0 3 ≠ 0 then trapA Cause.align w.val w s
  else
    (loadFwd c .load w.val s).bind fun a s =>
      (checkTy (· == Ty.raw) a.1.t s).bind fun _ s =>
        (loadFwd c .load (w.val + 4) s).bind fun b s => .ok (a.1, b.1) s

/-- XLD: the request leaves for the node that the handle names, and the context waits for the reply. -/
def execXld (iss : Iss) (rd rs rt : R5) (s : State) : Outcome :=
  let f := formR 0x27 1 rd rs rt (some (0x0E, 1))
  let x := s.ctx iss.ctx
  run f iss
    (fun c s =>
      let w := opnd c rs s
      let i := opnd c rt s
      (checkTy (· == Ty.ext) w s).bind fun _ s =>
        (checkFix i s).bind fun _ s =>
          (extCell c w s).bind fun e s =>
            (drainAll c 8 s).bind fun _ s =>
              let at_ : Raised :=
                match f.enc iss x with
                | some (enc, len) =>
                  ⟨mkTrap 0 0 TWord.unset, x.pc, enc, x.cstat.ldf, x.msh.map fun _ => x.pc + BitVec.ofNat 32 len⟩
                | none => ⟨mkTrap 0 0 TWord.unset, x.pc, 0, x.cstat.ldf, none⟩
              let va := e.2.val + 4 + (i.val <<< 2)
              let wait : XldWait := ⟨regLoc (s.ctx c) rd, va, at_, x.cstat.gcnt, i⟩
              .ok (.away .stalled .xld) (request (fun id => ⟨id, .xld, lanOf c, some c, 0, some wait⟩)
                (e.1.val.extractLsb' 16 16) 0x08 [e.1, e.2, i.m] [] s)) s

/-- XST is posted: nothing waits for its acknowledgement. -/
def execXst (iss : Iss) (rd rs rt : R5) (s : State) : Outcome :=
  run (formR 0x27 2 rd rs rt (some (0x0E, 2))) iss
    (fun c s =>
      let v := opnd c rd s
      let w := opnd c rs s
      let i := opnd c rt s
      (checkCarry v s).bind fun _ s =>
        (checkTy (· == Ty.ext) w s).bind fun _ s =>
          (checkFix i s).bind fun _ s =>
            (checkClass (privOf c s) false v s).bind fun _ s =>
              (extCell c w s).bind fun e s =>
                (drainAll c 8 s).bind fun _ s =>
                  .ok .next (requestWrite 0 (e.1.val.extractLsb' 16 16) 0x09 [e.1, e.2, i.m, remoteForm v] [] s)) s

end Sys2Proof.Machine
end

