-- ==== Sys2Proof/Machine/System.lean ====
section
/-! DEFINITION. System instructions (09 Table 09-13, R321, R323; 07 R249, R250, R263, R264; 10 R344, R345; 11 R377). -/

namespace Sys2Proof.Machine

/-! ### Control registers (Table 07-3) -/

/-- The word of a control register; the numbers 0x09 to 0x1F read RAW 0 (R249). -/
def cregRead (c : CtxId) (n : R5) (s : State) : TWord :=
  let x := s.ctx c
  match n.toNat with
  | 0 => TWord.raw x.cstat.pack
  | 1 => x.epc
  | 2 => x.estat
  | 3 => TWord.raw x.xbank.pack
  | 4 => x.savep
  | 5 => x.saveb
  | 6 => x.ssp
  | 7 => TWord.raw x.wptr.pack
  | 8 => TWord.raw (ctxidWord s.node c)
  | _ => TWord.raw 0

/-- "None" at USER: EPC, ESTAT, XBANK and SSP. -/
def cregHidden (n : R5) : Bool := n = 1 || n = 2 || n = 3 || n = 6

def execMfc (iss : Iss) (rd cr : R5) (s : State) : Outcome :=
  run { long := some (encR 0x2C rd cr 0 0), zek := some (encZR 0x0C rd cr 0 0), names := [rd] } iss
    (fun c s =>
      if privOf c s = 0 && cregHidden cr then trapN Cause.privOp s else putR c rd (cregRead c cr s) s) s

/-- CSTAT after an MTC of a value at its level, MODE apart (R250, Table 07-4). -/
def Cstat.written (x : Cstat) (v : Cstat) : Cstat :=
  if x.priv = 0 then { x with rm := v.rm, fflags := v.fflags, rsmode := x.rsmode || v.rsmode }
  else { x with priv := v.priv, ie := v.ie, rsmode := v.rsmode, rm := v.rm, fflags := v.fflags, zbank := v.zbank }

/-- MTC CSTAT: PRIV_ESC, then the rule of R278 on a change of MODE, which takes effect one instruction later (R293). Which of the two
an instruction that does both raises is not stated (Table 09-1 has no row for PRIV_ESC); here PRIV_ESC (DESIGN CHOICE, log entry
111). -/
def writeCstat (c : CtxId) (w : TWord) (s : State) : Res Flow :=
  let x := s.ctx c
  let v := Cstat.unpack w.val
  if x.cstat.priv < v.priv then trapW Cause.privEsc w s
  else if v.mode ≠ x.cstat.mode ∧ 1 < x.cstat.gcnt.toNat then trapW Cause.guardRule w s
  else
    .ok .next (s.modCtx c fun x =>
      { x with cstat := x.cstat.written v, msh := if v.mode ≠ x.cstat.mode then some v.mode else none })

/-- A SAVE word aligned to a line (R249). -/
def checkSaveWord (w : TWord) (s : State) : Res Unit :=
  (checkTy (· == Ty.save) w s).bind fun _ s =>
    if w.val.extractLsb' 0 6 ≠ 0 then trapW Cause.badPayload w s else .ok () s

def cregWrite (c : CtxId) (n : R5) (w : TWord) (s : State) : Res Flow :=
  let put (f : Ctx → Ctx) (s : State) : Res Flow := .ok .next (s.modCtx c f)
  let plain (f : State → Res Flow) : Res Flow := (checkTy (fun t => t == Ty.raw || t == Ty.fix) w s).bind fun _ s => f s
  match n.toNat with
  | 0 => plain (writeCstat c w)
  | 1 => (checkUse w s).bind fun _ s => put (fun x => { x with epc := w }) s
  | 2 => (checkUse w s).bind fun _ s => put (fun x => { x with estat := w }) s
  | 3 => plain (put fun x => { x with xbank := Xbank.unpack w.val })
  | 4 => (checkSaveWord w s).bind fun _ s => put (fun x => { x with savep := w }) s
  | 5 => (checkSaveWord w s).bind fun _ s => put (fun x => { x with saveb := w }) s
  | 6 => plain (put fun x => { x with ssp := TWord.raw w.val })
  | 7 => plain (put fun x => { x with wptr := Wptr.unpack w.val })
  | _ => .ok .next s

/-- MTC; at USER only CSTAT is written, and the unassigned numbers ignore a write at every level (R249, Table 07-3). -/
def execMtc (iss : Iss) (cr rs : R5) (s : State) : Outcome :=
  run { long := some (encR 0x2C cr rs 0 1), zek := some (encZR 0x0C cr rs 0 1), names := [rs] } iss
    (fun c s =>
      if privOf c s = 0 ∧ 1 ≤ cr.toNat ∧ cr.toNat ≤ 8 then trapN Cause.privOp s
      else cregWrite c cr (opnd c rs s) s) s

/-! ### XBANK (R263, R264, Table 07-10) -/

/-- Whether the executing context reaches a resident context of its core. -/
def xbReaches (c t : CtxId) (write : Bool) (s : State) : Bool :=
  let p := (s.ctx t).cstat.priv
  c = t || privOf c s = 2 || p = 0 || (p = 1 && !write)

/-- Registers of a space. -/
def xbRange (space : BitVec 3) : Nat :=
  match space.toNat with
  | 0 => 128 | 1 => 8 | 2 => 4 | 3 => 8 | 4 => 16 | 5 => 16 | 6 => 16 | _ => 0

/-- The context that XBANK selects, after the checks of R263. -/
def xbTarget (c : CtxId) (write : Bool) (s : State) : Res CtxId :=
  (needPriv c s).bind fun _ s =>
    let b := (s.ctx c).xbank
    let t := ctxOf (coreOf c) b.ctx
    let bad : Bool := !xbReaches c t write s || decide (xbRange b.space ≤ b.index.toNat) ||
      (write && decide (b.space = 6) && (decide (privOf c s ≠ 2) || decide ((s.ctx t).rs.length ≤ b.index.toNat)))
    if bad then trapN Cause.xbReach s else .ok t s

/-- With INC set, INDEX increases by 1 after the access. -/
def xbStep (c : CtxId) (s : State) : State :=
  s.modCtx c fun x => if x.xbank.inc then { x with xbank := { x.xbank with index := x.xbank.index + 1 } } else x

/-- A return-stack entry as a word: the address with the checked bit in [0]. -/
def rsWord (e : Word × Bool) : Word := (e.1 &&& 0xFFFFFFFE) ||| (bit e.2).setWidth 32

def xbRead (c t : CtxId) (s : State) : TWord :=
  let b := (s.ctx c).xbank
  let i := b.index.toNat
  let x := s.ctx t
  match b.space.toNat with
  | 0 => x.readLoc (.ring i)
  | 1 => x.readLoc (.glob i)
  | 2 => Tab.get TWord.unset x.b i
  | 3 => TWord.bool (x.pred (BitVec.ofNat 3 i))
  | 4 => x.readLoc (.shad i)
  | 5 => ⟨Ty.flt, Tab.get 0 (s.core (coreOf c)).fp i⟩
  | 6 => TWord.raw (match x.rs[i]? with | some e => rsWord e | none => 0)
  | _ => TWord.unset

def execXget (iss : Iss) (rd : R5) (s : State) : Outcome :=
  run { formR 0x2C 2 rd 0 0 with names := [rd], all := true } iss
    (fun c s => (xbTarget c false s).bind fun t s => putR c rd (xbRead c t s) (xbStep c s)) s

/-- A register of another context is written; a load that the target waits for still arrives last (Table 07-13). -/
def xbPut (c t : CtxId) (l : Loc) (w : TWord) (s : State) : State :=
  s.modCtx t fun x =>
    let y := x.writeLoc w l
    if c = t then { y with loads := x.loads.filter fun p => p.loc ≠ l } else y

def xbWrite (c t : CtxId) (w : TWord) (s : State) : Res Unit :=
  let b := (s.ctx c).xbank
  let i := b.index.toNat
  match b.space.toNat with
  | 0 => .ok () (xbPut c t (.ring i) w s)
  | 1 => .ok () (xbPut c t (.glob i) w s)
  | 2 => .ok () (s.modCtx t fun x => { x with b := Tab.set TWord.unset x.b i w })
  | 3 =>
    if w.ty ≠ Ty.bool then trapW Cause.tagMismatch w s
    else .ok () (s.modCtx t fun x => x.setPred (BitVec.ofNat 3 i) (w.val.getLsbD 0))
  | 4 => .ok () (xbPut c t (.shad i) w s)
  | 5 =>
    if w.ty ≠ Ty.flt then trapW Cause.tagMismatch w s
    else .ok () (s.modCore (coreOf c) fun k => { k with fp := Tab.set 0 k.fp i w.val, fpDirty := true })
  | 6 => .ok () (s.modCtx t fun x => { x with rs := x.rs.set i (w.val &&& 0xFFFFFFFE, w.val.getLsbD 0) })
  | _ => .ok () s

def execXput (iss : Iss) (rs : R5) (s : State) : Outcome :=
  run { formR 0x2C 3 0 rs 0 with names := [rs], all := true } iss
    (fun c s =>
      let w := opnd c rs s
      (xbTarget c true s).bind fun t s => (xbWrite c t w s).bind fun _ s => .ok .next (xbStep c s)) s

/-! ### Return from exception, system call, breakpoint -/

/-- The context after a successful RFE (R345). -/
def Ctx.rfe (x : Ctx) : Ctx :=
  let e := x.estat.val
  { x with
    pc := x.epc.val, msh := none,
    cstat := { x.cstat with
      priv := e.extractLsb' 0 2, mode := e.getLsbD 2, ie := e.getLsbD 3, gcnt := e.extractLsb' 4 3,
      gpred := e.extractLsb' 7 3, ginv := e.getLsbD 10, rpt := e.getLsbD 12, ldf := false, shadow := false } }

/-- RFE with the checks of Table 10-5. -/
def execRfe (iss : Iss) (s : State) : Outcome :=
  run { formZero 0x2E 0 with zek := some (encZR 0x0C 0 0 0 3) } iss
    (fun c s =>
      let x := s.ctx c
      (needPriv c s).bind fun _ s =>
        if x.epc.ty ≠ Ty.ret ∧ x.epc.ty ≠ Ty.code then trapW Cause.badTarget x.epc s
        else if x.estat.ty ≠ Ty.raw ∨ x.estat.val.extractLsb' 0 2 = 3 then trapW Cause.badEstat x.estat s
        else if x.cstat.priv < x.estat.val.extractLsb' 0 2 then trapW Cause.privEsc x.estat s
        else .ok .placed (s.modCtx c Ctx.rfe)) s

/-- TRAP n (R329). -/
def execTrap (iss : Iss) (n : BitVec 5) (s : State) : Outcome :=
  run { long := some (encR 0x2E 0 0 n 1), zek := some (encZR 0x0C 0 0 n 2) } iss
    (fun _ s => trapN (0x80 + n.setWidth 8) s) s

def execBrk (iss : Iss) (s : State) : Outcome :=
  run (formZero 0x2E 2) iss (fun _ s => trapN Cause.brk s) s

/-! ### Identity and time -/

/-- The words of Table 11-16. -/
def mcverWord (u : Uc) (n : Nat) : Word :=
  match n with
  | 0 => (0 : BitVec 4) ++ (1 : BitVec 4) ++ Config.romRev ++ Config.romId
  | 1 => if u.patchValid then (1 : BitVec 1) ++ (0 : BitVec 8) ++ BitVec.ofNat 7 u.hooks.length ++ u.patchVersion else 0
  | _ => if u.live.valid then (1 : BitVec 1) ++ u.live.keyid.setWidth 15 ++ u.live.version else 0

def execMcver (iss : Iss) (rd rs : R5) (s : State) : Outcome :=
  run { formR 0x2F 0 rd rs 0 with names := [rd, rs] } iss
    (fun c s =>
      let w := opnd c rs s
      (checkFixTo 2 w s).bind fun _ s =>
        putR c rd (TWord.raw (mcverWord (s.core (coreOf c)).uc w.val.toNat)) s) s

/-- RDTB (R323). -/
def execRdtb (iss : Iss) (rd rs : R5) (s : State) : Outcome :=
  run { formR 0x2F 1 rd rs 0 with names := [rd, rs] } iss
    (fun c s =>
      let w := opnd c rs s
      (checkFixTo 1 w s).bind fun _ s =>
        if w.val = 0 then
          putR c rd ⟨Ty.time, s.time.setWidth 32⟩ (s.modCtx c fun x => { x with rdtb := s.time.extractLsb' 32 32 })
        else putR c rd (TWord.raw (s.ctx c).rdtb) s) s

end Sys2Proof.Machine
end

