-- ==== Sys2Proof/Machine/TaskSwitch.lean ====
section
/-! DEFINITION. Dispatch of a task on a context, and preemption (05 R181, R192, R194; 07 R252, R253, R258, R265, R565). -/

namespace Sys2Proof.Machine

/-- The state at first dispatch (Table 07-12): w0–w6 from the descriptor, everything else as reset leaves it; a
pending DEBUG request of the context stays (R338). -/
def freshCtx (s : State) (i : Nat) (dbg : Bool := false) : Ctx :=
  let t := s.task i
  let base := saveArea s i
  { Ctx.reset with
    st := .runnable, task := some i, pc := t.entry.val, asid := t.asid,
    ring := ((List.range 7).map fun j => (120 + j, t.args.getD j TWord.unset)).filter fun e => e.2 ≠ TWord.unset,
    cstat := { Cstat.reset with priv := t.priv, ie := true, zbank := t.prio }, dbg := dbg,
    saveb := saveWord base, savep := saveWord (base + 0x040) }

/-- The address of TOP of a task's root area (Table 07-7). -/
def topVa (s : State) (i : Nat) : Word := saveArea s i + 0x3F0

/-- The restore: RSTH and RSTL from TOP, at the Lamplighter's own rights. What the frames do not hold stays as the
context has it. -/
def restoreTask (c : CtxId) (i : Nat) (s : State) : Res Unit :=
  (saveLoad c (topVa s i) s).bind fun top s =>
    if top.ty ≠ Ty.save then trapA Cause.saveFmt (topVa s i) top.t s
    else
      (restoreUpper c (setSavep c top.val s)).bind fun _ s => restoreLower c 2 s

/-- A queued task is dispatched on an EMPTY context. A restore that faults ends in FAULTED with nothing restored; one that
waits for memory of another node leaves the task queued. -/
def dispatchOn (c : CtxId) (i : Nat) (s : State) : State :=
  let t := s.task i
  if !t.saved then resched (coreOf c) ((taskRuns i c s).setCtx c (freshCtx s i (s.ctx c).dbg))
  else
    let old := s.ctx c
    let r := s.setCtx c { old with task := some i, asid := t.asid, saveb := saveWord (saveArea s i), cstat := Cstat.reset }
    match restoreTask c i r with
    | .ok _ s => resched (coreOf c) ((taskRuns i c s).modCtx c fun x => { x with st := .runnable, stall := .none })
    | .wait _ s => s.setCtx c old
    | .trap k s =>
      faulted c k.cause 0 ((taskRuns i c s).setCtx c
        { old with task := some i, epc := TWord.unset, estat := TWord.unset, shadow := [(0, TWord.raw k.w0)] })

/-- TASK_DISPATCH: the head of a lantern's queue takes a free context (R192). -/
def execTaskDispatch (l : Lan) (s : State) : Outcome :=
  .next (
    if !llRuns s then s
    else
      match headTask (queueOf s l), freeContext s l with
      | some e, some c => dispatchOn c e.1 s
      | _, _ => s)

/-- The save (R253, R258): the FP frame of an owner with a dirty file first, then SAVEL and SAVEH, then TOP. -/
def saveTask (c : CtxId) (i : Nat) (s : State) : Res Unit :=
  let k := s.core (coreOf c)
  let owner : Bool := (k.fpOwner.map Prod.fst) = some (c.extractLsb' 0 2)
  (if owner ∧ k.fpDirty then writeFp c ((s.ctx c).saveb.val) s else .ok () s).bind fun _ s =>
    let s := (dropFp c s).modCtx c fun x => { x with cstat := { x.cstat with fpa := false } }
    (saveLower c (s.ctx c).pc (s.ctx c).cstat s).bind fun _ s =>
      (saveUpper c s).bind fun _ s =>
        (saveStore c (topVa s i) (s.ctx c).savep s)

/-- Saves the task of a context off the core; none: the save waits, or has ended in FAULTED. -/
def saveOff (c : CtxId) (i : Nat) (s : State) : Option State × State :=
  let s := waitLoads c s
  let x := s.ctx c
  match saveTask c i s with
  | .ok _ t =>
    let st : TaskSt := if (t.task i).st = .waiting then .waiting else .ready
    let t := emptyCtx c (putTask i (fun d => { d with st := st, saved := true, ctx := none }) t)
    (some (bump Cnt.llPreempt t), t)
  | .wait _ t =>
    (none, t.modCtx c fun y => { x with cstat := { x.cstat with fpv := y.cstat.fpv, fpa := y.cstat.fpa } })
  | .trap k t =>
    (none, faulted c k.cause 0 (t.modCtx c fun y => y.entered ⟨k, x.pc, x.pc, 0, false, false, false⟩))

/-- PREEMPTION: a lantern without a free context saves one task of a lower level and dispatches its queue's head. -/
def execPreemption (l : Lan) (s : State) : Outcome :=
  .next (
    if !llRuns s then s
    else
      match headTask (queueOf s l), freeContext s l with
      | some e, none =>
        match firstTaken (onLantern s l e.2.prio) with
        | some (i, t) =>
          match t.ctx with
          | some c =>
            if !savable (s.ctx c) then s
            else
              match saveOff c i s with
              | (some u, _) => dispatchOn c e.1 u
              | (none, u) => u
          | none => s
        | none => s
      | _, _ => s)

end Sys2Proof.Machine
end

