-- ==== Sys2Proof/Machine/Zekief.lean ====
section
/-! DEFINITION. Zekief branches, calls and returns (07 R247, R260, Table 07-9; 09 R324, Table 09-14). -/

namespace Sys2Proof.Machine

/-- BT and BF: PC + 4 × imm16 when xd is BOOL with the value wanted. -/
def zBranch (want : Bool) (xd : R5) (d : BitVec 16) (c : CtxId) (s : State) : Res Flow :=
  let w := opnd c xd s
  (checkTy (· == Ty.bool) w s).bind fun _ s =>
    if decide (w.val = 1) = want then .ok (.jump ((s.ctx c).pc + (d.signExtend 32 <<< 2))) s else .ok .next s

def execZekiefBt (iss : Iss) (xd : R5) (d : BitVec 16) (s : State) : Outcome :=
  run { long := none, zek := some (encZI 0x07 xd 0 d), names := [xd] } iss (zBranch true xd d) s
def execZekiefBf (iss : Iss) (xd : R5) (d : BitVec 16) (s : State) : Outcome :=
  run { long := none, zek := some (encZI 0x08 xd 0 d), names := [xd] } iss (zBranch false xd d) s

/-- A target in units of 4 bytes from the instruction (R324). -/
def zTarget (c : CtxId) (d : BitVec 26) (s : State) : Word := (s.ctx c).pc + (d.signExtend 32 <<< 2)

def execZekiefJ (iss : Iss) (d : BitVec 26) (s : State) : Outcome :=
  run { long := none, zek := some (encZJ 0x09 d) } iss (fun c s => .ok (.jump (zTarget c d s)) s) s

/-- ZCALL writes the return address as a RET word into x31 and pushes the return stack; the ring is not rotated (R247).
The rule of R335 on calls is that of CALL, its native counterpart. -/
def execZcall (iss : Iss) (d : BitVec 26) (s : State) : Outcome :=
  run { long := none, zek := some (encZJ 0x0A d), names := [31] } iss
    (fun c s => (notOnShadow c s).bind fun _ s =>
      let ret := (s.ctx c).pc + 4
      let target := zTarget c d s
      (pushReturn c ret s).bind fun r s =>
        .ok (.jump target) (s.modCtx c fun x =>
          let y := { x with rs := r.1, ssp := r.2.1, wptr := { x.wptr with unchk := r.2.2 } }
          y.setReg 31 ⟨Ty.ret, ret⟩)) s

/-- ZRET reads x31 and is checked as a native RET is, without the window checks (Table 07-9). -/
def execZret (iss : Iss) (s : State) : Outcome :=
  run { long := none, zek := some (encZR 0x0B 0 0 0 0), names := [31] } iss
    (fun c s => (notOnShadow c s).bind fun _ s =>
      let w := opnd c 31 s
      if w.ty ≠ Ty.ret then trapW Cause.badTarget w s
      else
        (checkReturn c w s).bind fun r s =>
          .ok (.jump w.val) (s.modCtx c fun x =>
            { x with rs := r.1, ssp := r.2.1, wptr := { x.wptr with unchk := r.2.2 } })) s

end Sys2Proof.Machine
end

