-- ==== Sys2Proof/Machine/Dispatch.lean ====
section
/-! DEFINITION. Which meaning each command has. -/

namespace Sys2Proof.Machine

def exec (i : Instr) (s : State) : Host.Outcome State Fault Refusal :=
  match i with
  | .add iss rd rs rt => Sys2Proof.Machine.execAdd iss rd rs rt s
  | .sub iss rd rs rt => Sys2Proof.Machine.execSub iss rd rs rt s
  | .mul iss rd rs rt => Sys2Proof.Machine.execMul iss rd rs rt s
  | .div iss rd rs rt => Sys2Proof.Machine.execDiv iss rd rs rt s
  | .rem iss rd rs rt => Sys2Proof.Machine.execRem iss rd rs rt s
  | .neg iss rd rs => Sys2Proof.Machine.execNeg iss rd rs s
  | .abs iss rd rs => Sys2Proof.Machine.execAbs iss rd rs s
  | .and iss rd rs rt => Sys2Proof.Machine.execAnd iss rd rs rt s
  | .or iss rd rs rt => Sys2Proof.Machine.execOr iss rd rs rt s
  | .xor iss rd rs rt => Sys2Proof.Machine.execXor iss rd rs rt s
  | .andn iss rd rs rt => Sys2Proof.Machine.execAndn iss rd rs rt s
  | .not iss rd rs => Sys2Proof.Machine.execNot iss rd rs s
  | .shl iss rd rs rt => Sys2Proof.Machine.execShl iss rd rs rt s
  | .shr iss rd rs rt => Sys2Proof.Machine.execShr iss rd rs rt s
  | .sar iss rd rs rt => Sys2Proof.Machine.execSar iss rd rs rt s
  | .mov iss rd rs => Sys2Proof.Machine.execMov iss rd rs s
  | .movp iss rd ps => Sys2Proof.Machine.execMovp iss rd ps s
  | .dadj iss rd rs rt pd => Sys2Proof.Machine.execDadj iss rd rs rt pd s
  | .addi iss rd rs imm => Sys2Proof.Machine.execAddi iss rd rs imm s
  | .addq iss rd imm => Sys2Proof.Machine.execAddq iss rd imm s
  | .andi iss rd rs imm => Sys2Proof.Machine.execAndi iss rd rs imm s
  | .shi iss rd rs k n => Sys2Proof.Machine.execShi iss rd rs k n s
  | .movi iss rd imm => Sys2Proof.Machine.execMovi iss rd imm s
  | .movq iss rd imm => Sys2Proof.Machine.execMovq iss rd imm s
  | .nop iss => Sys2Proof.Machine.execNop iss s
  | .eq iss pd rs rt => Sys2Proof.Machine.execEq iss pd rs rt s
  | .ne iss pd rs rt => Sys2Proof.Machine.execNe iss pd rs rt s
  | .lt iss pd rs rt => Sys2Proof.Machine.execLt iss pd rs rt s
  | .le iss pd rs rt => Sys2Proof.Machine.execLe iss pd rs rt s
  | .gt iss pd rs rt => Sys2Proof.Machine.execGt iss pd rs rt s
  | .ge iss pd rs rt => Sys2Proof.Machine.execGe iss pd rs rt s
  | .eqi iss pd rs rt => Sys2Proof.Machine.execEqi iss pd rs rt s
  | .pand iss pd ps pt => Sys2Proof.Machine.execPand iss pd ps pt s
  | .por iss pd ps pt => Sys2Proof.Machine.execPor iss pd ps pt s
  | .pxor iss pd ps pt => Sys2Proof.Machine.execPxor iss pd ps pt s
  | .pandn iss pd ps pt => Sys2Proof.Machine.execPandn iss pd ps pt s
  | .pnot iss pd ps => Sys2Proof.Machine.execPnot iss pd ps s
  | .pset iss pd rs => Sys2Proof.Machine.execPset iss pd rs s
  | .ld iss rd rs d => Sys2Proof.Machine.execLd iss rd rs d s
  | .st iss rd rs d => Sys2Proof.Machine.execSt iss rd rs d s
  | .lbs iss rd rs rt => Sys2Proof.Machine.execLbs iss rd rs rt s
  | .lbu iss rd rs rt => Sys2Proof.Machine.execLbu iss rd rs rt s
  | .lhs iss rd rs rt => Sys2Proof.Machine.execLhs iss rd rs rt s
  | .lhu iss rd rs rt => Sys2Proof.Machine.execLhu iss rd rs rt s
  | .sb iss rd rs rt => Sys2Proof.Machine.execSb iss rd rs rt s
  | .sh iss rd rs rt => Sys2Proof.Machine.execSh iss rd rs rt s
  | .ldx iss rd rs rt => Sys2Proof.Machine.execLdx iss rd rs rt s
  | .stx iss rd rs rt => Sys2Proof.Machine.execStx iss rd rs rt s
  | .ldp iss rd rs d => Sys2Proof.Machine.execLdp iss rd rs d s
  | .stp iss rd rs d => Sys2Proof.Machine.execStp iss rd rs d s
  | .ldB iss r b d => Sys2Proof.Machine.execLdB iss r b d s
  | .stB iss r b d => Sys2Proof.Machine.execStB iss r b d s
  | .ldpB iss r b d => Sys2Proof.Machine.execLdpB iss r b d s
  | .stpB iss r b d => Sys2Proof.Machine.execStpB iss r b d s
  | .cas iss rd rs rt => Sys2Proof.Machine.execCas iss rd rs rt s
  | .xchg iss rd rs rt => Sys2Proof.Machine.execXchg iss rd rs rt s
  | .car iss rd rs => Sys2Proof.Machine.execCar iss rd rs s
  | .cdr iss rd rs => Sys2Proof.Machine.execCdr iss rd rs s
  | .ldnf iss rd rs rt => Sys2Proof.Machine.execLdnf iss rd rs rt s
  | .ldl iss rd d => Sys2Proof.Machine.execLdl iss rd d s
  | .cons iss rd rs rt => Sys2Proof.Machine.execCons iss rd rs rt s
  | .setcar iss rs rt => Sys2Proof.Machine.execSetcar iss rs rt s
  | .setcdr iss rs rt => Sys2Proof.Machine.execSetcdr iss rs rt s
  | .null iss pd rs => Sys2Proof.Machine.execNull iss pd rs s
  | .consp iss pd rs => Sys2Proof.Machine.execConsp iss pd rs s
  | .vlen iss rd rs => Sys2Proof.Machine.execVlen iss rd rs s
  | .vref iss rd rs rt => Sys2Proof.Machine.execVref iss rd rs rt s
  | .vset iss rd rs rt => Sys2Proof.Machine.execVset iss rd rs rt s
  | .allocv iss rd rs rt => Sys2Proof.Machine.execAllocv iss rd rs rt s
  | .allocr iss rd rs rt => Sys2Proof.Machine.execAllocr iss rd rs rt s
  | .allocs iss rd rs rt => Sys2Proof.Machine.execAllocs iss rd rs rt s
  | .freeze iss rs => Sys2Proof.Machine.execFreeze iss rs s
  | .tagof iss rd rs => Sys2Proof.Machine.execTagof iss rd rs s
  | .tagofMem iss rd rs => Sys2Proof.Machine.execTagofMem iss rd rs s
  | .retag iss rd rs rt => Sys2Proof.Machine.execRetag iss rd rs rt s
  | .br iss d => Sys2Proof.Machine.execBr iss d s
  | .brs iss d => Sys2Proof.Machine.execBrs iss d s
  | .call iss d => Sys2Proof.Machine.execCall iss d s
  | .jr iss rs => Sys2Proof.Machine.execJr iss rs s
  | .callr iss rs => Sys2Proof.Machine.execCallr iss rs s
  | .ret iss => Sys2Proof.Machine.execRet iss s
  | .dbnz iss rc d => Sys2Proof.Machine.execDbnz iss rc d s
  | .guard iss p inv cm1 => Sys2Proof.Machine.execGuard iss p inv cm1 s
  | .rmov iss rd rs rt => Sys2Proof.Machine.execRmov iss rd rs rt s
  | .rfill iss rd rs rt => Sys2Proof.Machine.execRfill iss rd rs rt s
  | .rscan iss rd rs rt pd => Sys2Proof.Machine.execRscan iss rd rs rt pd s
  | .fadd iss fd fs ft => Sys2Proof.Machine.execFadd iss fd fs ft s
  | .fsub iss fd fs ft => Sys2Proof.Machine.execFsub iss fd fs ft s
  | .fmul iss fd fs ft => Sys2Proof.Machine.execFmul iss fd fs ft s
  | .fdiv iss fd fs ft => Sys2Proof.Machine.execFdiv iss fd fs ft s
  | .fsqrt iss fd fs => Sys2Proof.Machine.execFsqrt iss fd fs s
  | .fmin iss fd fs ft => Sys2Proof.Machine.execFmin iss fd fs ft s
  | .fmax iss fd fs ft => Sys2Proof.Machine.execFmax iss fd fs ft s
  | .fma iss fd fs ft => Sys2Proof.Machine.execFma iss fd fs ft s
  | .fneg iss fd fs => Sys2Proof.Machine.execFneg iss fd fs s
  | .fabs iss fd fs => Sys2Proof.Machine.execFabs iss fd fs s
  | .feq iss pd fs ft => Sys2Proof.Machine.execFeq iss pd fs ft s
  | .flt iss pd fs ft => Sys2Proof.Machine.execFlt iss pd fs ft s
  | .fle iss pd fs ft => Sys2Proof.Machine.execFle iss pd fs ft s
  | .fun iss pd fs ft => Sys2Proof.Machine.execFun iss pd fs ft s
  | .fmv iss fd fs => Sys2Proof.Machine.execFmv iss fd fs s
  | .mtf iss fd rs => Sys2Proof.Machine.execMtf iss fd rs s
  | .mff iss rd fs => Sys2Proof.Machine.execMff iss rd fs s
  | .cvtif iss fd rs => Sys2Proof.Machine.execCvtif iss fd rs s
  | .cvtfi iss rd fs => Sys2Proof.Machine.execCvtfi iss rd fs s
  | .fld iss fd rs d => Sys2Proof.Machine.execFld iss fd rs d s
  | .fst iss fd rs d => Sys2Proof.Machine.execFst iss fd rs d s
  | .decide iss pd rs rt ru => Sys2Proof.Machine.execDecide iss pd rs rt ru s
  | .cgrow iss rs => Sys2Proof.Machine.execCgrow iss rs s
  | .spawn iss rs rt => Sys2Proof.Machine.execSpawn iss rs rt s
  | .waitj iss rs => Sys2Proof.Machine.execWaitj iss rs s
  | .waitr iss rs => Sys2Proof.Machine.execWaitr iss rs s
  | .exit iss => Sys2Proof.Machine.execExit iss s
  | .yield iss => Sys2Proof.Machine.execYield iss s
  | .tsub iss rd rs => Sys2Proof.Machine.execTsub iss rd rs s
  | .msend iss rd rs rt => Sys2Proof.Machine.execMsend iss rd rs rt s
  | .xld iss rd rs rt => Sys2Proof.Machine.execXld iss rd rs rt s
  | .xst iss rd rs rt => Sys2Proof.Machine.execXst iss rd rs rt s
  | .clean iss rs => Sys2Proof.Machine.execClean iss rs s
  | .inv iss rs => Sys2Proof.Machine.execInv iss rs s
  | .clinv iss rs => Sys2Proof.Machine.execClinv iss rs s
  | .iinv iss rs => Sys2Proof.Machine.execIinv iss rs s
  | .crngClean iss rs rt => Sys2Proof.Machine.execCrngClean iss rs rt s
  | .crngInvalidate iss rs rt => Sys2Proof.Machine.execCrngInvalidate iss rs rt s
  | .crngCleanInvalidate iss rs rt => Sys2Proof.Machine.execCrngCleanInvalidate iss rs rt s
  | .csync iss => Sys2Proof.Machine.execCsync iss s
  | .tlbinv iss rs rt => Sys2Proof.Machine.execTlbinv iss rs rt s
  | .tlbasid iss rt => Sys2Proof.Machine.execTlbasid iss rt s
  | .tlball iss => Sys2Proof.Machine.execTlball iss s
  | .wcinv iss rs rt => Sys2Proof.Machine.execWcinv iss rs rt s
  | .wcall iss => Sys2Proof.Machine.execWcall iss s
  | .fence iss m => Sys2Proof.Machine.execFence iss m s
  | .ifence iss => Sys2Proof.Machine.execIfence iss s
  | .mfc iss rd cr => Sys2Proof.Machine.execMfc iss rd cr s
  | .mtc iss cr rs => Sys2Proof.Machine.execMtc iss cr rs s
  | .xget iss rd => Sys2Proof.Machine.execXget iss rd s
  | .xput iss rs => Sys2Proof.Machine.execXput iss rs s
  | .savel iss => Sys2Proof.Machine.execSavel iss s
  | .saveh iss => Sys2Proof.Machine.execSaveh iss s
  | .rstl iss => Sys2Proof.Machine.execRstl iss s
  | .rsth iss => Sys2Proof.Machine.execRsth iss s
  | .spill iss => Sys2Proof.Machine.execSpill iss s
  | .fill iss => Sys2Proof.Machine.execFill iss s
  | .rfe iss => Sys2Proof.Machine.execRfe iss s
  | .trap iss n => Sys2Proof.Machine.execTrap iss n s
  | .brk iss => Sys2Proof.Machine.execBrk iss s
  | .mcver iss rd rs => Sys2Proof.Machine.execMcver iss rd rs s
  | .rdtb iss rd rs => Sys2Proof.Machine.execRdtb iss rd rs s
  | .zekiefBt iss xd d => Sys2Proof.Machine.execZekiefBt iss xd d s
  | .zekiefBf iss xd d => Sys2Proof.Machine.execZekiefBf iss xd d s
  | .zekiefJ iss d => Sys2Proof.Machine.execZekiefJ iss d s
  | .zcall iss d => Sys2Proof.Machine.execZcall iss d s
  | .zret iss => Sys2Proof.Machine.execZret iss s
  | .zdecide iss xd xs xt => Sys2Proof.Machine.execZdecide iss xd xs xt s
  | .customerInstruction iss op cidx rd rs rt ecc words => Sys2Proof.Machine.execCustomerInstruction iss op cidx rd rs rt ecc words s
  | .markerIdle w => Sys2Proof.Machine.execMarkerIdle w s
  | .accept w => Sys2Proof.Machine.execAccept w s
  | .markerOrbit w => Sys2Proof.Machine.execMarkerOrbit w s
  | .markerCrossing w => Sys2Proof.Machine.execMarkerCrossing w s
  | .markerReset w => Sys2Proof.Machine.execMarkerReset w s
  | .alignLoss ws => Sys2Proof.Machine.execAlignLoss ws s
  | .crossingEdge => Sys2Proof.Machine.execCrossingEdge s
  | .refAcquired khz => Sys2Proof.Machine.execRefAcquired khz s
  | .pllLocked => Sys2Proof.Machine.execPllLocked s
  | .refLoss => Sys2Proof.Machine.execRefLoss s
  | .refReturn khz => Sys2Proof.Machine.execRefReturn khz s
  | .compareFire n => Sys2Proof.Machine.execCompareFire n s
  | .tbSnap => Sys2Proof.Machine.execTbSnap s
  | .tbTimeLowRead r => Sys2Proof.Machine.execTbTimeLowRead r s
  | .tbCfgCommit => Sys2Proof.Machine.execTbCfgCommit s
  | .tbCmpCommit n => Sys2Proof.Machine.execTbCmpCommit n s
  | .tbCntclr => Sys2Proof.Machine.execTbCntclr s
  | .openRequest => Sys2Proof.Machine.execOpenRequest s
  | .openNotification n => Sys2Proof.Machine.execOpenNotification n s
  | .windowTimeout => Sys2Proof.Machine.execWindowTimeout s
  | .closeReport n => Sys2Proof.Machine.execCloseReport n s
  | .dropNotice n => Sys2Proof.Machine.execDropNotice n s
  | .decideRequest cs => Sys2Proof.Machine.execDecideRequest cs s
  | .decideAnswer c => Sys2Proof.Machine.execDecideAnswer c s
  | .deadlineWarning => Sys2Proof.Machine.execDeadlineWarning s
  | .hardDeadline => Sys2Proof.Machine.execHardDeadline s
  | .faultReport n => Sys2Proof.Machine.execFaultReport n s
  | .retireStart idx => Sys2Proof.Machine.execRetireStart idx s
  | .evacJobQueue idx => Sys2Proof.Machine.execEvacJobQueue idx s
  | .evacJobStart e => Sys2Proof.Machine.execEvacJobStart e s
  | .evacJobDone e => Sys2Proof.Machine.execEvacJobDone e s
  | .coolingExpiry => Sys2Proof.Machine.execCoolingExpiry s
  | .decisionRecordSend => Sys2Proof.Machine.execDecisionRecordSend s
  | .beat l => Sys2Proof.Machine.execBeat l s
  | .allocChunkRefill l slot => Sys2Proof.Machine.execAllocChunkRefill l slot s
  | .cnSpanClaim now => Sys2Proof.Machine.execCnSpanClaim now s
  | .cnSpanRelease => Sys2Proof.Machine.execCnSpanRelease s
  | .cnSpanRetire => Sys2Proof.Machine.execCnSpanRetire s
  | .markStart => Sys2Proof.Machine.execMarkStart s
  | .markFinish => Sys2Proof.Machine.execMarkFinish s
  | .markTraceStart => Sys2Proof.Machine.execMarkTraceStart s
  | .markSweepDone => Sys2Proof.Machine.execMarkSweepDone s
  | .cnEnableWrite v => Sys2Proof.Machine.execCnEnableWrite v s
  | .cnRunCommit => Sys2Proof.Machine.execCnRunCommit s
  | .cnPoolCommit => Sys2Proof.Machine.execCnPoolCommit s
  | .cnPoolCommitApply => Sys2Proof.Machine.execCnPoolCommitApply s
  | .cnCntclr => Sys2Proof.Machine.execCnCntclr s
  | .barrierBufferDrain k => Sys2Proof.Machine.execBarrierBufferDrain k s
  | .storeWaitResume c => Sys2Proof.Machine.execStoreWaitResume c s
  | .laneClockRecovered n p => Sys2Proof.Machine.execLaneClockRecovered n p s
  | .laneSyncLocked n p => Sys2Proof.Machine.execLaneSyncLocked n p s
  | .laneAligned n p blocks => Sys2Proof.Machine.execLaneAligned n p blocks s
  | .laneLockLost n p => Sys2Proof.Machine.execLaneLockLost n p s
  | .laneLossOfSignal n p => Sys2Proof.Machine.execLaneLossOfSignal n p s
  | .frameHeader n p blocks => Sys2Proof.Machine.execFrameHeader n p blocks s
  | .frameEof n p blocks => Sys2Proof.Machine.execFrameEof n p blocks s
  | .holdExpiry n x => Sys2Proof.Machine.execHoldExpiry n x s
  | .wickCloseTimeout n => Sys2Proof.Machine.execWickCloseTimeout n s
  | .wickCloseDecision n => Sys2Proof.Machine.execWickCloseDecision n s
  | .frameWrite n x => Sys2Proof.Machine.execFrameWrite n x s
  | .wkMapLoad n => Sys2Proof.Machine.execWkMapLoad n s
  | .mapLoadDone n => Sys2Proof.Machine.execMapLoadDone n s
  | .wkMapCommit n => Sys2Proof.Machine.execWkMapCommit n s
  | .wkLaneCommit n => Sys2Proof.Machine.execWkLaneCommit n s
  | .wkEventCommit => Sys2Proof.Machine.execWkEventCommit s
  | .wkEnableWrite v => Sys2Proof.Machine.execWkEnableWrite v s
  | .wkMapDataAccess n v => Sys2Proof.Machine.execWkMapDataAccess n v s
  | .wkCntclr n => Sys2Proof.Machine.execWkCntclr n s
  | .taskDispatch l => Sys2Proof.Machine.execTaskDispatch l s
  | .preemption l => Sys2Proof.Machine.execPreemption l s
  | .migration l => Sys2Proof.Machine.execMigration l s
  | .deferDrain => Sys2Proof.Machine.execDeferDrain s
  | .spawnRequest => Sys2Proof.Machine.execSpawnRequest s
  | .contextTimeslice k => Sys2Proof.Machine.execContextTimeslice k s
  | .llMenuCommit => Sys2Proof.Machine.execLlMenuCommit s
  | .menuCommitApply => Sys2Proof.Machine.execMenuCommitApply s
  | .llPoolCommit => Sys2Proof.Machine.execLlPoolCommit s
  | .llPoolCommitApply => Sys2Proof.Machine.execLlPoolCommitApply s
  | .llEnableWrite v => Sys2Proof.Machine.execLlEnableWrite v s
  | .llCntclr => Sys2Proof.Machine.execLlCntclr s
  | .snCntclr => Sys2Proof.Machine.execSnCntclr s
  | .dpOutCommit => Sys2Proof.Machine.execDpOutCommit s
  | .dpCntclr => Sys2Proof.Machine.execDpCntclr s
  | .graphJobStart e => Sys2Proof.Machine.execGraphJobStart e s
  | .moveJobStart e => Sys2Proof.Machine.execMoveJobStart e s
  | .jobComplete e => Sys2Proof.Machine.execJobComplete e s
  | .markPop e => Sys2Proof.Machine.execMarkPop e s
  | .markLogConsume => Sys2Proof.Machine.execMarkLogConsume s
  | .markRequest w asid => Sys2Proof.Machine.execMarkRequest w asid s
  | .engineKill e => Sys2Proof.Machine.execEngineKill e s
  | .tpMarkCommit => Sys2Proof.Machine.execTpMarkCommit s
  | .tpMarkCommitApply => Sys2Proof.Machine.execTpMarkCommitApply s
  | .tpCntclr => Sys2Proof.Machine.execTpCntclr s
  | .loadDataReturn c => Sys2Proof.Machine.execLoadDataReturn c s
  | .exceptionEntry c => Sys2Proof.Machine.execExceptionEntry c s
  | .machineCheck c what => Sys2Proof.Machine.execMachineCheck c what s
  | .debugInterrupt c => Sys2Proof.Machine.execDebugInterrupt c s
  | .tableWalk a va kind m enc => Sys2Proof.Machine.execTableWalk a va kind m enc s
  | .rangeOpDone l => Sys2Proof.Machine.execRangeOpDone l s
  | .ucCoreCommit k => Sys2Proof.Machine.execUcCoreCommit k s
  | .cstoreRewrite k => Sys2Proof.Machine.execCstoreRewrite k s
  | .ucRomCheck k ok => Sys2Proof.Machine.execUcRomCheck k ok s
  | .ucRamTest k ok => Sys2Proof.Machine.execUcRamTest k ok s
  | .ucWordWrite k what => Sys2Proof.Machine.execUcWordWrite k what s
  | .ucWordRead k a => Sys2Proof.Machine.execUcWordRead k a s
  | .ucBankSwap k => Sys2Proof.Machine.execUcBankSwap k s
  | .mmRootCommit => Sys2Proof.Machine.execMmRootCommit s
  | .mmCntclr => Sys2Proof.Machine.execMmCntclr s
  | .mmLastfClr => Sys2Proof.Machine.execMmLastfClr s
  | .sharedRead node l txid pa err => Sys2Proof.Machine.execSharedRead node l txid pa err s
  | .ownRead node l txid pa err => Sys2Proof.Machine.execOwnRead node l txid pa err s
  | .upgrade node l txid pa err => Sys2Proof.Machine.execUpgrade node l txid pa err s
  | .writeBack node l pa words => Sys2Proof.Machine.execWriteBack node l pa words s
  | .evictionNotice node l pa => Sys2Proof.Machine.execEvictionNotice node l pa s
  | .hintedWrite l pa ws => Sys2Proof.Machine.execHintedWrite l pa ws s
  | .uncachedWrite node txid pa ws => Sys2Proof.Machine.execUncachedWrite node txid pa ws s
  | .exchangeAtHome node txid pa idx tag => Sys2Proof.Machine.execExchangeAtHome node txid pa idx tag s
  | .forwardShared l pa txid err => Sys2Proof.Machine.execForwardShared l pa txid err s
  | .forwardOwn l pa txid err => Sys2Proof.Machine.execForwardOwn l pa txid err s
  | .invalidate pa txid => Sys2Proof.Machine.execInvalidate pa txid s
  | .dataResponse txid pa st words => Sys2Proof.Machine.execDataResponse txid pa st words s
  | .ackResponse txid => Sys2Proof.Machine.execAckResponse txid s
  | .nodataResponse txid => Sys2Proof.Machine.execNodataResponse txid s
  | .errResponse txid => Sys2Proof.Machine.execErrResponse txid s
  | .xrep txid a => Sys2Proof.Machine.execXrep txid a s
  | .mergeBufferDrain k uncorr => Sys2Proof.Machine.execMergeBufferDrain k uncorr s
  | .scrubRead n err => Sys2Proof.Machine.execScrubRead n err s
  | .hbmWipeDone n => Sys2Proof.Machine.execHbmWipeDone n s
  | .mcTestRead n => Sys2Proof.Machine.execMcTestRead n s
  | .mcTestWrite n => Sys2Proof.Machine.execMcTestWrite n s
  | .mcLasteLowRead n reader => Sys2Proof.Machine.execMcLasteLowRead n reader s
  | .ccCntclr => Sys2Proof.Machine.execCcCntclr s
  | .mcCntclr n => Sys2Proof.Machine.execMcCntclr n s
  | .portPhyLock p => Sys2Proof.Machine.execPortPhyLock p s
  | .phyLockTimeout p => Sys2Proof.Machine.execPhyLockTimeout p s
  | .portLanesAligned p => Sys2Proof.Machine.execPortLanesAligned p s
  | .capability p versions node port half credits => Sys2Proof.Machine.execCapability p versions node port half credits s
  | .capabilityTimer p => Sys2Proof.Machine.execCapabilityTimer p s
  | .negotTimeout p => Sys2Proof.Machine.execNegotTimeout p s
  | .blLossOfSignal p => Sys2Proof.Machine.execBlLossOfSignal p s
  | .fecLimit p corr unc => Sys2Proof.Machine.execFecLimit p corr unc s
  | .retrainComplete p ack => Sys2Proof.Machine.execRetrainComplete p ack s
  | .retrainFailed p => Sys2Proof.Machine.execRetrainFailed p s
  | .blRetrain p => Sys2Proof.Machine.execBlRetrain p s
  | .blIsolate p => Sys2Proof.Machine.execBlIsolate p s
  | .blRelease p => Sys2Proof.Machine.execBlRelease p s
  | .powerfailNotice p => Sys2Proof.Machine.execPowerfailNotice p s
  | .flitReceived p bytes => Sys2Proof.Machine.execFlitReceived p bytes s
  | .nak p fseq ack => Sys2Proof.Machine.execNak p fseq ack s
  | .linkCreditAck p credits ack => Sys2Proof.Machine.execLinkCreditAck p credits ack s
  | .ackTimer p => Sys2Proof.Machine.execAckTimer p s
  | .packetRoute => Sys2Proof.Machine.execPacketRoute s
  | .msgSendTake k => Sys2Proof.Machine.execMsgSendTake k s
  | .remoteRequestTimeout txid => Sys2Proof.Machine.execRemoteRequestTimeout txid s
  | .xldRequest node txid w0 w1 idx => Sys2Proof.Machine.execXldRequest node txid w0 w1 idx s
  | .xstRequest node txid w0 w1 idx v => Sys2Proof.Machine.execXstRequest node txid w0 w1 idx v s
  | .msgDelivery => Sys2Proof.Machine.execMsgDelivery s
  | .blRtLoad => Sys2Proof.Machine.execBlRtLoad s
  | .rtLoadDone => Sys2Proof.Machine.execRtLoadDone s
  | .blRtCommit => Sys2Proof.Machine.execBlRtCommit s
  | .blNodeCommit => Sys2Proof.Machine.execBlNodeCommit s
  | .blPortCommit => Sys2Proof.Machine.execBlPortCommit s
  | .blRingCommit => Sys2Proof.Machine.execBlRingCommit s
  | .blCntclr => Sys2Proof.Machine.execBlCntclr s
  | .dbProd r v fn => Sys2Proof.Machine.execDbProd r v fn s
  | .dbCons r v fn => Sys2Proof.Machine.execDbCons r v fn s
  | .dbArm r fn => Sys2Proof.Machine.execDbArm r fn s
  | .descriptorNop r d => Sys2Proof.Machine.execDescriptorNop r d s
  | .copyIn r d data poisoned => Sys2Proof.Machine.execCopyIn r d data poisoned s
  | .copyOut r d fail => Sys2Proof.Machine.execCopyOut r d fail s
  | .menuLoad r d data poisoned => Sys2Proof.Machine.execMenuLoad r d data poisoned s
  | .replay r d data poisoned => Sys2Proof.Machine.execReplay r d data poisoned s
  | .send r d data poisoned => Sys2Proof.Machine.execSend r d data poisoned s
  | .ringEnable r fn cfg => Sys2Proof.Machine.execRingEnable r fn cfg s
  | .ringDisable r fn cfg irqs => Sys2Proof.Machine.execRingDisable r fn cfg irqs s
  | .ringDrainDone r => Sys2Proof.Machine.execRingDrainDone r s
  | .hiIfverWrite req => Sys2Proof.Machine.execHiIfverWrite req s
  | .functionLevelReset fn => Sys2Proof.Machine.execFunctionLevelReset fn s
  | .pcieFundamentalReset speed width => Sys2Proof.Machine.execPcieFundamentalReset speed width s
  | .irqHoldoffExpiry r => Sys2Proof.Machine.execIrqHoldoffExpiry r s
  | .hostDmaTimeout r what poisoned => Sys2Proof.Machine.execHostDmaTimeout r what poisoned s
  | .bar0BadAccess isRead => Sys2Proof.Machine.execBar0BadAccess isRead s
  | .windowReadCompletion c v poisoned => Sys2Proof.Machine.execWindowReadCompletion c v poisoned s
  | .hiCntclr => Sys2Proof.Machine.execHiCntclr s
  | .mgMsTick readings late => Sys2Proof.Machine.execMgMsTick readings late s
  | .mbTelem => Sys2Proof.Machine.execMbTelem s
  | .mbReset => Sys2Proof.Machine.execMbReset s
  | .lcNonce => Sys2Proof.Machine.execLcNonce s
  | .lcSet => Sys2Proof.Machine.execLcSet s
  | .keyEnroll => Sys2Proof.Machine.execKeyEnroll s
  | .keyRevoke => Sys2Proof.Machine.execKeyRevoke s
  | .ucLoad => Sys2Proof.Machine.execUcLoad s
  | .ucCommit => Sys2Proof.Machine.execUcCommit s
  | .ucFloor => Sys2Proof.Machine.execUcFloor s
  | .fwStage => Sys2Proof.Machine.execFwStage s
  | .fwActivate => Sys2Proof.Machine.execFwActivate s
  | .mbDebugReq => Sys2Proof.Machine.execMbDebugReq s
  | .lceil => Sys2Proof.Machine.execLceil s
  | .mgThermCommit => Sys2Proof.Machine.execMgThermCommit s
  | .mgCntclr => Sys2Proof.Machine.execMgCntclr s
  | .i2cStatus addr byte => Sys2Proof.Machine.execI2cStatus addr byte s
  | .i2cTelem addr n => Sys2Proof.Machine.execI2cTelem addr n s
  | .i2cErrsum addr => Sys2Proof.Machine.execI2cErrsum addr s
  | .i2cRecord addr seq => Sys2Proof.Machine.execI2cRecord addr seq s
  | .i2cReset addr a b => Sys2Proof.Machine.execI2cReset addr a b s
  | .i2cSlot addr a => Sys2Proof.Machine.execI2cSlot addr a s
  | .bypass tdi => Sys2Proof.Machine.execBypass tdi s
  | .idcode tdi => Sys2Proof.Machine.execIdcode tdi s
  | .samplePreload pins preload => Sys2Proof.Machine.execSamplePreload pins preload s
  | .extest pins preload => Sys2Proof.Machine.execExtest pins preload s
  | .clamp tdi => Sys2Proof.Machine.execClamp tdi s
  | .highz tdi => Sys2Proof.Machine.execHighz tdi s
  | .jtagPrivate code tdi => Sys2Proof.Machine.execJtagPrivate code tdi s
  | .resetPin high => Sys2Proof.Machine.execResetPin high s
  | .bootReady fail speed width => Sys2Proof.Machine.execBootReady fail speed width s
  | .inputPowerUp straps high => Sys2Proof.Machine.execInputPowerUp straps high s
  | .powerFailWarning => Sys2Proof.Machine.execPowerFailWarning s
  | .inputDropout => Sys2Proof.Machine.execInputDropout s
  | .standbyRelease => Sys2Proof.Machine.execStandbyRelease s
  | .recordHandover => Sys2Proof.Machine.execRecordHandover s
  | .recordClose seq => Sys2Proof.Machine.execRecordClose seq s
  | .flushAgeExpiry => Sys2Proof.Machine.execFlushAgeExpiry s
  | .recorderFlushDone => Sys2Proof.Machine.execRecorderFlushDone s
  | .erFetch => Sys2Proof.Machine.execErFetch s
  | .erWideLowRead which reader => Sys2Proof.Machine.execErWideLowRead which reader s
  | .erCntclr => Sys2Proof.Machine.execErCntclr s
  | .registerWrite who space off v => Sys2Proof.Machine.execRegisterWrite who space off v s
  | .markerWordDiscarded w => Sys2Proof.Machine.execMarkerWordDiscarded w s
  | .markerAlignmentGained w => Sys2Proof.Machine.execMarkerAlignmentGained w s
  | .invalidSyncHeader n p block => Sys2Proof.Machine.execInvalidSyncHeader n p block s
  | .framingErrorBlock n p block => Sys2Proof.Machine.execFramingErrorBlock n p block s
  | .illegalInstruction c why word => Sys2Proof.Machine.execIllegalInstruction c why word s

end Sys2Proof.Machine
end

