-- ==== Sys2Proof/Safety.lean ====
section
/-! DEFINITION. What counts as a safe step, and the terms in which claims about core instructions are made: when an
instruction issues and what its context does after it. -/

namespace Sys2Proof.Machine

/-- The step answers a next state. -/
def Goes (o : Outcome) : Prop := ∃ t, o = .next t

/-- The command at the front of the queue, if one waits, acts. -/
def SafeStep (s : State) : Prop := Goes (step s)

/-- The forms of an instruction: whether it has a native long form, a short form and a Zekief form with its operands
(Tables 08-1, 08-3, 09-14). -/
structure Forms where
  long : Bool
  short : Bool
  zek : Bool

/-- Native long and Zekief forms, native long forms only, and so on. -/
def Forms.nativeOnly : Forms := ⟨true, false, false⟩
def Forms.nativeZekief : Forms := ⟨true, false, true⟩
def Forms.shortOnly : Forms := ⟨false, true, false⟩
def Forms.zekiefOnly : Forms := ⟨false, false, true⟩

/-- The own guard of the form and its alignment: native long forms are guarded by GP and GI and aligned to 2 bytes, short
forms are aligned to 2 bytes, Zekief instructions to 4 (R268, R270, R275, R324). len: the form's length. -/
def formIssues (x : Ctx) (iss : Iss) (f : Forms) (len : Nat) : Bool :=
  if x.cstat.mode then
    f.zek && !iss.short && iss.gp = 0 && !iss.gi && len = 4 && x.pc.extractLsb' 0 2 = 0
  else if iss.short then
    f.short && iss.gp = 0 && !iss.gi && len = 2 && !x.pc.getLsbD 0
  else
    f.long && !(iss.gp = 0 && iss.gi) && len = 4 && !x.pc.getLsbD 0 && Bool.xor (x.pred iss.gp) iss.gi

/-- A GUARD run in progress lets the instruction execute (R276). -/
def runIssues (x : Ctx) : Bool := x.cstat.gcnt = 0 || Bool.xor (x.pred x.cstat.gpred) x.cstat.ginv

/-- No name is one of w16–w23 while the shadow bank is in use (R243). -/
def namesIssue (x : Ctx) (names : List R5) : Bool :=
  !x.cstat.shadow || x.cstat.mode || names.all fun r => r.toNat < 16 || 24 ≤ r.toNat

/-- No named register waits for a load that missed the lantern L2 (R251); a load in whose slot the instruction stands does
not hold it (R280). -/
def loadsIssue (x : Ctx) (names : List R5) : Bool :=
  x.loads.all fun p => !p.late || p.slot || !(names.any fun r => regLoc x r = p.loc)

/-- The instruction issues and its guards let it execute: its context runs, no exception waits to be entered, the form
exists in the context's mode, its names are allowed, no named register waits for its load, it meets no memory error, and it starts
anew: it has not waited with an object part-written (R88, R406). -/
def issues (s : State) (iss : Iss) (f : Forms) (names : List R5) (len : Nat) : Bool :=
  let x := s.ctx iss.ctx
  x.st = .running && x.raised.isNone && formIssues x iss f len && runIssues x && namesIssue x names && loadsIssue x names &&
    iss.upset = .none && x.alloc.isNone

/-- No named f register waits for its load (R251, R314). -/
def fpReady (x : Ctx) (fps : List R5) : Bool :=
  x.loads.all fun p => !p.late || p.slot || !(fps.any fun r => Loc.fp r.toNat = p.loc)

/-- No load that missed the lantern L2 is outstanding: what an instruction needs that reads or writes registers it does not
name (R251). -/
def noLateLoads (x : Ctx) : Bool := x.loads.all fun p => !p.late || p.slot

/-- What an instruction leaves when its effect has brought the state to t and execution goes on to the next instruction. -/
def leaves (s : State) (iss : Iss) (len : Nat) (t : State) : State := finish iss.ctx (s.ctx iss.ctx) len .next t

/-- As leaves, with a further effect f on the instruction's own context. -/
def goesOnFrom (s : State) (iss : Iss) (len : Nat) (t : State) (f : Ctx → Ctx) : State :=
  leaves s iss len (t.modCtx iss.ctx f)

/-- As goesOnFrom, of an instruction that acts on its own context alone. -/
def goesOn (s : State) (iss : Iss) (len : Nat) (f : Ctx → Ctx) : State :=
  goesOnFrom s iss len (beginIssue iss.ctx s) f

/-- What an iteration of a block-repeat leaves that is not its last: the instruction stands at its boundary (R291). -/
def stands (s : State) (iss : Iss) (t : State) : State := repeatAgain iss.ctx (s.ctx iss.ctx) t

/-- What an instruction leaves that transfers control to pc, with the effect f on its own context after the state t. -/
def goesTo (s : State) (iss : Iss) (t : State) (pc : Word) (f : Ctx → Ctx) : State :=
  finishAt iss.ctx (s.ctx iss.ctx) pc true (t.modCtx iss.ctx f)

/-- What an instruction leaves after which its context waits (R195, R251). -/
def waitsIn (s : State) (iss : Iss) (len : Nat) (t : State) (st : CtxSt) (on : StallOn) : State :=
  finish iss.ctx (s.ctx iss.ctx) len (.away st on) t

/-- What an instruction leaves that raises a synchronous exception: the exception waits to be entered, with the address and
encoding of its instruction (R331, R339–R341). -/
def raises (s : State) (iss : Iss) (len : Nat) (t : State) (k : Trap) (enc : Word) : State :=
  raiseTrap iss.ctx (s.ctx iss.ctx) k enc len t

/-- The value of a register as the instruction reads it: loads in front of earlier instructions have arrived (R280). -/
def operand (s : State) (iss : Iss) (r : R5) : TWord := ((beginIssue iss.ctx s).ctx iss.ctx).reg r

/-- The context as the instruction finds it. -/
def context (s : State) (iss : Iss) : Ctx := (beginIssue iss.ctx s).ctx iss.ctx

/-- The state as the instruction finds it. -/
def found (s : State) (iss : Iss) : State := beginIssue iss.ctx s

/-- A load-class result on its way to a register: in native mode the next instruction is its delay slot (R270, R280), and it is late
when its access missed the lantern L2 (R251). -/
def pendLoad (l : Loc) (v : TWord) (x : Ctx) : Ctx :=
  { x with loads := (x.loads.filter fun p => p.loc ≠ l) ++ [⟨l, v, !x.cstat.mode, x.missed⟩] }

/-- A word that an operation may inspect: not UNSET, POISON or of a reserved TYPE (Table 09-1 row 4). -/
def usable (w : TWord) : Bool := w.ty ≠ Ty.unset && w.ty ≠ Ty.poison && !isReservedTy w.ty

/-- A word that may be carried into a store: not POISON or of a reserved TYPE (R62, R64). -/
def carried (w : TWord) : Bool := w.ty ≠ Ty.poison && !isReservedTy w.ty

/-- An address operand: a pointer other than EXT, or RAW or FIX above USER (R71). -/
def addressOk (priv : BitVec 2) (w : TWord) : Bool :=
  (0x10 ≤ w.ty && w.ty ≤ 0x17) || (priv ≠ 0 && (w.ty = Ty.raw || w.ty = Ty.fix))

/-- The base of an access: an address operand, and a pointer obeys its alignment rule (R53). -/
def baseOk (priv : BitVec 2) (w : TWord) : Bool := addressOk priv w && ptrAligned w

end Sys2Proof.Machine
end

