-- ==== Sys2Proof/Certificates/Slice0/Obligations.lean ====
section
/-! DEFINITION. The obligations: statements of the spec's rules about the commands of the module, and the invariants of its
steps. The clauses of a statement of several parts are Sys2Proof.Clause.<part>. -/

open Sys2Proof Sys2Proof.Machine

/-! ### Names of groups of instructions -/

namespace Sys2Proof.Machine

/-- ADD, SUB, MUL, DIV, REM. -/
def arithInstr (op : Gop) (iss : Iss) (rd rs rt : R5) : Instr :=
  match op with
  | .add => .add iss rd rs rt
  | .sub => .sub iss rd rs rt
  | .mul => .mul iss rd rs rt
  | .div => .div iss rd rs rt
  | .rem => .rem iss rd rs rt

/-- ADD and SUB have the short form rd = rd op rt (Table 08-3). -/
def arithForms (op : Gop) (rd rs : R5) : Forms :=
  ⟨true, (op = .add || op = .sub) && rd = rs, true⟩

/-- AND, OR, XOR, ANDN. -/
def logicInstr (op : Lop) (iss : Iss) (rd rs rt : R5) : Instr :=
  match op with
  | .and => .and iss rd rs rt
  | .or => .or iss rd rs rt
  | .xor => .xor iss rd rs rt
  | .andn => .andn iss rd rs rt

/-- AND, OR and XOR have the short form rd = rd op rt (Table 08-3). -/
def logicForms (op : Lop) (rd rs : R5) : Forms := ⟨true, op ≠ .andn && rd = rs, true⟩

/-- SHL, SHR, SAR. -/
def shiftInstr (op : Shop) (iss : Iss) (rd rs rt : R5) : Instr :=
  match op with
  | .shl => .shl iss rd rs rt
  | .shr => .shr iss rd rs rt
  | .sar => .sar iss rd rs rt

/-- The code k of SHI (Table 09-2). -/
def shiCode : Shop → BitVec 2
  | .shl => 0
  | .shr => 1
  | .sar => 2

/-- EQ, NE, LT, LE, GT, GE. -/
def compareInstr (op : Cop) (iss : Iss) (pd rs rt : R5) : Instr :=
  match op with
  | .eq => .eq iss pd rs rt
  | .ne => .ne iss pd rs rt
  | .lt => .lt iss pd rs rt
  | .le => .le iss pd rs rt
  | .gt => .gt iss pd rs rt
  | .ge => .ge iss pd rs rt

/-- Where a compare puts its result: p[pd] in native mode, where pd is below 8, and a BOOL in xd in Zekief mode
(Table 09-14). -/
def putTruth (pd : R5) (v : Bool) (x : Ctx) : Ctx :=
  if x.cstat.mode then x.setReg pd (TWord.bool v) else x.setPred (pd.setWidth 3) v

end Sys2Proof.Machine

/-- ADD, SUB, MUL, DIV, REM, NEG, ABS, ADDI and ADDQ of integers: the exact result of the operands' values is written to rd,
as a FIX where it fits and else as a new BIG; a FIX operand has its own value (R77, R79). The order in which the operands are
checked, and the chunk taken for a new BIG, are log entries 16 and 74. -/
def Sys2Proof.Clause.IntegerArithmetic : Prop :=
  (∀ (s s1 s2 s3 : State) (iss : Iss) (rd rs rt : R5) (len : Nat) (x y : Int) (v : TWord),
    isInt (operand s iss rs).ty = true → isInt (operand s iss rt).ty = true →
    intOf iss.ctx (operand s iss rs) (beginIssue iss.ctx s) = .ok x s1 →
    intOf iss.ctx (operand s iss rt) s1 = .ok y s2 →
    ∀ op : Gop, issues s iss (arithForms op rd rs) [rd, rs, rt] len = true → (op = .div ∨ op = .rem → y ≠ 0) →
      intResult iss.ctx (op.ints x y) s2 = .ok v s3 →
      exec (arithInstr op iss rd rs rt) s = .next (goesOnFrom s iss len s3 fun c => c.setReg rd v)) ∧
  (∀ (s s1 s2 : State) (iss : Iss) (rd rs : R5) (len : Nat) (x : Int) (v : TWord),
    isInt (operand s iss rs).ty = true →
    intOf iss.ctx (operand s iss rs) (beginIssue iss.ctx s) = .ok x s1 →
    (issues s iss .nativeZekief [rd, rs] len = true → intResult iss.ctx (-x) s1 = .ok v s2 →
      exec (.neg iss rd rs) s = .next (goesOnFrom s iss len s2 fun c => c.setReg rd v)) ∧
    (issues s iss .nativeZekief [rd, rs] len = true → intResult iss.ctx x.natAbs s1 = .ok v s2 →
      exec (.abs iss rd rs) s = .next (goesOnFrom s iss len s2 fun c => c.setReg rd v)) ∧
    (∀ imm : BitVec 16, issues s iss ⟨fitsI10 imm, false, true⟩ [rd, rs] len = true →
      intResult iss.ctx (x + imm.toInt) s1 = .ok v s2 →
      exec (.addi iss rd rs imm) s = .next (goesOnFrom s iss len s2 fun c => c.setReg rd v)) ∧
    (∀ imm : BitVec 5, issues s iss .shortOnly [rs] len = true → intResult iss.ctx (x + imm.toInt) s1 = .ok v s2 →
      exec (.addq iss rs imm) s = .next (goesOnFrom s iss len s2 fun c => c.setReg rs v))) ∧
  (∀ (c : CtxId) (a : Word) (n : Int) (s : State), intOf c (TWord.fix a) s = .ok a.toInt s ∧
    (-2 ^ 31 ≤ n → n < 2 ^ 31 → intResult c n s = .ok (TWord.fix (BitVec.ofInt 32 n)) s))

/-- ADD, SUB, MUL, DIV and REM of a FLT with a FLT or with a FIX or BIG on either side, ADD and SUB of BCD and TIME, and NEG
and ABS of FLT and BCD (Tables 02-9, 02-10; R78, R80). The order in which the operands are checked is log entry 74. -/
def Sys2Proof.Clause.FloatDecimalTimeArithmetic : Prop :=
  (∀ (s : State) (iss : Iss) (rd rs rt : R5) (len : Nat) (a b : Word) (op : Gop),
    issues s iss (arithForms op rd rs) [rd, rs, rt] len = true →
    operand s iss rs = ⟨Ty.flt, a⟩ → isSnan a = false →
    (operand s iss rt = ⟨Ty.flt, b⟩ → isSnan b = false →
      exec (arithInstr op iss rd rs rt) s = .next (goesOn s iss len fun c =>
        { c with cstat := { c.cstat with fflags := c.cstat.fflags ||| (op.floats (context s iss).cstat.rm a b).2 } }.setReg rd
          ⟨Ty.flt, (op.floats (context s iss).cstat.rm a b).1⟩)) ∧
    (operand s iss rt = TWord.fix b →
      exec (arithInstr op iss rd rs rt) s = .next (goesOn s iss len fun c =>
        let y := f32OfInt (context s iss).cstat.rm b.toInt
        { c with cstat := { c.cstat with
          fflags := c.cstat.fflags ||| y.2 ||| (op.floats (context s iss).cstat.rm a y.1).2 } }.setReg rd
          ⟨Ty.flt, (op.floats (context s iss).cstat.rm a y.1).1⟩))) ∧
  (∀ (s t : State) (iss : Iss) (rd rs rt : R5) (len : Nat) (a : Word) (n : Int) (op : Gop),
    issues s iss (arithForms op rd rs) [rd, rs, rt] len = true → isSnan a = false →
    (isInt (operand s iss rs).ty = true → intOf iss.ctx (operand s iss rs) (found s iss) = .ok n t →
      operand s iss rt = ⟨Ty.flt, a⟩ →
      exec (arithInstr op iss rd rs rt) s = .next (goesOnFrom s iss len t fun c =>
        let y := f32OfInt (roundMode iss.ctx t) n
        let z := op.floats (roundMode iss.ctx t) y.1 a
        { c with cstat := { c.cstat with fflags := c.cstat.fflags ||| y.2 ||| z.2 } }.setReg rd ⟨Ty.flt, z.1⟩)) ∧
    (operand s iss rs = ⟨Ty.flt, a⟩ → isInt (operand s iss rt).ty = true →
      intOf iss.ctx (operand s iss rt) (found s iss) = .ok n t →
      exec (arithInstr op iss rd rs rt) s = .next (goesOnFrom s iss len t fun c =>
        let y := f32OfInt (roundMode iss.ctx t) n
        let z := op.floats (roundMode iss.ctx t) a y.1
        { c with cstat := { c.cstat with fflags := c.cstat.fflags ||| y.2 ||| z.2 } }.setReg rd ⟨Ty.flt, z.1⟩))) ∧
  (∀ (s : State) (iss : Iss) (rd rs rt : R5) (len : Nat) (a b : Word),
    payloadOk ⟨Ty.bcd, a⟩ = true → payloadOk ⟨Ty.bcd, b⟩ = true →
    operand s iss rs = ⟨Ty.bcd, a⟩ → operand s iss rt = ⟨Ty.bcd, b⟩ → issues s iss ⟨true, rd = rs, true⟩ [rd, rs, rt] len = true →
    ((bcdInt a + bcdInt b).natAbs < 10000000 →
      exec (.add iss rd rs rt) s = .next (goesOn s iss len fun c => c.setReg rd (bcdWord (bcdInt a + bcdInt b)))) ∧
    ((bcdInt a - bcdInt b).natAbs < 10000000 →
      exec (.sub iss rd rs rt) s = .next (goesOn s iss len fun c => c.setReg rd (bcdWord (bcdInt a - bcdInt b))))) ∧
  (∀ (s : State) (iss : Iss) (rd rs rt : R5) (len : Nat) (a b : Word),
    issues s iss ⟨true, rd = rs, true⟩ [rd, rs, rt] len = true →
    (operand s iss rs = ⟨Ty.time, a⟩ → operand s iss rt = TWord.fix b →
      exec (.add iss rd rs rt) s = .next (goesOn s iss len fun c => c.setReg rd ⟨Ty.time, a + b⟩) ∧
      exec (.sub iss rd rs rt) s = .next (goesOn s iss len fun c => c.setReg rd ⟨Ty.time, a - b⟩)) ∧
    (operand s iss rs = TWord.fix a → operand s iss rt = ⟨Ty.time, b⟩ →
      exec (.add iss rd rs rt) s = .next (goesOn s iss len fun c => c.setReg rd ⟨Ty.time, a + b⟩)) ∧
    (operand s iss rs = ⟨Ty.time, a⟩ → operand s iss rt = ⟨Ty.time, b⟩ →
      exec (.sub iss rd rs rt) s = .next (goesOn s iss len fun c => c.setReg rd (TWord.fix (a - b))))) ∧
  (∀ (s : State) (iss : Iss) (rd rs : R5) (len : Nat) (a : Word), issues s iss .nativeZekief [rd, rs] len = true →
    (operand s iss rs = ⟨Ty.flt, a⟩ →
      exec (.neg iss rd rs) s = .next (goesOn s iss len fun c => c.setReg rd ⟨Ty.flt, a ^^^ 0x80000000⟩) ∧
      exec (.abs iss rd rs) s = .next (goesOn s iss len fun c => c.setReg rd ⟨Ty.flt, a &&& 0x7FFFFFFF⟩)) ∧
    (operand s iss rs = ⟨Ty.bcd, a⟩ → payloadOk ⟨Ty.bcd, a⟩ = true →
      exec (.neg iss rd rs) s = .next (goesOn s iss len fun c => c.setReg rd (bcdWord (-bcdInt a))) ∧
      exec (.abs iss rd rs) s = .next (goesOn s iss len fun c => c.setReg rd (bcdWord (bcdMag a)))))

/-- AND, OR, XOR, ANDN, NOT, SHL, SHR, SAR, ANDI, SHI, MOV, MOVP, MOVI, MOVQ, NOP and DADJ: the result that Tables 09-2 and
08-3 give, and nothing else of the module changes (R81, R83, R302). -/
def Sys2Proof.Clause.LogicShiftsMoves : Prop :=
  ∀ (s : State) (iss : Iss) (rd rs rt : R5) (len : Nat) (t : Ty) (a b : Word),
    (operand s iss rs = ⟨t, a⟩ → operand s iss rt = ⟨t, b⟩ →
      t = Ty.fix ∨ t = Ty.raw ∨ (t = Ty.bool ∧ a.toNat ≤ 1 ∧ b.toNat ≤ 1) →
      ∀ op : Lop, issues s iss (logicForms op rd rs) [rd, rs, rt] len = true →
        exec (logicInstr op iss rd rs rt) s = .next (goesOn s iss len fun c => c.setReg rd ⟨t, op.words a b⟩)) ∧
    (operand s iss rs = ⟨t, a⟩ → issues s iss .nativeZekief [rd, rs] len = true →
      (t = Ty.fix ∨ t = Ty.raw →
        exec (.not iss rd rs) s = .next (goesOn s iss len fun c => c.setReg rd ⟨t, ~~~a⟩)) ∧
      (t = Ty.bool → a.toNat ≤ 1 →
        exec (.not iss rd rs) s = .next (goesOn s iss len fun c => c.setReg rd (TWord.bool (a = 0))))) ∧
    (operand s iss rs = ⟨t, a⟩ → t = Ty.fix ∨ t = Ty.raw → ∀ op : Shop,
      (operand s iss rt = TWord.fix b → b.toNat ≤ 31 → issues s iss .nativeZekief [rd, rs, rt] len = true →
        exec (shiftInstr op iss rd rs rt) s = .next (goesOn s iss len fun c => c.setReg rd ⟨t, op.words a b.toNat⟩)) ∧
      (∀ n : BitVec 5, issues s iss .nativeOnly [rd, rs] len = true →
        exec (.shi iss rd rs (shiCode op) n) s = .next (goesOn s iss len fun c => c.setReg rd ⟨t, op.words a n.toNat⟩))) ∧
    (∀ imm : BitVec 10, operand s iss rs = TWord.fix a → issues s iss .nativeOnly [rd, rs] len = true →
      exec (.andi iss rd rs imm) s = .next (goesOn s iss len fun c => c.setReg rd (TWord.fix (a &&& imm.signExtend 32)))) ∧
    (issues s iss ⟨true, !(rd = 0 && rs = 0), true⟩ [rd, rs] len = true →
      exec (.mov iss rd rs) s = .next (goesOn s iss len fun c => c.setReg rd (operand s iss rs))) ∧
    (∀ ps : P3, issues s iss .nativeOnly [rd] len = true →
      exec (.movp iss rd ps) s = .next (goesOn s iss len fun c => c.setReg rd (TWord.bool ((context s iss).pred ps)))) ∧
    (∀ imm : BitVec 16, issues s iss ⟨fitsI10 imm, false, true⟩ [rd] len = true →
      exec (.movi iss rd imm) s = .next (goesOn s iss len fun c => c.setReg rd (TWord.fix (imm.signExtend 32)))) ∧
    (∀ imm : BitVec 5, issues s iss .shortOnly [rd] len = true →
      exec (.movq iss rd imm) s = .next (goesOn s iss len fun c => c.setReg rd (TWord.fix (imm.signExtend 32)))) ∧
    (issues s iss .shortOnly [] len = true → exec (.nop iss) s = .next (goesOn s iss len id)) ∧
    (∀ pd : P3, issues s iss .nativeOnly [rd, rs, rt] len = true →
      (operand s iss rs).ty = Ty.bcd ∨ (operand s iss rs).ty = Ty.raw → decimalOk (operand s iss rs).val = true →
      (operand s iss rt).ty = Ty.bcd ∨ (operand s iss rt).ty = Ty.raw → decimalOk (operand s iss rt).val = true →
      exec (.dadj iss rd rs rt pd) s = .next (goesOn s iss len fun c =>
        (c.setReg rd (bcdWord (((bcdMag (operand s iss rs).val + bcdMag (operand s iss rt).val) % 10000000 : Nat) : Int))).setPred
          pd (decide (10000000 ≤ bcdMag (operand s iss rs).val + bcdMag (operand s iss rt).val))))

/-- EQ, NE, LT, LE, GT, GE, EQI, NULL, CONSP and the predicate operations PAND, POR, PXOR, PANDN, PNOT, PSET write the truth
value of Tables 02-11 and 09-4 and change nothing else (R84, R85). That a compare of a quiet NaN changes nothing but the
predicate is log entry 21. -/
def Sys2Proof.Clause.ComparesPredicates : Prop :=
  ∀ (s : State) (iss : Iss) (pd rs rt : R5) (len : Nat),
    ((context s iss).cstat.mode = true ∨ pd.toNat < 8) →
    (issues s iss .nativeZekief [rs, rt] len = true →
      (∀ (a b : Word) (op : Cop), operand s iss rs = TWord.fix a → operand s iss rt = TWord.fix b →
        exec (compareInstr op iss pd rs rt) s =
          .next (goesOn s iss len (putTruth pd (op.holds (some (compare a.toInt b.toInt)))))) ∧
      (∀ (a b : Word) (op : Cop), operand s iss rs = ⟨Ty.flt, a⟩ → operand s iss rt = ⟨Ty.flt, b⟩ →
        isSnan a = false → isSnan b = false →
        exec (compareInstr op iss pd rs rt) s =
          .next (goesOn s iss len (putTruth pd (op.holds (realCmp (realOfF32 a) (realOfF32 b)))))) ∧
      (∀ (t : Ty) (a b : Word) (op : Cop), t = Ty.char ∨ t = Ty.chid → payloadOk ⟨t, a⟩ = true → payloadOk ⟨t, b⟩ = true →
        operand s iss rs = ⟨t, a⟩ → operand s iss rt = ⟨t, b⟩ →
        exec (compareInstr op iss pd rs rt) s =
          .next (goesOn s iss len (putTruth pd (op.holds (some (compare a.toNat b.toNat)))))) ∧
      (∀ (a b : Word) (op : Cop), operand s iss rs = ⟨Ty.time, a⟩ → operand s iss rt = ⟨Ty.time, b⟩ →
        exec (compareInstr op iss pd rs rt) s =
          .next (goesOn s iss len (putTruth pd (op.holds (some (compare (a - b).toInt 0)))))) ∧
      (∀ (a b : Word) (op : Cop), payloadOk ⟨Ty.bcd, a⟩ = true → payloadOk ⟨Ty.bcd, b⟩ = true →
        operand s iss rs = ⟨Ty.bcd, a⟩ → operand s iss rt = ⟨Ty.bcd, b⟩ →
        exec (compareInstr op iss pd rs rt) s =
          .next (goesOn s iss len (putTruth pd (op.holds (some (compare (bcdInt a) (bcdInt b))))))) ∧
      (∀ (t : Ty) (a b : Word), t = Ty.bool ∨ t = Ty.nil → payloadOk ⟨t, a⟩ = true → payloadOk ⟨t, b⟩ = true →
        operand s iss rs = ⟨t, a⟩ → operand s iss rt = ⟨t, b⟩ →
        exec (.eq iss pd rs rt) s = .next (goesOn s iss len (putTruth pd (a = b))) ∧
        exec (.ne iss pd rs rt) s = .next (goesOn s iss len (putTruth pd (a ≠ b)))) ∧
      ((∀ w, w = operand s iss rs ∨ w = operand s iss rt →
          w.ty ≠ Ty.unset ∧ w.ty ≠ Ty.poison ∧ isReservedTy w.ty = false) →
        exec (.eqi iss pd rs rt) s = .next (goesOn s iss len (putTruth pd (operand s iss rs = operand s iss rt))))) ∧
    (issues s iss .nativeZekief [rs] len = true →
      (operand s iss rs).ty ≠ Ty.unset → (operand s iss rs).ty ≠ Ty.poison → isReservedTy (operand s iss rs).ty = false →
      exec (.null iss pd rs) s = .next (goesOn s iss len (putTruth pd ((operand s iss rs).ty = Ty.nil))) ∧
      exec (.consp iss pd rs) s = .next (goesOn s iss len (putTruth pd ((operand s iss rs).ty = Ty.cons)))) ∧
    (∀ qd ps pt : P3, issues s iss .nativeOnly [] len = true →
      exec (.pand iss qd ps pt) s =
        .next (goesOn s iss len fun c => c.setPred qd ((context s iss).pred ps && (context s iss).pred pt)) ∧
      exec (.por iss qd ps pt) s =
        .next (goesOn s iss len fun c => c.setPred qd ((context s iss).pred ps || (context s iss).pred pt)) ∧
      exec (.pxor iss qd ps pt) s =
        .next (goesOn s iss len fun c => c.setPred qd ((context s iss).pred ps ^^ (context s iss).pred pt)) ∧
      exec (.pandn iss qd ps pt) s =
        .next (goesOn s iss len fun c => c.setPred qd ((context s iss).pred ps && !(context s iss).pred pt)) ∧
      exec (.pnot iss qd ps) s = .next (goesOn s iss len fun c => c.setPred qd (!(context s iss).pred ps))) ∧
    (∀ (qd : P3) (b : Bool), issues s iss .nativeOnly [rs] len = true → operand s iss rs = TWord.bool b →
      exec (.pset iss qd rs) s = .next (goesOn s iss len fun c => c.setPred qd b))

namespace Sys2Proof.Machine

/-- The words a and b of a pair have been read at va and va + 4, each through at most one FWD word, and what they lead into
has been checked (Table 09-1 rows 6 and 7 of both words before row 8 of either). -/
def pairRead (c : CtxId) (va : Word) (a b : MWord × Word × PA) (s t : State) : Prop :=
  ∃ u v w, loadHop c .load va s 8 = .ok a u ∧ loadHop c .load (va + 4) u 8 = .ok b v ∧
    checkLoaded c a.2.1 a.2.2 a.1.t v = .ok () w ∧ checkLoaded c b.2.1 b.2.2 b.1.t w = .ok () t ∧
    a.1.ty ≠ Ty.fwd ∧ b.1.ty ≠ Ty.fwd

/-- The words v and w of a pair have been stored at the targets t and u: through a window as one posted write of 8 bytes (16
R507), else one after the other. -/
def pairWritten (c : CtxId) (v w : TWord) (t u : Target) (s r : State) : Prop :=
  if regionOf s t.pa = .window ∧ u.pa = t.pa + 4 then r = winStore (localOf t.pa) (wordBytes v.val ++ wordBytes w.val) s
  else ∃ m, storeDo c v t s = .ok () m ∧ storeDo c w u m = .ok () r

end Sys2Proof.Machine

/-- LD, LDX, LD_B, LDP, LDP_B, CAR, CDR, VREF, LDNF and LDL: where the base is allowed and the word can be read, its value is
on its way to the register and execution goes on (R71, R279, R280, R304, R306). That the load is performed when it issues is
log entry 12. -/
def Sys2Proof.Clause.WordLoads : Prop :=
  ∀ (s t : State) (iss : Iss) (rd rs rt : R5) (len : Nat) (w : MWord),
    (∀ d : BitVec 16, issues s iss ⟨(dispField d).isSome, false, true⟩ [rd, rs] len = true →
      baseOk (context s iss).cstat.priv (operand s iss rs) = true →
      ((context s iss).cstat.mode = true → d.extractLsb' 0 2 = 0) →
      loadWord iss.ctx ((operand s iss rs).val + d.signExtend 32) (found s iss) = .ok w t →
      exec (.ld iss rd rs d) s = .next (goesOnFrom s iss len t fun x => pendLoad (regLoc x rd) w.t x)) ∧
    (∀ i : Word, issues s iss .nativeOnly [rd, rs, rt] len = true →
      baseOk (context s iss).cstat.priv (operand s iss rs) = true → operand s iss rt = TWord.fix i → i.extractLsb' 0 2 = 0 →
      loadWord iss.ctx ((operand s iss rs).val + i) (found s iss) = .ok w t →
      exec (.ldx iss rd rs rt) s = .next (goesOnFrom s iss len t fun x => pendLoad (regLoc x rd) w.t x)) ∧
    (∀ (b : BitVec 2) (d : BitVec 10),
      issues s iss ⟨true, 8 ≤ rd.toNat && rd.toNat < 12, false⟩ [rd] len = true →
      baseOk (context s iss).cstat.priv ((context s iss).bank b) = true →
      loadWord iss.ctx (((context s iss).bank b).val + (d.setWidth 32 <<< 2)) (found s iss) = .ok w t →
      exec (.ldB iss rd b d) s = .next (goesOnFrom s iss len t fun x => pendLoad (regLoc x rd) w.t x)) ∧
    (∀ (d : BitVec 10) (t1 : State) (a b : MWord × Word × PA), rd.getLsbD 0 = false →
      (issues s iss .nativeOnly [rd, rd + 1, rs] len = true →
        baseOk (context s iss).cstat.priv (operand s iss rs) = true →
        ((operand s iss rs).val + disp10 d).extractLsb' 0 3 = 0 →
        pairRead iss.ctx ((operand s iss rs).val + disp10 d) a b (found s iss) t1 →
        exec (.ldp iss rd rs d) s = .next (goesOnFrom s iss len t1 fun x =>
          pendLoad (regLoc x (rd + 1)) b.1.t (pendLoad (regLoc x rd) a.1.t x))) ∧
      (∀ k : BitVec 2, issues s iss .nativeOnly [rd, rd + 1] len = true →
        baseOk (context s iss).cstat.priv ((context s iss).bank k) = true →
        (((context s iss).bank k).val + (d.setWidth 32 <<< 2)).extractLsb' 0 3 = 0 →
        pairRead iss.ctx (((context s iss).bank k).val + (d.setWidth 32 <<< 2)) a b (found s iss) t1 →
        exec (.ldpB iss rd k d) s = .next (goesOnFrom s iss len t1 fun x =>
          pendLoad (regLoc x (rd + 1)) b.1.t (pendLoad (regLoc x rd) a.1.t x)))) ∧
    (issues s iss ⟨true, true, false⟩ [rd, rs] len = true →
      (operand s iss rs = TWord.nil →
        exec (.car iss rd rs) s = .next (goesOn s iss len fun x => pendLoad (regLoc x rd) TWord.nil x) ∧
        exec (.cdr iss rd rs) s = .next (goesOn s iss len fun x => pendLoad (regLoc x rd) TWord.nil x)) ∧
      ((operand s iss rs).ty = Ty.cons → (operand s iss rs).val.extractLsb' 0 3 = 0 →
        (loadWord iss.ctx (operand s iss rs).val (found s iss) = .ok w t →
          exec (.car iss rd rs) s = .next (goesOnFrom s iss len t fun x => pendLoad (regLoc x rd) w.t x)) ∧
        (loadWord iss.ctx ((operand s iss rs).val + 4) (found s iss) = .ok w t →
          exec (.cdr iss rd rs) s = .next (goesOnFrom s iss len t fun x => pendLoad (regLoc x rd) w.t x)))) ∧
    (∀ (i : Word) (h : Word × Word) (t1 : State), issues s iss .nativeZekief [rd, rs, rt] len = true →
      isRefable (operand s iss rs).ty = true → operand s iss rt = TWord.fix i →
      objHdr iss.ctx (operand s iss rs) (found s iss) = .ok h t → i.getLsbD 31 = false → i.toNat < hdrLen h.2 →
      loadWord iss.ctx (h.1 + 4 + (i <<< 2)) t = .ok w t1 →
      exec (.vref iss rd rs rt) s = .next (goesOnFrom s iss len t1 fun x => pendLoad (regLoc x rd) w.t x)) ∧
    (∀ (i : Word) (pa : PA) (t1 : State), issues s iss .nativeOnly [rd, rs, rt] len = true →
      (context s iss).cstat.priv ≠ 0 → baseOk (context s iss).cstat.priv (operand s iss rs) = true →
      operand s iss rt = TWord.fix i → ((operand s iss rs).val + i).extractLsb' 0 2 = 0 →
      loadVa iss.ctx .load ((operand s iss rs).val + i) (found s iss) = .ok (w, pa) t →
      checkLoaded iss.ctx ((operand s iss rs).val + i) pa w.t t = .ok () t1 →
      exec (.ldnf iss rd rs rt) s = .next (goesOnFrom s iss len t1 fun x => pendLoad (regLoc x rd) w.t x)) ∧
    (∀ (d : BitVec 10) (pa : PA), issues s iss .nativeOnly [rd] len = true →
      loadVa iss.ctx .fetch (((context s iss).pc &&& 0xFFFFFFFC) + disp10 d) (found s iss) = .ok (w, pa) t → w.ty = Ty.raw →
      exec (.ldl iss rd d) s = .next (goesOnFrom s iss len t fun x => pendLoad (regLoc x rd) w.t x))

/-- LBS, LBU, LHS and LHU extend the byte or halfword that the address names to a FIX; VLEN gives the LENGTH of the object's
HDR, and TAGOF_MEM the whole tag byte of a word (R60, R66, R306). That the load is performed when it issues is log entry 12.
-/
def Sys2Proof.Clause.SubWordAndHeaderReads : Prop :=
  ∀ (s t : State) (iss : Iss) (rd rs rt : R5) (len : Nat),
    (∀ (i va : Word) (w : MWord) (pa : PA), issues s iss .nativeOnly [rd, rs, rt] len = true →
      baseOk (context s iss).cstat.priv (operand s iss rs) = true → operand s iss rt = TWord.fix i →
      usable w.t = true →
      (loadFwd iss.ctx .load ((operand s iss rs).val + i) (found s iss) 1 = .ok (w, va, pa) t →
        exec (.lbs iss rd rs rt) s = .next (goesOnFrom s iss len t fun x =>
          pendLoad (regLoc x rd) (TWord.fix ((w.val.extractLsb' (8 * (va.toNat % 4)) 8).signExtend 32)) x) ∧
        exec (.lbu iss rd rs rt) s = .next (goesOnFrom s iss len t fun x =>
          pendLoad (regLoc x rd) (TWord.fix ((w.val.extractLsb' (8 * (va.toNat % 4)) 8).setWidth 32)) x)) ∧
      (((operand s iss rs).val + i).getLsbD 0 = false →
        loadFwd iss.ctx .load ((operand s iss rs).val + i) (found s iss) 2 = .ok (w, va, pa) t →
        exec (.lhs iss rd rs rt) s = .next (goesOnFrom s iss len t fun x =>
          pendLoad (regLoc x rd) (TWord.fix ((w.val.extractLsb' (8 * (va.toNat % 4)) 16).signExtend 32)) x) ∧
        exec (.lhu iss rd rs rt) s = .next (goesOnFrom s iss len t fun x =>
          pendLoad (regLoc x rd) (TWord.fix ((w.val.extractLsb' (8 * (va.toNat % 4)) 16).setWidth 32)) x))) ∧
    (∀ h : Word × Word, issues s iss .nativeZekief [rd, rs] len = true → isObject (operand s iss rs).ty = true →
      objHdr iss.ctx (operand s iss rs) (found s iss) = .ok h t →
      exec (.vlen iss rd rs) s = .next (goesOnFrom s iss len t fun x =>
        x.setReg rd (TWord.fix ((h.2.extractLsb' 0 24).setWidth 32)))) ∧
    (∀ (w : MWord) (pa : PA), issues s iss .nativeZekief [rd, rs] len = true →
      baseOk (context s iss).cstat.priv (operand s iss rs) = true → (operand s iss rs).val.extractLsb' 0 2 = 0 →
      loadVa iss.ctx .load (operand s iss rs).val (found s iss) = .ok (w, pa) t →
      exec (.tagofMem iss rd rs) s = .next (goesOnFrom s iss len t fun x => x.setReg rd (TWord.fix (w.tag.setWidth 32))))

/-- ST, STX, ST_B, STP, STP_B, SETCAR, SETCDR and VSET: where the value may be carried and stored, the base is allowed and the
target takes the word, the store is made and execution goes on, with no register of the context written (R62, R70, R71, R304).
How the candle of a stored pointer is found is log entry 41. -/
def Sys2Proof.Clause.WordStores : Prop :=
  ∀ (s t : State) (iss : Iss) (rd rs rt : R5) (len : Nat),
    (∀ d : BitVec 16, issues s iss ⟨(dispField d).isSome, false, true⟩ [rd, rs] len = true →
      carried (operand s iss rd) = true → baseOk (context s iss).cstat.priv (operand s iss rs) = true →
      storable (context s iss).cstat.priv false (operand s iss rd).ty = true →
      ((context s iss).cstat.mode = true → d.extractLsb' 0 2 = 0) →
      storeWord iss.ctx ⟨freeBase (operand s iss rs), false⟩ ((operand s iss rs).val + d.signExtend 32) (operand s iss rd)
        (found s iss) = .ok () t →
      exec (.st iss rd rs d) s = .next (leaves s iss len t)) ∧
    (∀ i : Word, issues s iss .nativeOnly [rd, rs, rt] len = true →
      carried (operand s iss rd) = true → baseOk (context s iss).cstat.priv (operand s iss rs) = true →
      operand s iss rt = TWord.fix i → i.extractLsb' 0 2 = 0 →
      storable (context s iss).cstat.priv false (operand s iss rd).ty = true →
      storeWord iss.ctx ⟨freeBase (operand s iss rs), false⟩ ((operand s iss rs).val + i) (operand s iss rd) (found s iss) =
        .ok () t →
      exec (.stx iss rd rs rt) s = .next (leaves s iss len t)) ∧
    (∀ (b : BitVec 2) (d : BitVec 10),
      issues s iss ⟨true, 8 ≤ rd.toNat && rd.toNat < 12, false⟩ [rd] len = true →
      carried (operand s iss rd) = true → baseOk (context s iss).cstat.priv ((context s iss).bank b) = true →
      storable (context s iss).cstat.priv false (operand s iss rd).ty = true →
      storeWord iss.ctx ⟨freeBase ((context s iss).bank b), false⟩
        (((context s iss).bank b).val + (d.setWidth 32 <<< 2)) (operand s iss rd) (found s iss) = .ok () t →
      exec (.stB iss rd b d) s = .next (leaves s iss len t)) ∧
    (∀ (base : TWord) (va : Word) (t0 t1 : Target) (y u v : State), rd.getLsbD 0 = false →
      carried (operand s iss rd) = true → carried (operand s iss (rd + 1)) = true →
      baseOk (context s iss).cstat.priv base = true →
      storable (context s iss).cstat.priv true (operand s iss rd).ty = true →
      storable (context s iss).cstat.priv true (operand s iss (rd + 1)).ty = true → va.extractLsb' 0 3 = 0 →
      checkReached iss.ctx .store va [operand s iss rd, operand s iss (rd + 1)] (found s iss) = .ok () y →
      storeTarget iss.ctx ⟨freeBase base, true⟩ .store va (operand s iss rd) y = .ok t0 u →
      storeTarget iss.ctx ⟨freeBase base, true⟩ .store (va + 4) (operand s iss (rd + 1)) u = .ok t1 v →
      pairWritten iss.ctx (operand s iss rd) (operand s iss (rd + 1)) t0 t1 v t →
      (∀ d : BitVec 10, issues s iss .nativeOnly [rd, rd + 1, rs] len = true → base = operand s iss rs →
        va = base.val + disp10 d → exec (.stp iss rd rs d) s = .next (leaves s iss len t)) ∧
      (∀ (b : BitVec 2) (d : BitVec 10), issues s iss .nativeOnly [rd, rd + 1] len = true → base = (context s iss).bank b →
        va = base.val + (d.setWidth 32 <<< 2) → exec (.stpB iss rd b d) s = .next (leaves s iss len t))) ∧
    (issues s iss .nativeZekief [rs, rt] len = true → (operand s iss rs).ty = Ty.cons →
      (operand s iss rs).val.extractLsb' 0 3 = 0 → carried (operand s iss rt) = true →
      storable (context s iss).cstat.priv false (operand s iss rt).ty = true →
      (storeWord iss.ctx ⟨false, false⟩ (operand s iss rs).val (operand s iss rt) (found s iss) = .ok () t →
        exec (.setcar iss rs rt) s = .next (leaves s iss len t)) ∧
      (storeWord iss.ctx ⟨false, false⟩ ((operand s iss rs).val + 4) (operand s iss rt) (found s iss) = .ok () t →
        exec (.setcdr iss rs rt) s = .next (leaves s iss len t))) ∧
    (∀ (i : Word) (h : Word × Word) (g : Target) (p : Option (Nat × BitVec 8)) (x y u v : State),
      issues s iss .nativeZekief [rd, rs, rt] len = true → carried (operand s iss rd) = true →
      isSetable (operand s iss rs).ty = true → (operand s iss rs).val.extractLsb' 0 2 = 0 → operand s iss rt = TWord.fix i →
      storable (context s iss).cstat.priv false (operand s iss rd).ty = true →
      checkReached iss.ctx .load (operand s iss rs).val [] (found s iss) = .ok () x →
      valueCandle iss.ctx ((operand s iss rs).val + 4 + (i <<< 2)) (operand s iss rd) x = .ok p y →
      objHdr iss.ctx (operand s iss rs) y = .ok h u → i.getLsbD 31 = false → i.toNat < hdrLen h.2 →
      ((operand s iss rs).ty = Ty.vec → hdrSub h.2 = 0 ∨ hdrSub h.2 = (operand s iss rd).ty.setWidth 8) →
      storeTarget iss.ctx ⟨false, false⟩ .store (h.1 + 4 + (i <<< 2)) (operand s iss rd) u = .ok g v →
      storeDo iss.ctx (operand s iss rd) g v = .ok () t →
      exec (.vset iss rd rs rt) s = .next (leaves s iss len t))

/-- SB and SH store a byte or halfword of a FIX or RAW; CAS and XCHG read a word and write one, CAS only where the old word
equals rd in TYPE and payload, and give the old word in rd; FREEZE sets IMM on the words of an object; a FWD word that SB or
SH meets sends the store one hop on (R60, R72, R74, R306, R308). How the candle of a stored pointer is found is log entry 41.
-/
def Sys2Proof.Clause.SubWordStoresExchanges : Prop :=
  ∀ (s t : State) (iss : Iss) (rd rs rt : R5) (len : Nat),
    (∀ (bytes : Nat) (i : Word), issues s iss .nativeOnly [rd, rs, rt] len = true →
      (operand s iss rd).ty = Ty.fix ∨ (operand s iss rd).ty = Ty.raw →
      baseOk (context s iss).cstat.priv (operand s iss rs) = true → operand s iss rt = TWord.fix i →
      (bytes = 1 ∨ bytes = 2 ∧ ((operand s iss rs).val + i).getLsbD 0 = false) →
      (subStoreAt iss.ctx bytes (operand s iss rd).val ((operand s iss rs).val + i) false (found s iss) = .ok none t ∨
        ∃ va u, subStoreAt iss.ctx bytes (operand s iss rd).val ((operand s iss rs).val + i) false (found s iss) =
          .ok (some va) u ∧ subStoreAt iss.ctx bytes (operand s iss rd).val va true u = .ok none t) →
      (bytes = 1 → exec (.sb iss rd rs rt) s = .next (leaves s iss len t)) ∧
      (bytes = 2 → exec (.sh iss rd rs rt) s = .next (leaves s iss len t))) ∧
    (∀ (u v : State) (g : Target) (old : TWord), issues s iss .nativeOnly [rd, rs, rt] len = true →
      baseOk (context s iss).cstat.priv (operand s iss rs) = true → carried (operand s iss rt) = true →
      storable (context s iss).cstat.priv false (operand s iss rt).ty = true →
      drainAll iss.ctx 8 (found s iss) = .ok () u →
      rmwTarget iss.ctx ⟨freeBase (operand s iss rs), false⟩ (operand s iss rs).val (operand s iss rt) u = .ok g v →
      old = g.old.t →
      (usable (operand s iss rd) = true → rmwDo iss.ctx (operand s iss rt) (fun w => w = operand s iss rd) g v = .ok old t →
        exec (.cas iss rd rs rt) s = .next (goesOnFrom s iss len t fun x => x.setReg rd old)) ∧
      (rmwDo iss.ctx (operand s iss rt) (fun _ => true) g v = .ok old t →
        exec (.xchg iss rd rs rt) s = .next (goesOnFrom s iss len t fun x => x.setReg rd old))) ∧
    (∀ (u v : State) (r : Word × Nat), issues s iss .nativeZekief [rs] len = true →
      isObject (operand s iss rs).ty = true ∨ (operand s iss rs).ty = Ty.cons →
      freezeRange iss.ctx (operand s iss rs) (found s iss) = .ok r u →
      freezeCheck iss.ctx r.2 r.1 u = .ok () v → freezeWords iss.ctx r.2 r.1 v = .ok () t →
      exec (.freeze iss rs) s = .next (leaves s iss len t))

/-- CONS, ALLOCV, ALLOCR and ALLOCS answer a pointer to the new object that the allocation makes; TAGOF gives a word's TYPE
code, and RETAG the operand's payload with the new TYPE where the level may create it (R66, R86, R309; Table 02-7). The chunk
taken when a cursor is exhausted, the cause where two hold, and RETAG of a code above 0x3F are log entries 16, 79 and 83. -/
def Obligations.AllocationTags : Prop :=
  ∀ (s t : State) (iss : Iss) (rd rs rt : R5) (len : Nat) (va : Word),
    (∀ u v : State, issues s iss .nativeZekief [rd, rs, rt] len = true → carried (operand s iss rs) = true → carried (operand s iss rt) = true →
      storable (context s iss).cstat.priv false (operand s iss rs).ty = true →
      storable (context s iss).cstat.priv false (operand s iss rt).ty = true →
      (∃ p, valueCandle iss.ctx 0 (operand s iss rs) (found s iss) = .ok p u) →
      (∃ p, valueCandle iss.ctx 0 (operand s iss rt) u = .ok p v) →
      allocObject iss.ctx 8 [operand s iss rs, operand s iss rt] v = .ok va t →
      exec (.cons iss rd rs rt) s = .next (goesOnFrom s iss len t fun x => x.setReg rd ⟨Ty.cons, va⟩)) ∧
    (∀ n b : Word, issues s iss .nativeZekief [rd, rs, rt] len = true → operand s iss rs = TWord.fix n →
      operand s iss rt = TWord.fix b → n.toNat ≤ 0xFFFFFF →
      allocObject iss.ctx 4 (⟨Ty.hdr, b.setWidth 8 ++ n.setWidth 24⟩ :: List.replicate n.toNat TWord.unset) (found s iss) =
        .ok va t →
      (b.toNat ≤ 0x0B →
        exec (.allocv iss rd rs rt) s = .next (goesOnFrom s iss len t fun x => x.setReg rd ⟨Ty.vec, va⟩)) ∧
      (b.toNat ≤ 0xFF →
        exec (.allocr iss rd rs rt) s = .next (goesOnFrom s iss len t fun x => x.setReg rd ⟨Ty.rec_, va⟩)) ∧
      (b.toNat ≤ 3 → (n = 0 → b = 0) →
        exec (.allocs iss rd rs rt) s = .next (goesOnFrom s iss len t fun x => x.setReg rd ⟨Ty.str, va⟩))) ∧
    (issues s iss .nativeZekief [rd, rs] len = true →
      exec (.tagof iss rd rs) s = .next (goesOn s iss len fun x => x.setReg rd (TWord.fix ((operand s iss rs).ty.setWidth 32)))) ∧
    (∀ k : Word, issues s iss .nativeZekief [rd, rs, rt] len = true → usable (operand s iss rs) = true → operand s iss rt = TWord.fix k → k.toNat ≤ 0x3F →
      retagOk (context s iss).cstat.priv (operand s iss rs).ty (k.setWidth 6) = true →
      exec (.retag iss rd rs rt) s = .next (goesOn s iss len fun x => x.setReg rd ⟨k.setWidth 6, (operand s iss rs).val⟩))

/-- BR, BRS, JR, ZEKIEF_BT, ZEKIEF_BF and ZEKIEF_J transfer control to the target their encoding or register gives, or go on
where their condition does not hold; DBNZ counts down and transfers while the count stays above 0; GUARD begins a guard run of
one to four instructions (R276, R292, R311, R324). That GUARD leaves pending loads and a mode-change shadow as they are is log
entry 11. -/
def Sys2Proof.Clause.BranchesGuards : Prop :=
  ∀ (s : State) (iss : Iss) (rs : R5) (len : Nat),
    (∀ d : BitVec 20, issues s iss .nativeOnly [] len = true →
      exec (.br iss d) s = .next (goesTo s iss (found s iss) ((context s iss).pc + (d.signExtend 32 <<< 1)) id)) ∧
    (∀ d : BitVec 10, issues s iss .shortOnly [] len = true →
      exec (.brs iss d) s = .next (goesTo s iss (found s iss) ((context s iss).pc + (d.signExtend 32 <<< 1)) id)) ∧
    (∀ a : Word, issues s iss ⟨true, true, true⟩ [rs] len = true → operand s iss rs = ⟨Ty.code, a⟩ →
      a.extractLsb' 0 2 = 0 → exec (.jr iss rs) s = .next (goesTo s iss (found s iss) a id)) ∧
    (∀ (d : BitVec 15) (n : Word), issues s iss .nativeOnly [rs] len = true → operand s iss rs = TWord.fix n →
      n.getLsbD 31 = false →
      (n = 0 → exec (.dbnz iss rs d) s = .next (leaves s iss len (found s iss))) ∧
      (n = 1 → exec (.dbnz iss rs d) s = .next (goesOn s iss len fun x => x.setReg rs (TWord.fix 0))) ∧
      (1 < n.toNat → exec (.dbnz iss rs d) s =
        .next (goesTo s iss (found s iss) ((context s iss).pc + (d.signExtend 32 <<< 1)) fun x =>
          x.setReg rs (TWord.fix (n - 1))))) ∧
    (∀ (p : P3) (inv : Bool) (cm1 : BitVec 2), canIssue (s.ctx iss.ctx) = true → (s.ctx iss.ctx).cstat.mode = false →
      iss.short = true → iss.gp = 0 → iss.gi = false → (s.ctx iss.ctx).pc.getLsbD 0 = false → (s.ctx iss.ctx).cstat.gcnt = 0 →
      exec (.guard iss p inv cm1) s = .next (s.modCtx iss.ctx fun x =>
        { x with pc := x.pc + 2, cstat := { x.cstat with gcnt := cm1.setWidth 3 + 1, gpred := p, ginv := inv } })) ∧
    (∀ (d : BitVec 16) (b : Bool), issues s iss .zekiefOnly [rs] len = true → operand s iss rs = TWord.bool b →
      exec (.zekiefBt iss rs d) s = .next (if b
        then goesTo s iss (found s iss) ((context s iss).pc + (d.signExtend 32 <<< 2)) id else leaves s iss len (found s iss)) ∧
      exec (.zekiefBf iss rs d) s = .next (if b
        then leaves s iss len (found s iss) else goesTo s iss (found s iss) ((context s iss).pc + (d.signExtend 32 <<< 2)) id)) ∧
    (∀ d : BitVec 26, issues s iss .zekiefOnly [] len = true →
      exec (.zekiefJ iss d) s = .next (goesTo s iss (found s iss) ((context s iss).pc + (d.signExtend 32 <<< 2)) id))

/-- CALL and CALLR push the return address, take the next window and write the address as a RET word in its w7; RET goes to
the RET word in w7 after the check against the return stack and gives the window back; ZCALL and ZRET do the same through x31
without windows (R244–R247, R259, R260). -/
def Sys2Proof.Clause.CallsReturns : Prop :=
  ∀ (s t : State) (iss : Iss) (rs : R5) (len : Nat), (context s iss).cstat.shadow = false →
    (∀ r : List (Word × Bool) × TWord × BitVec 8, (context s iss).wptr.resw ≠ 7 →
      pushReturn iss.ctx ((context s iss).pc + BitVec.ofNat 32 len) (found s iss) = .ok r t →
      (∀ d : BitVec 20, issues s iss .nativeOnly [23] len = true →
        exec (.call iss d) s = .next (goesTo s iss t ((context s iss).pc + (d.signExtend 32 <<< 1)) fun x =>
          { x with rs := r.1, ssp := r.2.1,
                   wptr := { x.wptr with cwp := x.wptr.cwp + 1, resw := x.wptr.resw + 1, unchk := r.2.2 } }.setReg 7
            ⟨Ty.ret, (context s iss).pc + BitVec.ofNat 32 len⟩)) ∧
      (∀ a : Word, issues s iss ⟨true, true, false⟩ [rs, 23] len = true → operand s iss rs = ⟨Ty.code, a⟩ →
        a.extractLsb' 0 2 = 0 →
        exec (.callr iss rs) s = .next (goesTo s iss t a fun x =>
          { x with rs := r.1, ssp := r.2.1,
                   wptr := { x.wptr with cwp := x.wptr.cwp + 1, resw := x.wptr.resw + 1, unchk := r.2.2 } }.setReg 7
            ⟨Ty.ret, (context s iss).pc + BitVec.ofNat 32 len⟩))) ∧
    (∀ (a : Word) (r : List (Word × Bool) × TWord × BitVec 8), issues s iss ⟨true, true, false⟩ [7] len = true →
      operand s iss 7 = ⟨Ty.ret, a⟩ → (context s iss).wptr.resw ≠ 1 →
      checkReturn iss.ctx ⟨Ty.ret, a⟩ (found s iss) = .ok r t →
      exec (.ret iss) s = .next (goesTo s iss t a fun x =>
        { x with rs := r.1, ssp := r.2.1,
                 wptr := { x.wptr with cwp := x.wptr.cwp - 1, resw := x.wptr.resw - 1, unchk := r.2.2 } })) ∧
    (∀ (d : BitVec 26) (r : List (Word × Bool) × TWord × BitVec 8), issues s iss .zekiefOnly [31] len = true →
      pushReturn iss.ctx ((context s iss).pc + 4) (found s iss) = .ok r t →
      exec (.zcall iss d) s = .next (goesTo s iss t ((context s iss).pc + (d.signExtend 32 <<< 2)) fun x =>
        { x with rs := r.1, ssp := r.2.1, wptr := { x.wptr with unchk := r.2.2 } }.setReg 31
          ⟨Ty.ret, (context s iss).pc + 4⟩)) ∧
    (∀ (a : Word) (r : List (Word × Bool) × TWord × BitVec 8), issues s iss .zekiefOnly [31] len = true →
      operand s iss 31 = ⟨Ty.ret, a⟩ → checkReturn iss.ctx ⟨Ty.ret, a⟩ (found s iss) = .ok r t →
      exec (.zret iss) s = .next (goesTo s iss t a fun x =>
        { x with rs := r.1, ssp := r.2.1, wptr := { x.wptr with unchk := r.2.2 } }))

/-- The return stack: a push with room adds the address, checked, on top; a return of the address on top removes it; with the
stack empty and unchecked frames counted, a return goes unchecked and the count falls by one (R259, Table 07-9). -/
def Sys2Proof.Clause.ReturnStack : Prop :=
  ∀ (c : CtxId) (s : State) (a b : Word) (k : Bool) (r : List (Word × Bool)),
    ((s.ctx c).rs.length < 16 →
      pushReturn c a s = .ok ((a, true) :: (s.ctx c).rs, (s.ctx c).ssp, (s.ctx c).wptr.unchk) s) ∧
    ((s.ctx c).rs = (a, k) :: r →
      (a = b ∨ k = false → checkReturn c ⟨Ty.ret, b⟩ s = .ok (r, (s.ctx c).ssp, (s.ctx c).wptr.unchk) s) ∧
      (a ≠ b → k = true → checkReturn c ⟨Ty.ret, b⟩ s = trapW Cause.rsMismatch ⟨Ty.ret, b⟩ s)) ∧
    ((s.ctx c).rs = [] → (s.ctx c).cstat.rsmode = false →
      ((s.ctx c).wptr.unchk ≠ 0 → checkReturn c ⟨Ty.ret, b⟩ s = .ok ([], (s.ctx c).ssp, (s.ctx c).wptr.unchk - 1) s) ∧
      ((s.ctx c).wptr.unchk = 0 → checkReturn c ⟨Ty.ret, b⟩ s = trapN Cause.rsEmpty s))

namespace Sys2Proof.Machine

/-- The context after an iteration of a repeat: the pointers in ptrs lead 4 bytes further on, their TYPE kept, and the count in
rc is one less (R288–R290). -/
def iterated (ptrs : List R5) (rc : R5) (x : Ctx) : Ctx :=
  let y := ptrs.foldl (fun x r => x.setReg r ⟨(x.reg r).ty, (x.reg r).val + 4⟩) x
  y.setReg rc (TWord.fix ((y.reg rc).val - 1))

/-- What an iteration leaves: the instruction is done when its count in rc is 0, and else stands at its boundary (R291). -/
def repeats (s : State) (iss : Iss) (len : Nat) (rc : R5) (t : State) : State :=
  if ((t.ctx iss.ctx).reg rc).val = 0 then leaves s iss len t else stands s iss t

/-- The word v has been stored at the word of base, where it may be carried and stored: a merging-buffer entry is made free for
it first where it needs one (R62, R70, R71, R290, R406). -/
def repeatStored (c : CtxId) (base v : TWord) (s t : State) : Prop :=
  carried v = true ∧ baseOk (privOf c s) base = true ∧ storable (privOf c s) false v.ty = true ∧ ∃ g u w,
    storeTarget c ⟨freeBase base, false⟩ .store base.val v s = .ok g u ∧
    (if regionOf u g.pa = .data then makeRoom c (lineNo g.pa) u else .ok () u) = .ok () w ∧ storeDo c v g w = .ok () t

end Sys2Proof.Machine

/-- RMOV, RFILL and RSCAN of three distinct registers and a count that is not negative: of a count of 0 they change nothing.
Else an iteration of RMOV stores the word that rs points to at the word that rd points to, one of RFILL stores the word in rs
there, and both pointers, or RFILL's one, advance by 4 and the count falls by one; one of RSCAN compares the word that rd
points to with rs: of the same TYPE and payload it sets pd and ends, else pointer and count move on, and the last word leaves
pd clear. The instruction is done when its count is 0, and else stands at its boundary with RPT set (R288–R291). The order of
RMOV's two addresses is log entry 82. -/
def Obligations.BlockRepeats : Prop :=
  ∀ (s t : State) (iss : Iss) (rd rs rt : R5) (pd : P3) (len : Nat) (n : Word) (w : MWord),
    issues s iss .nativeOnly [rd, rs, rt] len = true → rd ≠ rs → rs ≠ rt → rd ≠ rt →
    operand s iss rt = TWord.fix n → n.getLsbD 31 = false →
    (n = 0 → exec (.rmov iss rd rs rt) s = .next (leaves s iss len (found s iss)) ∧
      exec (.rfill iss rd rs rt) s = .next (leaves s iss len (found s iss)) ∧
      exec (.rscan iss rd rs rt pd) s = .next (leaves s iss len (found s iss))) ∧
    (n ≠ 0 → baseOk (context s iss).cstat.priv (operand s iss rd) = true →
      (operand s iss rd).val.extractLsb' 0 2 = 0 →
      (∀ x y z : State, baseOk (context s iss).cstat.priv (operand s iss rs) = true →
        (operand s iss rs).val.extractLsb' 0 2 = 0 →
        checkReached iss.ctx .load (operand s iss rs).val [] (found s iss) = .ok () x →
        checkReached iss.ctx .store (operand s iss rd).val [] x = .ok () y →
        baseOk (privOf iss.ctx y) (operand s iss rs) = true → loadWord iss.ctx (operand s iss rs).val y = .ok w z →
        repeatStored iss.ctx (operand s iss rd) w.t z t →
        exec (.rmov iss rd rs rt) s = .next (repeats s iss len rt (t.modCtx iss.ctx (iterated [rs, rd] rt)))) ∧
      (repeatStored iss.ctx (operand s iss rd) (operand s iss rs) (found s iss) t →
        exec (.rfill iss rd rs rt) s = .next (repeats s iss len rt (t.modCtx iss.ctx (iterated [rd] rt)))) ∧
      (usable (operand s iss rs) = true → loadWord iss.ctx (operand s iss rd).val (found s iss) = .ok w t →
        usable w.t = true →
        (w.t = operand s iss rs →
          exec (.rscan iss rd rs rt pd) s = .next (leaves s iss len (t.modCtx iss.ctx fun x => x.setPred pd true))) ∧
        (w.t ≠ operand s iss rs →
          exec (.rscan iss rd rs rt pd) s = .next (
            let u := t.modCtx iss.ctx (iterated [rd] rt)
            if ((u.ctx iss.ctx).reg rt).val = 0 then leaves s iss len (u.modCtx iss.ctx fun x => x.setPred pd false)
            else stands s iss u))))

namespace Sys2Proof.Machine

/-- FADD, FSUB, FMUL, FDIV, FMIN, FMAX. -/
inductive FpOp where
  | add | sub | mul | div | min | max
  deriving DecidableEq, Repr

def fpInstr (op : FpOp) (iss : Iss) (fd fs ft : R5) : Instr :=
  match op with
  | .add => .fadd iss fd fs ft
  | .sub => .fsub iss fd fs ft
  | .mul => .fmul iss fd fs ft
  | .div => .fdiv iss fd fs ft
  | .min => .fmin iss fd fs ft
  | .max => .fmax iss fd fs ft

def fpResult (op : FpOp) (rm : BitVec 2) (a b : Word) : Word × Fflags :=
  match op with
  | .add => f32Add rm a b
  | .sub => f32Sub rm a b
  | .mul => f32Mul rm a b
  | .div => f32Div rm a b
  | .min => (f32MinMax false a b, 0)
  | .max => (f32MinMax true a b, 0)

end Sys2Proof.Machine

/-- FADD, FSUB, FMUL, FDIV, FMIN, FMAX, FSQRT and FMA of operands that are no signalling NaN, FNEG, FABS and FMV: the core's
file is the context's, the result is written to fd, which sets the dirty bit, and the flags accumulate (R78, R257, R313). FMIN
and FMAX of zeros and of quiet NaNs are log entry 20. -/
def Sys2Proof.Clause.FloatOperations : Prop :=
  ∀ (s u : State) (iss : Iss) (fd fs ft : R5) (len : Nat),
    issues s iss .nativeOnly [] len = true → fpReady (s.ctx iss.ctx) [fd, fs] = true → fd.toNat < 16 → fs.toNat < 16 →
    takeFp iss.ctx (found s iss) = .ok () u →
    (∀ op : FpOp, ft.toNat < 16 → fpReady (s.ctx iss.ctx) [fd, fs, ft] = true → isSnan (fget iss.ctx fs u) = false → isSnan (fget iss.ctx ft u) = false →
      exec (fpInstr op iss fd fs ft) s = .next (leaves s iss len
        (raiseFlags iss.ctx (fpResult op (roundMode iss.ctx u) (fget iss.ctx fs u) (fget iss.ctx ft u)).2
          (fput iss.ctx fd (fpResult op (roundMode iss.ctx u) (fget iss.ctx fs u) (fget iss.ctx ft u)).1 u)))) ∧
    (isSnan (fget iss.ctx fs u) = false →
      exec (.fsqrt iss fd fs) s = .next (leaves s iss len
        (raiseFlags iss.ctx (f32Sqrt (roundMode iss.ctx u) (fget iss.ctx fs u)).2
          (fput iss.ctx fd (f32Sqrt (roundMode iss.ctx u) (fget iss.ctx fs u)).1 u)))) ∧
    (∀ r : Word × Fflags × Bool, ft.toNat < 16 → fpReady (s.ctx iss.ctx) [fd, fs, ft] = true →
      r = f32Fma (roundMode iss.ctx u) (fget iss.ctx fs u) (fget iss.ctx ft u) (fget iss.ctx fd u) →
      isSnan (fget iss.ctx fd u) = false → isSnan (fget iss.ctx fs u) = false → isSnan (fget iss.ctx ft u) = false →
      (r.2.2 = false →
        exec (.fma iss fd fs ft) s = .next (leaves s iss len (raiseFlags iss.ctx r.2.1 (fput iss.ctx fd r.1 u)))) ∧
      (r.2.2 = true → ∃ fl : Fflags, (fl = r.2.1 ∨ fl = r.2.1 ||| Fflags.invalid) ∧
        exec (.fma iss fd fs ft) s = .next (leaves s iss len
          (raiseFlags iss.ctx fl (fput iss.ctx fd r.1 { u with freeCtr := u.freeCtr + 1 }))))) ∧
    exec (.fneg iss fd fs) s = .next (leaves s iss len (fput iss.ctx fd (fget iss.ctx fs u ^^^ 0x80000000) u)) ∧
    exec (.fabs iss fd fs) s = .next (leaves s iss len (fput iss.ctx fd (fget iss.ctx fs u &&& 0x7FFFFFFF) u)) ∧
    exec (.fmv iss fd fs) s = .next (leaves s iss len (fput iss.ctx fd (fget iss.ctx fs u) u))

/-- FEQ, FLT, FLE, FUN, MTF, MFF, CVTIF, CVTFI, FLD and FST (R78, R307, R313, R314). -/
def Sys2Proof.Clause.FloatComparesMoves : Prop :=
  ∀ (s u : State) (iss : Iss) (f g : R5) (r : R5) (pd : P3) (len : Nat), f.toNat < 16 →
    fpReady (s.ctx iss.ctx) [f] = true → takeFp iss.ctx (found s iss) = .ok () u →
    (∀ o : Option Ordering, issues s iss .nativeOnly [] len = true → g.toNat < 16 → fpReady (s.ctx iss.ctx) [f, g] = true → isSnan (fget iss.ctx f u) = false →
      isSnan (fget iss.ctx g u) = false → o = realCmp (realOfF32 (fget iss.ctx f u)) (realOfF32 (fget iss.ctx g u)) →
      exec (.feq iss pd f g) s = .next (goesOnFrom s iss len u fun x => x.setPred pd (o == some .eq)) ∧
      exec (.fun iss pd f g) s = .next (goesOnFrom s iss len u fun x => x.setPred pd o.isNone) ∧
      exec (.flt iss pd f g) s = .next (goesOnFrom s iss len
        (if o = none then raiseFlags iss.ctx Fflags.invalid u else u) fun x => x.setPred pd (o == some .lt)) ∧
      exec (.fle iss pd f g) s = .next (goesOnFrom s iss len
        (if o = none then raiseFlags iss.ctx Fflags.invalid u else u) fun x =>
          x.setPred pd (o == some .lt || o == some .eq))) ∧
    (issues s iss .nativeOnly [r] len = true →
      (∀ v : Word, (u.ctx iss.ctx).reg r = ⟨Ty.flt, v⟩ → exec (.mtf iss f r) s = .next (leaves s iss len (fput iss.ctx f v u))) ∧
      exec (.mff iss r f) s = .next (goesOnFrom s iss len u fun x => x.setReg r ⟨Ty.flt, fget iss.ctx f u⟩) ∧
      (∀ (n : Int) (v : State), isInt ((u.ctx iss.ctx).reg r).ty = true → intOf iss.ctx ((u.ctx iss.ctx).reg r) u = .ok n v →
        exec (.cvtif iss f r) s = .next (leaves s iss len (fput iss.ctx f (f32OfInt (roundMode iss.ctx v) n).1
          (raiseFlags iss.ctx (f32OfInt (roundMode iss.ctx v) n).2 v)))) ∧
      (isSnan (fget iss.ctx f u) = false →
        exec (.cvtfi iss r f) s = .next (goesOnFrom s iss len
          (raiseFlags iss.ctx (f32ToInt (roundMode iss.ctx u) (fget iss.ctx f u)).2 u) fun x =>
            x.setReg r (TWord.fix (f32ToInt (roundMode iss.ctx u) (fget iss.ctx f u)).1))) ∧
      (∀ (d : BitVec 10) (w : MWord) (v : State) (b : TWord), b = (u.ctx iss.ctx).reg r →
        baseOk (u.ctx iss.ctx).cstat.priv b = true →
        (loadWord iss.ctx (b.val + disp10 d) u = .ok w v → w.ty = Ty.flt →
          exec (.fld iss (f.setWidth 4) r d) s =
            .next (leaves s iss len (addLoad iss.ctx (.fp f.toNat) w.t false v))) ∧
        (storeWord iss.ctx ⟨freeBase b, false⟩ (b.val + disp10 d) ⟨Ty.flt, fget iss.ctx f u⟩ u = .ok () v →
          exec (.fst iss (f.setWidth 4) r d) s = .next (leaves s iss len v))))

/-- DECIDE, ZDECIDE, SPAWN, WAITJ, WAITR, EXIT, YIELD and CGROW: a DECIDE's request goes to the HUB and the context waits for
the answer; a SPAWN's request goes to the HUB; a wait clears PEND and goes on, or gives the context up; EXIT ends the task;
CGROW takes spans (R104, R182, R185, R195, R196, R316). -/
def Obligations.TaskInstructions : Prop :=
  ∀ (s u : State) (iss : Iss) (rs rt ru : R5) (len : Nat) (a : Word),
    (∀ (h : BitVec 19) (i : Nat) (lo hi : TWord), handleOf (found s iss) iss.ctx = some h → (context s iss).task = some i →
      operand s iss rs = TWord.fix a → (a.toNat ≤ 1 ∨ 8 ≤ a.toNat ∧ a.toNat ≤ 15) →
      operand s iss rt = lo → (lo.ty = Ty.fix ∨ lo.ty = Ty.raw) → operand s iss ru = hi → (hi.ty = Ty.fix ∨ hi.ty = Ty.raw) →
      (∀ pd : P3, issues s iss .nativeOnly [rs, rt, ru] len = true →
        exec (.decide iss pd rs rt ru) s = .next (waitsIn s iss len
          { found s iss with ll := { (found s iss).ll with
            decides := (found s iss).ll.decides ++ [⟨iss.ctx, i, h, a.setWidth 4, hi.val ++ lo.val, some pd, true⟩] } } .stalled .decide)) ∧
      (issues s iss .zekiefOnly [rs, rt, ru] len = true →
        exec (.zdecide iss rs rt ru) s = .next (waitsIn s iss len
          { found s iss with ll := { (found s iss).ll with
            decides := (found s iss).ll.decides ++ [⟨iss.ctx, i, h, a.setWidth 4, hi.val ++ lo.val, none, true⟩] } } .stalled .decide))) ∧
    (∀ (b : Word) (t : Templ), issues s iss .nativeOnly [rs, rt] len = true → operand s iss rs = TWord.fix a →
      operand s iss rt = TWord.fix b → templateAt (found s iss) a = some t → drainAll iss.ctx 8 (found s iss) = .ok () u →
      exec (.spawn iss rs rt) s = .next (leaves s iss len
        { u with ll := { u.ll with spawns := u.ll.spawns ++
          [⟨a.toNat, TWord.fix b, handleOf u iss.ctx, spawnDeadline u (u.ctx iss.ctx).task t⟩] } })) ∧
    (∀ i : Nat, issues s iss .nativeZekief [rs] len = true → (context s iss).cstat.shadow = false →
      operand s iss rs = TWord.fix a → (context s iss).task = some i →
      (((found s iss).task i).pend = true →
        exec (.waitj iss rs) s = .next (leaves s iss len
          (putTask i (fun t => { t with waitKind := 3, waitId := a.setWidth 16, pend := false }) (found s iss)))) ∧
      (((found s iss).task i).pend = false →
        (jobOutstanding (found s iss) i a = false →
          exec (.waitj iss rs) s = .next (leaves s iss len
            (putTask i (fun t => { t with waitKind := 3, waitId := a.setWidth 16 }) (found s iss)))) ∧
        (jobOutstanding (found s iss) i a = true →
          exec (.waitj iss rs) s = .next (waitsIn s iss len
            (putTask i (fun t => { t with waitKind := 3, waitId := a.setWidth 16, st := .waiting }) (found s iss))
            .waiting .none))) ∧
      (a.toNat < s.bl.ring.lv.cnt.toNat →
        u = { found s iss with ll := { (found s iss).ll with
          listeners := Tab.set none (found s iss).ll.listeners a.toNat (some i) } } →
        (((found s iss).task i).pend = true →
          exec (.waitr iss rs) s = .next (leaves s iss len
            (putTask i (fun t => { t with waitKind := 4, waitId := a.setWidth 16, pend := false }) u))) ∧
        (((found s iss).task i).pend = false →
          exec (.waitr iss rs) s = .next (waitsIn s iss len
            (putTask i (fun t => { t with waitKind := 4, waitId := a.setWidth 16, st := .waiting }) u) .waiting .none)))) ∧
    (issues s iss .nativeZekief [] len = true →
      (∀ i : Nat, (context s iss).task = some i → exec (.exit iss) s = .next (endTask i (found s iss))) ∧
      exec (.yield iss) s = .next (finish iss.ctx (s.ctx iss.ctx) len .yielded (found s iss))) ∧
    (∀ (h : BitVec 19) (n : Nat), issues s iss .nativeOnly [rs] len = true → operand s iss rs = TWord.fix a →
      handleOf (found s iss) iss.ctx = some h → a.toNat ≤ 256 →
      n = (if a = 0 then s.cn.run.lv.growSpans.toNat else a.toNat) → u = coolDue (found s iss) →
      grantCause (hSlot h) n u = none → exec (.cgrow iss rs) s = .next (leaves s iss len (takeSpans (hSlot h) true n u)))

/-- TSUB takes a free entry of 128 to 1023 for its job, with the next GEN of the entry and an engine of TP_GRAPH_MASK with the
fewest jobs, and answers both as the job ID, or it answers NIL and counts where none is free; MSEND queues the object's words
for its destination, or answers false where the core's send buffer is full; XLD sends its request and waits for the reply; XST
sends its word (R219, R221, R317, R318). Which free entry TSUB takes is free (log entry 22). -/
def Obligations.FabricTaperInstructions : Prop :=
  ∀ (s t u v : State) (iss : Iss) (rd rs rt : R5) (len : Nat) (h : Word × MWord) (a i : Word),
    (issues s iss .nativeOnly [rd, rs] len = true → (operand s iss rs).ty = Ty.rec_ →
      objHead iss.ctx (operand s iss rs) (found s iss) = .ok h t → hdrLen h.2.val = 12 → hdrSub h.2.val = 0xC3 →
      h.2.imm = false → drainAll iss.ctx 8 t = .ok () u →
      ((∀ i, 128 ≤ i → i < 1024 → (u.job i).isSome = true) →
        exec (.tsub iss rd rs) s = .next (goesOnFrom s iss len (bump Cnt.tpFull u) fun x => x.setReg rd TWord.nil)) ∧
      ((∃ i, 128 ≤ i ∧ i < 1024 ∧ u.job i = none) → ∃ (k e : Nat) (w : State) (j : Job),
        128 ≤ k ∧ k < 1024 ∧ u.job k = none ∧ (w = u ∨ w = { u with freeCtr := u.freeCtr + 1 }) ∧
        e ∈ engineList u.tp.graphMask 0x01 ∧
        (∀ f ∈ engineList u.tp.graphMask 0x01, (queuedOn u e).length ≤ (queuedOn u f).length) ∧
        j = { gen := Tab.get 0 u.tp.gens k + 1, record := h.1, asid := (u.ctx iss.ctx).asid,
              priv := (u.ctx iss.ctx).cstat.priv, owner := handleOf u iss.ctx, task := (u.ctx iss.ctx).task,
              deadline := (match (u.ctx iss.ctx).task with | some i => (u.task i).deadline | none => 0),
              eng := BitVec.ofNat 3 e, plan := none, killed := false } ∧
        exec (.tsub iss rd rs) s = .next (goesOnFrom s iss len
          { w with tp := { w.tp with jobs := Tab.set none w.tp.jobs k (some j),
                                     gens := Tab.set 0 w.tp.gens k (Tab.get 0 u.tp.gens k + 1) } }
          fun x => x.setReg rd (TWord.fix ((0 : BitVec 16) ++ (Tab.get 0 u.tp.gens k + 1) ++ BitVec.ofNat 10 k))))) ∧
    (∀ body : List MWord, issues s iss .nativeZekief [rd, rs, rt] len = true → operand s iss rs = TWord.fix a →
      a.extractLsb' 10 6 = 0 → isSendable (operand s iss rt).ty = true →
      objHead iss.ctx (operand s iss rt) (found s iss) = .ok h t → hdrLen h.2.val ≤ 63 →
      objectWords iss.ctx (hdrLen h.2.val) (h.1 + 4) t = .ok body u → drainAll iss.ctx 8 u = .ok () v →
      (8 ≤ (v.core (coreOf iss.ctx)).send.length →
        exec (.msend iss rd rs rt) s = .next (goesOnFrom s iss len v fun x => x.setReg rd (TWord.bool false))) ∧
      ((v.core (coreOf iss.ctx)).send.length < 8 →
        exec (.msend iss rd rs rt) s = .next (goesOnFrom s iss len
          (v.modCore (coreOf iss.ctx) fun k => { k with send := k.send ++
            [⟨a.extractLsb' 16 16, a.extractLsb' 0 10, (handleOf v iss.ctx).map fun h => (v.event (hSlot h)).crossing,
              (operand s iss rt).ty, h.2.t.m :: body, handleOf v iss.ctx, iss.ctx⟩] })
          fun x => x.setReg rd (TWord.bool true)))) ∧
    (∀ e : MWord × MWord, issues s iss .nativeZekief [rd, rs, rt] len = true → (operand s iss rs).ty = Ty.ext →
      operand s iss rt = TWord.fix i → extCell iss.ctx (operand s iss rs) (found s iss) = .ok e t →
      drainAll iss.ctx 8 t = .ok () u →
      (∃ r : RemReq, r.txid = u.bl.txNext ∧ r.kind = .xld ∧ r.ctx = some iss.ctx ∧
        r.xld.map XldWait.loc = some (regLoc (u.ctx iss.ctx) rd) ∧
        r.xld.map XldWait.va = some (e.2.val + 4 + (i <<< 2)) ∧ r.xld.map XldWait.idx = some (TWord.fix i) ∧
        exec (.xld iss rd rs rt) s = .next (waitsIn s iss len
          (post (e.1.val.extractLsb' 16 16) u.bl.txNext 0x08 [e.1, e.2, (TWord.fix i).m] []
            { u with bl := { u.bl with txNext := nextTx u.bl.txNext, reqs := u.bl.reqs ++ [r] } }) .stalled .xld)) ∧
      (carried (operand s iss rd) = true → storable (context s iss).cstat.priv false (operand s iss rd).ty = true →
        exec (.xst iss rd rs rt) s = .next (leaves s iss len
          (post (e.1.val.extractLsb' 16 16) u.bl.txNext 0x09 [e.1, e.2, (TWord.fix i).m, remoteForm (operand s iss rd)] []
            { u with bl := { u.bl with txNext := nextTx u.bl.txNext,
                                       reqs := u.bl.reqs ++ [⟨u.bl.txNext, .write, 0, none, 0, none⟩] } }))))

/-- CLEAN, INV, CLINV, IINV, CRNG_CLEAN, CRNG_INVALIDATE, CRNG_CLEAN_INVALIDATE, CSYNC, TLBINV, TLBASID, TLBALL, WCINV, WCALL,
FENCE and IFENCE (R287, R319, R320, R400, R409, R423; Table 13-3). That FENCE without its store bits has no earlier load to
wait for is log entry 12. -/
def Obligations.Maintenance : Prop :=
  ∀ (s t u : State) (iss : Iss) (rs rt : R5) (len : Nat) (ln : Nat),
    (∀ i : Nat, issues s iss .nativeOnly [rs] len = true → addressOk (context s iss).cstat.priv (operand s iss rs) = true →
      ((if (t.core (coreOf iss.ctx)).merge.any fun m => m.line = ln then drainLine iss.ctx ln i t else .ok () t) = .ok () u →
        (lineAt iss.ctx .load (operand s iss rs).val (found s iss) = .ok (some (ln, i)) t →
          exec (.clean iss rs) s = .next (leaves s iss len (cleanLine (lanOf iss.ctx) ln u))) ∧
        (lineAt iss.ctx .store (operand s iss rs).val (found s iss) = .ok (some (ln, i)) t →
          ((context s iss).cstat.priv ≠ 0 →
            exec (.inv iss rs) s = .next (leaves s iss len (discardLine (lanOf iss.ctx) ln u))) ∧
          exec (.clinv iss rs) s = .next (leaves s iss len (evict (lanOf iss.ctx) ln u)))) ∧
      (lineAt iss.ctx .load (operand s iss rs).val (found s iss) = .ok (some (ln, i)) t →
        exec (.iinv iss rs) s = .next (leaves s iss len
          (t.modCore (coreOf iss.ctx) fun k => { k with l1i := l1Drop k.l1i ln })))) ∧
    (∀ n : Word, issues s iss .nativeOnly [rs, rt] len = true →
      addressOk (context s iss).cstat.priv (operand s iss rs) = true → operand s iss rt = TWord.fix n → n.getLsbD 31 = false →
      n ≠ 0 → ((found s iss).lan (lanOf iss.ctx)).ranges = [] → ∀ op : RangeOp,
      u = ((found s iss).modLan (lanOf iss.ctx) fun l =>
        { l with ranges := [⟨iss.ctx, (context s iss).asid, (context s iss).cstat.priv, (operand s iss rs).val, n.toNat, op⟩] }) →
      (op = .clean → exec (.crngClean iss rs rt) s = .next (leaves s iss len u)) ∧
      (op = .invalidate → (context s iss).cstat.priv ≠ 0 →
        exec (.crngInvalidate iss rs rt) s = .next (leaves s iss len u)) ∧
      (op = .cleanInvalidate → exec (.crngCleanInvalidate iss rs rt) s = .next (leaves s iss len u))) ∧
    (issues s iss .nativeOnly [] len = true →
      (((found s iss).lan (lanOf iss.ctx)).ranges = [] → exec (.csync iss) s = .next (leaves s iss len (found s iss))) ∧
      ((context s iss).cstat.priv ≠ 0 →
        exec (.tlball iss) s = .next (leaves s iss len (keepTlbs (fun _ => false) (found s iss))) ∧
        exec (.wcall iss) s = .next (leaves s iss len (keepWcs (fun _ => false) (found s iss)))) ∧
      (drainAll iss.ctx 8 (found s iss) = .ok () u →
        exec (.ifence iss) s = .next (leaves s iss len (u.modCore (coreOf iss.ctx) fun k => { k with l1i := [] })))) ∧
    (∀ (n : Word) (va : Word), (context s iss).cstat.priv ≠ 0 → operand s iss rt = TWord.fix n → n.toNat ≤ 4095 →
      va = (operand s iss rs).val →
      (issues s iss .nativeOnly [rs, rt] len = true → addressOk (context s iss).cstat.priv (operand s iss rs) = true →
        exec (.tlbinv iss rs rt) s =
          .next (leaves s iss len (keepTlbs (fun e => !e.hits (n.setWidth 12) va) (found s iss))) ∧
        exec (.wcinv iss rs rt) s = .next (leaves s iss len
          (keepWcs (fun e => !(e.asid = n.setWidth 12 && e.region = va.extractLsb' 22 10)) (found s iss)))) ∧
      (issues s iss .nativeOnly [rt] len = true →
        exec (.tlbasid iss rt) s = .next (leaves s iss len
          (keepWcs (fun e => e.asid ≠ n.setWidth 12)
            (keepTlbs (fun e => e.g || e.asid ≠ n.setWidth 12) (found s iss)))))) ∧
    (∀ m : BitVec 4, issues s iss .nativeOnly [] len = true →
      ((m.getLsbD 2 = true ∨ m.getLsbD 3 = true) → drainAll iss.ctx 8 (found s iss) = .ok () u →
        exec (.fence iss m) s = .next (leaves s iss len u)) ∧
      (m.getLsbD 2 = false → m.getLsbD 3 = false → exec (.fence iss m) s = .next (leaves s iss len (found s iss))))

/-- MFC, MTC, XGET, XPUT, MCVER and RDTB: control registers by number with their levels, registers of resident contexts
through XBANK, the sequencer's identity words and the time base (R249, R250, R263, R293, R321, R323, R377). That MTC of a
read-only field, CTXID above USER among them, is ignored is log entry 45. -/
def Obligations.SystemRegisters : Prop :=
  ∀ (s : State) (iss : Iss) (rd rs : R5) (len : Nat),
    (∀ cr : R5, issues s iss .nativeZekief [rd] len = true → (context s iss).cstat.priv ≠ 0 →
      exec (.mfc iss rd cr) s = .next (goesOn s iss len fun x => x.setReg rd (
        if cr = 0 then TWord.raw (context s iss).cstat.pack else if cr = 1 then (context s iss).epc
        else if cr = 2 then (context s iss).estat else if cr = 3 then TWord.raw (context s iss).xbank.pack
        else if cr = 4 then (context s iss).savep else if cr = 5 then (context s iss).saveb
        else if cr = 6 then (context s iss).ssp else if cr = 7 then TWord.raw (context s iss).wptr.pack
        else if cr = 8 then TWord.raw (ctxidWord s.node iss.ctx) else TWord.raw 0))) ∧
    (∀ v : Word, issues s iss .nativeZekief [rs] len = true → operand s iss rs = TWord.raw v →
      ((context s iss).cstat.priv ≠ 0 →
        exec (.mtc iss 1 rs) s = .next (goesOn s iss len fun x => { x with epc := TWord.raw v }) ∧
        exec (.mtc iss 2 rs) s = .next (goesOn s iss len fun x => { x with estat := TWord.raw v }) ∧
        exec (.mtc iss 3 rs) s = .next (goesOn s iss len fun x => { x with xbank := Xbank.unpack v }) ∧
        exec (.mtc iss 6 rs) s = .next (goesOn s iss len fun x => { x with ssp := TWord.raw v }) ∧
        exec (.mtc iss 7 rs) s = .next (goesOn s iss len fun x => { x with wptr := Wptr.unpack v }) ∧
        exec (.mtc iss 8 rs) s = .next (goesOn s iss len id)) ∧
      ((Cstat.unpack v).priv ≤ (context s iss).cstat.priv →
        ((Cstat.unpack v).mode = (context s iss).cstat.mode →
          exec (.mtc iss 0 rs) s = .next (goesOn s iss len fun x =>
            { x with cstat := x.cstat.written (Cstat.unpack v), msh := none })) ∧
        ((Cstat.unpack v).mode ≠ (context s iss).cstat.mode → (context s iss).cstat.gcnt.toNat ≤ 1 →
          exec (.mtc iss 0 rs) s = .next (goesOn s iss len fun x =>
            { x with cstat := x.cstat.written (Cstat.unpack v), msh := some (Cstat.unpack v).mode })))) ∧
    (∀ v : Word, issues s iss .nativeZekief [rs] len = true → (context s iss).cstat.priv ≠ 0 →
      operand s iss rs = ⟨Ty.save, v⟩ → v.extractLsb' 0 6 = 0 →
      exec (.mtc iss 4 rs) s = .next (goesOn s iss len fun x => { x with savep := ⟨Ty.save, v⟩ }) ∧
      exec (.mtc iss 5 rs) s = .next (goesOn s iss len fun x => { x with saveb := ⟨Ty.save, v⟩ })) ∧
    (∀ c : CtxId, issues s iss .nativeOnly [rd] len = true → noLateLoads (s.ctx iss.ctx) = true → xbTarget iss.ctx false (found s iss) = .ok c (found s iss) →
      exec (.xget iss rd) s = .next (goesOnFrom s iss len (xbStep iss.ctx (found s iss)) fun x =>
        x.setReg rd (xbRead iss.ctx c (found s iss)))) ∧
    (∀ (c : CtxId) (t : State), issues s iss .nativeOnly [rs] len = true → noLateLoads (s.ctx iss.ctx) = true →
      xbTarget iss.ctx true (found s iss) = .ok c (found s iss) →
      xbWrite iss.ctx c (operand s iss rs) (found s iss) = .ok () t →
      exec (.xput iss rs) s = .next (leaves s iss len (xbStep iss.ctx t))) ∧
    (∀ n : Word, issues s iss .nativeOnly [rd, rs] len = true → operand s iss rs = TWord.fix n →
      (n.toNat ≤ 2 → exec (.mcver iss rd rs) s = .next (goesOn s iss len fun x =>
        x.setReg rd (TWord.raw (mcverWord (s.core (coreOf iss.ctx)).uc n.toNat)))) ∧
      (n = 0 → exec (.rdtb iss rd rs) s = .next (goesOn s iss len fun x =>
        { x with rdtb := s.time.extractLsb' 32 32 }.setReg rd ⟨Ty.time, s.time.setWidth 32⟩)) ∧
      (n = 1 → exec (.rdtb iss rd rs) s = .next (goesOn s iss len fun x => x.setReg rd (TWord.raw (context s iss).rdtb))))

namespace Sys2Proof.Machine

/-- The words of a lower frame (Table 07-8): g0 to g7, b0 to b3, CSTAT, the resume PC, WPTR with the predicates, and SSP. -/
def lowerWords (y : Ctx) (cs : Cstat) (pc : Word) (unchk : BitVec 8) (ssp : Word) : List TWord :=
  ((List.range 8).map fun i => Tab.get TWord.unset y.g i) ++ ((List.range 4).map fun i => Tab.get TWord.unset y.b i) ++
    [TWord.raw cs.pack, ⟨Ty.code, pc⟩,
     TWord.raw (({ y.wptr with unchk := unchk }).pack.extractLsb' 0 24 ++ (y.p &&& 0xFE)), TWord.raw ssp]

end Sys2Proof.Machine

/-- A push of n lines writes them at SAVEP where they end below 0x3C0, and else at 0x040 of the area that NEXT names, with
FILL and BACK; a pop reads the n lines below SAVEP, from where BACK and FILL lead when SAVEP is at 0x040 (R254, R255). -/
def Sys2Proof.Clause.SaveList : Prop :=
  ∀ (c : CtxId) (s t u : State) (p : Word) (ws : List TWord) (n : Nat),
    ((p &&& 0x3FF).toNat + 64 * (ws.length / 16) ≤ 0x3C0 → svCheck c (frameAt p ws) s = .ok () t →
      pushPlan c ⟨Ty.save, p⟩ false ws s = .ok (frameAt p ws, p + BitVec.ofNat 32 (4 * ws.length)) t) ∧
    (∀ (next : MWord) (links : List SvWrite), 0x3C0 < (p &&& 0x3FF).toNat + 64 * (ws.length / 16) →
      saveLoad c ((p &&& 0xFFFFFC00) + 0x3FC) s = .ok next t → next.ty = Ty.save →
      links = [⟨(p &&& 0xFFFFFC00) + 0x3F4, TWord.raw (p &&& 0x3FF), false⟩,
               ⟨next.val + 0x3F8, ⟨Ty.save, p &&& 0xFFFFFC00⟩, false⟩] →
      ∀ v : State, svCheck c links t = .ok () v → svCheck c (frameAt (next.val + 0x040) ws) v = .ok () u →
        pushPlan c ⟨Ty.save, p⟩ false ws s =
          .ok (links ++ frameAt (next.val + 0x040) ws, next.val + 0x040 + BitVec.ofNat 32 (4 * ws.length)) u) ∧
    (∀ l : List MWord, (p &&& 0x3FF) ≠ 0x040 → 0x040 + 64 * n ≤ (p &&& 0x3FF).toNat →
      saveLoads c (16 * n) (p - BitVec.ofNat 32 (64 * n)) s = .ok l t →
      pop c ⟨Ty.save, p⟩ n s = .ok (l, p - BitVec.ofNat 32 (64 * n)) t) ∧
    (∀ (l : List MWord) (back fill : MWord) (v : State), (p &&& 0x3FF) = 0x040 →
      saveLoad c ((p &&& 0xFFFFFC00) + 0x3F8) s = .ok back u → back.ty = Ty.save →
      saveLoad c (back.val + 0x3F4) u = .ok fill v → 0x040 + 64 * n ≤ ((back.val + fill.val) &&& 0x3FF).toNat →
      saveLoads c (16 * n) (back.val + fill.val - BitVec.ofNat 32 (64 * n)) v = .ok l t →
      pop c ⟨Ty.save, p⟩ n s = .ok (l, back.val + fill.val - BitVec.ofNat 32 (64 * n)) t) ∧
    (∀ (l : List TWord) (i : Nat), Tab.get TWord.unset (listTab l) i = l.getD i TWord.unset)

/-- SAVEL, SAVEH, RSTL, RSTH, SPILL and FILL above USER: SAVEL pushes the words of Table 07-8 and empties the return stack, to
UNCHK or to the shadow stack; SAVEH pushes the 128 cells of the ring and RSTH pops them; RSTL pops a lower frame and goes on
at its resume PC; SPILL and FILL move a window (R253–R256, R261, R262, R322). RFE restores the pc, the level, MODE, IE, the
guard state and RPT from EPC and ESTAT (R344, R345). -/
def Sys2Proof.Clause.FramesInstructions : Prop :=
  ∀ (s t : State) (iss : Iss) (len : Nat), (context s iss).cstat.priv ≠ 0 →
    (issues s iss .nativeOnly [] len = true → noLateLoads (s.ctx iss.ctx) = true →
      (∀ (p : Word) (k : BitVec 8), (context s iss).cstat.rsmode = false ∨ (context s iss).rs = [] →
        k = BitVec.ofNat 8 (min 255 ((context s iss).wptr.unchk.toNat + (context s iss).rs.length)) →
        push iss.ctx (context s iss).savep false (lowerWords (context s iss) (nextCstat (context s iss))
          ((context s iss).pc + 4) k (if (context s iss).ssp.ty = Ty.unset then 0 else (context s iss).ssp.val)) (found s iss) =
          .ok p t →
        exec (.savel iss) s = .next (goesOnFrom s iss len t fun x =>
          { x with rs := [], ssp := (context s iss).ssp, wptr := { x.wptr with unchk := k }, savep := ⟨Ty.save, p⟩ })) ∧
      (∀ (a : Word) (ws : List SvWrite) (p : List SvWrite × Word) (u v : State), (context s iss).savep.ty = Ty.save →
        (context s iss).cstat.rsmode = true → (context s iss).rs ≠ [] → (context s iss).ssp = TWord.raw a →
        ws = ((List.range (context s iss).rs.length).map fun i =>
          ⟨a - BitVec.ofNat 32 (4 * (i + 1)), ⟨Ty.ret, ((context s iss).rs.reverse.map Prod.fst).getD i 0⟩, true⟩) →
        svCheck iss.ctx ws (found s iss) = .ok () u →
        pushPlan iss.ctx (context s iss).savep false (lowerWords { u.ctx iss.ctx with wptr := (context s iss).wptr }
          (nextCstat (context s iss)) ((context s iss).pc + 4) (context s iss).wptr.unchk
          (a - BitVec.ofNat 32 (4 * (context s iss).rs.length))) u = .ok p v →
        svWrites iss.ctx (ws ++ p.1) v = .ok () t →
        exec (.savel iss) s = .next (goesOnFrom s iss len t fun x =>
          { x with rs := [], ssp := TWord.raw (a - BitVec.ofNat 32 (4 * (context s iss).rs.length)),
                   wptr := { x.wptr with unchk := (context s iss).wptr.unchk }, savep := ⟨Ty.save, p.2⟩ })) ∧
      (∀ p : Word, push iss.ctx (context s iss).savep false
          ((List.range 128).map fun i => Tab.get TWord.unset (context s iss).ring i) (found s iss) = .ok p t →
        exec (.saveh iss) s = .next (goesOnFrom s iss len t fun x => { x with savep := ⟨Ty.save, p⟩ })) ∧
      (∀ (r : List MWord × Word) (w : Nat → MWord), pop iss.ctx (context s iss).savep 1 (found s iss) = .ok r t →
        w = lineWord r.1 → (w 12).ty = Ty.raw → ((w 13).ty = Ty.code ∨ (w 13).ty = Ty.ret) → (w 14).ty = Ty.raw →
        (w 15).ty = Ty.raw → (Cstat.unpack (w 12).val).priv ≤ (context s iss).cstat.priv →
        exec (.rstl iss) s = .next (t.modCtx iss.ctx fun x =>
          { x with
            g := listTab ((r.1.take 8).map MWord.t), b := listTab (((r.1.drop 8).take 4).map MWord.t),
            cstat := { Cstat.unpack (w 12).val with
              fpa := decide (((t.core (coreOf iss.ctx)).fpOwner.map Prod.fst) = some (iss.ctx.extractLsb' 0 2)) },
            pc := (w 13).val, p := (w 14).val.setWidth 8 &&& 0xFE, wptr := Wptr.unpack ((w 14).val >>> 8),
            ssp := if (w 15).val = 0 then TWord.unset else TWord.raw (w 15).val, rs := [], rdtb := 0,
            savep := ⟨Ty.save, r.2⟩, loads := x.loads.filter fun q => match q.loc with | .glob _ => false | _ => true })) ∧
      (∀ r : List MWord × Word, pop iss.ctx (context s iss).savep 8 (found s iss) = .ok r t →
        exec (.rsth iss) s = .next (goesOnFrom s iss len t fun x =>
          { x with ring := listTab (r.1.map MWord.t), savep := ⟨Ty.save, r.2⟩,
                   loads := x.loads.filter fun q => match q.loc with | .ring _ => false | _ => true })) ∧
      (∀ (p : Word) (o : Nat), (context s iss).wptr.resw ≠ 1 →
        o = (context s iss).wptr.cwp.toNat + 8 - (context s iss).wptr.resw.toNat + 1 →
        push iss.ctx (context s iss).savep true ((spillCells o).map fun i => Tab.get TWord.unset (context s iss).ring i)
          (found s iss) = .ok p t →
        exec (.spill iss) s = .next (goesOnFrom s iss len t fun x =>
          { x with savep := ⟨Ty.save, p⟩, wptr := { x.wptr with resw := x.wptr.resw - 1, wspill := x.wptr.wspill + 1 } })) ∧
      (∀ (r : List MWord × Word) (o : Nat), (context s iss).wptr.resw ≠ 7 → (context s iss).wptr.wspill ≠ 0 →
        o = (context s iss).wptr.cwp.toNat + 8 - (context s iss).wptr.resw.toNat + 1 →
        pop iss.ctx (context s iss).savep 1 (found s iss) = .ok r t →
        exec (.fill iss) s = .next (goesOnFrom s iss len t fun x =>
          { x with ring := ((spillCells (o + 7)).zip (r.1.map MWord.t)).foldl (fun t e => Tab.set TWord.unset t e.1 e.2) x.ring,
                   savep := ⟨Ty.save, r.2⟩,
                   wptr := { x.wptr with resw := x.wptr.resw + 1, wspill := x.wptr.wspill - 1 } }))) ∧
    (∀ (a e : Word) (ty : Ty), issues s iss .nativeZekief [] len = true → (ty = Ty.ret ∨ ty = Ty.code) →
      (context s iss).epc = ⟨ty, a⟩ → (context s iss).estat = TWord.raw e → e.extractLsb' 0 2 ≠ 3 →
      e.extractLsb' 0 2 ≤ (context s iss).cstat.priv →
      exec (.rfe iss) s = .next ((found s iss).modCtx iss.ctx fun x =>
        { x with pc := a, msh := none, cstat := { x.cstat with
          priv := e.extractLsb' 0 2, mode := e.getLsbD 2, ie := e.getLsbD 3, gcnt := e.extractLsb' 4 3,
          gpred := e.extractLsb' 7 3, ginv := e.getLsbD 10, rpt := e.getLsbD 12, ldf := false, shadow := false } }))

/-- TRAP n raises cause 0x80 + n on vector 16 and BRK raises BRK on vector 17: the exception waits to be entered at the
instruction's own address (R329, R331). -/
def Sys2Proof.Clause.SoftwareTraps : Prop :=
  ∀ (s : State) (iss : Iss) (n : BitVec 5) (len : Nat),
    (issues s iss .nativeZekief [] len = true →
      exec (.trap iss n) s = .next (raises s iss len (found s iss) ⟨16, 0x80 + n.setWidth 8, 0, TWord.unset⟩
        (if (s.ctx iss.ctx).cstat.mode then encZR 0x0C 0 0 n 2 else withGuard (encR 0x2E 0 0 n 1) iss.gp iss.gi))) ∧
    (issues s iss .nativeOnly [] len = true →
      exec (.brk iss) s = .next (raises s iss len (found s iss) ⟨17, Cause.brk, 0, TWord.unset⟩
        (withGuard (encR 0x2E 0 0 0 2) iss.gp iss.gi)))

/-- Taking an exception: with the shadow bank free and a CODE word at the vector, the running context saves the resume address
in EPC, the causes and its status in ESTAT and the words of Table 10-4 in shadow w0–w3, continues at the vector's handler at
the level of the vector, with MODE, IE, the guard state, LDF and RPT 0 and SHADOW 1 (R327, R328, R331, R332). -/
def Sys2Proof.Clause.TakingAnException : Prop :=
  ∀ (s t : State) (c : CtxId) (r : Raised) (x : Ctx) (w : MWord × PA) (level : BitVec 2),
    (s.ctx c).st = .running → (s.ctx c).raised = some r → (s.ctx c).mcheck = [] →
    (s.ctx c).cstat.shadow = false → r.trap.vec ≠ 0 →
    (r.trap.vec = 2 → handleOf s c = none) → x = (waitLoads c s).ctx c →
    level = (if 32 ≤ r.trap.vec.toNat ∨ x.cstat.priv = 2 then 2 else 1) →
    loadVa c .load ((if level = 2 then (0x7FFFFF00 : Word) else 0x7FFFFE00) + (r.trap.vec.setWidth 32 <<< 2))
      ((waitLoads c s).setCtx c { x.entered r.entry with
        cstat := { x.cstat with priv := level, mode := false, ie := false, gcnt := 0, gpred := 0, ginv := false, ldf := false,
                                rpt := false, shadow := true },
        msh := none }) = .ok w t →
    w.1.ty = Ty.code →
    exec (.exceptionEntry c) s = .next (t.modCtx c fun y => { y with pc := w.1.val })

/-- What an exception saves: EPC holds the raising instruction's address as a RET word, or the second instruction's in a mode-
change shadow; ESTAT has the fields of Table 10-3; shadow w0 to w3 hold the address, the word, the encoding and the address of
the instruction (R332, R341; Tables 10-3, 10-4). -/
def Sys2Proof.Clause.ExceptionSaves : Prop :=
  ∀ (x : Ctx) (r : Raised),
    (x.entered r.entry).epc = ⟨Ty.ret, r.msh.getD r.pc⟩ ∧
    (x.entered r.entry).estat.ty = Ty.raw ∧
    (x.entered r.entry).estat.val.extractLsb' 0 2 = x.cstat.priv ∧
    (x.entered r.entry).estat.val.getLsbD 2 = x.cstat.mode ∧
    (x.entered r.entry).estat.val.getLsbD 3 = x.cstat.ie ∧
    (x.entered r.entry).estat.val.extractLsb' 4 3 = x.cstat.gcnt ∧
    (x.entered r.entry).estat.val.extractLsb' 7 3 = x.cstat.gpred ∧
    (x.entered r.entry).estat.val.getLsbD 10 = x.cstat.ginv ∧
    (x.entered r.entry).estat.val.getLsbD 11 = r.slot ∧
    (x.entered r.entry).estat.val.getLsbD 12 = x.cstat.rpt ∧
    (x.entered r.entry).estat.val.getLsbD 13 = r.msh.isSome ∧
    (x.entered r.entry).estat.val.getLsbD 15 = false ∧
    (x.entered r.entry).estat.val.extractLsb' 16 6 = r.trap.vec ∧
    (x.entered r.entry).estat.val.extractLsb' 22 8 = r.trap.cause ∧
    (x.entered r.entry).readLoc (.shad 0) = TWord.raw r.trap.w0 ∧
    (x.entered r.entry).readLoc (.shad 1) = r.trap.w1 ∧
    (x.entered r.entry).readLoc (.shad 2) = TWord.raw r.enc ∧
    (x.entered r.entry).readLoc (.shad 3) = TWord.raw r.pc ∧
    (∀ n, 4 ≤ n → (x.entered r.entry).readLoc (.shad n) = x.readLoc (.shad n)) ∧
    (x.entered r.entry).ring = x.ring ∧ (x.entered r.entry).g = x.g ∧ (x.entered r.entry).p = x.p ∧
    (x.entered r.entry).raised = none

/-- MACHINE_CHECK, DEBUG_INTERRUPT, LOAD_DATA_RETURN, ILLEGAL_INSTRUCTION and TABLE_WALK: FAULTED, or a check that waits
behind those found before it and is entered at a boundary; a pending DEBUG request is entered; a load's value reaches its
register; ILL_ALIGN, ILL_ENC and FETCH_TAG with the encoding that has been fetched; and a walk that fills the TLB, brings in
the line of a fetch, or raises its fault (R268, R269, R280, R296, R330, R334, R336–R338, R387, R389, R397). The free word of a
return-stack error, FAULTED where no vector can be read, and FETCH_TAG are log entry 45; what a walk brings in with a fetch is
log entry 76. -/
def Obligations.ContextEvents : Prop :=
  ∀ (s : State) (c : CtxId),
    ((s.ctx c).st ≠ .empty →
      exec (.machineCheck c .cstat) s = .next (faulted c Cause.cstatEcc 0 s) ∧
      (∀ (i : Nat) (t : State), i < (s.ctx c).rs.length →
        t = ({ s with freeCtr := s.freeCtr + 2 }.modCtx c fun x =>
          { x with rs := x.rs.set i (Config.freeWord s.freeCtr &&& 0xFFFFFFFE, true),
                   mcheck := x.mcheck ++ [(Cause.rsEcc, (⟨Ty.poison, Config.freeWord (s.freeCtr + 1)⟩ : TWord))] }) →
        ((s.ctx c).cstat.shadow = false → atBoundary (s.ctx c) = false → exec (.machineCheck c (.rs i)) s = .next t) ∧
        (∀ (k : BitVec 8) (w : TWord) (rest : List (BitVec 8 × TWord)) (u v : State), atBoundary (s.ctx c) = true →
          (t.ctx c).mcheck = (k, w) :: rest → u = unstall c t →
          v = (u.modCtx c fun x => { x with raised := none, mcheck := rest }) →
          exec (.machineCheck c (.rs i)) s = .next (enter c
            ⟨⟨32, k, 0, w⟩, (v.ctx c).pc, (v.ctx c).pc, 0, false, false, true⟩ (u.ctx c) v)))) ∧
    (∀ u v : State, (s.ctx c).dbg = true → (s.ctx c).cstat.ie = true → (s.ctx c).raised = none → (s.ctx c).mcheck = [] →
      atBoundary (s.ctx c) = true → u = unstall c s → v = (u.modCtx c fun x => { x with dbg := false }) →
      exec (.debugInterrupt c) s = .next (enter c
        ⟨⟨33, Cause.debugReq, 0, TWord.unset⟩, (v.ctx c).pc, (v.ctx c).pc, 0, false, false, true⟩ (u.ctx c) v)) ∧
    (∀ (p : PLoad) (r : List PLoad) (t : State), (s.ctx c).loads = p :: r → p.slot = false → (∀ n, p.loc ≠ .fp n) →
      t = (s.modCtx c fun x => { x with loads := r }.writeLoc p.val p.loc) →
      exec (.loadDataReturn c) s =
        .next (if (s.ctx c).st = .stalled ∧ (s.ctx c).stall = .load then wakeCtx c t else t)) ∧
    (∀ (w : Word) (iss : Iss) (len : Nat), iss.ctx = c → canIssue (s.ctx c) = true →
      len = (if (s.ctx c).cstat.mode = true ∨ w.extractLsb' 0 2 = 3 then 4 else 2) →
      ((if (s.ctx c).cstat.mode then (s.ctx c).pc.extractLsb' 0 2 = 0 else (s.ctx c).pc.getLsbD 0 = false) →
        (decodeWord c (s.ctx c).cstat.mode w = none →
          exec (.illegalInstruction c .enc w) s = .next (raises s iss len s ⟨4, Cause.illEnc, 0, TWord.unset⟩ w)) ∧
        (∀ (ty : Ty) (k : Trap), ty ≠ Ty.raw → k = ⟨4, Cause.fetchTag, 0, ⟨ty, w⟩⟩ →
          ((s.ctx c).cstat.mode = true ∨ (s.ctx c).pc.getLsbD 1 = false ∧ w.extractLsb' 0 2 = 3 →
            exec (.illegalInstruction c (.fetchTag ty none) w) s = .next (raises s iss 4 s k w)) ∧
          ((s.ctx c).cstat.mode = false → (s.ctx c).pc.getLsbD 1 = false → w.extractLsb' 0 2 ≠ 3 →
            exec (.illegalInstruction c (.fetchTag ty none) w) s =
              .next (raises s iss 2 s k ((0 : BitVec 16) ++ w.extractLsb' 0 16))) ∧
          ((s.ctx c).cstat.mode = false → (s.ctx c).pc.getLsbD 1 = true →
            (w.extractLsb' 16 2 ≠ 3 → exec (.illegalInstruction c (.fetchTag ty none) w) s =
              .next (raises s iss 2 s k ((0 : BitVec 16) ++ w.extractLsb' 16 16))) ∧
            (w.extractLsb' 16 2 = 3 → exec (.illegalInstruction c (.fetchTag ty none) w) s =
              .next (raises s iss 4 { s with freeCtr := s.freeCtr + 1 } k
                ((Config.freeWord s.freeCtr).setWidth 16 ++ w.extractLsb' 16 16))) ∧
            (∀ p : BitVec 16, p.extractLsb' 0 2 = 3 → exec (.illegalInstruction c (.fetchTag ty (some p)) w) s =
              .next (raises s iss 4 s k (w.extractLsb' 0 16 ++ p)))))) ∧
      ((if (s.ctx c).cstat.mode then (s.ctx c).pc.extractLsb' 0 2 ≠ 0 else (s.ctx c).pc.getLsbD 0 = true) →
        ∀ why : IllCause,
          exec (.illegalInstruction c why w) s = .next (raises s iss len s ⟨4, Cause.illAlign, 0, TWord.unset⟩ w))) ∧
    (∀ (va enc : Word) (kind : AccKind), (s.ctx c).st ≠ .empty → isSpec kind = false →
      (kind ≠ .fetch → (∃ e ∈ (s.core (coreOf c)).tlb (accFetch kind), e.hits (s.ctx c).asid va = true) →
        exec (.tableWalk (.ctx c) va kind .none enc) s = .next s) ∧
      ((kind = .fetch → fetchesAt (s.ctx c) va = true) →
        (kind ≠ .fetch → ∀ e ∈ (s.core (coreOf c)).tlb (accFetch kind), e.hits (s.ctx c).asid va = false) →
        (∀ (pa : PA) (u : State), xlate (coreOf c) (s.ctx c).asid (s.ctx c).cstat.priv kind va s = .ok (.inr pa) u →
          exec (.tableWalk (.ctx c) va kind .none enc) s = .next (if kind = .fetch then fetchLine c va pa u else u)) ∧
        (∀ (k : BitVec 8) (u : State), canIssue (s.ctx c) = true →
          xlate (coreOf c) (s.ctx c).asid (s.ctx c).cstat.priv kind va s = .ok (.inl k) u →
          (kind ≠ .fetch → exec (.tableWalk (.ctx c) va kind .none enc) s =
            .next (raiseTrap c (u.ctx c) (mkTrap k va TWord.unset) enc (encLen (s.ctx c).cstat.mode enc)
              (recordFault k va (s.ctx c).asid c false u))) ∧
          (kind = .fetch → exec (.tableWalk (.ctx c) va kind .none enc) s =
            .next (raiseTrap c (u.ctx c) (mkTrap k va TWord.unset) (Config.freeWord u.freeCtr)
              (encLen (s.ctx c).cstat.mode (Config.freeWord u.freeCtr))
              (recordFault k va (s.ctx c).asid c false { u with freeCtr := u.freeCtr + 1 })))))) ∧
    (∀ (e : BitVec 3) (asid : BitVec 12) (p : BitVec 2) (va enc : Word) (kind : AccKind),
      (∀ x ∈ (s.engine e.toNat).tlb, x.hits asid va = false) →
      exec (.tableWalk (.taper e asid p) va kind .none enc) s =
        .next (withLines (fun s => (taperXlate e.toNat asid p kind va s).2) s))

/-! ### The time base -/

namespace Sys2Proof.Machine

/-- The rows of a marker word: MARKER_IDLE, ACCEPT, MARKER_ORBIT, MARKER_CROSSING, MARKER_RESET and MARKER_WORD_DISCARDED. The
word as received says which it is. -/
def MarkerRow (w : BitVec 40) (c : Instr) : Prop :=
  c = .markerIdle w ∨ c = .accept w ∨ c = .markerOrbit w ∨ c = .markerCrossing w ∨ c = .markerReset w ∨
    c = .markerWordDiscarded w

/-- A timing word as the receiver decodes it, inverted where POL says so: its characters and the running disparity after it. -/
def timingChars (s : State) (w : BitVec 40) : List Char8 × Bool :=
  readChars s.tb.rd (markerGroups (if s.tb.cfg.lv.pol then ~~~w else w))

end Sys2Proof.Machine

/-- A timing word is sent back, and decoded while the receiver is aligned: with K28.5 and three data characters it does what
Table 15-2 gives its TYPE; a code error is counted and a TYPE that is not listed too. ALIGN_LOSS: the fourth word without a
K28.5 ends the alignment; MARKER_ALIGNMENT_GAINED: a K28.5 begins it (R461–R463, R466, R467, R566; R45 after the power-fail
warning, from which an accepted ACCEPT is only counted, 18 R539; that a marker acts only while the receiver is aligned, that
an ACCEPT in self-opened mode is counted, that a word with a control character counts as UNKNOWN or as a code error, and that
RESET clears what the wicks have been told, are log entries 30, 32, 33, 36 and 92). -/
def Sys2Proof.Clause.MarkerWords : Prop :=
  ∀ (s u : State) (w : BitVec 40),
    u = { s with out := .timing w :: s.out, tb := { s.tb with rd := (timingChars s w).2, miss := 0 } } →
    (∀ c, MarkerRow w c →
      (s.tb.aligned = false →
        exec c s = .next { s with out := .timing w :: s.out, tb := { s.tb with rd := (timingChars s w).2 } }) ∧
      (s.tb.aligned = true → (timingChars s w).1.head? = some .comma →
        (Char8.bad ∈ (timingChars s w).1 → exec c s = .next (bump Cnt.tbCodeErr u)) ∧
        (Char8.bad ∉ (timingChars s w).1 → Char8.comma ∈ (timingChars s w).1.tail ∨ Char8.control ∈ (timingChars s w).1.tail →
          exec c s = .next (bump Cnt.tbUnknown u))) ∧
      (s.tb.aligned = true → s.tb.miss < 3 → (timingChars s w).1.head? ≠ some .comma →
        exec c s = .next (let v := { u with tb := { u.tb with miss := s.tb.miss + 1 } }
          if Char8.bad ∈ (timingChars s w).1 ∨ (timingChars s w).1.head? = some .control then bump Cnt.tbCodeErr v else v)) ∧
      (∀ (ty lo hi : Byte) (arg : BitVec 16), arg = hi ++ lo → s.tb.aligned = true →
        (timingChars s w).1 = [.comma, .data ty, .data lo, .data hi] →
        (ty = 0 → exec c s = .next u) ∧
        (5 ≤ ty.toNat → exec c s = .next (bump Cnt.tbUnknown u)) ∧
        (s.tb.counting = false → ty = 1 ∨ ty = 2 → exec c s = .next u) ∧
        (s.tb.counting = true →
          (ty = 1 → exec c s = .next { u with tb := { u.tb with mark := some .orbit } }) ∧
          (ty = 2 → exec c s = .next { u with tb := { u.tb with mark := some (.crossing arg) } })) ∧
        (ty = 3 →
          (s.tb.cfg.lv.acceptEn = false → exec c s = .next u) ∧
          (s.tb.cfg.lv.acceptEn = true →
            (s.tb.cfg.lv.len.toNat ≤ arg.toNat → exec c s = .next (bump Cnt.tbUnknown u)) ∧
            (arg.toNat < s.tb.cfg.lv.len.toNat →
              (s.pw.warned = false → s.tb.counting = false ∨ s.pf = true → exec c s = .next (bump Cnt.tbAccepts u)) ∧
              (s.pw.warned = false → s.tb.counting = true → s.pf = false →
                (s.wk.event.lv.mode = true → exec c s = .next (bump Cnt.tbAccepts u)) ∧
                (s.wk.event.lv.mode = false →
                  exec c s = .next { bump Cnt.tbAccepts u with hub := { s.hub with openReqs := s.hub.openReqs ++
                    [⟨closestOrbit s.tb.cfg.lv.len.toNat s.tb.orbit s.tb.bx.toNat arg.toNat ++ arg, true⟩] } })) ∧
              (s.pw.warned = true →
                exec c s = .next { bump Cnt.tbAccepts u with hub := { s.hub with pfAccepts := s.hub.pfAccepts + 1 } })))) ∧
        (ty = 4 →
          (s.tb.cfg.lv.resetEn = false → exec c s = .next u) ∧
          (s.tb.cfg.lv.resetEn = true → ∃ wk,
            (∀ n, n < 6 → Tab.get WkSt.reset wk.wicks n = { s.wick n with told := none }) ∧
            (∀ n, 6 ≤ n → Tab.get WkSt.reset wk.wicks n = s.wick n) ∧ { wk with wicks := s.wk.wicks } = s.wk ∧
            (s.tb.counting = true → exec c s = .next { u with
              wk := wk, hub := { s.hub with highest := none }, tb := { u.tb with mark := some .reset } }) ∧
            (s.tb.counting = false → exec c s = .next (bump Cnt.tbResets { u with
              wk := wk, hub := { s.hub with highest := none } })))))) ∧
    (exec (.alignLoss []) s = .next s) ∧
    (∀ ws t, exec (.markerIdle w) s = .next t → exec (.alignLoss (w :: ws)) s = exec (.alignLoss ws) t) ∧
    (s.tb.aligned = true → 3 ≤ s.tb.miss → (timingChars s w).1.head? ≠ some .comma →
      exec (.alignLoss [w]) s = .next (let v := bump Cnt.tbAlignLoss { u with tb := { u.tb with aligned := false } }
        if Char8.bad ∈ (timingChars s w).1 ∨ (timingChars s w).1.head? = some .control then bump Cnt.tbCodeErr v else v)) ∧
    (∀ g : BitVec 10, g = (if s.tb.cfg.lv.pol then ~~~w else w).extractLsb' 30 10 →
      (s.tb.aligned = true ∨ (g ≠ commaNeg ∧ g ≠ commaPos) →
        exec (.markerAlignmentGained w) s = .next { s with out := .timing w :: s.out }) ∧
      (s.tb.aligned = false → g = commaNeg ∨ g = commaPos →
        exec (.markerAlignmentGained w) s = .next { s with out := .timing w :: s.out, tb := { s.tb with
          aligned := true, miss := 0,
          rd := (readChars (decide (g = commaPos)) (markerGroups (if s.tb.cfg.lv.pol then ~~~w else w))).2 } }))

/-- The crossing named by an ACCEPT marker or a format-1 frame is, of those of the orbits O − 1, O and O + 1 that have its BX,
the closest to (O, b), counting LEN crossings to an orbit; on a tie it is the earlier (R151, R463). -/
def Sys2Proof.Clause.ClosestCrossing : Prop :=
  ∀ (len : Nat) (orbit : BitVec 32) (b bx : Nat), ∃ d : Int, (d = -1 ∨ d = 0 ∨ d = 1) ∧
    closestOrbit len orbit b bx = orbit + BitVec.ofInt 32 d ∧
    ∀ d' : Int, d' = -1 ∨ d' = 0 ∨ d' = 1 →
      (d * len + bx - b).natAbs < (d' * len + bx - b).natAbs ∨
        ((d * len + bx - b).natAbs = (d' * len + bx - b).natAbs ∧ d ≤ d')

/-- CROSSING_EDGE: what the counters become with each marker, with the LEN that a waiting config commit makes live; no more of
the module changes (R467, R475, R477, R566; Table 15-4). TB_CFG_COMMIT leaves its copy to the edge. -/
def Sys2Proof.Clause.CrossingEdges : Prop :=
  ∀ (s : State) (t : TbSt), t = { s.tb with
      cfg := if s.tb.cfg.pend then
          if s.tb.cfg.sh.len = 0 then { s.tb.cfg with pend := false } else { s.tb.cfg with lv := s.tb.cfg.sh, pend := false }
        else s.tb.cfg,
      cfgerr := s.tb.cfgerr || (s.tb.cfg.pend && s.tb.cfg.sh.len = 0), mark := none } →
    exec .tbCfgCommit s = .next { s with tb := { s.tb with cfg := { s.tb.cfg with pend := true } } } ∧
    (s.tb.counting = false → exec .crossingEdge s = .next { s with tb := t }) ∧
    (s.tb.counting = true → ∀ (wrap : Bool) (bx : BitVec 16) (orbit : BitVec 32),
      wrap = decide (t.cfg.lv.len.toNat ≤ s.tb.bx.toNat + 1) →
      bx = (if wrap then 0 else s.tb.bx + 1) → orbit = (if wrap then s.tb.orbit + 1 else s.tb.orbit) →
      (s.tb.mark = none → exec .crossingEdge s = .next { s with tb := { t with bx := bx, orbit := orbit } }) ∧
      (s.tb.mark = some .orbit → wrap = true →
        exec .crossingEdge s = .next { s with tb := { t with bx := 0, orbit := s.tb.orbit + 1 } }) ∧
      (s.tb.mark = some .orbit → wrap = false →
        exec .crossingEdge s = .next (bump Cnt.tbOrbitSlip { s with tb := { t with bx := 0, orbit := s.tb.orbit + 1 } })) ∧
      (∀ arg, s.tb.mark = some (.crossing arg) →
        (t.cfg.lv.chkbx = false ∨ arg = bx → exec .crossingEdge s = .next { s with tb := { t with bx := bx, orbit := orbit } }) ∧
        (t.cfg.lv.chkbx = true → arg ≠ bx →
          exec .crossingEdge s = .next (bump Cnt.tbBxMismatch { s with tb :=
            if t.cfg.lv.resync then { t with bx := arg } else { t with bx := bx, orbit := orbit } }))) ∧
      (s.tb.mark = some .reset →
        exec .crossingEdge s = .next (bump Cnt.tbResets { s with tb := { t with bx := 0, orbit := 0 } })))

/-- Table 15-3: REF_ACQUIRED, PLL_LOCKED, REF_LOSS and REF_RETURN, each in every lock state (R464, R465; that a command gives
the frequency in kHz is log entry 31). -/
def Sys2Proof.Clause.LockStates : Prop :=
  ∀ (s : State) (khz : BitVec 16) (inRange : Bool), inRange = decide (25000 ≤ khz.toNat ∧ khz.toNat ≤ 50000) →
    (s.tb.lock = .noref →
      exec (.refAcquired khz) s = .next { s with tb := { s.tb with
        aligned := true, khz := khz, lock := if inRange then .acquire else .noref,
        refrange := s.tb.refrange || !inRange } }) ∧
    (s.tb.lock ≠ .noref → exec (.refAcquired khz) s = .next s) ∧
    (s.tb.lock = .acquire → s.tb.counting = false →
      exec .pllLocked s = .next { s with
        time := 0, tb := { s.tb with counting := true, bx := 0, orbit := 0, lock := .locked, lockKhz := s.tb.khz } } ∧
      exec .refLoss s = .next { s with tb := { s.tb with lock := .noref } }) ∧
    (s.tb.lock = .acquire → s.tb.counting = true →
      exec .pllLocked s = .next { s with tb := { s.tb with lock := .locked, lockKhz := s.tb.khz } } ∧
      exec .refLoss s = .next { s with tb := { s.tb with lock := .holdover } }) ∧
    (s.tb.lock ≠ .acquire → exec .pllLocked s = .next s) ∧
    (s.tb.lock = .locked →
      exec .refLoss s = .next (record 2 0x50 0x50 (s.tb.khz.setWidth 64) 0 0 0 0
        (bump Cnt.tbLockLoss { s with tb := { s.tb with lock := .holdover } }))) ∧
    (s.tb.lock = .noref ∨ s.tb.lock = .holdover → exec .refLoss s = .next s) ∧
    (s.tb.lock = .holdover →
      exec (.refReturn khz) s = .next { s with tb := { s.tb with
        khz := khz, lock := if inRange then .acquire else .noref,
        refrange := s.tb.refrange || !inRange ||
          decide (200 * s.tb.lockKhz.toNat < ((khz.toNat : Int) - s.tb.lockKhz.toNat).natAbs * 1000000) } }) ∧
    (s.tb.lock ≠ .holdover → exec (.refReturn khz) s = .next s)

/-- TB_SNAP latches TB_TIME, TB_BX and TB_ORBIT together (R470), and TB_TIME_LOW_READ answers the low half and latches the
high half for the function or the management processor that reads, and for no other reader; that reader's next read of the
high half answers what was latched (R469). -/
def Sys2Proof.Clause.TimeReads : Prop :=
  ∀ (s : State) (f : BitVec 5) (n : Nat),
    exec .tbSnap s = .next { s with tb := { s.tb with snapTime := s.time, snapBx := s.tb.bx, snapOrbit := s.tb.orbit } } ∧
    (s.mg.ready = true → ∃ l, exec (.tbTimeLowRead (.fn f)) s =
        .next { s with out := .readValue (s.time.setWidth 32) :: s.out, tb := { s.tb with latch := l } } ∧
      Tab.get 0 l f.toNat = (s.time >>> 32).setWidth 32 ∧ (n ≠ f.toNat → Tab.get 0 l n = Tab.get 0 s.tb.latch n)) ∧
    (∃ l, exec (.tbTimeLowRead .mgmt) s =
        .next { s with out := .readValue (s.time.setWidth 32) :: s.out, tb := { s.tb with latch := l } } ∧
      Tab.get 0 l 32 = (s.time >>> 32).setWidth 32 ∧ (n ≠ 32 → Tab.get 0 l n = Tab.get 0 s.tb.latch n)) ∧
    (s.mg.ready = true → hostRead (.fn f) 0x500014 s = (Tab.get 0 s.tb.latch f.toNat, s)) ∧
    hostRead .mgmt 0x500014 s = (Tab.get 0 s.tb.latch 32, s)

/-- TB_CMP_COMMIT and COMPARE_FIRE: a commit waits for the next tick and is ignored while the HUB holds the channel; a channel
that has reached its value sets its FIRED bit once, wakes and interrupts, and a channel that has not does nothing; channels
below the one named act first (R32, R471, R474). -/
def Sys2Proof.Clause.CompareChannels : Prop :=
  ∀ (s : State) (n : BitVec 6),
    (s.cn.enable = true → 61 ≤ n.toNat →
      exec (.tbCmpCommit n) s = .next s ∧
      ((hubLoaded s n.toNat = none → fireChannel s n.toNat = s) ∧
        (∀ x, hubLoaded s n.toNat = some x →
          (s.time < x.time → fireChannel s n.toNat = s) ∧
          (x.time ≤ s.time → fireChannel s n.toNat =
            { s with tb := { s.tb with fired := s.tb.fired ||| ((1 : BitVec 64) <<< n.toNat) } })))) ∧
    (n ≠ 0 → ∃ t, exec (.compareFire (n - 1)) s = .next t ∧ exec (.compareFire n) s = .next (fireChannel t n.toNat)) ∧
    (s.cn.enable = false ∨ n.toNat < 61 →
      (∃ ch, exec (.tbCmpCommit n) s = .next { s with tb := { s.tb with ch := ch } } ∧
        (∀ m, m ≠ n.toNat → Tab.get CmpCh.reset ch m = cmpCh s m) ∧
        Tab.get CmpCh.reset ch n.toNat = { cmpCh s n.toNat with cfg := { (cmpCh s n.toNat).cfg with pend := true } }) ∧
      ((∀ m, m < n.toNat → (cmpCh s m).due = none) →
        ((cmpCh s n.toNat).due = none → exec (.compareFire n) s = .next s) ∧
        (∀ wk irq, (cmpCh s n.toNat).due = some (wk, irq) → ∃ ch,
          Tab.get CmpCh.reset ch n.toNat = { cmpCh s n.toNat with due := none } ∧
          (∀ m, m ≠ n.toNat → Tab.get CmpCh.reset ch m = cmpCh s m) ∧
          (∀ t, t = { s with tb := { s.tb with ch := ch, fired := s.tb.fired ||| ((1 : BitVec 64) <<< n.toNat) } } →
            (61 ≤ n.toNat → exec (.compareFire n) s = .next t) ∧
            (n.toNat < 61 → exec (.compareFire n) s = .next
              ((if irq then serviceIrq 0 else id) ((if wk then wake 5 (fun x => x.sel.toNat = n.toNat) none
                (TWord.fix (BitVec.ofNat 32 n.toNat)) else id) t)))))))

/-- A tick: TB_TIME counts by one once it has begun to count. A channel in absolute mode that is armed becomes due when the
low half of TB_TIME reaches VAL and is then disarmed; a channel in interval mode becomes due when its count reaches VAL, and
the count starts from 0 again; a channel that the HUB holds is left alone. The commits that wait are made after that: a commit
arms its channel, or is refused with an interval of 0 (R464, R471–R473; that a step on an empty queue is a tick is log entry
2). -/
def Obligations.Ticks : Prop :=
  ∀ s : State,
    (s.pending = [] →
      (s.tb.counting = false → step s = .next s) ∧
      (s.tb.counting = true → ∃ ch u, u = { s with time := s.time + 1, tb := { s.tb with ch := ch } } ∧
        step s = .next ((waitingCommits u).foldl (fun s n => cmpCommit n s) u) ∧
        ch.length = s.tb.ch.length ∧
        ∀ (k : Nat) (e e' : Nat × CmpCh), s.tb.ch[k]? = some e → ch[k]? = some e' →
          e'.1 = e.1 ∧ e'.2.cfg = e.2.cfg ∧
          (s.cn.enable = true → 61 ≤ e.1 → e' = e) ∧
          (s.cn.enable = false ∨ e.1 < 61 →
            (e.2.cfg.lv.mode = false → e.2.armed = true → (s.time + 1).setWidth 32 = e.2.cfg.lv.val →
              e'.2.armed = false ∧ e'.2.due = some (e.2.cfg.lv.wake, e.2.cfg.lv.irq)) ∧
            (e.2.cfg.lv.mode = false → e.2.armed = false ∨ (s.time + 1).setWidth 32 ≠ e.2.cfg.lv.val → e' = e) ∧
            (e.2.cfg.lv.mode = true → e.2.cfg.lv.en = false → e' = e) ∧
            (e.2.cfg.lv.mode = true → e.2.cfg.lv.en = true → e.2.cfg.lv.val.toNat ≤ e.2.cnt.toNat + 1 →
              e'.2.cnt = 0 ∧ e'.2.due = some (e.2.cfg.lv.wake, e.2.cfg.lv.irq)) ∧
            (e.2.cfg.lv.mode = true → e.2.cfg.lv.en = true → e.2.cnt.toNat + 1 < e.2.cfg.lv.val.toNat →
              e'.2.cnt.toNat = e.2.cnt.toNat + 1 ∧ e'.2.due = e.2.due)))) ∧
    (∀ (n : Nat) (c : CmpCh), c = cmpCh s n →
      (c.cfg.sh.mode = true → c.cfg.sh.val = 0 → ∃ ch,
        cmpCommit n s = { s with tb := { s.tb with ch := ch, cfgerr := true } } ∧
        (∀ m, m ≠ n → Tab.get CmpCh.reset ch m = cmpCh s m) ∧
        Tab.get CmpCh.reset ch n = { c with cfg := { c.cfg with pend := false } }) ∧
      (c.cfg.sh.mode = false ∨ c.cfg.sh.val ≠ 0 → ∃ ch,
        cmpCommit n s = { s with tb := { s.tb with ch := ch } } ∧
        (∀ m, m ≠ n → Tab.get CmpCh.reset ch m = cmpCh s m) ∧
        (Tab.get CmpCh.reset ch n).cfg.lv = c.cfg.sh ∧ (Tab.get CmpCh.reset ch n).cfg.pend = false ∧
        (Tab.get CmpCh.reset ch n).armed = (c.cfg.sh.en && !c.cfg.sh.mode) ∧
        (c.cfg.lv.en = true → c.cfg.lv.mode = c.cfg.sh.mode → (Tab.get CmpCh.reset ch n).cnt = c.cnt) ∧
        (c.cfg.lv.mode ≠ c.cfg.sh.mode ∨ (c.cfg.lv.en = false ∧ c.cfg.sh.en = true) →
          (Tab.get CmpCh.reset ch n).cnt = 0)))

/-! ### Counters and commits -/

namespace Sys2Proof.Machine

/-- t has every counter of the ranges at 0 and every other counter as s has it, and is u but for its counters and what the sums of
the management plane keep of them (17 R513, log entry 66). -/
def ClearsTo (ranges : List (Nat × Nat)) (s u t : State) : Prop :=
  (∀ off, t.counter off = if ranges.any (fun r => decide (r.1 ≤ off ∧ off ≤ r.2)) then 0 else s.counter off) ∧
  { t with cnt := s.cnt, mg := { t.mg with seen := s.mg.seen, unsummed := s.mg.unsummed } } = u

end Sys2Proof.Machine

/-- Every CNTCLR clears the counters of its block's counter table, and the values that its field names beside them, and
nothing else but what the sums keep of them (WK_BUF_HWM and the values beside the counters: log entry 38; the sums: log entry
66) (R478, R139, R177, R214, R241, R390, R431, R459, R511, R531, R544). -/
def Obligations.CountersClear : Prop :=
  ∀ s : State,
    (∃ t, exec .tbCntclr s = .next t ∧ ClearsTo [(0x500050, 0x50006C)] s s t) ∧
    (∃ t, exec .cnCntclr s = .next t ∧ ClearsTo [(0x3000C0, 0x3000F4)] s
      { s with cn := { s.cn with freeMin := BitVec.ofNat 16 (freeSpans s.cn) } } t) ∧
    (∀ n : BitVec 3, n.toNat < 6 → ∃ t, exec (.wkCntclr n) s = .next t ∧
      ClearsTo ((0x100050 + 0x10000 * n.toNat, 0x10005C + 0x10000 * n.toNat) :: (List.range 16).map fun p =>
          (0x100108 + 0x10000 * n.toNat + 0x40 * p, 0x100134 + 0x10000 * n.toNat + 0x40 * p)) s
        (s.modWick n.toNat fun w => { w with bufHwm := 0 }) t) ∧
    (∃ t, exec .llCntclr s = .next t ∧ ClearsTo [(0x200060, 0x20008C), (0x204040, 0x204060)] s s t) ∧
    (∃ t, exec .snCntclr s = .next t ∧ ClearsTo [(0x204040, 0x204060)] s s t) ∧
    (∃ t, exec .dpCntclr s = .next t ∧ ClearsTo [(0x208040, 0x20804C), (0x208060, 0x20807C)] s
      { s with dp := { s.dp with hwm := 0 } } t) ∧
    (∃ t, exec .tpCntclr s = .next t ∧ ClearsTo [(0x400040, 0x400060)] s s t) ∧
    (∃ t, exec .mmCntclr s = .next t ∧ ClearsTo [(Cnt.mmWalks, Cnt.mmFaults)] s s t) ∧
    (∃ t, exec .ccCntclr s = .next t ∧ ClearsTo [(0x700040, 0x70006C)] s s t) ∧
    (∀ n : BitVec 2, ∃ t, exec (.mcCntclr n) s = .next t ∧ ClearsTo [(Cnt.mcCorr n.toNat, Cnt.mcTagcMiss n.toNat)] s
      (s.modMc n.toNat fun m => { m with laste := 0 }) t) ∧
    (∃ t, exec .blCntclr s = .next t ∧ ClearsTo [(0x600040, 0x6004FF)] s s t) ∧
    (∃ t, exec .hiCntclr s = .next t ∧ ClearsTo [(0x010040, 0x01005C)] s s t) ∧
    (∃ t, exec .mgCntclr s = .next t ∧ ClearsTo [(Cnt.mgSumMemcorr, Cnt.mgTrip)] s s t) ∧
    (∃ t, exec .erCntclr s = .next t ∧ ClearsTo [(Cnt.erDrop, Cnt.erFlush)] s s t)

/-- Commits of the candle manager: RUN_COMMIT copies its group, or with a value outside a stated range sets CFGERR and copies
nothing; POOL_COMMIT waits for ENABLE 0 and IDLE 1 and then copies its group, if the ranges and the rules of R93 hold, frees
the spans of the banks that change, lowers FREE_MIN to the FREE spans, and with a new evacuation ring sets its indices to 0 (a
commit acts at once where its block is idle, and a pool larger than the build's is refused: log entries 15, 102);
CN_ENABLE_WRITE of 1 is refused before the time base counts, in any state, and a write is ignored outside OPERATIONAL and
SERVICE; it clears the channels that the HUB takes over (log entry 34) (R20, R93, R466, R471, R519). -/
def Sys2Proof.Clause.CandleCommits : Prop :=
  ∀ s : State,
    ((1 ≤ s.cn.run.sh.initSpans.toNat ∧ s.cn.run.sh.initSpans.toNat ≤ 256) ∧
        (1 ≤ s.cn.run.sh.growSpans.toNat ∧ s.cn.run.sh.growSpans.toNat ≤ 256) ∧ s.cn.run.sh.chunk.toNat ≤ 4 →
      exec .cnRunCommit s = .next { s with cn := { s.cn with run := ⟨s.cn.run.sh, s.cn.run.sh, false⟩ } }) ∧
    (¬((1 ≤ s.cn.run.sh.initSpans.toNat ∧ s.cn.run.sh.initSpans.toNat ≤ 256) ∧
        (1 ≤ s.cn.run.sh.growSpans.toNat ∧ s.cn.run.sh.growSpans.toNat ≤ 256) ∧ s.cn.run.sh.chunk.toNat ≤ 4) →
      exec .cnRunCommit s = .next { s with cn :=
        { s.cn with run := ⟨s.cn.run.sh, s.cn.run.lv, false⟩, cfgerr := true } }) ∧
    exec .cnPoolCommit s = .next { s with cn := { s.cn with pool := ⟨s.cn.pool.sh, s.cn.pool.lv, true⟩ } } ∧
    (s.cn.pool.pend = false ∨ s.cn.enable = true ∨ cnIdle s = false → exec .cnPoolCommitApply s = .next s) ∧
    (s.cn.pool.pend = true → s.cn.enable = false → cnIdle s = true →
      (¬(poolRanges s.cn.pool.sh = true ∧ bankRules s s.cn.pool.sh = true) →
        exec .cnPoolCommitApply s = .next { s with cn :=
          { s.cn with pool := ⟨s.cn.pool.sh, s.cn.pool.lv, false⟩, cfgerr := true } }) ∧
      (poolRanges s.cn.pool.sh = true → bankRules s s.cn.pool.sh = true → ∃ spans ring,
        (ring = decide (s.cn.pool.lv.evacBase ≠ s.cn.pool.sh.evacBase ∨ s.cn.pool.lv.evacSize ≠ s.cn.pool.sh.evacSize)) ∧
        exec .cnPoolCommitApply s = .next (noteLow (noteFree { s with cn := { s.cn with
          pool := ⟨s.cn.pool.sh, s.cn.pool.sh, false⟩, spans := spans, evacProd := if ring then 0 else s.cn.evacProd,
          evacCons := if ring then 0 else s.cn.evacCons } })) ∧
        ∀ i, i / 2048 < 24 → Tab.get SpanEnt.free spans i =
          if poolBank s.cn.pool.sh (i / 2048) ≠ poolBank s.cn.pool.lv (i / 2048) then SpanEnt.free else s.cn.span i)) ∧
    (s.tb.counting = false → exec (.cnEnableWrite true) s = .next { s with cn := { s.cn with cfgerr := true } }) ∧
    (∀ v, s.mg.stored.lc ≠ .operational → s.mg.stored.lc ≠ .service → v = false ∨ s.tb.counting = true →
      exec (.cnEnableWrite v) s = .next s) ∧
    (s.mg.stored.lc = .operational ∨ s.mg.stored.lc = .service →
      exec (.cnEnableWrite false) s = .next { s with cn := { s.cn with enable := false } } ∧
      (s.tb.counting = true → s.cn.enable = true → exec (.cnEnableWrite true) s = .next s) ∧
      (s.tb.counting = true → s.cn.enable = false → ∃ ch,
        exec (.cnEnableWrite true) s = .next { s with
          cn := { s.cn with enable := true, freeMin := BitVec.ofNat 16 (freeSpans s.cn) },
          hub := { s.hub with lastVal := [] }, tb := { s.tb with ch := ch } } ∧
        ∀ n, Tab.get CmpCh.reset ch n =
          if 61 ≤ n ∧ n ≤ 63 then { CmpCh.reset with cfg := ⟨(cmpCh s n).cfg.sh, CmpCfg.reset, false⟩ } else cmpCh s n))

/-- Commits of groups that wait for nothing or for an idle block: TP_MARK_COMMIT(_APPLY), LL_POOL_COMMIT(_APPLY),
MM_ROOT_COMMIT, BL_NODE_COMMIT, BL_RING_COMMIT and MG_THERM_COMMIT copy their group, or with a value outside a stated range
set CFGERR and copy nothing (at once where nothing is waited for, log entry 15); MM_LASTF_CLR clears MM_LASTF (R240, R214,
R389, R443, R459, R531). -/
def Sys2Proof.Clause.BlockCommits : Prop :=
  ∀ (s : State),
    exec .mmLastfClr s = .next { s with mm := { s.mm with lastVa := 0, lastInfo := 0 } } ∧
    exec .tpMarkCommit s = .next { s with tp := { s.tp with mark := ⟨s.tp.mark.sh, s.tp.mark.lv, true⟩ } } ∧
    (s.tp.mark.pend = false ∨ s.cn.phase ≠ .idle → exec .tpMarkCommitApply s = .next s) ∧
    (s.tp.mark.pend = true → s.cn.phase = .idle → ∀ m, m = s.tp.mark.sh →
      (12 ≤ m.log2.toNat ∧ m.log2.toNat ≤ 22 ∧ m.base.toNat % 8 = 0 →
        exec .tpMarkCommitApply s = .next { s with tp := { s.tp with mark := ⟨m, m, false⟩ } }) ∧
      (¬(12 ≤ m.log2.toNat ∧ m.log2.toNat ≤ 22 ∧ m.base.toNat % 8 = 0) →
        exec .tpMarkCommitApply s = .next { s with tp := { s.tp with mark := ⟨m, s.tp.mark.lv, false⟩, cfgerr := true } })) ∧
    exec .llPoolCommit s = .next { s with ll := { s.ll with pool := ⟨s.ll.pool.sh, s.ll.pool.lv, true⟩ } } ∧
    (s.ll.pool.pend = false ∨ s.ll.enable = true ∨ llIdle s = false → exec .llPoolCommitApply s = .next s) ∧
    (s.ll.pool.pend = true → s.ll.enable = false → llIdle s = true →
      (llPoolOk s.ll.pool.sh = true →
        exec .llPoolCommitApply s = .next { s with ll := { s.ll with pool := ⟨s.ll.pool.sh, s.ll.pool.sh, false⟩ } }) ∧
      (llPoolOk s.ll.pool.sh = false →
        exec .llPoolCommitApply s =
          .next { s with ll := { s.ll with pool := ⟨s.ll.pool.sh, s.ll.pool.lv, false⟩, cfgerr := true } })) ∧
    (s.mm.rootSh.toNat % 0x8000 = 0 ∧ nodeOf s.mm.rootSh = s.node ∧ localOf s.mm.rootSh + 0x8000 ≤ sidecarBase s.build →
      exec .mmRootCommit s = .next { s with mm := { s.mm with root := s.mm.rootSh, en := s.mm.enSh } }) ∧
    (¬(s.mm.rootSh.toNat % 0x8000 = 0 ∧ nodeOf s.mm.rootSh = s.node ∧
        localOf s.mm.rootSh + 0x8000 ≤ sidecarBase s.build) →
      exec .mmRootCommit s = .next { s with mm := { s.mm with cfgerr := true } }) ∧
    ((∀ p, p < 16 → (s.port p).st = .off) → exec .blNodeCommit s = .next { s with node := s.bl.nodeSh }) ∧
    ((∃ p, p < 16 ∧ (s.port p).st ≠ .off) → exec .blNodeCommit s = .next { s with bl := { s.bl with cfgerr := true } }) ∧
    (s.bl.ring.sh.timeout ≠ 0 ∧ s.bl.ring.sh.base.toNat % 32 = 0 ∧ s.bl.ring.sh.cnt.toNat ≤ 1024 →
      exec .blRingCommit s = .next { s with bl := { s.bl with ring := ⟨s.bl.ring.sh, s.bl.ring.sh, false⟩ } }) ∧
    (¬(s.bl.ring.sh.timeout ≠ 0 ∧ s.bl.ring.sh.base.toNat % 32 = 0 ∧ s.bl.ring.sh.cnt.toNat ≤ 1024) →
      exec .blRingCommit s = .next { s with bl :=
        { s.bl with ring := ⟨s.bl.ring.sh, s.bl.ring.lv, false⟩, cfgerr := true } }) ∧
    (70 ≤ s.mg.therm.sh.toNat ∧ s.mg.therm.sh.toNat ≤ 100 →
      exec .mgThermCommit s = .next { s with mg := { s.mg with therm := ⟨s.mg.therm.sh, s.mg.therm.lv, true⟩ } }) ∧
    (¬(70 ≤ s.mg.therm.sh.toNat ∧ s.mg.therm.sh.toNat ≤ 100) →
      exec .mgThermCommit s = .next { s with mg :=
        { s.mg with therm := ⟨s.mg.therm.sh, s.mg.therm.lv, false⟩, cfgerr := true } })

/-! ### Events in the HUB -/

namespace Sys2Proof.Machine

/-- The content of the record of an event that is decided now (Table 05-6). -/
def recordOf (s : State) (h : BitVec 19) (outcome reason : BitVec 4) (trigger : BitVec 64) : DRec :=
  let e := s.event (hSlot h)
  { crossing := e.crossing, outcome := outcome, reason := reason, winto := e.winto, trunc := e.trunc, warned := e.warned,
    ooo := false, openwin := e.window, trigger := trigger, latency := (s.time - e.t0).setWidth 24, menu := e.menu,
    handle := h, seq := e.seq }

/-- The counter that Table 05-14 gives a decision with REASON n. -/
def countOfReason (n : BitVec 4) : Nat := 0x204040 +
  4 * (if n = 0 then 0 else if n = 2 then 1 else if n = 1 then 2 else if n.toNat < 5 then n.toNat else 5)

/-- The state as channel 61, 62 or 63 takes the head of its list (R32, R199, R474). -/
def headTaken (n : Nat) (s : State) (f : HubSt → HubSt) : State :=
  setFired n { keepLoaded s with hub := f (keepLoaded s).hub }

/-- The limit at the head of a list has come (R32). -/
def headDue (s : State) (l : List Limit) (x : Limit) (r : List Limit) : Prop := l = x :: r ∧ x.time ≤ s.time

end Sys2Proof.Machine

/-- OPEN_REQUEST: no request is taken after the power-fail warning or before the time base counts; a request that is not above
the highest crossing opened opens nothing; the next that is above it is granted a slot with its T0, limits, notifications and
wake-up, or where no slot or span is free is decided NOCANDLE at once; a duplicate ACCEPT is counted, and a crossing decided
NOCANDLE counts as the highest opened (log entries 44 and 86) (R28–R31, R45, R100, R198, R466). -/
def Sys2Proof.Clause.OpenRequests : Prop :=
  ∀ (s : State) (q : OpenReq) (r : List OpenReq),
    (s.hub.openReqs = [] ∨ s.pf = true ∨ s.tb.counting = false → exec .openRequest s = .next s) ∧
    (s.hub.openReqs = q :: r → s.pf = false → s.tb.counting = true →
      (∀ x, s.hub.highest = some x → q.crossing ≤ x →
        exec .openRequest s = .next { s with hub := { s.hub with
          openReqs := r, dupAccept := if q.accept then s.hub.dupAccept + 1 else s.hub.dupAccept } }) ∧
      (s.hub.highest = none ∨ (∃ x, s.hub.highest = some x ∧ x < q.crossing) → ∀ u : State,
        u = { s with hub := { s.hub with openReqs := r, highest := some q.crossing } } →
        (∀ (i : Nat) (v : State) (h : BitVec 19), i < 2048 → grantSlot u = some (i, v) → h = mkHandle i ((s.slot i).gen + 1) →
          ∃ t, exec .openRequest s = .next t ∧ (t.slot i).st = .opened ∧ (t.slot i).gen = (s.slot i).gen + 1 ∧
            (t.event i).crossing = q.crossing ∧ (t.event i).t0 = s.time ∧ (t.event i).window = true ∧
            (t.event i).decided = false ∧ (t.event i).deadline = s.ll.menu.lv.deadline ∧ (t.event i).home = nameHome v ∧
            (∀ j, j ≠ i → (t.slot j).st = (s.slot j).st ∧ (t.slot j).gen = (s.slot j).gen) ∧
            (∀ n, n < 6 → (t.wick n).notes = (s.wick n).notes ++ [.opened q.crossing h (nameHome v) ((v.slot i).spans.headD 0) (spanVirt ((v.slot i).spans.headD 0))]) ∧
            ⟨s.time + s.wk.event.lv.winto.setWidth 64, h⟩ ∈ t.hub.windows ∧
            ⟨s.time + s.ll.menu.lv.deadline.setWidth 64, h⟩ ∈ t.hub.hards ∧
            t.hub.openReqs = r ∧ t.hub.highest = some q.crossing ∧ t.dp = s.dp) ∧
        (grantSlot u = none → ∃ t, exec .openRequest s = .next t ∧ t.cn = s.cn ∧ t.ev = s.ev ∧ t.wk = s.wk ∧ t.ll = s.ll ∧
          t.hub.openReqs = r ∧ t.hub.highest = some q.crossing ∧
          (t.hub.windows = s.hub.windows ∧ t.hub.warnings = s.hub.warnings ∧ t.hub.hards = s.hub.hards) ∧
          (s.dp.cfg.lv.order = false → noDest s = false → t.dp = { s.dp with queue := s.dp.queue ++
            [{ crossing := q.crossing, outcome := (fallbackOutcome s.ll.menu.lv.policy s.ll.menu.lv.prescale s).1, reason := 1,
               winto := false, trunc := false, warned := false, ooo := false, openwin := false, trigger := 0, latency := 0,
               menu := s.ll.menu.lv.version, handle := 0, seq := none }] }) ∧
          ∃ e, t.recs = s.recs ++ [e] ∧ e.src = 0x21 ∧ e.reason = 0x10)))

/-- WINDOW_TIMEOUT, DEADLINE_WARNING and HARD_DEADLINE: the head of each list acts when its time has come, and not before; an
event that has gone counts WAKE_LATE; an open window closes by timeout and its OPEN slot becomes CLOSED, an undecided event is
warned, and at the hard deadline it is decided DEADLINE, or if it is decided its tasks are killed; that the slot of a window
that times out becomes CLOSED is log entry 26, and that a stale limit counts in LL_CNT_WAKE_LATE is log entry 23 (R32, R34,
R38, R41, R199, R200, R203). -/
def Sys2Proof.Clause.EventLimits : Prop :=
  ∀ (s : State) (x : Limit) (r : List Limit),
    ((∀ y, s.hub.windows.head? = some y → s.time < y.time) → exec .windowTimeout s = .next s) ∧
    (headDue s s.hub.windows x r → ∀ u, u = headTaken 61 s (fun b => { b with windows := r }) →
      (s.stale x.handle = true → exec .windowTimeout s = .next (bump Cnt.llWakeLate u)) ∧
      (s.stale x.handle = false → (s.event (hSlot x.handle)).window = true →
        exec .windowTimeout s = .next (tellWicks (.timeout x.handle)
          ((u.modEvent (hSlot x.handle) fun e => { e with window := false, winto := true }).modSlot (hSlot x.handle)
            fun t => { t with st := if t.st = .opened then .closed else t.st }))) ∧
      (s.stale x.handle = false → (s.event (hSlot x.handle)).window = false → exec .windowTimeout s = .next u)) ∧
    ((∀ y, s.hub.warnings.head? = some y → s.time < y.time) → exec .deadlineWarning s = .next s) ∧
    (headDue s s.hub.warnings x r → ∀ u, u = headTaken 62 s (fun b => { b with warnings := r }) →
      (s.stale x.handle = true → exec .deadlineWarning s = .next (bump Cnt.llWakeLate u)) ∧
      (s.stale x.handle = false → (s.slot (hSlot x.handle)).st = .opened ∨ (s.slot (hSlot x.handle)).st = .closed →
        exec .deadlineWarning s = .next (wake 6 (fun _ => true) (some x.handle)
          (TWord.fix ((s.hard (hSlot x.handle) - s.time).setWidth 32))
          (bump Cnt.snWarn (u.modEvent (hSlot x.handle) fun e => { e with warned := true })))) ∧
      (s.stale x.handle = false → (s.slot (hSlot x.handle)).st ≠ .opened → (s.slot (hSlot x.handle)).st ≠ .closed →
        exec .deadlineWarning s = .next u)) ∧
    ((∀ y, s.hub.hards.head? = some y → s.time < y.time) → exec .hardDeadline s = .next s) ∧
    (headDue s s.hub.hards x r → ∀ u, u = headTaken 63 s (fun b => { b with hards := r }) →
      (s.stale x.handle = true → exec .hardDeadline s = .next (bump Cnt.llWakeLate u)) ∧
      (s.stale x.handle = false → (s.slot (hSlot x.handle)).st = .opened ∨ (s.slot (hSlot x.handle)).st = .closed →
        exec .hardDeadline s = .next (fallback x.handle 2 u)) ∧
      (s.stale x.handle = false → (s.slot (hSlot x.handle)).st = .decided →
        exec .hardDeadline s = .next (killEvent x.handle u)) ∧
      (s.stale x.handle = false → (s.slot (hSlot x.handle)).st = .snuffed ∨ (s.slot (hSlot x.handle)).st = .retiring →
        exec .hardDeadline s = .next u))

/-- The first decision of an event fixes its record: DECIDE_REQUEST answers true and leaves the slot DECIDED with one record
in the queue, whose fields Table 05-6 gives, or counted NODEST where no destination is committed; a later one leaves the
record as it is, counts LATE_DECIDE and answers false. Requests that arrive in one HUB cycle are taken from the lowest-
numbered context up, in whatever order the command names them. DECIDE_ANSWER writes the answer to pd and makes the context
runnable, if the context still waits with that DECIDE (R38, R41, R43, R196, R197, R205, R207). That a DECIDE whose event has
gone answers false is log entry 25; that requests of one HUB cycle come in one command is log entry 9. -/
def Sys2Proof.Clause.DecisionsByTask : Prop :=
  ∀ (s : State) (cs ds : List CtxId) (q : DecideReq) (c : CtxId) (a : DecideAns),
    (cs.Perm ds → exec (.decideRequest cs) s = exec (.decideRequest ds) s) ∧
    ((∀ d ∈ cs, c ≤ d) → ∃ t, exec (.decideRequest [c]) s = .next t ∧
      exec (.decideRequest (c :: cs)) s = exec (.decideRequest cs) t) ∧
    exec (.decideRequest []) s = .next s ∧
    ((∀ b ∈ s.ll.decides, b.ctx ≠ c) → exec (.decideRequest [c]) s = .next s) ∧
    ((s.ll.decides.find? fun b => b.ctx = c) = some q →
      (s.stale q.handle = true ∨ ((s.slot (hSlot q.handle)).st ≠ .opened ∧ (s.slot (hSlot q.handle)).st ≠ .closed) →
        exec (.decideRequest [c]) s = .next (bump Cnt.snLateDecide { s with ll := { s.ll with
          decides := s.ll.decides.erase q, answers := s.ll.answers ++ [⟨c, q.task, q.pd, false, q.live⟩] } })) ∧
      (s.stale q.handle = false → (s.slot (hSlot q.handle)).st = .opened ∨ (s.slot (hSlot q.handle)).st = .closed →
        ∃ t, exec (.decideRequest [c]) s = .next t ∧ (t.slot (hSlot q.handle)).st = .decided ∧
          (t.event (hSlot q.handle)).decided = true ∧ (t.event (hSlot q.handle)).window = false ∧
          (∀ i, i ≠ hSlot q.handle → t.slot i = s.slot i ∧ t.event i = s.event i) ∧
          t.ll = { s.ll with decides := s.ll.decides.erase q, answers := s.ll.answers ++ [⟨c, q.task, q.pd, true, q.live⟩] } ∧
          t.ctxs = s.ctxs ∧ t.hbm = s.hbm ∧ t.counter Cnt.snMenu = (bump Cnt.snMenu s).counter Cnt.snMenu ∧
          t.hub.hards = s.hub.hards ∧ (∀ y ∈ t.hub.windows ++ t.hub.warnings, y.handle ≠ q.handle) ∧
          ((s.event (hSlot q.handle)).seq = none →
            (noDest s = false → t.dp = { s.dp with queue := s.dp.queue ++ [recordOf s q.handle q.outcome 0 q.trigger] }) ∧
            (noDest s = true → t.dp = s.dp ∧ t.counter Cnt.dpNodest = (bump Cnt.dpNodest s).counter Cnt.dpNodest)))) ∧
    ((∀ b ∈ s.ll.answers, b.ctx ≠ c) → exec (.decideAnswer c) s = .next s) ∧
    ((s.ll.answers.find? fun b => b.ctx = c) = some a → ∀ u, u = { s with ll := { s.ll with answers := s.ll.answers.erase a } } →
      (a.live = true → (s.ctx c).st = .stalled → (s.ctx c).stall = .decide → (s.ctx c).task = some a.task →
        exec (.decideAnswer c) s = .next (wakeCtx c (match a.pd with
          | some p => u.modCtx c fun x => x.setPred p a.won
          | none => u))) ∧
      (¬(a.live = true ∧ (s.ctx c).st = .stalled ∧ (s.ctx c).stall = .decide ∧ (s.ctx c).task = some a.task) →
        exec (.decideAnswer c) s = .next u))

/-- A fallback decision: the outcome is the menu's by POLICY, the slot becomes SNUFFED, one record with the reason is queued
and counted and one recorder record left, the limits but the hard deadline leave their lists, and every task of the event
ends: no descriptor holds the event, its contexts are EMPTY, its pending instances are gone and its Taper jobs are told to
stop (R39, R201, R203, R205). FAULT_REPORT with n takes the oldest n reports, those of POISON first; one report decides its
event DEADLINE where its hard deadline is due, else POISON or FAULT, and nothing once the event is decided (R42, R211, R348).
-/
def Sys2Proof.Clause.FallbackDecisions : Prop :=
  ∀ (s : State) (h : BitVec 19) (reason : BitVec 4),
    (∃ (t : State) (o : BitVec 4), fallback h reason s = t ∧ (t.slot (hSlot h)).st = .snuffed ∧
      (t.slot (hSlot h)).gen = (s.slot (hSlot h)).gen ∧ (t.event (hSlot h)).decided = true ∧
      (t.event (hSlot h)).window = false ∧ (t.event (hSlot h)).killed = true ∧
      (o = (if (s.event (hSlot h)).policy = 0 then 0 else if (s.event (hSlot h)).policy = 1 then 1
        else if s.sn.prescaleCnt + 1 = (s.event (hSlot h)).prescale then 2 else 3)) ∧
      (∀ y ∈ t.hub.windows ++ t.hub.warnings, y.handle ≠ h) ∧ t.hub.hards = s.hub.hards ∧
      ((s.event (hSlot h)).seq = none →
        (noDest s = false → t.dp = { s.dp with queue := s.dp.queue ++ [recordOf s h o reason 0] }) ∧
        (noDest s = true → t.dp = s.dp ∧ t.counter Cnt.dpNodest = (bump Cnt.dpNodest s).counter Cnt.dpNodest)) ∧
      (∃ x ∈ t.recs, x.src = 0x21 ∧ x.reason = 0x10 ∧ x.a1 = handleArg (some h)) ∧
      (∀ i, (t.task i).handle ≠ some h) ∧
      (∀ i c, (s.task i).handle = some h → (s.task i).ctx = some c → (t.ctx c).st = .empty ∧ (t.ctx c).task = none) ∧
      (∀ p ∈ t.ll.pendL1, p.handle ≠ some h) ∧
      (∀ (i : Nat) (j : Job), t.job i = some j → j.owner = some h → j.killed = true) ∧
      (reason.toNat ≤ 5 → (t.counter (countOfReason reason)) = (bump (countOfReason reason) s).counter (countOfReason reason))) ∧
    (s.ll.faults = [] → ∀ n, exec (.faultReport n) s = .next s) ∧
    (∀ (f : FaultRep) (r : List FaultRep) (u : State), s.ll.faults = f :: r → u = { s with ll := { s.ll with faults := r } } →
      (s.stale f.handle = false →
        (s.slot (hSlot f.handle)).st = .opened ∨ (s.slot (hSlot f.handle)).st = .closed →
        exec (.faultReport 1) s = .next (fallback f.handle
          (if (s.event (hSlot f.handle)).t0 + (s.event (hSlot f.handle)).deadline.setWidth 64 ≤ s.time then 2
            else if f.poison then 3 else 4) u)) ∧
      (s.stale f.handle = true ∨ ((s.slot (hSlot f.handle)).st ≠ .opened ∧ (s.slot (hSlot f.handle)).st ≠ .closed) →
        exec (.faultReport 1) s = .next u)) ∧
    (∀ (n : Nat) (now : List FaultRep), now = s.ll.faults.take n →
      exec (.faultReport n) s = .next ((now.filter (fun f => f.poison) ++ now.filter fun f => !f.poison).foldl
        (fun s f => takeFault f s) { s with ll := { s.ll with faults := s.ll.faults.drop n } })) ∧
    (∀ (f g : FaultRep) (r : List FaultRep), s.ll.faults = f :: g :: r →
      exec (.faultReport 2) s = .next (
        let u := { s with ll := { s.ll with faults := r } }
        if g.poison = true ∧ f.poison = false then takeFault f (takeFault g u) else takeFault g (takeFault f u)))

/-- CLOSE_REPORT, DROP_NOTICE, RETIRE_START and SPAWN_REQUEST: the sixth report closes the window, and of an event that is
still OPEN the slot, and issues the CLOSE wake-up with the hits, unless a decision closed the window; a drop notice before the
decision marks the event; a report or notice of a handle that has gone counts STALE_HANDLE; a slot retires when the event is
decided, its window closed, and no task and no job of it exists; a SPAWN request makes one instance of its template (R34, R35,
R40, R92, R161, R182, R183, R199). When an OPEN slot becomes CLOSED, and what a SPAWN finds of a menu that has changed, are
log entries 26 and 106. -/
def Obligations.ClosesAndRetirement : Prop :=
  ∀ (s : State) (n : BitVec 3) (h : BitVec 19),
    (n.toNat < 6 → ∀ (p : WkReport) (rs : List WkReport), (s.wick n.toNat).reports = p :: rs → p.handle = h →
      (s.stale h = true → exec (.closeReport n) s =
        .next (bump Cnt.cnStaleHandle (s.modWick n.toNat fun w => { w with reports := rs }))) ∧
      (s.stale h = false → ∀ e, e = { s.event (hSlot h) with
          trunc := (s.event (hSlot h)).trunc || (p.drop && undecided s h),
          reports := ((s.event (hSlot h)).reports.filter fun x => x.1 ≠ n.toNat) ++ [(n.toNat, p.hits)] } →
        (e.reports.length ≠ 6 →
          exec (.closeReport n) s = .next ((s.modWick n.toNat fun w => { w with reports := rs }).setEvent (hSlot h) e)) ∧
        (e.reports.length = 6 → ∃ v t, exec (.closeReport n) s = .next t ∧
          (t.event (hSlot h)).window = false ∧ (t.event (hSlot h)).trunc = e.trunc ∧
          (∀ y ∈ t.hub.windows, y.handle ≠ h) ∧
          (e.window = true ∨ e.winto = true →
            t = wake 1 (fun _ => true) (some h) (TWord.fix (BitVec.ofNat 32 (e.reports.map Prod.snd).sum)) v ∧
            (v.event (hSlot h)).window = false ∧ v.ll = s.ll ∧ v.pf = s.pf ∧
            ((s.slot (hSlot h)).st = .opened → (t.slot (hSlot h)).st = .closed) ∧
            ((s.slot (hSlot h)).st ≠ .opened → (t.slot (hSlot h)).st = (s.slot (hSlot h)).st) ∧
            (undecided s h = false → s.pf = false →
              t.counter Cnt.llWakeLate = (bump Cnt.llWakeLate s).counter Cnt.llWakeLate ∧ t.ll = s.ll)) ∧
          (e.window = false → e.winto = false → t.cn = s.cn ∧ t.ll = s.ll)))) ∧
    (6 ≤ n.toNat → exec (.closeReport n) s = .next s ∧ exec (.dropNotice n) s = .next s) ∧
    (n.toNat < 6 → ∀ r, (s.wick n.toNat).notices = h :: r → ∀ u, u = s.modWick n.toNat (fun w => { w with notices := r }) →
      (undecided s h = true →
        exec (.dropNotice n) s = .next (u.modEvent (hSlot h) fun e => { e with trunc := true })) ∧
      (s.stale h = true → exec (.dropNotice n) s = .next (bump Cnt.cnStaleHandle u)) ∧
      (s.stale h = false → undecided s h = false → exec (.dropNotice n) s = .next u)) ∧
    (∀ i : BitVec 11, h = mkHandle i.toNat (s.slot i.toNat).gen →
      ((s.slot i.toNat).st = .decided ∨ (s.slot i.toNat).st = .snuffed → (s.event i.toNat).window = false →
        (∀ e ∈ s.ll.tasks, e.2.st ≠ .free → e.2.handle ≠ some h) → (∀ j ∈ allJobs s, j.2.owner ≠ some h) → ∃ l,
        exec (.retireStart i) s = .next ({ s with hub := { s.hub with
            lastVal := l, hards := s.hub.hards.filter fun x => x.handle ≠ h } }.modSlot
          i.toNat fun t => { t with st := .retiring })) ∧
      (((s.slot i.toNat).st ≠ .decided ∧ (s.slot i.toNat).st ≠ .snuffed) ∨ (s.event i.toNat).window = true ∨
          (∃ e ∈ s.ll.tasks, e.2.st ≠ .free ∧ e.2.handle = some h) ∨ (∃ j ∈ allJobs s, j.2.owner = some h) →
        exec (.retireStart i) s = .next s)) ∧
    (s.ll.spawns = [] → exec .spawnRequest s = .next s) ∧
    (∀ (q : SpawnReq) (r : List SpawnReq) (u : State), s.ll.spawns = q :: r → u = { s with ll := { s.ll with spawns := r } } →
      (s.pf = true → exec .spawnRequest s = .next u) ∧
      (s.pf = false → s.ll.enable = false → exec .spawnRequest s = .next (bump Cnt.llWakeLate u)) ∧
      (s.pf = false → s.ll.enable = true →
        ((Tab.get Templ.off s.ll.templ q.tmpl).en = true → spawnable q.handle s = true →
          exec .spawnRequest s =
            .next (instTemplate q.tmpl (Tab.get Templ.off s.ll.templ q.tmpl) false q.handle q.deadline q.arg 1 u)) ∧
        (¬((Tab.get Templ.off s.ll.templ q.tmpl).en = true ∧ spawnable q.handle s = true) →
          exec .spawnRequest s = .next u)))

/-! ### The decision port and the Lamplighter -/

namespace Sys2Proof.Machine

/-- The blocks of a record on a lane, newest first: EOF with the CRC-32C of the 32 bytes, Q3 to Q0, SOF (R207). -/
def recordBlocks (s : State) (qs : List (BitVec 64)) (l : Nat) : List Out :=
  let b := fun c bytes => Out.dpBlock l (s.dp.cfg.lv.pol.getLsbD l) c bytes
  b (some 0xE1) (wordBytes (crc32c (qs.flatMap bytes8)) ++ [0, 0, 0]) :: (qs.reverse.map fun q => b none (bytes8 q)) ++
    [b (some 0x78) (List.replicate 7 0)]

/-- The lanes that send the next record: every enabled one with LANEMODE 1, and else the next enabled one in turn (R207). -/
def SendsOn (s : State) (ls : List Nat) : Prop :=
  (s.dp.cfg.lv.lanemode = true ∧ ls = laneList s) ∨
    (s.dp.cfg.lv.lanemode = false ∧ (laneList s = [] ∧ ls = [] ∨ ∃ a, ls = [a] ∧ a ∈ laneList s ∧
      ((s.dp.lane ≤ a ∧ ∀ b ∈ laneList s, s.dp.lane ≤ b → a ≤ b) ∨
        ((∀ b ∈ laneList s, b < s.dp.lane) ∧ ∀ b ∈ laneList s, a ≤ b))))

/-- Queue order: level, then deadline, then descriptor index (R192). -/
def QueuedBefore (a b : Nat × TaskD) : Prop :=
  a.2.prio < b.2.prio ∨ (a.2.prio = b.2.prio ∧ (a.2.deadline < b.2.deadline ∨ (a.2.deadline = b.2.deadline ∧ a.1 < b.1)))

/-- The context that a lantern's next task takes: of the cores in service the one with the fewest occupied contexts, the
lower-numbered on a tie, and on it the lowest EMPTY context (R192, R364). -/
def TakesContext (s : State) (l : Lan) (k : CoreId) (c : CtxId) : Prop :=
  k ∈ coresOf l ∧ inService s k = true ∧
    (∀ m ∈ coresOf l, m ≠ k → inService s m = true →
      occupied s k < occupied s m ∨ (occupied s k = occupied s m ∧ k < m)) ∧
    c ∈ ctxsOf k ∧ (s.ctx c).st = .empty ∧ ∀ d ∈ ctxsOf k, d < c → (s.ctx d).st ≠ .empty

end Sys2Proof.Machine

/-- DECISION_RECORD_SEND, BEAT and OUT_COMMIT: the oldest record leaves with the next RSEQ, on the next enabled lane in turn
or on every one, in blocks of Table 05-6's words; with HOSTCOPY its words and the time go to the next entry of the RUNNING
decision ring, and without one, with a full one or once PCIe is shed the copy is lost and counted; a record for which no
destination is left takes its RSEQ and is counted (log entry 99); a BEAT names the RSEQ that is next; a commit that leaves no
destination while events are enabled is refused (R204, R207–R210, R485, R503, R510, R553). -/
def Obligations.DecisionPort : Prop :=
  ∀ (s : State) (r : DRec) (rest : List DRec) (l : BitVec 3),
    (∃ q0 q1 q2 q3 : BitVec 64, recordWords s r = [q0, q1, q2, q3] ∧
      q0.extractLsb' 0 48 = r.crossing ∧ q0.extractLsb' 48 4 = r.outcome ∧ q0.extractLsb' 52 4 = r.reason ∧
      q0.getLsbD 56 = r.winto ∧ q0.getLsbD 57 = r.trunc ∧ q0.getLsbD 58 = r.warned ∧ q0.getLsbD 59 = r.ooo ∧
      q0.getLsbD 60 = r.openwin ∧ q0.extractLsb' 61 3 = 0 ∧ q1 = r.trigger ∧ q2.extractLsb' 0 24 = r.latency ∧
      q2.extractLsb' 24 16 = r.menu ∧ q2.extractLsb' 40 16 = s.node ∧ q2.extractLsb' 56 8 = 0 ∧
      q3.extractLsb' 0 19 = r.handle ∧ q3.extractLsb' 19 13 = 0 ∧ q3.extractLsb' 32 16 = s.dp.rseq ∧
      q3.extractLsb' 48 16 = crc16 (([q0, q1, q2, q3].flatMap bytes8).take 30)) ∧
    (s.dp.queue = [] ∨ s.pw.stage = .off ∨ s.pw.stage = .held → exec .decisionRecordSend s = .next s) ∧
    (s.dp.queue = r :: rest → s.pw.stage ≠ .off → s.pw.stage ≠ .held →
      (s.dp.cfg.lv.lanes = 0 → s.dp.cfg.lv.hostcopy = false →
        exec .decisionRecordSend s = .next (bump Cnt.dpRecords { s with
          dp := { s.dp with queue := rest, rseq := s.dp.rseq + 1 } })) ∧
      (s.dp.cfg.lv.hostcopy = true → ∀ (ls : List Nat) (u : State) (v : State → Outcome), SendsOn s ls →
        u = { ls.foldl (laneRecord (recordWords s r)) { s with dp := { s.dp with queue := rest } } with
          dp := { s.dp with queue := rest, rseq := s.dp.rseq + 1,
                            lane := match ls.getLast? with | some l => (l + 1) % 8 | none => s.dp.lane } } →
        v = (fun t => .next (bump Cnt.dpRecords t)) →
        (pcieUp s = false ∨ runningRings s 2 = [] → exec .decisionRecordSend s = v (bump Cnt.dpHostdrop u)) ∧
        (∀ (n : Nat) (ns : List Nat) (x : RingSt) (width : Nat), pcieUp s = true → runningRings s 2 = n :: ns → x = s.ring n →
          width = (if s.hi.active = 1 then 32 else 64) → x.ty = 2 →
          (x.used = x.size → exec .decisionRecordSend s = v (bump Cnt.dpHostdrop u)) ∧
          (x.used ≠ x.size → exec .decisionRecordSend s = v (ringEvent n false
            ((hostWrite (x.rbase + BitVec.ofNat 64 (width * (x.prod % x.size)))
              (((recordWords s r).flatMap bytes8 ++ bytes8 s.time ++ List.replicate 24 0).take width) u).modRing n fun x =>
                { x with prod := (x.prod + 1) % (2 * x.size) }))))) ∧
      (s.dp.cfg.lv.hostcopy = false → ∀ ls : List Nat, SendsOn s ls → ls ≠ [] → ∃ t, exec .decisionRecordSend s = .next t ∧
          t.out = (ls.reverse.flatMap (recordBlocks s (recordWords s r))) ++ s.out ∧
          t.dp = { s.dp with queue := rest, rseq := s.dp.rseq + 1, lane := (ls.getLastD 0 + 1) % 8 } ∧
          t.counter Cnt.dpRecords = (bump Cnt.dpRecords s).counter Cnt.dpRecords ∧
          { t with out := s.out, dp := s.dp, cnt := s.cnt } = s)) ∧
    (s.pw.stage = .run ∨ ((s.pw.stage = .shed ∨ s.pw.stage = .standby) ∧ s.dp.queue ≠ []) → s.dp.cfg.lv.beat = true → s.dp.cfg.lv.lanes.getLsbD l.toNat = true → ∀ b,
      b = Out.dpBlock l.toNat (s.dp.cfg.lv.pol.getLsbD l.toNat) (some 0x4B)
        [s.node.setWidth 8, (s.node >>> 8).setWidth 8, s.dp.rseq.setWidth 8, (s.dp.rseq >>> 8).setWidth 8, 0, 0, 0] →
      exec (.beat l) s = .next { s with out := b :: s.out }) ∧
    (s.pw.stage = .off ∨ s.pw.stage = .held ∨ (s.pw.stage ≠ .run ∧ s.dp.queue = []) ∨ s.dp.cfg.lv.beat = false ∨
        s.dp.cfg.lv.lanes.getLsbD l.toNat = false → exec (.beat l) s = .next s) ∧
    (s.cn.enable = true → s.dp.cfg.sh.lanes = 0 → s.dp.cfg.sh.hostcopy = false →
      exec .dpOutCommit s = .next { s with dp := { s.dp with cfg := ⟨s.dp.cfg.sh, s.dp.cfg.lv, false⟩, cfgerr := true } }) ∧
    (¬(s.cn.enable = true ∧ s.dp.cfg.sh.lanes = 0 ∧ s.dp.cfg.sh.hostcopy = false) →
      (s.dp.cfg.lv.order = s.dp.cfg.sh.order →
        exec .dpOutCommit s = .next { s with dp := { s.dp with cfg := ⟨s.dp.cfg.sh, s.dp.cfg.sh, false⟩ } }) ∧
      (s.dp.cfg.lv.order = false → s.dp.cfg.sh.order = true →
        exec .dpOutCommit s = .next { s with dp := { s.dp with
          cfg := ⟨s.dp.cfg.sh, s.dp.cfg.sh, false⟩, next := s.hub.openSeq, skipped := [] } }) ∧
      (s.dp.cfg.lv.order = true → s.dp.cfg.sh.order = false → ∃ held, held.Perm s.dp.rob ∧
        held.Pairwise (fun a b => a.seq.getD 0 ≤ b.seq.getD 0) ∧
        exec .dpOutCommit s = .next { s with dp := { s.dp with
          cfg := ⟨s.dp.cfg.sh, s.dp.cfg.sh, false⟩, rob := [], skipped := [], queue := s.dp.queue ++ held } }))

/-- TASK_DISPATCH: the first task of the lantern's queue takes the context of R192, the lowest EMPTY one of its core; a new
task begins at its entry with its arguments in w0 up, at its level with interrupts enabled, and a saved one with what its
frames hold; nothing is dispatched while ENABLE is 0, after the power-fail warning, from an empty queue or to a lantern
without a free context (R181, R192, R215, R265). CONTEXT_TIMESLICE changes context where another of the same level is runnable
(R251). Which free context is taken, and what a restored task finds, are log entries 105 and 47. -/
def Sys2Proof.Clause.Dispatch : Prop :=
  ∀ (s : State) (l : Lan) (k : CoreId) (c : CtxId) (e : Nat × TaskD),
    (s.ll.enable = false ∨ s.pf = true ∨ queueOf s l = [] ∨
        (∀ m ∈ coresOf l, inService s m = true → ∀ d ∈ ctxsOf m, (s.ctx d).st ≠ .empty) →
      exec (.taskDispatch l) s = .next s) ∧
    (s.ll.enable = true → s.pf = false → e ∈ queueOf s l → (∀ f ∈ queueOf s l, f = e ∨ QueuedBefore e f) →
      TakesContext s l k c →
      ((s.task e.1).saved = false →
        exec (.taskDispatch l) s = .next (resched k ((bump Cnt.llDispatch (putTask e.1 (fun t =>
          { t with st := .running, saved := false, ctx := some c }) s)).setCtx c (freshCtx s e.1 (s.ctx c).dbg)))) ∧
      ((s.task e.1).saved = true → ∀ u, restoreTask c e.1 (s.setCtx c { s.ctx c with
          task := some e.1, asid := (s.task e.1).asid, saveb := saveWord (saveArea s e.1), cstat := Cstat.reset }) = .ok () u →
        exec (.taskDispatch l) s = .next (resched k ((bump Cnt.llDispatch (putTask e.1 (fun t =>
          { t with st := .running, saved := false, ctx := some c }) u)).modCtx c fun x =>
            { x with st := .runnable, stall := .none })))) ∧
    (∀ (i j : Nat) (t : TaskD) (dbg : Bool) (x : Ctx), t = s.task i → x = freshCtx s i dbg → x.pc = t.entry.val ∧ x.asid = t.asid ∧
      x.task = some i ∧ x.cstat.priv = t.priv ∧ x.cstat.ie = true ∧ x.st = .runnable ∧ x.dbg = dbg ∧
      (j < 7 → x.reg (BitVec.ofNat 5 j) = t.args.getD j TWord.unset)) ∧
    (∀ n, (s.core k).running = some n →
      ((∃ d ∈ ctxsOf k, (s.ctx d).st = .runnable ∧ ctxLevel s d = ctxLevel s (ctxOf k n)) →
        exec (.contextTimeslice k) s = .next (rotate (ctxOf k n) s)) ∧
      ((∀ d ∈ ctxsOf k, (s.ctx d).st = .runnable → ctxLevel s d ≠ ctxLevel s (ctxOf k n)) →
        exec (.contextTimeslice k) s = .next s)) ∧
    ((s.core k).running = none → exec (.contextTimeslice k) s = .next s)

/-- PREEMPTION, MIGRATION and DEFER_DRAIN: a task of a numerically greater level gives its context to the head of the queue,
saved to its save area; a lantern with a free context and an empty queue takes the head task that may move, one in the mask
first from a lantern that has left it, else, under MIG_EN, from the masked lantern with the most queued; the next deferred
instance is made, or discarded when its event has gone (R189, R193, R194, R252). A migration from a lantern that has left the
mask, and a preemption that waits, are log entry 47; the words of a defer-ring entry that R189 does not lay out are free (log
entry 24). -/
def Sys2Proof.Clause.PreemptionMigration : Prop :=
  ∀ (s u v : State) (l f : Lan) (e : Nat × TaskD) (i : Nat) (t : TaskD) (c : CtxId) (x : Inst),
    (s.ll.enable = false ∨ s.pf = true ∨ queueOf s l = [] ∨ (freeContext s l).isSome = true →
      exec (.preemption l) s = .next s) ∧
    (s.ll.enable = true → s.pf = false → freeContext s l = none → e ∈ queueOf s l →
      (∀ y ∈ queueOf s l, y = e ∨ QueuedBefore e y) →
      ((∀ y ∈ s.ll.tasks, ∀ d, y.2.ctx = some d → lanOf d = l → inService s (coreOf d) = true → y.2.prio ≤ e.2.prio) →
        exec (.preemption l) s = .next s) ∧
      (firstTaken (onLantern s l e.2.prio) = some (i, t) → t.ctx = some c →
        (savable (s.ctx c) = false → exec (.preemption l) s = .next s) ∧
        (savable (s.ctx c) = true → saveOff c i s = (some u, v) → exec (.preemption l) s = .next (dispatchOn c e.1 u)) ∧
        (savable (s.ctx c) = true → saveOff c i s = (none, v) → exec (.preemption l) s = .next v))) ∧
    (s.ll.enable = false ∨ s.pf = true ∨ freeContext s l = none ∨ queueOf s l ≠ [] →
      exec (.migration l) s = .next s) ∧
    (s.ll.enable = true → s.pf = false → (freeContext s l).isSome = true → queueOf s l = [] →
      (migrateFrom l s = none → exec (.migration l) s = .next s) ∧
      (migrateFrom l s = some f → e ∈ queueOf s f → e.2.affinity ≠ 2 →
        (∀ y ∈ queueOf s f, y.2.affinity = 2 ∨ y = e ∨ QueuedBefore e y) →
        exec (.migration l) s = .next (bump Cnt.llMigrate (putTask e.1 (fun t => { t with lan := l }) s)))) ∧
    (l ∈ lanMask s → f ∉ lanMask s → movable s f ≠ [] →
      (∀ m, m ∉ lanMask s → movable s m ≠ [] → m = f ∨ (queueOf s m).length < (queueOf s f).length ∨
        ((queueOf s m).length = (queueOf s f).length ∧ f < m)) → migrateFrom l s = some f) ∧
    (l ∉ lanMask s ∨ (∀ m, m ∈ lanMask s ∨ movable s m = []) →
      (s.ll.migEn = false → migrateFrom l s = none) ∧
      (s.ll.migEn = true → f ∈ lanMask s → s.ll.migMin.toNat ≤ (queueOf s f).length →
        (∀ m ∈ lanMask s, m = f ∨ (queueOf s m).length < (queueOf s f).length ∨
          ((queueOf s m).length = (queueOf s f).length ∧ f < m)) → migrateFrom l s = some f)) ∧
    (s.ll.defer = [] → exec .deferDrain s = .next s) ∧
    (nextDeferred s.ll.defer = some x → u = { s with ll := { s.ll with
        defer := s.ll.defer.erase x, deferHead := (s.ll.deferHead + 1) % deferSize s } } →
      ((∃ h, x.handle = some h ∧ wakeable s h = false) → exec .deferDrain s = .next u) ∧
      ((∀ h, x.handle = some h → wakeable s h = true) →
        (s.ll.enable = false ∨ s.pf = true → exec .deferDrain s = .next s) ∧
        (s.ll.enable = true → s.pf = false →
          (tryMake x u = none → exec .deferDrain s = .next s) ∧ (tryMake x u = some v → exec .deferDrain s = .next v))))

/-- LL_MENU_COMMIT, MENU_COMMIT_APPLY and LL_ENABLE_WRITE: a menu group with a value out of its range sets the CFGERR of its
block and is not copied; else the table is loaded, as far as its lines can be read at once, and the commit waits (log entry
48); the loaded menu becomes live in one step, and a new POLICY or PRESCALE starts the prescale count again (R179, R201, R202,
R215). -/
def Sys2Proof.Clause.MenuCommits : Prop :=
  ∀ (s : State) (m : LlMenu), m = s.ll.menu.sh →
    (s.ll.menu.pend = true → exec .llMenuCommit s = .next s) ∧
    (s.ll.menu.pend = false →
      (m.deadline.toNat < 8000 ∨ 12800000 < m.deadline.toNat ∨ m.deadline ≤ m.warn ∨ m.policy = 3 ∨ m.prescale = 0 →
        exec .llMenuCommit s = .next { s with
          ll := { s.ll with menu := ⟨m, s.ll.menu.lv, false⟩ }, sn := { s.sn with cfgerr := true } }) ∧
      (8000 ≤ m.deadline.toNat → m.deadline.toNat ≤ 12800000 → m.warn < m.deadline → m.policy ≠ 3 → m.prescale ≠ 0 →
        (256 < m.tmpls.toNat ∨ m.tmplBase.toNat % 32 ≠ 0 →
          exec .llMenuCommit s = .next { s with ll := { s.ll with menu := ⟨m, s.ll.menu.lv, false⟩, cfgerr := true } }) ∧
        (m.tmpls.toNat ≤ 256 → m.tmplBase.toNat % 32 = 0 → ∀ u, u = { s with
            miss := none, ll := { s.ll with menu := ⟨m, s.ll.menu.lv, true⟩, menuLoaded := false, templSh := [] } } →
          (menuLoad u).miss = none → ∃ t, exec .llMenuCommit s = .next t ∧ t = menuLoad u ∧
          t.ll.menu = ⟨m, s.ll.menu.lv, true⟩ ∧ t.ll.menuLoaded = true ∧ t.ll.templ = s.ll.templ ∧
          (∀ i, i < m.tmpls.toNat → ∀ a, a = m.tmplBase + BitVec.ofNat 53 (32 * i) → ∃ v,
            Tab.get Templ.off t.ll.templSh i = (readTempl (physReads a 8 v).1).1) ∧
          (t.ctxs = s.ctxs ∧ t.cn = s.cn ∧ t.ev = s.ev ∧ t.hub = s.hub ∧ t.dp = s.dp ∧ t.sn = s.sn)))) ∧
    (s.ll.menuLoaded = false → s.ll.menu.pend = false → exec .menuCommitApply s = .next s) ∧
    (s.ll.menuLoaded = false → s.ll.menu.pend = true →
      exec .menuCommitApply s = .next (withLines (fun s => applyMenu (menuLoad s)) s)) ∧
    (s.ll.menuLoaded = true →
      exec .menuCommitApply s = .next { s with
        ll := { s.ll with menu := ⟨m, m, false⟩, templ := s.ll.templSh, menuLoaded := false },
        sn := { s.sn with prescaleCnt :=
          if s.ll.menu.lv.policy = m.policy ∧ s.ll.menu.lv.prescale = m.prescale then s.sn.prescaleCnt else 0 } }) ∧
    exec (.llEnableWrite true) s = .next { s with ll := { s.ll with enable := true } } ∧
    (s.ll.menuLoaded = false → exec (.llEnableWrite false) s = .next { s with ll := { s.ll with enable := false } }) ∧
    (s.ll.menuLoaded = true →
      exec (.llEnableWrite false) s = exec .menuCommitApply { s with ll := { s.ll with enable := false } })

/-! ### The wicks -/

namespace Sys2Proof.Machine

/-- Lane p of wick n exists and takes its optics, which are on (R176; 19 R553). -/
def Optic (s : State) (n : BitVec 3) (p : BitVec 4) : Prop :=
  n.toNat < 6 ∧ (laneCfg s n.toNat p.toNat).src = false ∧ s.pw.stage = .run

/-- t counts k more than s in a counter that does not saturate. -/
def Counts (s t : State) (off k : Nat) : Prop := t.counter off = (bumpBy off k s).counter off

/-- The state in which lane p of wick n is x. -/
def withLane (s : State) (n : BitVec 3) (p : BitVec 4) (x : LaneRx) : State := s.modLane n.toNat p.toNat fun _ => x

/-- How often a HELD entry counts a lane when its frames are dropped: its hit frames and its end-of-crossing frame (R160). -/
def heldOn (e : XEntry) (p : Nat) : Nat :=
  (e.frames.filter fun f => f.lane = p).length + (if p < 16 ∧ e.eoc.getLsbD p then 1 else 0)

/-- What a happening reads is there at once: it asks for no line of another node first. -/
abbrev Reads (f : State → State) (s : State) : Prop := (f { s with miss := none }).miss = none

/-- The last 16 of a run of blocks are IDLE (Table 04-2). -/
abbrev LastIdle (pol : Bool) (before : BitVec 58) (bs : List (BitVec 66)) : Prop :=
  16 ≤ bs.length ∧ ∀ x ∈ (readBlocks pol before bs).drop (bs.length - 16), x.1 = 2 ∧ x.2.setWidth 8 = 0x1E

end Sys2Proof.Machine

/-- Table 04-2 and the blocks: LANE_CLOCK_RECOVERED, LANE_SYNC_LOCKED, LANE_ALIGNED, LANE_LOCK_LOST and LANE_LOSS_OF_SIGNAL
move a lane that takes its optics; LANE_ALIGNED makes it UP when the last 16 blocks are IDLE; a lane that leaves UP counts
LOCK_LOSS and leaves the close masks. Blocks act one after the other in every command that brings them: the payload is
descrambled and, under POL, inverted first; an invalid sync header counts SYNC_ERR, and inside a frame it is a framing error,
as is a data block outside a frame, a control block other than EOF inside one, and an unknown one outside (R142–R144, R150,
R177). The order of a payload's bits is the model's (log entry 13). -/
def Sys2Proof.Clause.Lanes : Prop :=
  ∀ (s : State) (n : BitVec 3) (p : BitVec 4) (l : LaneRx) (c : LaneCfg), l = s.lane n.toNat p.toNat →
    c = laneCfg s n.toNat p.toNat → Optic s n p →
    (l.st = .acquire →
      exec (.laneClockRecovered n p) s = .next (withLane s n p { l with st := .locking, los := false }) ∧
      exec (.laneLossOfSignal n p) s = .next (withLane s n p { l with los := true })) ∧
    (l.st ≠ .acquire → exec (.laneClockRecovered n p) s = .next s) ∧
    (l.st = .locking → exec (.laneSyncLocked n p) s = .next (withLane s n p { l with st := .align })) ∧
    (l.st ≠ .locking → exec (.laneSyncLocked n p) s = .next s) ∧
    (l.st = .locking ∨ l.st = .align → ∃ t, exec (.laneLossOfSignal n p) s = .next t ∧
      t.lane n.toNat p.toNat = { l with st := .acquire, los := true }) ∧
    (l.st ≠ .up → exec (.laneLockLost n p) s = .next s) ∧
    (l.st = .up →
      (∃ t, exec (.laneLockLost n p) s = .next t ∧
        t.lane n.toNat p.toNat = { l with st := .acquire, lockLost := true, rx := none, skip := false } ∧
        (∀ q, q ≠ p.toNat → t.lane n.toNat q = s.lane n.toNat q) ∧ Counts s t (Cnt.wkLockLoss n.toNat p.toNat) 1 ∧
        Counts s t (Cnt.wkFraming n.toNat p.toNat) (if l.rx.isSome then 1 else 0) ∧
        ∀ e ∈ (t.wick n.toNat).entries, e.mask.getLsbD p.toNat = false) ∧
      (∃ t, exec (.laneLossOfSignal n p) s = .next t ∧
        t.lane n.toNat p.toNat = { l with st := .acquire, los := true, lockLost := true, rx := none, skip := false } ∧
        Counts s t (Cnt.wkLockLoss n.toNat p.toNat) 1 ∧
        ∀ e ∈ (t.wick n.toNat).entries, e.mask.getLsbD p.toNat = false)) ∧
    (∀ (b : BitVec 66) (bs : List (BitVec 66)),
      (l.st = .off ∨ l.st = .acquire → exec (.frameHeader n p bs) s = .next s ∧ exec (.laneAligned n p bs) s = .next s) ∧
      exec (.frameHeader n p []) s = .next s ∧
      (∃ t, exec (.frameHeader n p [b]) s = .next t ∧ exec (.frameHeader n p (b :: bs)) s = exec (.frameHeader n p bs) t) ∧
      exec (.frameEof n p bs) s = exec (.frameHeader n p bs) s ∧
      exec (.invalidSyncHeader n p b) s = exec (.frameHeader n p [b]) s ∧
      exec (.framingErrorBlock n p b) s = exec (.frameHeader n p [b]) s ∧
      (l.st ≠ .align → exec (.laneAligned n p bs) s = exec (.frameHeader n p bs) s) ∧
      (l.st = .align → l.rx = none → ∃ d t, exec (.laneAligned n p bs) s = .next t ∧
        t.lane n.toNat p.toNat = (if LastIdle c.pol l.descr bs then { l with descr := d, st := .up, ref := none, skip := false }
          else { l with descr := d }) ∧
        Counts s t (Cnt.wkSyncErr n.toNat p.toNat)
          ((readBlocks c.pol l.descr bs).filter fun x => x.1 = 0 ∨ x.1 = 3).length)) ∧
    (∀ (b v : BitVec 66) (x : BitVec 122), v = (if c.pol then ~~~b else b) → x = v.extractLsb' 0 64 ++ l.descr →
      (readBlock c.pol l.descr b).1 = v.extractLsb' 64 2 ∧
      (∀ i, i < 64 → (readBlock c.pol l.descr b).2.1.getLsbD i = (x.getLsbD (i + 58) ^^ x.getLsbD (i + 19) ^^ x.getLsbD i)) ∧
      (readBlock c.pol l.descr b).2.2 = x.extractLsb' 64 58) ∧
    (l.st ≠ .off → l.st ≠ .acquire → ∀ b h w d, readBlock c.pol l.descr b = (h, w, d) →
      ∀ lost, lost = withLane s n p { l with descr := d, rx := none, skip := true } →
      (h = 0 ∨ h = 3 →
        (l.rx = none → exec (.invalidSyncHeader n p b) s =
          .next (bump (Cnt.wkSyncErr n.toNat p.toNat) (withLane s n p { l with descr := d }))) ∧
        (l.rx.isSome = true → exec (.invalidSyncHeader n p b) s =
          .next (bump (Cnt.wkFraming n.toNat p.toNat) (bump (Cnt.wkSyncErr n.toNat p.toNat) lost)))) ∧
      (h = 1 ∨ h = 2 → l.st ≠ .up → exec (.frameHeader n p [b]) s = .next (withLane s n p { l with descr := d })) ∧
      (h = 1 → l.st = .up → l.rx = none → exec (.framingErrorBlock n p b) s =
        .next (if l.skip then withLane s n p { l with descr := d } else bump (Cnt.wkFraming n.toNat p.toNat) lost)) ∧
      (h = 2 → l.st = .up →
        (l.rx = none → w.setWidth 8 = 0x78 → exec (.frameHeader n p [b]) s = .next (withLane s n p { l with
          descr := d, rx := some ⟨none, none, c.fmt, false, 0, 0, 0, false, []⟩, skip := false })) ∧
        (l.rx = none → w.setWidth 8 = 0x1E ∨ w.setWidth 8 = 0xE1 →
          exec (.frameHeader n p [b]) s = .next (withLane s n p { l with descr := d })) ∧
        (l.rx = none → w.setWidth 8 ≠ 0x78 → w.setWidth 8 ≠ 0x1E → w.setWidth 8 ≠ 0xE1 → exec (.frameHeader n p [b]) s =
          .next (if l.skip then withLane s n p { l with descr := d } else bump (Cnt.wkFraming n.toNat p.toNat) lost)) ∧
        (l.rx.isSome = true → w.setWidth 8 ≠ 0xE1 →
          exec (.framingErrorBlock n p b) s = .next (bump (Cnt.wkFraming n.toNat p.toNat) lost))))

/-- FRAME_HEADER and FRAME_EOF, block by block, and HOLD_EXPIRY: a header word is taken with the time base of that moment; a
frame is checked by the rules of Table 04-5 in their order, and the first that fails counts it; a good one counts FRAMES and
HITS and the sequence gap, and with its place in the burst buffer reaches the crossing table; a HELD entry whose hold has
passed drops its frames as ORPHAN (R148–R151, R157, R158, R160, R168). What is counted where two rules meet is log entry 37.
-/
def Sys2Proof.Clause.Frames : Prop :=
  ∀ (s : State) (n : BitVec 3) (p : BitVec 4) (l : LaneRx) (f : RxFrame) (b : BitVec 66) (w : BitVec 64) (d : BitVec 58)
    (k : BitVec 4 × Nat × BitVec 16) (x : BitVec 48) (e : XEntry) (u : State),
    l = s.lane n.toNat p.toNat → Optic s n p → u = withLane s n p { l with descr := d } →
    (l.st = .up → l.rx = some f → readBlock (laneCfg s n.toNat p.toNat).pol l.descr b = (1, w, d) →
      (f.failed = true → exec (.frameHeader n p [b]) s = .next u) ∧
      (f.failed = false → f.h0.isSome = true → (f.fmt2 = true → f.h1.isSome = true) → exec (.frameEof n p [b]) s =
        .next (withLane s n p { l with descr := d, rx := some { f with hits := f.hits ++ [w] }, skip := false })) ∧
      (f.failed = false → ∀ g : RxFrame,
        ((f.h0 = none ∧ g = { f with h0 := some w, orbit := s.tb.orbit, bx := s.tb.bx }) ∨
          (f.h0.isSome = true ∧ f.fmt2 = true ∧ f.h1 = none ∧ g = { f with h1 := some w })) →
        ∀ rx, rx = (fun x => withLane s n p { l with descr := d, rx := some x, skip := false }) →
        ((g.h0.getD 0).extractLsb' 48 4 ≠ (if g.fmt2 then 2 else 1) →
          exec (.frameHeader n p [b]) s = .next (bump (Cnt.wkFmt n.toNat p.toNat) (rx { g with failed := true }))) ∧
        ((g.h0.getD 0).extractLsb' 48 4 = (if g.fmt2 then 2 else 1) →
          (headerFields g.fmt2 g.h0 g.h1 = none → exec (.frameHeader n p [b]) s = .next (rx g)) ∧
          (headerFields g.fmt2 g.h0 g.h1 = some k →
            (1 < k.1.toNat ∨ 1024 < k.2.1 ∨ (k.1 = 1 ∧ k.2.1 ≠ 0) →
              exec (.frameHeader n p [b]) s = .next (bump (Cnt.wkLen n.toNat p.toNat) (rx { g with failed := true }))) ∧
            ((k.1 = 0 ∧ k.2.1 ≤ 1024) ∨ (k.1 = 1 ∧ k.2.1 = 0) → ∀ units,
              units = (if k.1 = 1 then 0 else (8 * ((if g.fmt2 then 2 else 1) + k.2.1 + 1) + 63) / 64) →
              (32768 < bufUsed (u.wick n.toNat) + units →
                exec (.frameHeader n p [b]) s = .next (rx { g with noRoom := true })) ∧
              (bufUsed (u.wick n.toNat) + units ≤ 32768 → ∃ t, exec (.frameHeader n p [b]) s = .next t ∧
                t.lane n.toNat p.toNat = { l with descr := d, rx := some { g with units := units }, skip := false } ∧
                (t.wick n.toNat).bufHwm.toNat =
                  max (s.wick n.toNat).bufHwm.toNat (bufUsed (u.wick n.toNat) + units) ∧ t.cnt = s.cnt)))))) ∧
    (l.st = .up → l.rx = some f → readBlock (laneCfg s n.toNat p.toNat).pol l.descr b = (2, w, d) → w.setWidth 8 = 0xE1 →
      ∀ v, v = withLane s n p { l with descr := d, rx := none } →
      (f.failed = true → exec (.frameEof n p [b]) s = .next v) ∧
      (f.failed = false → headerFields f.fmt2 f.h0 f.h1 = none →
        exec (.frameEof n p [b]) s = .next (bump (Cnt.wkLen n.toNat p.toNat) v)) ∧
      (f.failed = false → headerFields f.fmt2 f.h0 f.h1 = some k →
        (f.hits.length ≠ k.2.1 → exec (.frameEof n p [b]) s = .next (bump (Cnt.wkLen n.toNat p.toNat) v)) ∧
        (f.hits.length = k.2.1 → crc32c (frameBytes f) ≠ w.extractLsb' 8 32 →
          exec (.frameEof n p [b]) s = .next (bump (Cnt.wkCrc n.toNat p.toNat) v)) ∧
        (f.hits.length = k.2.1 → crc32c (frameBytes f) = w.extractLsb' 8 32 →
          (f.fmt2 = false → s.tb.cfg.lv.len.toNat ≤ ((f.h0.getD 0).extractLsb' 0 16).toNat →
            exec (.frameEof n p [b]) s = .next (bump (Cnt.wkFmt n.toNat p.toNat) v)) ∧
          (f.fmt2 = true ∨ ((f.h0.getD 0).extractLsb' 0 16).toNat < s.tb.cfg.lv.len.toNat →
            ∃ q t, q.lane n.toNat p.toNat = { l with descr := d, rx := none, ref := some k.2.2, lastLseq := k.2.2 } ∧
              Counts s q (Cnt.wkFrames n.toNat p.toNat) 1 ∧ Counts s q (Cnt.wkHits n.toNat p.toNat) k.2.1 ∧
              Counts s q (Cnt.wkSeqGap n.toNat p.toNat)
                (match l.ref with | some r => (k.2.2 - r - 1).toNat | none => 0) ∧
              (∀ m, m ≠ n.toNat → q.wick m = s.wick m) ∧ { q with wk := s.wk, cnt := s.cnt } = s ∧
              exec (.frameEof n p [b]) s = .next t ∧
              (f.noRoom = true → t = frameNoRoom n.toNat (frameCrossing s f)
                (bumpBy (Cnt.wkDropHits n.toNat p.toNat) k.2.1 q)) ∧
              (f.noRoom = false →
                t = frameGood n.toNat p.toNat k.1 (frameCrossing s f) ⟨p.toNat, f.fmt2, f.hits, f.units⟩ q))))) ∧
    (findX s n.toNat x = none → exec (.holdExpiry n x) s = .next s) ∧
    (findX s n.toNat x = some e →
      (e.handle = none → s.tb.counting = true → e.hold.toNat + s.wk.event.lv.hold.toNat ≤ s.time.toNat →
        ∃ t, exec (.holdExpiry n x) s = .next t ∧ findX t n.toNat x = none ∧
          (∀ q, q < 16 → Counts s t (Cnt.wkOrphan n.toNat q) (heldOn e q)) ∧
          { t with wk := s.wk, cnt := s.cnt } = s) ∧
      (e.handle.isSome = true ∨ s.tb.counting = false ∨ s.time.toNat < e.hold.toNat + s.wk.event.lv.hold.toNat →
        exec (.holdExpiry n x) s = .next s))

/-- OPEN_NOTIFICATION, FRAME_WRITE, WICK_CLOSE_TIMEOUT and WICK_CLOSE_DECISION: a HELD entry becomes OPEN with the lanes in UP
as its close mask, and a wick that is not enabled writes the empty HDR and the root word and reports at once; the writer maps
the oldest frame's hits into the extent; a timeout writes what the wick holds, a decision drops it as LATE, and both write the
final HDR and report the close; a hit is a HIT0 and a HIT1 word with IMM (R157–R160, R162, R164). The order of writing and
closing is log entry 37, and a batch after WK_BATCH has changed log entry 103. -/
def Obligations.HitsAndCloses : Prop :=
  ∀ (s : State) (n : BitVec 3) (x : BitVec 48) (h : BitVec 19) (home : Lan) (span : Nat) (virt : Word) (e : XEntry) (f : HeldFrame) (r : List HeldFrame)
    (ns : List WkNote) (u : State), n.toNat < 6 →
    (∀ (m : Tab Word) (hit : BitVec 64), ∀ v, v = Tab.get 0 m (hit.extractLsb' 48 16).toNat →
      (v.getLsbD 16 = false → hitWords m hit = none) ∧
      (v.getLsbD 16 = true → hitWords m hit = some
        [⟨Ty.hit0, true, false, v.setWidth 16 ++ hit.extractLsb' 0 16⟩,
          ⟨Ty.hit1, true, false, hit.extractLsb' 32 16 ++ hit.extractLsb' 16 16⟩])) ∧
    ((∀ m, (s.wick n.toNat).notes.head? ≠ some m) → exec (.openNotification n) s = .next s ∧
      exec (.wickCloseTimeout n) s = .next s ∧ exec (.wickCloseDecision n) s = .next s) ∧
    ((s.wick n.toNat).notes = .opened x h home span virt :: ns →
      u = s.modWick n.toNat (fun w => { w with notes := ns, told := some x }) →
      (s.pf = true → exec (.openNotification n) s = .next u) ∧
      (s.pf = false → s.wk.enable = false → ∀ drop, drop = (s.wick n.toNat).dropped.contains x →
        ∃ t, exec (.openNotification n) s = .next t ∧ (t.wick n.toNat).reports = (s.wick n.toNat).reports ++ [⟨h, 0, drop⟩] ∧
          (t.wick n.toNat).notices = (s.wick n.toNat).notices ++ (if drop then [h] else []) ∧
          (t.wick n.toNat).entries = (s.wick n.toNat).entries ∧ (t.wick n.toNat).notes = ns ∧
          (s.stale h = false → ∀ off v w, off = extentOff (s.event (hSlot h)).extUnits n.toNat + 0x3C →
            v = (if (s.wick n.toNat).stash then some home else none) →
            w = ((0 : BitVec 2) ++ (1 : BitVec 2) ++ (if drop then (1 : BitVec 1) else 0) ++ n ++ (0 : BitVec 24)) →
            t = (physRun v (mkPa s.node (spanLocal s span + 4 * (5 + n.toNat))) [] [⟨Ty.hitv, false, false, virt + BitVec.ofNat 32 off⟩]
              (physRun v (mkPa s.node (spanLocal s span + off)) [] [⟨Ty.hdr, true, false, w⟩] u)).modWick n.toNat fun w =>
                { w with reports := w.reports ++ [⟨h, 0, drop⟩], notices := if drop then w.notices ++ [h] else w.notices }) ∧
          (s.stale h = true → Counts s t Cnt.cnStaleHandle 2 ∧ t.mcs = s.mcs ∧ t.hbm = s.hbm)) ∧
      (s.pf = false → s.wk.enable = true → (s.wick n.toNat).lcfg.pend = false → (s.wick n.toNat).mapPend = false →
        (∀ y ∈ (s.wick n.toNat).entries, y.handle = none → x ≤ y.crossing) →
        (findX s n.toNat x = some e → e.drop = false → (s.wick n.toNat).dropped.contains x = false → ∀ mask,
          mask = upMask s n.toNat → (e.frames ≠ [] ∨ mask &&& ~~~(e.eoc &&& mask) ≠ 0) →
          exec (.openNotification n) s = .next (putX n.toNat
            { e with handle := some h, home := home, span := span, virt := virt, mask := mask, eoc := e.eoc &&& mask } u)) ∧
        (findX s n.toNat x = none → 128 ≤ (s.wick n.toNat).entries.length → ∃ t, exec (.openNotification n) s = .next t ∧
          (t.wick n.toNat).reports = (s.wick n.toNat).reports ++ [⟨h, 0, true⟩] ∧
          (t.wick n.toNat).notices = (s.wick n.toNat).notices ++ [h] ∧ (t.wick n.toNat).dropped.head? = some x ∧
          (t.wick n.toNat).entries = (s.wick n.toNat).entries ∧ Counts s t (Cnt.wkTableFull n.toNat) 1))) ∧
    (s.pw.stage = .run → findX s n.toNat x = some e → e.handle = some h → e.frames = f :: r →
      exec (.frameWrite n x) s = .next (closeIfDone n.toNat x (putX n.toNat
        (writeFrame n.toNat h f { e with frames := r } s).1 (writeFrame n.toNat h f { e with frames := r } s).2))) ∧
    ((∀ y, findX s n.toNat x = some y → y.handle = none ∨ y.frames = []) → exec (.frameWrite n x) s = .next s) ∧
    ((s.wick n.toNat).notes = .timeout h :: ns → u = s.modWick n.toNat (fun w => { w with notes := ns }) →
      (openEntry s n.toNat h = none → exec (.wickCloseTimeout n) s = .next u) ∧
      (openEntry s n.toNat h = some e → ∃ t, exec (.wickCloseTimeout n) s = .next t ∧
        t = closeEntry n.toNat h (writeFrames n.toNat h e.frames { e with frames := [] } u).1
          (writeFrames n.toNat h e.frames { e with frames := [] } u).2 ∧
        (t.wick n.toNat).notes = ns ∧ (∀ y ∈ (t.wick n.toNat).entries, y.crossing ≠ e.crossing) ∧
        ∃ m d, (t.wick n.toNat).reports = (s.wick n.toNat).reports ++ [⟨h, m, d⟩])) ∧
    ((s.wick n.toNat).notes = .decided h :: ns → u = s.modWick n.toNat (fun w => { w with notes := ns }) →
      (openEntry s n.toNat h = none → exec (.wickCloseDecision n) s = .next u) ∧
      (openEntry s n.toNat h = some e → ∃ t, exec (.wickCloseDecision n) s = .next t ∧
        (t.wick n.toNat).notes = ns ∧ (∀ y ∈ (t.wick n.toNat).entries, y.crossing ≠ e.crossing) ∧
        (t.wick n.toNat).reports = (s.wick n.toNat).reports ++ [⟨h, e.hits, e.drop⟩] ∧
        ∀ q, q < 16 → Counts s t (Cnt.wkLate n.toNat q) (e.frames.filter fun g => g.lane = q).length))

/-- WK_MAP_LOAD, MAP_LOAD_DONE, WK_MAP_COMMIT, WK_MAP_DATA_ACCESS, WK_LANE_COMMIT, WK_EVENT_COMMIT and WK_ENABLE_WRITE: a load
is refused while an exchange is pending, and otherwise ignored while one runs; an entry keeps OUT_CH and EN; the maps are
exchanged at once while ENABLE is 0 and else at the next notification, and open events keep the old one; an event group with a
value out of range, or a MODE changed while ENABLE is 1, is refused (R152–R154, R177, R178). That a commit which waits for
nothing acts at once, and which bits an entry keeps, are log entries 15 and 39. -/
def Obligations.MapsAndCommits : Prop :=
  ∀ (s : State) (n : BitVec 3) (w : WkSt) (v : Word), w = s.wick n.toNat →
    (6 ≤ n.toNat → exec (.wkMapLoad n) s = .next s ∧ exec (.mapLoadDone n) s = .next s ∧ exec (.wkMapCommit n) s = .next s ∧
      exec (.wkLaneCommit n) s = .next s ∧ exec (.wkMapDataAccess n (some v)) s = .next s) ∧
    (n.toNat < 6 →
      (w.mapPend = false → w.loading.isSome = true → ∃ t, exec (.wkMapLoad n) s = .next t ∧ t.wick n.toNat = w) ∧
      (w.mapPend = true ∨ (w.loading = none ∧ w.mapSrc.toNat % 64 ≠ 0) →
        exec (.wkMapLoad n) s = .next (s.modWick n.toNat fun w => { w with cfgerr := true })) ∧
      (w.loading = none → w.mapPend = false → w.mapSrc.toNat % 64 = 0 →
        exec (.wkMapLoad n) s = .next (s.modWick n.toNat fun w => { w with loading := some w.mapSrc })) ∧
      (w.loading = none → exec (.mapLoadDone n) s = .next s) ∧
      (∀ pa m bad u, w.loading = some pa → s.wk.enable = true → readMap pa 65536 { s with miss := none } = (m, bad, u) →
        u.miss = none → ∃ t, exec (.mapLoadDone n) s = .next t ∧
        t.wick n.toNat = { w with mapSh := m, maperr := w.maperr || bad, loading := none }) ∧
      (s.wk.enable = true → exec (.wkMapCommit n) s = .next (s.modWick n.toNat fun w => { w with mapPend := true })) ∧
      (s.wk.enable = false → w.mapDone = false → w.loading = none → ∃ t, exec (.wkMapCommit n) s = .next t ∧
        (t.wick n.toNat).map = w.mapSh ∧ (t.wick n.toNat).mapSh = w.map ∧
        (t.wick n.toNat).entries = (w.entries.map fun e => if e.handle.isSome then { e with oldMap := true } else e) ∧
        ((t.wick n.toNat).mapPend = false ↔ ∀ e ∈ (t.wick n.toNat).entries, e.oldMap = false)) ∧
      (s.wk.enable = true → exec (.wkLaneCommit n) s =
        .next (s.modWick n.toNat fun w => { w with lcfg := ⟨w.lcfg.sh, w.lcfg.lv, true⟩ })) ∧
      (s.wk.enable = false → ∃ t, exec (.wkLaneCommit n) s = .next t ∧
        (t.wick n.toNat).lcfg = ⟨w.lcfg.sh, w.lcfg.sh, false⟩ ∧
        ∀ p : BitVec 4, (s.lane n.toNat p.toNat).st = .off →
          (t.lane n.toNat p.toNat).st = (match (Tab.get LaneCfg.reset w.lcfg.sh p.toNat).en,
              (Tab.get LaneCfg.reset w.lcfg.sh p.toNat).src with
            | false, _ => .off
            | true, true => .up
            | true, false => .acquire)) ∧
      (w.mapPend = false → ∃ t, exec (.wkMapDataAccess n (some v)) s = .next t ∧
        (t.wick n.toNat).mapSel = (if w.autoinc then w.mapSel + 1 else w.mapSel) ∧
        ∀ i, Tab.get 0 (t.wick n.toNat).mapSh i =
          if i = w.mapSel.toNat then v &&& 0x1FFFF else Tab.get 0 w.mapSh i) ∧
      (w.mapPend = true → ∃ t, exec (.wkMapDataAccess n (some v)) s = .next t ∧ (t.wick n.toNat).mapSh = w.mapSh) ∧
      (∃ t, exec (.wkMapDataAccess n none) s = .next t ∧ t.out = .readValue (Tab.get 0 w.mapSh w.mapSel.toNat) :: s.out ∧
        (t.wick n.toNat).mapSel = (if w.autoinc then w.mapSel + 1 else w.mapSel))) ∧
    (∀ e, e = s.wk.event.sh →
      ((1 ≤ e.extUnits.toNat ∧ e.extUnits.toNat ≤ 42) ∧ 64 ≤ e.winto.toNat ∧ (6 ≤ e.batch.toNat ∧ e.batch.toNat ≤ 16) ∧
          (s.wk.enable = true → e.mode = s.wk.event.lv.mode) →
        exec .wkEventCommit s = .next { s with wk := { s.wk with event := ⟨e, e, false⟩ } }) ∧
      (¬((1 ≤ e.extUnits.toNat ∧ e.extUnits.toNat ≤ 42) ∧ 64 ≤ e.winto.toNat ∧ (6 ≤ e.batch.toNat ∧ e.batch.toNat ≤ 16) ∧
          (s.wk.enable = true → e.mode = s.wk.event.lv.mode)) →
        exec .wkEventCommit s = .next ({ s with wk := { s.wk with event := ⟨e, s.wk.event.lv, false⟩ } }.modWick 0 fun w =>
          { w with cfgerr := true }))) ∧
    (exec (.wkEnableWrite true) s = .next { s with wk := { s.wk with enable := true } }) ∧
    (∃ t, exec (.wkEnableWrite false) s = .next t ∧ t.wk.enable = false ∧ t.wk.event = s.wk.event ∧
      (t.ll = s.ll ∧ t.cn = s.cn ∧ t.ev = s.ev ∧ t.hub = s.hub ∧ t.tb = s.tb) ∧
      ∀ m, m < 6 → (t.wick m).lcfg.pend = false ∧ (t.wick m).entries = [])

/-! ### Candles: spans, evacuation, marking -/

namespace Sys2Proof.Machine

/-- When a span that enters COOLING now leaves it: the live deadline and COOL_EXTRA from now (R98). -/
def coolUntil (s : State) : BitVec 64 := s.time + s.ll.menu.lv.deadline.setWidth 64 + s.cn.run.lv.coolExtra.setWidth 64

/-- t has span i in a state and every other span as s has it. -/
def SpanMoves (s t : State) (i : Nat) (st : SpanSt) : Prop :=
  (t.cn.span i).st = st ∧ ∀ j, j ≠ i → t.cn.span j = s.cn.span j

end Sys2Proof.Machine

/-- Table 03-2: CN_SPAN_CLAIM, CN_SPAN_RELEASE and CN_SPAN_RETIRE move the span that CN_SPAN_SEL names from the states the
table gives, and RESULT says 1 in another state, 2 for a CLAIM of a span that a request has been granted in the same HUB
cycle, and 3 outside an enabled bank; COOLING_EXPIRY frees the span at the head once its time has come, or retires it;
ALLOC_CHUNK_REFILL carves a chunk from the candle's current span (R96–R98, R102, R136). That a refill carves its chunk with
the spans at hand is log entry 16. -/
def Sys2Proof.Clause.Spans : Prop :=
  ∀ (s : State) (i : Nat) (at_ : BitVec 64) (r : List (Nat × BitVec 64)) (l : Lan) (slot : BitVec 11) (now : Bool),
    (s.cn.cooling = [] → exec .coolingExpiry s = .next s) ∧
    (s.cn.cooling = (i, at_) :: r →
      (s.time < at_ → exec .coolingExpiry s = .next s) ∧
      (at_ ≤ s.time → ∃ t, exec .coolingExpiry s = .next t ∧ t.cn.cooling = r ∧
        SpanMoves s t i (if (s.cn.span i).retpend then .retired else .free) ∧
        t.recs = s.recs ++ (if (s.cn.span i).retpend then
          [⟨1, 0x30, 0x30, s.time, BitVec.ofNat 64 i, 0, 0, 0, 0⟩] else []))) ∧
    (i = s.cn.spanSel.toNat →
      (inPool s.cn i = false → ∀ c, c = Instr.cnSpanClaim now ∨ c = .cnSpanRelease ∨ c = .cnSpanRetire →
        exec c s = .next { s with cn := { s.cn with spanResult := 3 } }) ∧
      (inPool s.cn i = true →
        ((s.cn.span i).st = .free →
          (∃ t, exec (.cnSpanClaim now) s = .next t ∧ t.cn.spanResult = 0 ∧ SpanMoves s t i .persistent ∧
            (t.cn.span i).newborn = ((s.cn.span i).newborn || decide (s.cn.phase ≠ .idle)) ∧ t.cn.cooling = s.cn.cooling) ∧
          (∃ t, exec .cnSpanRetire s = .next t ∧ t.cn.spanResult = 0 ∧ SpanMoves s t i .retired) ∧
          exec .cnSpanRelease s = .next { s with cn := { s.cn with spanResult := 1 } }) ∧
        ((s.cn.span i).st = .persistent →
          (∃ t, exec .cnSpanRelease s = .next t ∧ t.cn.spanResult = 0 ∧ SpanMoves s t i .cooling ∧
            t.cn.cooling = s.cn.cooling ++ [(i, coolUntil s)]) ∧
          (∃ t, exec .cnSpanRetire s = .next t ∧ t.cn.spanResult = 0 ∧ SpanMoves s t i .retired) ∧
          exec (.cnSpanClaim now) s = .next { s with cn := { s.cn with spanResult := 1 } }) ∧
        ((s.cn.span i).st = .candle ∨ (s.cn.span i).st = .cooling ∨ (s.cn.span i).st = .retired →
          (∀ c, c = Instr.cnSpanRelease ∨ c = .cnSpanRetire →
            exec c s = .next { s with cn := { s.cn with spanResult := 1 } }) ∧
          exec (.cnSpanClaim now) s = .next { s with cn := { s.cn with
            spanResult := if now = true ∧ (s.cn.span i).st = .candle then 2 else 1 } }))) ∧
    ((s.slot slot.toNat).st = .free ∨ (s.slot slot.toNat).st = .retiring →
      exec (.allocChunkRefill l slot) s = .next s) ∧
    ((s.slot slot.toNat).st ≠ .free → (s.slot slot.toNat).st ≠ .retiring → ∀ (idx off size va : Nat),
      size = 4096 * 2 ^ s.cn.run.lv.chunk.toNat → (s.slot slot.toNat).cur = some (idx, off) → off + size ≤ 0x100000 →
      va = (spanVirt idx + BitVec.ofNat 32 off).toNat → ∃ t, exec (.allocChunkRefill l slot) s = .next t ∧
        t.slot slot.toNat = { s.slot slot.toNat with cur := some (idx, off + size) } ∧
        (t.lan l).cursors = (⟨slot.toNat, va, va + size⟩ ::
          (s.lan l).cursors.filter fun c => c.slot ≠ slot.toNat).take 8)

/-- EVAC_JOB_QUEUE, EVAC_JOB_START and EVAC_JOB_DONE: a RETIRING slot with no outstanding escape takes a free entry of the job
table's first 128, loses its cursors and joins the engine with the fewest evacuations; an engine starts its oldest; at the end
each of the candle's spans is COOLING for at least the deadline, the entry is free, and the slot is FREE at the tail of the
free list with its generation kept (R91, R98, R122, R219, R231). Which free entry is taken is free (log entry 22); the copies
and rewrites of a job are one happening at its start (log entry 77). That an evacuation copies at its start is log entry 27.
-/
def Sys2Proof.Clause.Evacuations : Prop :=
  ∀ (s : State) (i : BitVec 11) (e : BitVec 3) (h : BitVec 19) (j : Nat) (q : List Nat),
    ((s.slot i.toNat).st ≠ .retiring ∨ (s.slot i.toNat).escCount ≠ 0 ∨ s.pf = true →
      exec (.evacJobQueue i) s = .next s) ∧
    ((∀ k, k < 128 → (evacOwner s k).isSome = true) → exec (.evacJobQueue i) s = .next s) ∧
    ((s.slot i.toNat).st = .retiring → (s.slot i.toNat).escCount = 0 → s.pf = false → h = mkHandle i.toNat (s.slot i.toNat).gen →
      (evacKnown s h = true → exec (.evacJobQueue i) s = .next s) ∧
      (evacKnown s h = false → (∃ k, k < 128 ∧ evacOwner s k = none) → ∃ t k, exec (.evacJobQueue i) s = .next t ∧
        k < 128 ∧ evacOwner s k = none ∧ evacOwner t k = some h ∧ (∀ m, m ≠ k → evacOwner t m = evacOwner s m) ∧
        Tab.get 0 t.tp.gens k = Tab.get 0 s.tp.gens k + 1 ∧
        (∀ l, (t.lan l).cursors = (s.lan l).cursors.filter fun c => c.slot ≠ i.toNat) ∧
        (∃ n, n < 8 ∧ (t.engine n).evacQ = (s.engine n).evacQ ++ [k] ∧
          ∀ m, m < 8 → evacsOn s n ≤ evacsOn s m ∧ (m ≠ n → t.engine m = s.engine m)) ∧
        t.cn = s.cn ∧ t.ev = s.ev ∧ t.hbm = s.hbm)) ∧
    ((s.engine e.toNat).evac.isSome = true ∨ (s.engine e.toNat).evacQ = [] ∨ s.pf = true →
      exec (.evacJobStart e) s = .next s) ∧
    ((s.engine e.toNat).evac = none → (s.engine e.toNat).evacQ = j :: q → s.pf = false → evacOwner s j = some h →
      exec (.evacJobStart e) s = .next (withLines (evacStart e.toNat j q) s) ∧
      (Reads (evacStart e.toNat j q) s → exec (.evacJobStart e) s = .next (evacuate e.toNat h
        ({ s with miss := none }.modEngine e.toNat fun x => { x with evac := some j, evacQ := q })))) ∧
    ((s.engine e.toNat).evac = none ∨ s.pf = true → exec (.evacJobDone e) s = .next s) ∧
    ((s.engine e.toNat).evac = some j → evacOwner s j = some h → s.pf = false → ∃ t, exec (.evacJobDone e) s = .next t ∧
      t.slot (hSlot h) = { CnSlot.reset with gen := (s.slot (hSlot h)).gen } ∧
      t.cn.freeTail = s.cn.freeTail ++ [hSlot h] ∧
      t.cn.cooling = s.cn.cooling ++ (s.slot (hSlot h)).spans.map (fun j => (j, coolUntil s)) ∧
      (∀ j ∈ (s.slot (hSlot h)).spans, (t.cn.span j).st = .cooling) ∧
      (∀ j, j ∉ (s.slot (hSlot h)).spans → t.cn.span j = s.cn.span j) ∧ (t.engine e.toNat).evac = none ∧
      evacOwner t j = none)

/-- The phases of a mark cycle and its work: MARK_START, MARK_TRACE_START, MARK_FINISH, MARK_SWEEP_DONE, MARK_POP,
MARK_LOG_CONSUME and MARK_REQUEST; each happens where what it reads is there at once, and a job of a mark stack entry waits at
its engine until it is (R239, log entries 67, 77). Mark work translates with R and W at SUPERVISOR (R130, R131, R133, R134,
R219, R232–R235, log entry 40). Which entry of the job table a job takes is free (log entry 22). The order of mark work and
its corner cases are log entries 28 and 29. -/
def Sys2Proof.Clause.MarkCycle : Prop :=
  ∀ (s u : State) (e : BitVec 3) (w : TWord) (asid : BitVec 12) (pa : PA) (k : Nat),
    (s.cn.phase ≠ .idle → exec .markStart s = .next s) ∧
    (s.cn.phase = .idle → ∃ t, exec .markStart s = .next t ∧ t.cn.phase = .grace ∧ t.cn.sense = !s.cn.sense ∧
      t.tp.incomplete = false ∧ t.tp.mstkUsed = 0 ∧
      (∀ i, t.slot i = { s.slot i with
        precycle := (s.slot i).precycle || decide ((s.slot i).st ≠ .free) }) ∧ t.cn.spans = s.cn.spans ∧ t.hbm = s.hbm) ∧
    (s.cn.phase ≠ .grace ∨ (∃ x ∈ s.cn.slots, x.2.precycle = true) → exec .markTraceStart s = .next s) ∧
    (s.cn.phase = .grace → (∀ x ∈ s.cn.slots, x.2.precycle = false) → Reads traceStart s →
      exec .markTraceStart s = .next (traceStart { s with miss := none }) ∧
      (traceStart { s with miss := none }).cn.phase = .trace ∧ (traceStart { s with miss := none }).cn.slots = s.cn.slots ∧
      s.tp.mstkUsed ≤ (traceStart { s with miss := none }).tp.mstkUsed) ∧
    (s.cn.phase = .idle → exec .markFinish s = .next (bump Cnt.cnMarkErr s)) ∧
    (s.cn.phase = .trace → ∀ waits : Prop, waits = ((∃ p ∈ s.bl.inbox, p.op = 0x30) ∨
        (∃ p ∈ s.bl.pkts, p.op = 0x30 ∧ p.src = s.node) ∨ ∃ x ∈ s.bl.ports, ∃ p ∈ x.2.txq, p.op = 0x30 ∧ p.src = s.node) →
      (s.tp.mstkUsed = 0 → s.cn.mlogUsed = 0 → ¬waits →
        exec .markFinish s = .next { s with cn := { s.cn with phase := .sweep } }) ∧
      (s.tp.mstkUsed ≠ 0 ∨ s.cn.mlogUsed ≠ 0 ∨ waits → exec .markFinish s = .next (bump Cnt.cnMarkErr s))) ∧
    (s.cn.phase = .grace ∨ s.cn.phase = .sweep → exec .markFinish s = .next s) ∧
    (s.cn.phase ≠ .sweep → exec .markSweepDone s = .next s) ∧
    (s.cn.phase = .sweep → Reads sweepAll s → ∃ t, exec .markSweepDone s = .next t ∧ t.cn.phase = .idle ∧
      t.cn.slots = s.cn.slots ∧ (∀ x ∈ t.cn.spans, x.2.newborn = false) ∧
      (s.cn.autofree = false → ∀ i, (t.cn.span i).st = (s.cn.span i).st)) ∧
    (s.tp.mstkUsed = 0 ∨ s.pf = true ∨ markFree s e.toNat = false → exec (.markPop e) s = .next s) ∧
    (s.tp.mstkUsed ≠ 0 → s.pf = false → markFree s e.toNat = true → takeEvacEntry s = (some k, u) →
      (Reads (popEntry e.toNat) u → ∃ a v, popMark { u with miss := none } = (a, v) ∧
        exec (.markPop e) s = .next ((markAct e.toNat a.1 a.2 v).modEngine e.toNat fun g => { g with mark := false })) ∧
      (¬Reads (popEntry e.toNat) u → ∃ t, exec (.markPop e) s = .next (t.modEngine e.toNat fun g => { g with mark := true }) ∧
        t = withLines (fun _ => popEntry e.toNat { u with miss := none }) u)) ∧
    (isPointer w.ty = false ∨ windowAddr u asid w.val = true → markAct e.toNat w asid u = u) ∧
    (isPointer w.ty = true → windowAddr u asid w.val = false → ∀ v,
      (markXlate e.toNat asid w.val u = (some pa, v) →
        (nodeOf pa ≠ v.node → markAct e.toNat w asid u = requestMark (nodeOf pa) w asid v) ∧
        (nodeOf pa = v.node → ∀ i, poolIndex v pa = some i → (v.cn.span i).st = .persistent →
          markAct e.toNat w asid u = markTarget e.toNat w asid (v.cn.span i).newborn pa v) ∧
        (nodeOf pa = v.node → poolIndex v pa = none → markAct e.toNat w asid u = v)) ∧
      (markXlate e.toNat asid w.val u = (none, v) → markAct e.toNat w asid u = bump Cnt.tpMarkStale v)) ∧
    (s.cn.mlogUsed = 0 ∨ s.pf = true → exec .markLogConsume s = .next s) ∧
    (s.cn.mlogUsed ≠ 0 → s.pf = false → Reads consumeLog s → ∃ t, exec .markLogConsume s = .next t ∧
      t.cn.mlogHead = (s.cn.mlogHead + 1) % 2 ^ s.cn.pool.lv.mlogSize.toNat ∧ t.cn.mlogUsed = s.cn.mlogUsed - 1 ∧
      (s.tp.mstkUsed < mstkSize s → t.tp.mstkUsed = s.tp.mstkUsed + 1) ∧
      (mstkSize s ≤ s.tp.mstkUsed → t.tp.mstkUsed = s.tp.mstkUsed ∧ t.tp.incomplete = true)) ∧
    (s.bl.inbox = [] → u = { s with miss := none, cn := { s.cn with reqIn := s.cn.reqIn + 1 } } → Reads (pushRequest w asid) s →
      (s.cn.phase = .idle → exec (.markRequest w asid) s = .next (bump Cnt.cnMarkErr u)) ∧
      (s.cn.phase ≠ .idle → ∀ v, markXlate (markEngine s) asid w.val u = (some pa, v) → nodeOf pa = s.node →
        exec (.markRequest w asid) s = .next (pushMark w asid v)) ∧
      (s.cn.phase ≠ .idle → ∀ v, markXlate (markEngine s) asid w.val u = (none, v) →
        exec (.markRequest w asid) s = .next (bump Cnt.cnMarkErr (bump Cnt.tpMarkStale v))))

/-- BARRIER_BUFFER_DRAIN, STORE_WAIT_RESUME, MERGE_BUFFER_DRAIN, RANGE_OP_DONE and SCRUB_READ: what waits in the buffers of a
core, in the range engine of a lantern and in the scrubber of a controller goes on; an empty buffer, a context that waits for
nothing here and a scrubber that is off do nothing, and a scrub that meets a request for its line waits its turn (R115, R116,
R118, R121, R406, R423, R427). -/
def Obligations.BufferDrains : Prop :=
  ∀ (s u : State) (k : CoreId) (c : CtxId) (b : BarEnt) (bs : List BarEnt) (m : MergeEnt) (ms : List MergeEnt) (l : Lan)
    (r : RangeReq) (rs : List RangeReq) (n : BitVec 2) (err : CacheErr),
    ((s.core k).barrier = [] → exec (.barrierBufferDrain k) s = .next s) ∧
    ((s.core k).barrier = b :: bs →
      (logEscape b s = none → exec (.barrierBufferDrain k) s = .next s) ∧
      (logEscape b s = some u →
        (b.performed = false → exec (.barrierBufferDrain k) s =
          .next (u.modCore k fun x => { x with barrier := bs, escWait := x.escWait ++ [b] })) ∧
        (b.performed = true → exec (.barrierBufferDrain k) s =
          .next ((u.modCore k fun x => { x with barrier := bs }).modSlot b.slot fun t =>
            { t with escCount := t.escCount - 1 })))) ∧
    ((s.slot b.slot).elogFill < 2 ^ s.cn.pool.lv.elogSize.toNat → ∃ t, logEscape b s = some t ∧
      (t.slot b.slot).elogFill = (s.slot b.slot).elogFill + 1 ∧ t.cn.eovf = s.cn.eovf) ∧
    (2 ^ s.cn.pool.lv.elogSize.toNat ≤ (s.slot b.slot).elogFill →
      (s.cn.eovf.length < 2 ^ s.cn.pool.lv.eovfSize.toNat → ∃ t, logEscape b s = some t ∧
        (t.slot b.slot).elogFill = (s.slot b.slot).elogFill ∧ (t.slot b.slot).elogOvf = true ∧
        t.cn.eovf = s.cn.eovf ++ [⟨b.slot, b.gen, false⟩]) ∧
      (2 ^ s.cn.pool.lv.eovfSize.toNat ≤ s.cn.eovf.length → logEscape b s = none)) ∧
    ((s.ctx c).st = .stalled → (s.ctx c).stall = .store ∨ (s.ctx c).stall = .escape ∨ (s.ctx c).stall = .mlog →
      exec (.storeWaitResume c) s = .next (wakeCtx c { s with cn := { s.cn with
        slots := s.cn.slots.map fun e => (e.1, { e.2 with stall := e.2.stall.filter fun d => d ≠ c }) } })) ∧
    ((s.ctx c).st ≠ .stalled ∨ ((s.ctx c).stall ≠ .store ∧ (s.ctx c).stall ≠ .escape ∧ (s.ctx c).stall ≠ .mlog) →
      exec (.storeWaitResume c) s = .next s) ∧
    (∀ f, (s.core k).merge = [] → exec (.mergeBufferDrain k f) s = .next s) ∧
    ((s.core k).merge = m :: ms →
      (acquire (lanOfCore k) none true m.line s = .ok () u →
        exec (.mergeBufferDrain k false) s = .next (performLine k m u) ∧
        exec (.mergeBufferDrain k true) s = .next (performLine k
          { m with words := m.words.map fun e => (e.1, TWord.poison 3) } (bump Cnt.ccMbUncorr u))) ∧
      (∀ on f, acquire (lanOfCore k) none true m.line s = .wait on u → exec (.mergeBufferDrain k f) s = .next u)) ∧
    ((s.lan l).ranges = [] → exec (.rangeOpDone l) s = .next s) ∧
    ((s.lan l).ranges = r :: rs → ∀ lines, rangeLines r ((r.base.toNat % 64 + r.len + 63) / 64) (r.base &&& 0xFFFFFFC0) 0 s =
        .ok lines u → exec (.rangeOpDone l) s = .next (wakeRange l
          ((lines.foldl (fun s ln => rangeLine l r.op ln s) u).modLan l fun x => { x with ranges := rs }))) ∧
    ((s.mc n.toNat).scrubEn = false ∨ (s.mc n.toNat).wipeBusy = true ∨ s.pf = true →
      exec (.scrubRead n err) s = .next s) ∧
    ((s.mc n.toNat).scrubEn = true → (s.mc n.toNat).wipeBusy = false → s.pf = false → ∀ q : HomeReq,
      q = ⟨lineNo (mkPa s.node (homedLine n.toNat (s.mc n.toNat).scrubPos.toNat)), ⟨s.node, 0, 0, none⟩, .scrub⟩ →
      homeBusy s q = true → ∃ t, exec (.scrubRead n .none) s = .next t ∧ t.bl.homeWait = s.bl.homeWait ++ [q] ∧ t.hbm = s.hbm) ∧
    ((s.mc n.toNat).scrubEn = true → (s.mc n.toNat).wipeBusy = false → s.pf = false → s.bl.txns = [] → s.bl.homeWait = [] → ∀ p loc,
      p = (s.mc n.toNat).scrubPos.toNat → loc = homedLine n.toNat p → ∃ t, exec (.scrubRead n err) s = .next t ∧ t.ctxs = s.ctxs ∧
      (inData s loc = true → Tab.get none (s.mc n.toNat).rawChecks (loc / 64) = none →
        Tab.get CellErr.clean (s.mc n.toNat).cells (loc / 64) = .clean → err ≠ .tagUncorr →
        Counts s t (Cnt.mcScrubCorr n.toNat) (if err = .homeCorr then 1 else 0) ∧
        Counts s t (Cnt.mcScrubUncorr n.toNat) (if err = .homeUncorr then 1 else 0) ∧
        (err = .homeUncorr → hbmLine t loc = lineOf (MWord.poison 1)) ∧
        (err ≠ .homeUncorr → hbmLine t loc = hbmLine s loc)) ∧
      (homedLine n.toNat (p + 1) < sidecarBase s.build → p + 1 < 2 ^ 28 →
        (t.mc n.toNat).scrubPos.toNat = p + 1 ∧ (t.mc n.toNat).scrubDone = (s.mc n.toNat).scrubDone) ∧
      (sidecarBase s.build ≤ homedLine n.toNat (p + 1) → (t.mc n.toNat).scrubPos = 0 ∧ (t.mc n.toNat).scrubDone = true))

/-! ### Taper jobs and coherence -/

namespace Sys2Proof.Machine

/-- An engine may begin a graph or move job (R218, R229). -/
def engineFree (s : State) (e : Nat) : Prop :=
  (s.engine e).run = none ∧ (s.engine e).evac = none ∧ (s.engine e).evacQ = [] ∧ s.pf = false

/-- The job that an engine takes next: of those whose event has not been killed the earliest deadline, then the lower job ID
(R229, R236). -/
def TakesJob (s : State) (e : Nat) (x : Nat × Job) : Prop :=
  x ∈ queuedOn s e ∧ x.2.killed = false ∧ (∀ y ∈ queuedOn s e, y.1 < 1024) ∧
    ∀ y ∈ queuedOn s e, y.2.killed = true ∨ y = x ∨ x.2.deadline < y.2.deadline ∨
      (x.2.deadline = y.2.deadline ∧ (x.2.gen.toNat * 1024 + x.1 < y.2.gen.toNat * 1024 + y.1))

/-- A line that this node homes, for which nothing is in progress and which its agent can serve at once. -/
structure Served (s : State) (pa : PA) : Prop where
  here : nodeOf pa = s.node
  data : localOf pa < sidecarBase s.build
  txns : s.bl.txns = []
  waits : s.bl.homeWait = []
  wipe : (s.mc (lineAgent (lineNo pa))).wipeBusy = false
  room : (s.mc (lineAgent (lineNo pa))).dir.length < 16
  inbox : s.bl.inbox = []
  /-- reading the line meets no error (R424) -/
  clean : Tab.get none (s.mc (lineAgent (lineNo pa))).rawChecks (lineLocal (lineNo pa) / 64) = none ∧
    Tab.get CellErr.clean (s.mc (lineAgent (lineNo pa))).cells (lineLocal (lineNo pa) / 64) = .clean

/-- The set of an L2 that a line belongs to has room for it (R410). -/
def SetRoom (s : State) (l : Lan) (ln : Nat) : Prop :=
  ((s.lan l).l2.filter fun e => e.1 % 2048 = ln % 2048 ∧ e.1 ≠ ln).length < 16

/-- No lantern holds the line. -/
def Unheld (s : State) (ln : Nat) : Prop := s.dirEnt ln = DirEnt.none ∧ ∀ l, s.l2 l ln = L2Line.none

/-- Words are written one after the other from an address, each where the job's translation puts it (R225). -/
def Wrote (e : Nat) (j : Job) : Word → List MWord → State → State → Prop
  | _, [], s, t => t = s
  | va, w :: r, s, t => ∃ pa u, taperXlate e j.asid j.priv .store va s = (some pa, u) ∧
      Wrote e j (va + 4) r (physWrite none pa w u) t

/-- Words 7 to 12 of a record: STATUS, VISITS, COMPS, BAD, POISONED and the time (Table 06-1). -/
def completionWords (status visits comps bad poisoned : Nat) (time : BitVec 64) : List MWord :=
  [status, visits, comps, bad, poisoned].map (fun n => ⟨Ty.fix, false, false, BitVec.ofNat 32 n⟩) ++
    [⟨Ty.time, false, false, time.setWidth 32⟩]

/-- A job's task as its completion leaves it (Table 05-4): one that waits for this job is ready or, in a context, running; one
that waits for something else or does not wait has PEND. -/
def Woken (s t : State) (i : Nat) (j : Job) : Prop :=
  ∀ k, j.task = some k →
    ((s.task k).st = .waiting → (s.task k).waitKind = 3 → (s.task k).waitId = j.gen ++ BitVec.ofNat 10 i →
      (t.task k).st = (if (s.task k).ctx.isSome then .running else .ready)) ∧
    ((s.task k).st = .waiting → (s.task k).waitKind ≠ 3 ∨ (s.task k).waitId ≠ j.gen ++ BitVec.ofNat 10 i →
      t.task k = { s.task k with pend := true }) ∧
    ((s.task k).st = .ready ∨ (s.task k).st = .running → t.task k = { s.task k with pend := true })

/-- A packet of this node as routing takes it (R438, R444). -/
def packet (s : State) (dest txid : BitVec 16) (op : BitVec 8) (head body : List MWord) : Pkt :=
  ⟨dest, s.node, txid, op, s.bl.ttl, false, true, head, body, none, 0⟩

end Sys2Proof.Machine

/-- GRAPH_JOB_START, MOVE_JOB_START, JOB_COMPLETE and ENGINE_KILL, each where what it reads is there at once: a free engine
starts its next job of the kind, whose plan its record gives, and a MOVE whose checks pass copies its object; a job that has
run writes its labels (−1 for none, POISON source 6 at a POISON vertex) and words 7 to 12 of its record where those translate,
frees its entry and wakes its task; a job whose record cannot be written counts an error; jobs of a killed event do not start,
complete KILLED and leave the table (R218, R222–R224, R226–R230, R236, log entries 77, 100, 107). The order of the checks of a
job and what a failed one leaves are log entry 43. -/
def Obligations.TaperJobs : Prop :=
  ∀ (s z u : State) (e : BitVec 3) (i : Nat) (j : Job) (w : Option (List MWord)) (ok : Bool) (p : JobPlan),
    z = { s with miss := none } →
    ((∀ x ∈ queuedOn s e.toNat, x.2.killed = true) ∨ (s.engine e.toNat).run.isSome = true ∨
        (s.engine e.toNat).evac.isSome = true ∨ (s.engine e.toNat).evacQ ≠ [] ∨ s.pf = true →
      exec (.graphJobStart e) s = .next z ∧ exec (.moveJobStart e) s = .next z) ∧
    (TakesJob s e.toNat (i, j) → engineFree s e.toNat → readRecord e.toNat j z = (w, ok, u) →
      (u.miss = none → jobKind w = 4 → exec (.graphJobStart e) s = .next z) ∧
      (u.miss = none → jobKind w ≠ 4 → exec (.moveJobStart e) s = .next z) ∧
      (jobKind w ≠ 4 → Reads (startJob false e.toNat) s → ∀ q : JobPlan × State,
        q = (match w with
          | none => (failPlan 0 4 ok, u)
          | some l => if recordOk l then readGraph e.toNat j l ok u else (failPlan (jobKind w) 1 ok, u)) →
        exec (.graphJobStart e) s = .next ((q.2.setJob i (some { j with plan := some q.1 })).modEngine e.toNat
          fun x => { x with run := some i })) ∧
      (∀ l, w = some l → jobKind w = 4 → Reads (moveStart e.toNat) s →
        (recordOk l = false → exec (.moveJobStart e) s = .next ((u.setJob i (some
          { j with plan := some (failPlan 4 1 ok) })).modEngine e.toNat fun x => { x with run := some i })) ∧
        (recordOk l = true → j.priv = 0 → exec (.moveJobStart e) s = .next ((u.setJob i (some
          { j with plan := some (failPlan 4 7 ok) })).modEngine e.toNat fun x => { x with run := some i })) ∧
        (recordOk l = true → ∀ v t k, movePlan e.toNat j l ok u = (p, v) → k = { j with plan := some p } →
          t = (v.setJob i (some k)).modEngine e.toNat (fun x => { x with run := some i }) →
          (p.status ≠ 0 → exec (.moveJobStart e) s = .next t) ∧
          (p.status = 0 → exec (.moveJobStart e) s = .next (moveWords e.toNat k p.vtx p.edge p.v
            (t.setJob i (some { j with plan := some { p with e := movePoison e.toNat k p t } }))))))) ∧
    ((s.engine e.toNat).run = none → exec (.jobComplete e) s = .next s) ∧
    ((s.engine e.toNat).run = some i → s.job i = some j → j.plan = some p →
      (j.killed = true ∨ (s.engine e.toNat).evac.isSome = true ∨ s.pf = true → exec (.jobComplete e) s = .next s) ∧
      (p.status ≠ 0 → jobResult e.toNat j p z = (failResult p.status 0 0, z)) ∧
      (p.status = 0 → p.kind = 4 → jobResult e.toNat j p z = (⟨0, p.v, 0, 0, p.e, 3 * p.v, []⟩, z)) ∧
      (p.status = 0 → p.kind ≠ 4 → p.v ≠ 0 → ∀ vs es a b used ls, readElems e.toNat j Ty.fix (p.vtx + 4) p.v z = (vs, none, a) →
        readElems e.toNat j Ty.raw (p.edge + 4) p.e a = (es, none, b) → used = usedEdges p.growth vs es → ls = labels p vs used →
        ∃ r, jobResult e.toNat j p z = (r, b) ∧ r.status = 0 ∧ r.visits = used.length ∧ r.bad = badEdges p.v es ∧
          r.poisoned = poisons vs + poisons es ∧ r.out.length = vs.length ∧ ∀ k, k < vs.length → r.out[k]? = some
            (match vs.getD k none, ls.getD k none with
              | none, _ => MWord.poison 6
              | some _, some x => ⟨Ty.fix, false, false, BitVec.ofNat 32 x⟩
              | some _, none => ⟨Ty.fix, false, false, 0xFFFFFFFF⟩)) ∧
      (j.killed = false → (s.engine e.toNat).evac = none → s.pf = false → Reads (completeJob e.toNat i j p) s →
        ∃ r v q x t, jobResult e.toNat j p z = (r, v) ∧ writeLabels e.toNat j p r v = (q, x) ∧
        exec (.jobComplete e) s = .next t ∧ t.job i = none ∧ (t.engine e.toNat).run = none ∧
        (∀ m, m ≠ i → t.job m = s.job m) ∧ Counts s t Cnt.tpJobs 1 ∧ Counts s t Cnt.tpWords q.words ∧
        Counts s t Cnt.tpKilled (if q.status = 6 then 1 else 0) ∧
        (p.kind ≠ 4 → Counts s t Cnt.tpPoison q.poisoned) ∧ Woken s t i j ∧
        (∀ c, Wrote e.toNat j (p.lab + 4) r.out v c → q = r ∧ x = c ∧ ∀ y d g,
          y = (if p.kind = 4 then c else bumpBy Cnt.tpPoison r.poisoned c).modEngine e.toNat (fun k => { k with run := none }) →
          (p.writable = true → canComplete e.toNat j true y = (true, d) →
            Wrote e.toNat j (j.record + 28) (if r.status = 0 then completionWords 0 r.visits r.comps r.bad r.poisoned d.time
              else completionWords r.status.toNat 0 0 0 0 d.time) d g →
            (r.status = 0 → t = jobWake i j (bumpBy Cnt.tpWords r.words (bump Cnt.tpJobs (g.setJob i none)))) ∧
            (r.status ≠ 0 → r.status ≠ 6 →
              t = jobWake i j (bumpBy Cnt.tpWords r.words (bump Cnt.tpJobs ((bump Cnt.tpErr g).setJob i none))))) ∧
          (p.writable = false → r.status = 0 →
            t = jobWake i j (bumpBy Cnt.tpWords r.words (bump Cnt.tpJobs ((bump Cnt.tpErr y).setJob i none))))))) ∧
    (s.pf = true → exec (.engineKill e) s = .next s) ∧
    (s.pf = false → (∀ x ∈ allJobs s, x.2.eng = e → x.2.killed = false) → exec (.engineKill e) s = .next z) ∧
    (s.pf = false → Reads (killJobs e.toNat) s → ∃ t, exec (.engineKill e) s = .next t ∧
      (∀ x ∈ allJobs s, x.2.eng = e → x.2.killed = true → t.job x.1 = none) ∧
      (∀ m, (∀ x ∈ allJobs s, x.1 = m → x.2.eng ≠ e ∨ x.2.killed = false) → t.job m = s.job m) ∧
      Counts s t Cnt.tpKilled ((allJobs s).filter fun x => decide (x.2.eng.toNat = e.toNat) && x.2.killed).length ∧
      t.ll = s.ll ∧ t.ctxs = s.ctxs ∧
      (∀ k v d g, (allJobs s).filter (fun x => decide (x.2.eng.toNat = e.toNat) && x.2.killed) = [(i, k)] → k.plan = none →
        jobRange e.toNat k .store k.record 13 z = (true, v) → canComplete e.toNat k true v = (true, d) →
        Wrote e.toNat k (k.record + 28) (completionWords 6 0 0 0 0 d.time) d g →
        t = bumpBy Cnt.tpWords 0 (bump Cnt.tpJobs ((bump Cnt.tpKilled g).setJob i none))))

/-- Requests of a lantern of this node at its home agent: SHARED_READ of a line that nobody holds installs it in E, of a line
that another lantern owns in S with the owner's words; OWN_READ and UPGRADE install it in M and take it from every other
lantern (R406, R414, R416–R418; Table 13-3). The code of a state in a packet, and the corner cases between nodes, are log
entries 8 and 49. -/
def Obligations.CoherentRequests : Prop :=
  ∀ (s : State) (l o : Lan) (pa : PA) (txid : BitVec 16) (ln : Nat), ln = lineNo pa → Served s pa → SetRoom s l ln → l ≠ o →
    (Unheld s ln →
      (∃ t, exec (.sharedRead s.node l txid pa .none) s = .next t ∧ t.l2 l ln = ⟨.E, hbmLine s (lineLocal ln), [], .clean⟩ ∧
        (t.dirEnt ln).owner = some ⟨s.node, l⟩ ∧ (∀ m, m ≠ l → t.l2 m ln = L2Line.none) ∧ t.hbm = s.hbm) ∧
      (∃ t, exec (.ownRead s.node l txid pa .none) s = .next t ∧ t.l2 l ln = ⟨.M, hbmLine s (lineLocal ln), [], .clean⟩ ∧
        (t.dirEnt ln).owner = some ⟨s.node, l⟩ ∧ (∀ m, m ≠ l → t.l2 m ln = L2Line.none) ∧ t.hbm = s.hbm)) ∧
    (∀ d, s.l2 l ln = L2Line.none → s.l2 o ln = ⟨.M, d, [], .clean⟩ → (s.dirEnt ln).owner = some ⟨s.node, o⟩ →
      (s.dirEnt ln).sharers = [] → (s.dirEnt ln).coarse = none →
      (∃ t, exec (.sharedRead s.node l txid pa .none) s = .next t ∧ t.l2 l ln = ⟨.S, d, [], .clean⟩ ∧ t.l2 o ln = ⟨.O, d, [], .clean⟩ ∧
        (t.dirEnt ln).owner = some ⟨s.node, o⟩ ∧ (t.dirEnt ln).sharers = [⟨s.node, l⟩] ∧ t.hbm = s.hbm) ∧
      (∃ t, exec (.ownRead s.node l txid pa .none) s = .next t ∧ t.l2 l ln = ⟨.M, d, [], .clean⟩ ∧ t.l2 o ln = L2Line.none ∧
        (t.dirEnt ln).owner = some ⟨s.node, l⟩ ∧ t.hbm = s.hbm)) ∧
    (∀ d, s.l2 l ln = ⟨.S, d, [], .clean⟩ → s.l2 o ln = ⟨.S, d, [], .clean⟩ → (s.dirEnt ln).owner = none → (s.dirEnt ln).coarse = none →
      (s.dirEnt ln).sharers = [⟨s.node, l⟩, ⟨s.node, o⟩] →
      ∃ t, exec (.upgrade s.node l txid pa .none) s = .next t ∧ t.l2 l ln = ⟨.M, d, [], .clean⟩ ∧ t.l2 o ln = L2Line.none ∧
        (t.dirEnt ln).owner = some ⟨s.node, l⟩ ∧ (t.dirEnt ln).sharers = [] ∧ t.hbm = s.hbm) ∧
    (∀ node, node ≠ s.node → Unheld s ln → ∃ t, exec (.sharedRead node l txid pa .none) s = .next t ∧
      t.bl.pkts = s.bl.pkts ++ [packet s node txid 0x20 (paWords (linePa ln) ++ [rawM 2]) (hbmLine s (lineLocal ln))] ∧
      (t.dirEnt ln).owner = some ⟨node, l⟩ ∧ t.lans = s.lans ∧ t.hbm = s.hbm)

/-- What leaves an L2 and what is written at home: WRITE_BACK, EVICTION_NOTICE, UNCACHED_WRITE, HINTED_WRITE,
EXCHANGE_AT_HOME, the forwards and INVALIDATE, which ends the shared copies of every lantern and leaves an owner's, which a
home agent takes by a forward (R410, R414, R416, R418, R421, R422, R448, log entry 49; R111 for a span that no candle has). -/
def Obligations.WritesForwards : Prop :=
  ∀ (s : State) (l : Lan) (pa : PA) (txid : BitVec 16) (ln : Nat) (d words : Line) (ws : List (BitVec 4 × MWord))
    (i : BitVec 4) (tag : Byte), ln = lineNo pa → s.bl.inbox = [] →
    (s.l2 l ln = L2Line.none →
      exec (.writeBack s.node l pa words) s = .next s ∧ exec (.evictionNotice s.node l pa) s = .next s ∧
      (∃ t, exec (.forwardShared l pa txid .none) s = .next t ∧
        t.bl = { s.bl with pkts := s.bl.pkts ++ [packet s (nodeOf pa) txid 0x22 (paWords (linePa ln)) []] })) ∧
    (nodeOf pa = s.node → lineNode ln = s.node →
      (s.l2 l ln = ⟨.M, d, [], .clean⟩ → (s.dirEnt ln).owner = some ⟨s.node, l⟩ → d.length = 16 →
        localOf pa < sidecarBase s.build → ∃ t, exec (.writeBack s.node l pa words) s = .next t ∧
        (t.l2 l ln).st = .I ∧ (t.dirEnt ln).owner = none ∧ hbmLine t (lineLocal ln) = d) ∧
      (s.l2 l ln = ⟨.E, d, [], .clean⟩ → (s.dirEnt ln).owner = some ⟨s.node, l⟩ → (s.dirEnt ln).coarse = none →
        ∃ t, exec (.evictionNotice s.node l pa) s = .next t ∧ (t.l2 l ln).st = .I ∧ (t.dirEnt ln).owner = none ∧
        t.hbm = s.hbm)) ∧
    (Served s pa → Unheld s ln → lateSpan s (linePa ln) = false →
      (∃ t, exec (.uncachedWrite s.node txid pa ws) s = .next t ∧
        hbmLine t (lineLocal ln) = putWords (keepMarks false (lineTab ws) (hbmLine s (lineLocal ln))) (hbmLine s (lineLocal ln)) ∧
        t.ctxs = s.ctxs) ∧
      (s.cc.hints = true → SetRoom s l ln → ∃ t, exec (.hintedWrite l pa ws) s = .next t ∧
        t.l2 l ln = ⟨.M, putWords (keepMarks false (lineTab ws) (hbmLine s (lineLocal ln))) (hbmLine s (lineLocal ln)), [], .clean⟩ ∧
        (t.dirEnt ln).owner = some ⟨s.node, l⟩ ∧ t.hbm = s.hbm ∧ Counts s t Cnt.ccHint 1) ∧
      (∃ t, exec (.exchangeAtHome s.node txid pa i tag) s = .next t ∧ ∀ k, k < 16 →
        lineWord (hbmLine t (lineLocal ln)) k = if k = i.toNat then
            MWord.ofTag tag (lineWord (hbmLine s (lineLocal ln)) k).val
          else lineWord (hbmLine s (lineLocal ln)) k)) ∧
    (lateSpan s (linePa ln) = true → exec (.uncachedWrite s.node txid pa ws) s = .next (bump Cnt.cnLateWrite s)) ∧
    (s.l2 l ln = ⟨.M, d, [], .clean⟩ →
      (∃ t, exec (.forwardShared l pa txid .none) s = .next t ∧ t.l2 l ln = ⟨.O, d, [], .clean⟩ ∧
        t.bl = { s.bl with pkts := s.bl.pkts ++ [packet s (nodeOf pa) txid 0x20 (paWords (linePa ln) ++ [rawM 1]) d] }) ∧
      (∃ t, exec (.forwardOwn l pa txid .none) s = .next t ∧ t.l2 l ln = L2Line.none ∧
        t.bl = { s.bl with pkts := s.bl.pkts ++ [packet s (nodeOf pa) txid 0x20 (paWords (linePa ln) ++ [rawM 4]) d] })) ∧
    (∃ t, exec (.invalidate pa txid) s = .next t ∧ (∀ m, (s.l2 m ln).st = .S → t.l2 m ln = L2Line.none) ∧
      (∀ m, (s.l2 m ln).st ≠ .S → t.l2 m ln = s.l2 m ln) ∧ (∀ m k, k ≠ ln → t.l2 m k = s.l2 m k) ∧
      t.bl = { s.bl with pkts := s.bl.pkts ++ (if nodeOf pa = s.node then []
        else [packet s (nodeOf pa) txid 0x21 (paWords (linePa ln)) []]) })

/-- Responses and remote objects: DATA, ACK, NODATA, ERR and XREP complete the request or the transaction that they name, a
request without an answer in time completes with an error, and a response after that is counted LATE, its ownership written
back; a transaction of a home agent that has no answer in time ends; XLD_REQUEST and XST_REQUEST act at the object's home,
where what they read is there at once, and an XST is acknowledged (R281, R340, R411, R447, R448, R450, log entries 42, 49, 50,
77, 96). -/
def Obligations.Responses : Prop :=
  ∀ (s u : State) (txid node : BitVec 16) (pa : PA) (st : Moesi) (words : Line) (r : RemReq) (t : HomeTxn) (a : XReply)
    (w0 w1 i v : TWord) (c : BitVec 8), s.bl.inbox = [] →
    ((∀ x ∈ s.bl.txns, x.id ≠ txid) → s.req txid = some r →
      (∀ own, own = s.l2 r.lan (lineNo pa) →
        (r.kind ≠ .upgrade ∨ own.st = .S ∨ own.st = .I →
          (words ≠ own.words → exec (.dataResponse txid pa st words) s =
            .next (wakeRemote r.lan (install r.lan (lineNo pa) st words (dropReq txid s)))) ∧
          (words = own.words → exec (.dataResponse txid pa st words) s =
            .next (wakeRemote r.lan (setL2 r.lan (lineNo pa) { own with st := st } (dropReq txid s))))) ∧
        (r.kind = .upgrade → own.st = .O ∨ own.st = .E ∨ own.st = .M → exec (.dataResponse txid pa st words) s =
          .next (wakeRemote r.lan (setL2 r.lan (lineNo pa) { own with st := st } (dropReq txid s))))) ∧
      (r.kind = .write → exec (.ackResponse txid) s = .next (dropReq txid s)) ∧
      exec (.errResponse txid) s = .next (remoteError r s) ∧
      exec (.remoteRequestTimeout txid) s = .next { remoteError r s with bl := { (remoteError r s).bl with
        lateReqs := (remoteError r s).bl.lateReqs ++ [r] } } ∧
      (∀ x k, r.xld = some x → r.ctx = some k →
        (∀ w, exec (.xrep txid (.word w)) s = .next (wakeCtx k (writeLoad k ⟨x.loc, w, false, false⟩
          ((dropReq txid s).modCtx k fun y => { y with loads := y.loads.filter fun p => p.loc ≠ x.loc })))) ∧
        (exec (.xrep txid (.cause c)) s = .next (wakeCtx k ((dropReq txid s).modCtx k fun y =>
          { y with raised := some { x.at_ with trap := { mkTrap c x.va (if c = Cause.bounds then x.idx else TWord.unset) with w0 := x.va } },
                   pc := x.at_.pc, cstat := { y.cstat with gcnt := x.gcnt, ldf := x.at_.slot } }))))) ∧
    (s.req txid = none → (∀ x ∈ s.bl.txns, x.id ≠ txid) → exec (.remoteRequestTimeout txid) s = .next s) ∧
    (s.req txid = none → (s.bl.txns.find? fun x => x.id = txid) = some t → s.bl.homeWait = [] → t.req.node ≠ s.node →
      t.data = none → (∀ n wr, t.kind ≠ .test n wr) → exec (.remoteRequestTimeout txid) s = .next { s with bl := { s.bl with
        txns := s.bl.txns.filter fun y => y.id ≠ t.id, lateReqs := s.bl.lateReqs ++ [txnReq t] } }) ∧
    ((∀ x ∈ s.bl.txns, x.id ≠ txid) → s.req txid = none →
      (∀ late, late = bump Cnt.blLate (dropLate txid s) →
        (lineNode (lineNo pa) ≠ s.node → st = .M ∨ st = .O ∨ st = .E → exec (.dataResponse txid pa st words) s =
          .next (post (lineNode (lineNo pa)) 0 0x04 (paWords (linePa (lineNo pa))) words late)) ∧
        (lineNode (lineNo pa) ≠ s.node → st = .S ∨ st = .I → exec (.dataResponse txid pa st words) s = .next late)) ∧
      (s.lateReq txid = none → exec (.ackResponse txid) s = .next s ∧ exec (.nodataResponse txid) s = .next s ∧
        exec (.xrep txid a) s = .next s ∧
        (txid = 0 ∨ 0xFFFE ≤ txid.toNat → exec (.errResponse txid) s = .next (countTimeout s)) ∧
        (txid ≠ 0 → txid.toNat < 0xFFFE → exec (.errResponse txid) s = .next s)) ∧
      ((s.lateReq txid).isSome = true →
        exec (.ackResponse txid) s = .next (lateResponse txid s) ∧ exec (.nodataResponse txid) s = .next (lateResponse txid s) ∧
        exec (.errResponse txid) s = .next (lateResponse txid s) ∧ exec (.xrep txid a) s = .next (lateResponse txid s))) ∧
    ((s.bl.txns.find? fun x => x.id = txid && 0 < x.acks) = some t →
      exec (.ackResponse txid) s = .next (txnStep { t with acks := t.acks - 1 } s)) ∧
    ((s.bl.txns.find? fun x => x.id = txid && x.waitData) = some t →
      (t.kind ≠ .shared ∨ st ≠ .S ∨ (s.dirEnt (lineNo pa)).owner = none → exec (.dataResponse txid pa st words) s =
        .next (txnStep { t with waitData := false, data := some words } s)) ∧
      (∀ o, t.kind = .shared → st = .S → (s.dirEnt (lineNo pa)).owner = some o → exec (.dataResponse txid pa st words) s =
        .next (txnStep { t with waitData := false, data := some words }
          (shareDir o (lineNo pa) { s.dirEnt (lineNo pa) with owner := none } s))) ∧
      (t.data.isSome = true ∨ (s.dirEnt t.line).owner = none → exec (.nodataResponse txid) s = .next (txnStep { t with waitData := false } s)) ∧
      (t.data = none → (s.dirEnt t.line).owner.isSome = true → u = homeWrite (lineLocal t.line) (poisonLineOf 5) (bump Cnt.blNocopy s) →
        exec (.nodataResponse txid) s =
          .next (txnStep { t with waitData := false } (setDir t.line { u.dirEnt t.line with owner := none } u)))) ∧
    (Reads (answerXld node txid w0 w1 i) s →
      (∀ b, agentBody .load w0 w1 i { s with miss := none } = (.inr b, u) →
        exec (.xldRequest node txid w0 w1 i) s = .next (post node txid 0x23 [b.1.t.m] [] u)) ∧
      (agentBody .load w0 w1 i { s with miss := none } = (.inl c, u) → exec (.xldRequest node txid w0 w1 i) s =
        .next (post node txid 0x23 [MWord.unset, rawM (c.setWidth 32)] [] u))) ∧
    (Reads (performXst node txid w0 w1 i v) s → u.bl.inbox = [] → ∀ fails, fails = (fun x : BitVec 8 =>
        record 1 0x70 0x71 (node.setWidth 64) (x.setWidth 64) 0 0 0 (bump Cnt.blXfail (post node txid 0x21 [] [] u))) →
      (agentBody .store w0 w1 i { s with miss := none } = (.inl c, u) →
        exec (.xstRequest node txid w0 w1 i v) s = .next (fails c)) ∧
      (∀ b, agentBody .store w0 w1 i { s with miss := none } = (.inr b, u) →
        (b.1.imm = true → exec (.xstRequest node txid w0 w1 i v) s = .next (fails Cause.immStore)) ∧
        (b.1.imm = false →
          (w1.ty = Ty.vec ∧ hdrSub b.2.2 ≠ 0 ∧ hdrSub b.2.2 ≠ v.ty.setWidth 8 →
            exec (.xstRequest node txid w0 w1 i v) s = .next (fails Cause.elemType)) ∧
          (w1.ty ≠ Ty.vec ∨ hdrSub b.2.2 = 0 ∨ hdrSub b.2.2 = v.ty.setWidth 8 → u.cn.phase = .idle ∨ u.cn.phase = .sweep →
            exec (.xstRequest node txid w0 w1 i v) s =
              .next (physWrite none b.2.1 v.m (post node txid 0x21 (paWords b.2.1) [] u))))))

/-- HBM_WIPE_DONE ends the wipe, and the requests that waited are served; the test registers of a controller act in SERVICE
only, and one access at a time, and an access of the sidecar waits for the wipe of its controller; MC_LASTE_LOW_READ latches
the high half for its reader (R426, R428, R429, R525). What a test access acts on is log entry 68. -/
def Obligations.Controllers : Prop :=
  ∀ (s : State) (n : BitVec 2) (f : BitVec 5) (loc : Nat),
    ((s.mc n.toNat).wipeBusy = false ∨ s.pw.stage ≠ .run → exec (.hbmWipeDone n) s = .next s) ∧
    ((s.mc n.toNat).wipeBusy = true → s.pw.stage = .run → s.bl.homeWait = [] → (∀ c, (s.mc c).testHeld = none) →
      exec (.hbmWipeDone n) s = .next (s.modMc n.toNat fun m => { m with wipeBusy := false })) ∧
    (∀ c, c = Instr.mcTestRead n ∨ c = .mcTestWrite n →
      (s.mg.stored.lc ≠ .service → exec c s = .next (s.modMc n.toNat fun m => { m with cfgerr := true })) ∧
      (s.mg.stored.lc = .service → (s.mc n.toNat).testBusy = true → exec c s = .next s)) ∧
    (s.mg.stored.lc = .service → (s.mc n.toNat).testBusy = false → loc = (s.mc n.toNat).testAddr.toNat / 64 * 64 →
      loc < sidecarBase s.build → Served s (mkPa s.node loc) → Unheld s (lineNo (mkPa s.node loc)) →
      (∃ t, exec (.mcTestRead n) s = .next t ∧ (t.mc n.toNat).testBusy = false ∧ t.hbm = s.hbm ∧
        ∀ i, i < 16 → Tab.get 0 (t.mc n.toNat).testData i = (hbmWord s (loc + 4 * i)).val ∧
          Tab.get 0 (t.mc n.toNat).testTag i = (hbmWord s (loc + 4 * i)).tag) ∧
      (∃ t, exec (.mcTestWrite n) s = .next t ∧ (t.mc n.toNat).testBusy = false ∧
        ∀ i, i < 16 → hbmWord t (loc + 4 * i) =
          MWord.ofTag (Tab.get 0 (s.mc n.toNat).testTag i) (Tab.get 0 (s.mc n.toNat).testData i))) ∧
    (s.mg.stored.lc = .service → (s.mc n.toNat).testBusy = false → loc = (s.mc n.toNat).testAddr.toNat / 64 * 64 →
      sidecarBase s.build ≤ loc → loc < hbmEnd s.build →
      ((s.mc (sidecarAgent s loc)).wipeBusy = true →
        exec (.mcTestRead n) s = .next (s.modMc n.toNat fun m => { m with testBusy := true, testHeld := some (false, loc) }) ∧
        exec (.mcTestWrite n) s = .next (s.modMc n.toNat fun m => { m with testBusy := true, testHeld := some (true, loc) })) ∧
      ((s.mc (sidecarAgent s loc)).wipeBusy = false →
        (∃ t, exec (.mcTestRead n) s = .next t ∧ t.hbm = s.hbm ∧
          ∀ i, i < 16 → Tab.get 0 (t.mc n.toNat).testData i = (sidecarLine s loc).getD i 0) ∧
        (∃ t, exec (.mcTestWrite n) s = .next t ∧
          sidecarLine t loc = (List.range 16).map fun i => Tab.get 0 (s.mc n.toNat).testData i))) ∧
    (s.mg.ready = true → ∃ t, exec (.mcLasteLowRead n (.fn f)) s = .next t ∧
      t.out = .readValue ((s.mc n.toNat).laste.setWidth 32) :: s.out ∧
      Tab.get 0 (t.mc n.toNat).lasteLatch f.toNat = ((s.mc n.toNat).laste >>> 32).setWidth 32 ∧
      (t.mc n.toNat).laste = (s.mc n.toNat).laste)

/-! ### The Breas fabric -/

namespace Sys2Proof.Machine

/-- t is s but for one port, the counters and what left the module. -/
def OnlyPort (s t : State) (p : Nat) (x : PortSt) : Prop :=
  t.port p = x ∧ (∀ q, q ≠ p → t.port q = s.port q) ∧
    { t with bl := { t.bl with ports := s.bl.ports }, cnt := s.cnt, out := s.out } = s

/-- A port enters ISOLATED from a state with a link (R456): the flits of its retry and receive buffers, with packets that wait
there to be routed, are lost and counted, its queued packets are routed again, and a record tells the reason. -/
def Isolates (s t : State) (p : BitVec 4) (reason : BitVec 3) : Prop :=
  (t.port p.toNat).st = .isolated ∧ (t.port p.toNat).reason = reason ∧ (t.port p.toNat).txq = [] ∧
    (t.port p.toNat).retry = [] ∧ t.bl.pkts = (s.bl.pkts.filter fun q => rxOf p.toNat q = 0) ++ (s.port p.toNat).txq ∧
    (∀ q, q ≠ p.toNat → t.port q = s.port q) ∧ Counts s t (Cnt.blIsolate p.toNat) 1 ∧ ∃ lost,
      lost = (s.port p.toNat).retry.length + (((s.port p.toNat).partials.map fun e => e.2.length).sum +
        (s.bl.pkts.map fun q => match q.rx with | some r => if r.port = p.toNat then r.own + r.shared else 0 | none => 0).sum) ∧
      Counts s t (Cnt.blLost p.toNat) lost ∧
      t.recs = s.recs ++ [⟨2, 0x60 + p.setWidth 8, 0x72, s.time, reason.setWidth 64, BitVec.ofNat 64 lost, 0, 0, 0⟩]

/-- The LINK flit: its type, credits of VC 0–9 and shared ones in words 1–11, and what further words it has from word 12 on,
carrying the ACK of the last flit received in order (R437, R439; log entry 96). -/
def linkOf (s : State) (p : BitVec 4) (ty : Nat) (credits : List Nat) (ws : List MWord) : Out :=
  .flit p.toNat (flitBytes ⟨.link, 0, 0, 0, 0, 0, 0, 0, 0, (s.port p.toNat).rxNext - 1,
    rawM (BitVec.ofNat 32 ty) :: (List.range 11).map (fun v => rawM (BitVec.ofNat 32 (credits.getD v 0))) ++ ws⟩)

/-- The flits of a port sent again, newest first, with the ACK of now (R439). -/
def resent (p : BitVec 4) (x : PortSt) (l : List Flit) : List Out :=
  (l.map fun f => Out.flit p.toNat (flitBytes { f with ack := x.rxNext - 1 })).reverse

/-- Whether a port has its link and its optics are on (R553). -/
def LinkUp (s : State) (p : Nat) : Prop := (s.port p).st = .up ∧ s.pw.stage = .run

/-- A whole packet of n flits has arrived at a port on a VC: it takes reserved places of the VC first, and waits to be routed; what
a version-1 link does not carry leaves at once, so that its credits are owed (R436, R440). -/
def Arrives (s t : State) (p : Nat) (v n : Nat) (q : Pkt) : Prop :=
  ∀ own, own = min n (16 - Tab.get 0 (s.port p).used v) → Tab.get 0 (t.port p).used v = Tab.get 0 (s.port p).used v + own ∧
    (∀ k, takenPkt (s.port p) v q = some k → t.bl.pkts = s.bl.pkts ++ [{ k with rx := some ⟨p, v, own, n - own⟩ }] ∧
      (t.port p).owed = (s.port p).owed) ∧
    (takenPkt (s.port p) v q = none → t.bl.pkts = s.bl.pkts ∧
      Tab.get 0 (t.port p).owed v = Tab.get 0 (s.port p).owed v + own ∧
      Tab.get 0 (t.port p).owed 10 = Tab.get 0 (s.port p).owed 10 + (n - own))

/-- The word at a place of some bytes, little-endian (R437). -/
def leWord (bs : List Byte) (i : Nat) : Word := bs.getD (i + 3) 0 ++ bs.getD (i + 2) 0 ++ bs.getD (i + 1) 0 ++ bs.getD i 0

/-- The remainder of the reflected polynomial of CRC-32C over bits from a start value (R148). -/
def crcBits : Word → List Bool → Word
  | c, [] => c
  | c, b :: r => crcBits ((c >>> 1) ^^^ (if c.getLsbD 0 != b then 0x82F63B78 else 0)) r

/-- CRC-32C of bytes, each least significant bit first: initial value and final XOR all ones (R148). -/
def crcOf (bs : List Byte) : Word := ~~~ crcBits 0xFFFFFFFF (bs.flatMap fun b => (List.range 8).map b.getLsbD)

end Sys2Proof.Machine

/-- Table 14-2: the rows that move a port between its states (PORT_PHY_LOCK, PHY_LOCK_TIMEOUT, PORT_LANES_ALIGNED, CAPABILITY,
CAPABILITY_TIMER, NEGOT_TIMEOUT, BL_LOSS_OF_SIGNAL, FEC_LIMIT, RETRAIN_COMPLETE, RETRAIN_FAILED, BL_RETRAIN, BL_ISOLATE,
BL_RELEASE, POWERFAIL_NOTICE) and PORT_COMMIT; with its optics off a port neither sends nor retrains (R434–R437, R455, R456,
R459, R553, log entries 53, 54, 56, 87, 96). -/
def Obligations.PortStates : Prop :=
  ∀ (s : State) (p : BitVec 4) (x : PortSt) (c : PortCfg), x = s.port p.toNat → c = s.pcfg p.toNat →
    (x.st = .phy →
      (∃ t, exec (.portPhyLock p) s = .next t ∧ OnlyPort s t p.toNat { x with st := .align }) ∧
      (∃ t, exec (.phyLockTimeout p) s = .next t ∧
        OnlyPort s t p.toNat { x with half := if c.rate = 0 then !x.half else x.half } ∧
        Counts s t (Cnt.blTrainFail p.toNat) 1)) ∧
    (x.st ≠ .phy → exec (.portPhyLock p) s = .next s ∧ exec (.phyLockTimeout p) s = .next s) ∧
    (x.st = .align → ∃ t, exec (.portLanesAligned p) s = .next t ∧ OnlyPort s t p.toNat { x with st := .negot }) ∧
    (x.st ≠ .align → exec (.portLanesAligned p) s = .next s) ∧
    (∀ (versions : BitVec 2) (node : BitVec 16) (port : BitVec 4) (half : Bool) (credits : List (BitVec 12)) (best : BitVec 2),
      best = (if (versions &&& c.vmask).getLsbD 1 then 2 else if (versions &&& c.vmask).getLsbD 0 then 1 else 0) →
      (x.st ≠ .negot → exec (.negotTimeout p) s = .next s ∧
        (x.st ≠ .retrain → exec (.capability p versions node port half credits) s = .next s ∧
          exec (.capabilityTimer p) s = .next s)) ∧
      (x.st = .retrain → ∃ t, exec (.capability p versions node port half credits) s = .next t ∧
        OnlyPort s t p.toNat { x with same := some (decide
          (node = x.peerNode ∧ port = x.peerPort ∧ best = x.version ∧ half = x.peerHalf)) }) ∧
      (s.pw.stage ≠ .run → exec (.capabilityTimer p) s = .next s) ∧
      (x.st = .negot ∨ x.st = .retrain → s.pw.stage = .run → ∃ t, exec (.capabilityTimer p) s = .next t ∧
        { t with out := s.out } = s ∧ t.out = linkOf s p 2 (List.replicate 10 16 ++ [2912])
          [rawM 3, rawM (s.node.setWidth 32), rawM (p.setWidth 32), rawM (if x.half then 2 else 1)] :: s.out) ∧
      (x.st = .negot →
        (∃ t, exec (.negotTimeout p) s = .next t ∧ OnlyPort s t p.toNat { x with st := .phy }) ∧
        (versions &&& c.vmask = 0 →
          ∃ t, exec (.capability p versions node port half credits) s = .next t ∧ Isolates s t p 1) ∧
        (versions &&& c.vmask ≠ 0 → node = s.node → c.loop = false →
          ∃ t, exec (.capability p versions node port half credits) s = .next t ∧ Isolates s t p 2) ∧
        (versions &&& c.vmask ≠ 0 → node ≠ s.node ∨ c.loop = true → x.txq = [] →
          ∃ t y, exec (.capability p versions node port half credits) s = .next t ∧ OnlyPort s t p.toNat y ∧ y.st = .up ∧
            y.version = best ∧ y.peerNode = node ∧ y.peerPort = port ∧ y.peerHalf = half ∧
            ∀ v, v < 11 → Tab.get 0 y.credits v = (credits.getD v 0).toNat))) ∧
    (x.st = .up → s.pw.stage = .run → ∀ y, y = { x with st := .retrain, attempts := 0, naks := 0, same := none } →
      (∃ t, exec (.blRetrain p) s = .next t ∧ OnlyPort s t p.toNat y ∧ Counts s t (Cnt.blRetrain p.toNat) 1) ∧
      (∃ t, exec (.blLossOfSignal p) s = .next t ∧ OnlyPort s t p.toNat y ∧ Counts s t (Cnt.blRetrain p.toNat) 1) ∧
      (∀ corr unc : Word, ∃ t, exec (.fecLimit p corr unc) s = .next t ∧
        OnlyPort s t p.toNat (if c.uncTh.toNat < unc.toNat then y else x) ∧
        Counts s t (Cnt.blFecCorr p.toNat) corr.toNat ∧ Counts s t (Cnt.blFecUnc p.toNat) unc.toNat)) ∧
    (x.st ≠ .up ∨ s.pw.stage ≠ .run → exec (.blRetrain p) s = .next s ∧ exec (.blLossOfSignal p) s = .next s) ∧
    (x.st ≠ .retrain → ∀ ack, exec (.retrainComplete p ack) s = .next s ∧ exec (.retrainFailed p) s = .next s) ∧
    (s.pw.stage ≠ .run → ∀ ack, exec (.retrainComplete p ack) s = .next s) ∧
    (x.st = .retrain → s.pw.stage = .run →
      (x.same = none → ∀ ack, exec (.retrainComplete p ack) s = .next s) ∧
      (x.same = some true → x.txq = [] → ∀ ack, ∃ t, exec (.retrainComplete p ack) s = .next t ∧
        OnlyPort s t p.toNat { x with st := .up, attempts := 0, same := none, retry := release ack x.retry } ∧
        t.out = resent p x (release ack x.retry) ++ s.out) ∧
      (x.same = some false → (∀ ack, ∃ t, exec (.retrainComplete p ack) s = .next t ∧ Isolates s t p 4) ∧
        ∃ t, exec (.retrainFailed p) s = .next t ∧ Isolates s t p 4) ∧
      (x.same ≠ some false →
        (2 ≤ x.attempts → ∃ t, exec (.retrainFailed p) s = .next t ∧ Isolates s t p 3) ∧
        (x.attempts < 2 → ∃ t, exec (.retrainFailed p) s = .next t ∧
          OnlyPort s t p.toNat { x with attempts := x.attempts + 1, same := none }))) ∧
    (x.st = .off → exec (.blIsolate p) s = .next s ∧ exec (.powerfailNotice p) s = .next s) ∧
    (x.st ≠ .off → x.st ≠ .isolated →
      (∃ t, exec (.blIsolate p) s = .next t ∧ Isolates s t p 6) ∧
      (∃ t, exec (.powerfailNotice p) s = .next t ∧ Isolates s t p 5)) ∧
    (x.st = .isolated → ∃ t, exec (.blRelease p) s = .next t ∧
      OnlyPort s t p.toNat { x with st := .phy, half := decide (c.rate = 2) }) ∧
    (x.st ≠ .isolated → exec (.blRelease p) s = .next s) ∧
    ((∃ q, q < 16 ∧ ((Tab.get PortCfg.reset s.bl.pcfg.sh q).rate = 3 ∨ (Tab.get PortCfg.reset s.bl.pcfg.sh q).uncTh = 0)) →
      exec .blPortCommit s = .next { s with bl := { s.bl with cfgerr := true } }) ∧
    ((∀ q, q < 16 → (Tab.get PortCfg.reset s.bl.pcfg.sh q).rate ≠ 3 ∧ (Tab.get PortCfg.reset s.bl.pcfg.sh q).uncTh ≠ 0) →
      ∃ t, exec .blPortCommit s = .next t ∧ t.bl.pcfg = ⟨s.bl.pcfg.sh, s.bl.pcfg.sh, false⟩ ∧
        ∀ d, d = Tab.get PortCfg.reset s.bl.pcfg.sh p.toNat →
          (x.st = .off → (t.port p.toNat).st = if d.en then .phy else .off) ∧
          (x.st ≠ .off → d.en = false → (t.port p.toNat).st = .off ∧ (t.port p.toNat).txq = []) ∧
          (x.st ≠ .off → d.en = true → d.rate = c.rate → d.vmask = c.vmask → d.loop = c.loop → t.port p.toNat = x) ∧
          (x.st ≠ .off → d.en = true → d.rate ≠ c.rate ∨ d.vmask ≠ c.vmask ∨ d.loop ≠ c.loop →
            (t.port p.toNat).st = .phy ∧ (t.port p.toNat).txq = []))

/-- FLIT_RECEIVED, NAK, LINK_CREDIT_ACK and ACK_TIMER on a port that is UP and has nothing to send: a flit of which the CRC is
wrong, one out of order, or one that finds the receive buffer of 3,072 full, is answered with a NAK that names the FSEQ
expected; the acknowledgement of any other releases the retry buffer; a flit in order is taken, and a whole packet waits in
the receive buffer to be routed, of a version-1 link only a message without its crossing; a NAK replays from its FSEQ, and the
eighth for one FSEQ retrains; credits returned are added, those of a VC beyond 16 as shared ones (R436–R440, R455, R553, log
entries 53, 87, 96). -/
def Obligations.LinkFlits : Prop :=
  ∀ (s : State) (p : BitVec 4) (x : PortSt) (bytes : List Byte) (f : Flit) (fseq ack : BitVec 12) (credits : List (BitVec 12)),
    x = s.port p.toNat →
    (¬LinkUp s p.toNat → exec (.flitReceived p bytes) s = .next s ∧ exec (.nak p fseq ack) s = .next s ∧
      exec (.linkCreditAck p credits ack) s = .next s ∧ exec (.ackTimer p) s = .next s) ∧
    (LinkUp s p.toNat →
      (readFlit bytes = none → exec (.flitReceived p bytes) s = .next (emit (linkOf s p 1 [] [rawM (x.rxNext.setWidth 32)])
        (bump (Cnt.blCrc p.toNat) s))) ∧
      (readFlit bytes = some f → x.txq = [] →
        (f.kind = .idle ∨ f.kind = .link → ∃ t, exec (.flitReceived p bytes) s = .next t ∧
          OnlyPort s t p.toNat { x with retry := release f.ack x.retry } ∧ t.out = s.out) ∧
        (f.kind = .head ∨ f.kind = .body →
          (f.fseq ≠ x.rxNext ∨ 3072 ≤ rxHeld p.toNat s → exec (.flitReceived p bytes) s = .next (emit (linkOf s p 1 [] [rawM (x.rxNext.setWidth 32)])
            (bump (Cnt.blCrc p.toNat) s))) ∧
          (f.fseq = x.rxNext → rxHeld p.toNat s < 3072 → ∃ t, exec (.flitReceived p bytes) s = .next t ∧
            (t.port p.toNat).rxNext = x.rxNext + 1 ∧ (t.port p.toNat).retry = release f.ack x.retry ∧
            Counts s t (Cnt.blFlitsRx p.toNat) 1)) ∧
        (f.kind = .head → f.fseq = x.rxNext → rxHeld p.toNat s < 3072 → f.vc.toNat < 10 →
          (f.bodys = 0 → ∃ t, exec (.flitReceived p bytes) s = .next t ∧ Arrives s t p.toNat f.vc.toNat 1
            ⟨f.dest, f.src, f.txid, f.op, f.ttl, f.vc.getLsbD 0, false, f.words, [], none, 0⟩) ∧
          (f.bodys ≠ 0 → ∃ t, exec (.flitReceived p bytes) s = .next t ∧ t.bl.pkts = s.bl.pkts ∧
            Tab.get [] (t.port p.toNat).partials f.vc.toNat = [f] ∧ (t.port p.toNat).owed = x.owed)) ∧
        (f.kind = .body → f.fseq = x.rxNext → rxHeld p.toNat s < 3072 → f.vc.toNat < 10 → ∀ h hs, Tab.get [] x.partials f.vc.toNat = h :: hs →
          hs.length + 1 = h.bodys.toNat → ∃ t, exec (.flitReceived p bytes) s = .next t ∧
            Tab.get [] (t.port p.toNat).partials f.vc.toNat = [] ∧
            Arrives s t p.toNat f.vc.toNat (hs.length + 2) ⟨h.dest, h.src, h.txid, h.op, h.ttl, h.vc.getLsbD 0, false, h.words,
              (hs ++ [f]).flatMap Flit.words, none, 0⟩)) ∧
      (∀ (v : Nat) (q : Pkt), (x.version ≠ 1 → takenPkt x v q = some q) ∧
        (x.version = 1 → q.op = 0x40 → v = 8 → takenPkt x v q = some { q with head := (q.head.set 2 (rawM 0)).set 3 (rawM 0) }) ∧
        (x.version = 1 → q.op ≠ 0x40 ∨ v ≠ 8 → takenPkt x v q = none)) ∧
      (∀ k l, k = (if x.nakAt = fseq then x.naks + 1 else 1) → l = release ack x.retry →
        (k < 8 → ∃ t, exec (.nak p fseq ack) s = .next t ∧
          OnlyPort s t p.toNat { x with nakAt := fseq, naks := k, retry := l } ∧
          t.out = resent p x (l.dropWhile fun g => g.fseq ≠ fseq) ++ s.out) ∧
        (8 ≤ k → ∃ t, exec (.nak p fseq ack) s = .next t ∧ (t.port p.toNat).st = .retrain ∧ t.out = s.out ∧
          Counts s t (Cnt.blRetrain p.toNat) 1)) ∧
      (x.txq = [] → ∃ t y, exec (.linkCreditAck p credits ack) s = .next t ∧ OnlyPort s t p.toNat y ∧
        y.retry = release ack x.retry ∧ y.st = .up ∧
        (∀ v, v < 10 → Tab.get 0 y.credits v = min (Tab.get 0 x.credits v + (credits.getD v 0).toNat) 16) ∧
        Tab.get 0 y.credits 10 = Tab.get 0 x.credits 10 + (credits.getD 10 0).toNat +
          ((List.range 10).map fun v => Tab.get 0 x.credits v + (credits.getD v 0).toNat - 16).sum) ∧
      (∃ t y, exec (.ackTimer p) s = .next t ∧ OnlyPort s t p.toNat y ∧ y = { x with owed := [], used := y.used } ∧
        (∀ v, v < 10 → Tab.get 0 y.used v = Tab.get 0 x.used v - Tab.get 0 x.owed v) ∧
        t.out = linkOf s p 0 ((List.range 11).map fun v => Tab.get 0 x.owed v) [] :: s.out))

/-- A flit is 96 bytes with the fields of Table 14-3 in their places, its header words and CRC little-endian, and a CRC-32C
over bytes 0–11 and 16–95; read back it is the same flit, and with another CRC it is none (R148, R437). The words of a LINK
flit beyond Table 14-3 are the model's (log entries 56, 96). -/
def Obligations.FlitsReadBack : Prop :=
  ∀ (f : Flit) (b : List Byte), f.words.length = 16 → b = flitBytes f →
    b.length = 96 ∧
    ((leWord b 0).extractLsb' 0 2 = (match f.kind with | .idle => 0 | .head => 1 | .body => 2 | .link => 3) ∧
      (leWord b 0).extractLsb' 2 4 = f.vc ∧ (leWord b 0).extractLsb' 6 3 = f.bodys ∧ (leWord b 0).extractLsb' 9 7 = f.ttl ∧
      (leWord b 0).extractLsb' 16 16 = f.dest) ∧
    ((leWord b 4).extractLsb' 0 16 = f.src ∧ (leWord b 4).extractLsb' 16 16 = f.txid) ∧
    ((leWord b 8).extractLsb' 0 8 = f.op ∧ (leWord b 8).extractLsb' 8 12 = f.fseq ∧ (leWord b 8).extractLsb' 20 12 = f.ack) ∧
    leWord b 12 = crcOf (b.take 12 ++ b.drop 16) ∧
    (∀ i, i < 16 → leWord b (16 + 4 * i) = (lineWord f.words i).val ∧ b.getD (80 + i) 0 = (lineWord f.words i).tag) ∧
    readFlit b = some f ∧
    (∀ bytes, bytes.length = 96 → bytes.take 12 = b.take 12 → bytes.drop 16 = b.drop 16 → bytes ≠ b → readFlit bytes = none)

/-- PACKET_ROUTE and the routing tables: the oldest packet goes to this node's inbox, or to the port or else the alternate of
its live entry when that is UP with its optics on; in transit its TTL falls by one and at 0 drops it; without a route it is
dropped; either is counted, and a request dropped at its source is answered ERR with a free word (log entry 1). A packet
leaves the receive buffer of its port as it is routed, and its credits are owed. A LOAD fills the shadow table, whose reserved
bits read 0, and RT_COMMIT exchanges the two, after a LOAD that runs and whose words can be read (R19, R440, R443–R445, R553,
log entries 53, 96). -/
def Sys2Proof.Clause.Routing : Prop :=
  ∀ (s u : State) (q r q' : Pkt) (e : BitVec 16),
    (∀ n, portUp s n = true ↔ LinkUp s n) ∧
    (s.bl.pkts = [] → exec .packetRoute s = .next s) ∧
    (s.pf = true → (∀ y ∈ s.bl.pkts, y.atSource = true) → exec .packetRoute s = .next s) ∧
    ((s.bl.pkts.find? fun y => !(s.pf && y.atSource)) = some q →
      (∀ v, v = { s with bl := { s.bl with pkts := s.bl.pkts.erase q } } → (q.rx = none → u = v ∧ r = q) ∧
        (∀ x, q.rx = some x → r = { q with rx := some { x with own := 0, shared := 0 } } ∧ u = v.modPort x.port (fun y =>
          { y with owed := Tab.set 0 (Tab.set 0 y.owed x.vc (Tab.get 0 y.owed x.vc + x.own)) 10
                             (Tab.get 0 y.owed 10 + x.shared) }))) →
      e = Tab.get 0 s.bl.rt q.dest.toNat → q' = (if q.atSource then r else { r with ttl := q.ttl - 1 }) →
      (q.dest = s.node → exec .packetRoute s =
        .next { u with bl := { u.bl with inbox := s.bl.inbox ++ [{ r with tick := s.time }] } }) ∧
      (q.dest ≠ s.node →
        (q.atSource = false → q.ttl = 1 → exec .packetRoute s = .next (bump Cnt.blTtl u)) ∧
        (q.atSource = true ∨ q.ttl ≠ 1 →
          (e.getLsbD 10 = true → portUp s (e.extractLsb' 0 4).toNat = true →
            exec .packetRoute s = .next (sendTo (e.extractLsb' 0 4).toNat (e.getLsbD 9) q' u)) ∧
          (e.getLsbD 10 = true → portUp s (e.extractLsb' 0 4).toNat = false →
            (e.getLsbD 8 = true → portUp s (e.extractLsb' 4 4).toNat = true →
              exec .packetRoute s = .next (sendTo (e.extractLsb' 4 4).toNat (e.getLsbD 9) q' u)) ∧
            (e.getLsbD 8 = false ∨ portUp s (e.extractLsb' 4 4).toNat = false → q.atSource = false →
              exec .packetRoute s = .next (bump Cnt.blNoroute u))) ∧
          (e.getLsbD 10 = false →
            (q.atSource = false ∨ isRequest q = false → exec .packetRoute s = .next (bump Cnt.blNoroute u)) ∧
            (q.atSource = true → isRequest q = true → ∃ t w, exec .packetRoute s = .next t ∧
              t.bl.inbox = s.bl.inbox ++ [⟨s.node, s.node, q.txid, 0x24, s.bl.ttl, false, true, [rawM w], [], none, s.time⟩] ∧
              Counts s t Cnt.blNoroute 1)))) ∧
      (∀ n dl, (s.port n).version ≠ 1 → sendTo n dl q' u =
        servePort n (u.modPort n fun y => { y with txq := y.txq ++ [{ q' with laneB := q'.laneB || dl }] }))) ∧
    (s.bl.rtPend = true → exec .blRtLoad s = .next { s with bl := { s.bl with cfgerr := true } }) ∧
    (s.bl.rtLoad.isSome = true → (s.bl.rtPend = false → exec .blRtLoad s = .next s) ∧
      exec .blRtCommit s = .next { s with bl := { s.bl with rtPend := true } }) ∧
    (s.bl.rtLoad = none →
      exec .rtLoadDone s = .next s ∧
      exec .blRtCommit s = .next { s with bl := { s.bl with rt := s.bl.rtSh, rtSh := s.bl.rt, rtPend := false } } ∧
      (s.bl.rtSrc.toNat % 64 ≠ 0 →
        exec .blRtLoad s = .next { s with bl := { s.bl with cfgerr := true } }) ∧
      (s.bl.rtPend = false → s.bl.rtSrc.toNat % 64 = 0 →
        exec .blRtLoad s = .next { s with bl := { s.bl with rtLoad := some s.bl.rtSrc } })) ∧
    (∀ src, s.bl.rtLoad = some src → Reads (rtLoaded src) s → ∃ v, v = loadRt src 0 32768 { s with miss := none } ∧ v.bl.rt = s.bl.rt ∧
      (∀ k, k < 65536 → Tab.get 0 v.bl.rtSh k &&& 0xF800 = 0) ∧
      (s.bl.rtPend = false → exec .rtLoadDone s = .next { v with bl := { v.bl with rtLoad := none } }) ∧
      (s.bl.rtPend = true → exec .rtLoadDone s = .next { v with bl := { v.bl with
        rtLoad := none, rt := v.bl.rtSh, rtSh := s.bl.rt, rtPend := false } }))

/-- MSG_SEND_TAKE makes one packet of a core's oldest message, with its envelope, or of the host send path's, and a SEND that
waited for it goes on (R500); MSG_DELIVERY drops a message for a ring that does not exist or is not enabled and one that meets
a full ring, counting each, and delivers another into its slot with PROD moved on; of messages for one ring that arrived in
the same cycle, the one of the lowest port is first, the local agent last (R451–R453, R457, log entry 96; none is sent after
the power-fail warning, R458). -/
def Sys2Proof.Clause.Messages : Prop :=
  ∀ (s u : State) (k : CoreId) (m : SendMsg) (ms : List SendMsg) (q : Pkt) (r : Nat) (e : List MWord),
    ((s.core k).send = [] ∨ s.pf = true → exec (.msgSendTake (some k)) s = .next s) ∧
    (s.hi.sendq = [] ∨ s.pf = true → exec (.msgSendTake none) s = .next s) ∧
    (s.pf = false → ∀ (x : BitVec 48) (p : Pkt), x = m.crossing.getD 0 →
      p = packet s m.node 0 0x40 [⟨Ty.hdr, false, false, 0xC400000F⟩, rawM (s.node ++ (0 : BitVec 6) ++ m.ring),
          rawM (x.setWidth 32), rawM ((0 : BitVec 15) ++ bit m.crossing.isSome ++ x.extractLsb' 32 16),
          rawM (m.ctx.setWidth 32), (TWord.fix (BitVec.ofNat 32 m.words.length)).m] m.words →
      ((s.core k).send = m :: ms → ∀ v, v = s.modCore k (fun c => { c with send := ms }) →
        exec (.msgSendTake (some k)) s = .next (bump Cnt.blMsgTx { v with bl := { v.bl with pkts := s.bl.pkts ++ [p] } })) ∧
      (∀ n hs v, s.hi.sendq = (n, m) :: hs → v = bump Cnt.blMsgTx { s with hi := { s.hi with sendq := hs }, bl := { s.bl with
          pkts := s.bl.pkts ++ [p] } } →
        ((s.ring n).going = none → exec (.msgSendTake none) s = .next v) ∧
        (∀ g, (s.ring n).going = some g → g.msg = true →
          exec (.msgSendTake none) s = .next (endGoing n { g with msg := false } v)))) ∧
    ((∀ y ∈ s.bl.inbox, y.op ≠ 0x40) → exec .msgDelivery s = .next s) ∧
    (∀ y same, (s.bl.inbox.find? fun y => y.op = 0x40) = some y →
      same = s.bl.inbox.filter (fun z => decide (z.op = 0x40 ∧ msgRing z = msgRing y ∧ z.tick = y.tick)) →
      (∀ z ∈ same, msgPort q ≤ msgPort z) → (same.filter fun z => msgPort z = msgPort q).head? = some q → Reads (takeMsg q) s →
      u = { s with miss := none, bl := { s.bl with inbox := s.bl.inbox.erase q } } → r = ((q.head.getD 1 MWord.unset).val.setWidth 10).toNat →
      (s.bl.ring.lv.cnt.toNat ≤ r → exec .msgDelivery s = .next (bump Cnt.blNoring u)) ∧
      (r < s.bl.ring.lv.cnt.toNat → ∀ v w : State, ringEntry r u = (e, v) →
        ((∃ y ∈ e, y.ty ≠ Ty.raw) ∨ (e.getD 0 MWord.unset).val.getLsbD 5 = false →
          exec .msgDelivery s = .next (bump Cnt.blNoring v)) ∧
        ((∀ y ∈ e, y.ty = Ty.raw) → (e.getD 0 MWord.unset).val.getLsbD 5 = true → ∀ n prod cons,
          n = 2 ^ ((e.getD 0 MWord.unset).val.setWidth 5).toNat → prod = ((e.getD 4 MWord.unset).val.setWidth 14).toNat →
          cons = ((e.getD 5 MWord.unset).val.setWidth 14).toNat → cons < 2 * n → prod < 2 * n →
          ((prod + 2 * n - cons) % (2 * n) = n → ∃ t, exec .msgDelivery s = .next t ∧
            Counts v t Cnt.blRingfull 1 ∧ t.ll = s.ll ∧ t.ctxs = s.ctxs) ∧
          ((prod + 2 * n - cons) % (2 * n) ≠ n → ∀ bind, bind = msgBinding v ((q.head.getD 3 MWord.unset).val.getLsbD 16)
              ((q.head.getD 3 MWord.unset).val.setWidth 16 ++ (q.head.getD 2 MWord.unset).val) →
            w = agentRun false (some (match bind with
                | some b => (v.event (hSlot b)).home | none => (e.getD 0 MWord.unset).val.extractLsb' 7 5))
              (((e.getD 2 MWord.unset).val.setWidth 21 ++ (e.getD 1 MWord.unset).val) +
                BitVec.ofNat 53 (320 * (prod % n))) [] (slotWords v q bind) v →
            exec .msgDelivery s = .next (bump Cnt.blMsgRx (wakeMsg r ((e.getD 0 MWord.unset).val.extractLsb' 12 8) bind
              (agentWrite (s.bl.ring.lv.base + BitVec.ofNat 53 (32 * r + 16))
                (rawM (BitVec.ofNat 32 ((prod + 1) % (2 * n)))) w)))))))

/-! ### The host interface -/

namespace Sys2Proof.Machine

/-- t is s but for one ring, which is y, the pending bits of the vectors, the counters and what left the module. -/
def OnlyRing (s t : State) (r : BitVec 10) (y : RingSt) : Prop :=
  t.ring r.toNat = y ∧ (∀ q, q ≠ r.toNat → t.ring q = s.ring q) ∧
    { t with hi := { t.hi with rings := s.hi.rings, pba := s.hi.pba }, cnt := s.cnt, out := s.out } = s

/-- The status block of a ring (R490): the running number and the device's index, then the code and the state. -/
def blockOf (x : RingSt) : Out :=
  .hostWrite x.rsb (wideBytes (x.blocks ++ BitVec.ofNat 32 x.index) ++
    wideBytes ((0 : BitVec 56) ++ x.err ++ (0 : BitVec 1) ++ x.st.code) ++ List.replicate 48 0)

/-- The status block as it leaves: not once PCIe is shed (R510). -/
def blockOut (s : State) (x : RingSt) : List Out := if s.pw.stage = .run then [blockOf x] else []

/-- The vector of a ring is sent unless PCIe is shed, or its pending bit is set while it is masked (R492, R510). -/
def VectorSent (s t : State) (x : RingSt) : Prop :=
  let i := x.func.toNat * 256 + x.vector.toNat
  ((Tab.get msixReset s.hi.msix i).getLsbD 96 = false → t.hi.pba = s.hi.pba ∧
    (s.pw.stage = .run → t.out = .msix x.func.toNat x.vector :: s.out ∧ Counts s t Cnt.hiIrq 1) ∧
    (s.pw.stage ≠ .run → t.out = s.out ∧ t.counter Cnt.hiIrq = s.counter Cnt.hiIrq)) ∧
  ((Tab.get msixReset s.hi.msix i).getLsbD 96 = true → t.out = s.out ∧ i ∈ t.hi.pba ∧ t.counter Cnt.hiIrq = s.counter Cnt.hiIrq)

end Sys2Proof.Machine

/-- DB_PROD, DB_CONS, DB_ARM and IRQ_HOLDOFF_EXPIRY: a doorbell of a function that does not reach the ring, of the ring's
other direction or of a ring that is not RUNNING is dropped and counted; the index is taken modulo twice the size; an index
that would make the ring hold more than its size stops it with code 1 and a status block; arming, and the end of the holdoff,
send the vector when a completion is unreported and the count, a HOLDOFF of 0 or the holdoff's end asks for it, on a ring that
drains too (R483, R488, R491, R492, R508, R510, log entry 55). -/
def Sys2Proof.Clause.Doorbells : Prop :=
  ∀ (s : State) (r : BitVec 10) (v : Word) (fn : BitVec 5) (x : RingSt), x = s.ring r.toNat →
    (¬ (fn = 0 ∨ x.func = fn) ∨ x.st ≠ .running →
      exec (.dbProd r v fn) s = .next (bump Cnt.hiDbdrop s) ∧ exec (.dbCons r v fn) s = .next (bump Cnt.hiDbdrop s) ∧
        exec (.dbArm r fn) s = .next (bump Cnt.hiDbdrop s)) ∧
    (¬ (x.ty = 0 ∨ x.ty = 1 ∨ x.ty = 4) → exec (.dbProd r v fn) s = .next (bump Cnt.hiDbdrop s)) ∧
    (x.ty = 0 ∨ x.ty = 1 ∨ x.ty = 4 → exec (.dbCons r v fn) s = .next (bump Cnt.hiDbdrop s)) ∧
    (fn = 0 ∨ x.func = fn → x.st = .running →
      (x.ty = 0 ∨ x.ty = 1 ∨ x.ty = 4 → ∀ y, y = { x with prod := v.toNat % (2 * 2 ^ x.log2.toNat) } →
        (y.used ≤ 2 ^ x.log2.toNat → ∃ t, exec (.dbProd r v fn) s = .next t ∧ OnlyRing s t r y ∧ t.out = s.out ∧ t.cnt = s.cnt) ∧
        (2 ^ x.log2.toNat < y.used → ∀ z, z = { x with st := .error, err := 1, going := none, blocks := x.blocks + 1 } →
          ∃ t, exec (.dbProd r v fn) s = .next t ∧ OnlyRing s t r z ∧ t.out = blockOut s z ++ s.out)) ∧
      (¬ (x.ty = 0 ∨ x.ty = 1 ∨ x.ty = 4) → ∀ y, y = { x with cons := v.toNat % (2 * 2 ^ x.log2.toNat) } →
        (y.used ≤ 2 ^ x.log2.toNat → ∃ t, exec (.dbCons r v fn) s = .next t ∧ OnlyRing s t r y ∧ t.out = s.out ∧ t.cnt = s.cnt) ∧
        (2 ^ x.log2.toNat < y.used → ∀ z, z = { x with st := .error, err := 1, going := none, blocks := x.blocks + 1 } →
          ∃ t, exec (.dbCons r v fn) s = .next t ∧ OnlyRing s t r z ∧ t.out = blockOut s z ++ s.out)) ∧
      (x.irqen = true → 0 < x.since → (x.count.toNat ≤ x.since ∨ x.holdoff = 0 ∨ x.held = true) →
        ∃ t, exec (.dbArm r fn) s = .next t ∧ OnlyRing s t r { x with armed := false, since := 0, held := false } ∧
          VectorSent s t x) ∧
      (¬ (x.irqen = true ∧ 0 < x.since ∧ (x.count.toNat ≤ x.since ∨ x.holdoff = 0 ∨ x.held = true)) →
        ∃ t, exec (.dbArm r fn) s = .next t ∧ OnlyRing s t r { x with armed := true } ∧ t.out = s.out)) ∧
    ((x.st ≠ .running ∧ x.st ≠ .draining) ∨ x.since = 0 → exec (.irqHoldoffExpiry r) s = .next s) ∧
    (x.st = .running ∨ x.st = .draining → 0 < x.since →
      (x.armed = true → x.irqen = true → ∃ t, exec (.irqHoldoffExpiry r) s = .next t ∧
        OnlyRing s t r { x with armed := false, since := 0, held := false } ∧ VectorSent s t x) ∧
      (x.armed = false ∨ x.irqen = false → ∃ t, exec (.irqHoldoffExpiry r) s = .next t ∧
        OnlyRing s t r { x with held := true } ∧ t.out = s.out))

/-- RING_ENABLE, RING_DISABLE, RING_DRAIN_DONE, HOST_DMA_TIMEOUT and HI_IFVER_WRITE (Tables 16-2, 16-3, 16-13): a DISABLED
ring takes its fields and, when they are valid, starts RUNNING, armed and empty, with a status block, else CFGERR; fields of a
ring that is not DISABLED are refused with CFGERR but for the vector and IRQEN of one that is RUNNING; disabling drains a
RUNNING ring, completing each of its posted descriptors ABORTED, after one that is in progress, and frees one in ERROR; a
failed access stops a RUNNING ring with its code, and a poisoned fetch is reported to AER; the interface version changes while
every ring is DISABLED, to 1 while VF Enable is clear (R479, R480, R483, R486–R489, R512, log entries 55, 57, 98). -/
def Sys2Proof.Clause.RingStates : Prop :=
  ∀ (s : State) (r : BitVec 10) (fn : BitVec 5) (cfg : Word) (irqs : List Bool) (x y : RingSt), x = s.ring r.toNat →
    y = { x with ty := if fn = 0 then cfg.extractLsb' 1 3 else x.ty, log2 := cfg.extractLsb' 4 4,
                 func := if fn = 0 then cfg.extractLsb' 8 5 else x.func, vector := cfg.extractLsb' 13 8,
                 irqen := cfg.getLsbD 21 } →
    (¬ (fn = 0 ∨ x.func = fn) → exec (.ringEnable r fn cfg) s = .next (bump Cnt.hiDbdrop s) ∧
      exec (.ringDisable r fn cfg irqs) s = .next (bump Cnt.hiDbdrop s)) ∧
    (fn = 0 ∨ x.func = fn → s.hi.active ≠ 1 →
      (x.st = .disabled →
        (4 ≤ y.log2.toNat → y.ty.toNat ≤ 4 → y.rbase.toNat % 4096 = 0 → y.rsb.toNat % 64 = 0 →
          (y.ty = 2 → ∀ e ∈ s.hi.rings, e.2.st = .running → e.2.ty ≠ 2) →
          ∀ z, z = { y with st := .running, err := 0, prod := 0, cons := 0, armed := true, since := 0, held := false,
                            going := none, blocks := y.blocks + 1 } →
          ∃ t, exec (.ringEnable r fn cfg) s = .next t ∧ OnlyRing s t r z ∧ t.out = blockOut s z ++ s.out) ∧
        (y.log2.toNat < 4 ∨ 4 < y.ty.toNat ∨ y.rbase.toNat % 4096 ≠ 0 ∨ y.rsb.toNat % 64 ≠ 0 ∨
            (y.ty = 2 ∧ ∃ q, (s.ring q).st = .running ∧ (s.ring q).ty = 2) →
          ∃ t, exec (.ringEnable r fn cfg) s = .next t ∧ t.hi.cfgerr = true ∧ t.ring r.toNat = y ∧ t.out = s.out) ∧
        (∃ t, exec (.ringDisable r fn cfg irqs) s = .next t ∧ OnlyRing s t r y ∧ t.out = s.out)) ∧
      (x.st = .running → ∀ w, w = { x with vector := y.vector, irqen := y.irqen } →
        (y.ty = x.ty → y.log2 = x.log2 → y.func = x.func →
          ∃ t, exec (.ringEnable r fn cfg) s = .next t ∧ OnlyRing s t r w ∧ t.out = s.out) ∧
        (y.ty ≠ x.ty ∨ y.log2 ≠ x.log2 ∨ y.func ≠ x.func →
          ∃ t, exec (.ringEnable r fn cfg) s = .next t ∧ t.hi.cfgerr = true ∧ t.ring r.toNat = w) ∧
        (¬ (x.ty = 0 ∨ x.ty = 1 ∨ x.ty = 4) →
          ∃ t, exec (.ringDisable r fn cfg irqs) s = .next t ∧ t.ring r.toNat = { w with st := .draining }) ∧
        (x.ty = 0 ∨ x.ty = 1 ∨ x.ty = 4 → x.prod < 2 * 2 ^ x.log2.toNat → x.cons < 2 * 2 ^ x.log2.toNat →
          x.used ≤ 2 ^ x.log2.toNat →
          (x.going = none → ∃ t, exec (.ringDisable r fn cfg irqs) s = .next t ∧ (t.ring r.toNat).st = .draining ∧
            (t.ring r.toNat).prod = x.prod ∧ (t.ring r.toNat).cons = x.prod ∧
            Counts s t Cnt.hiDesc x.used ∧ Counts s t Cnt.hiErr x.used) ∧
          (∀ g, x.going = some g → ∃ t, exec (.ringDisable r fn cfg irqs) s = .next t ∧ t.ring r.toNat = { w with
              st := .draining
              going := some { g with aborts := ((List.range x.used).map fun i => irqs.getD i false).take (x.used - 1) } } ∧
            t.cnt = s.cnt ∧ t.out = s.out))) ∧
      (x.st = .error ∨ x.st = .draining →
        (y = x → exec (.ringEnable r fn cfg) s = .next s) ∧
        (y ≠ x → exec (.ringEnable r fn cfg) s = .next { s with hi := { s.hi with cfgerr := true } })) ∧
      (x.st = .error → ∃ t, exec (.ringDisable r fn cfg irqs) s = .next t ∧
        t.ring r.toNat = { x with st := .disabled, armed := false, since := 0, held := false, going := none }) ∧
      (x.st = .draining → ∃ t, exec (.ringDisable r fn cfg irqs) s = .next t ∧ t.ring r.toNat = x)) ∧
    (fn = 0 ∨ x.func = fn → s.hi.active = 1 → 64 ≤ r.toNat →
      exec (.ringEnable r fn cfg) s = .next s ∧ exec (.ringDisable r fn cfg irqs) s = .next s) ∧
    (fn = 0 ∨ x.func = fn → s.hi.active = 1 → r.toNat < 64 → x.st = .disabled →
      y.func ≠ 0 ∨ ¬ (y.ty = 0 ∨ y.ty = 2 ∨ y.ty = 3) →
      ∃ t, exec (.ringEnable r fn cfg) s = .next t ∧ t.hi.cfgerr = true ∧ (t.ring r.toNat).st = .disabled) ∧
    (x.st = .draining → x.going = none → ∃ t, exec (.ringDrainDone r) s = .next t ∧
      OnlyRing s t r { x with st := .disabled, armed := false, since := 0, held := false, blocks := x.blocks + 1 } ∧
      t.out = blockOut s { x with blocks := x.blocks + 1 } ++ s.out) ∧
    (x.st ≠ .draining ∨ x.going.isSome = true → exec (.ringDrainDone r) s = .next s) ∧
    (∀ (what : RingDma) (poisoned : Bool),
      (x.st ≠ .running → poisoned = false ∨ what ≠ .fetch → exec (.hostDmaTimeout r what poisoned) s = .next s) ∧
      (x.st = .running → ∃ t, exec (.hostDmaTimeout r what poisoned) s = .next t ∧ Counts s t Cnt.hiDmaerr 1 ∧ t.out = s.out ∧
        (poisoned = false ∨ what ≠ .fetch → OnlyRing s t r
          { x with st := .error, going := none, err := match what with | .fetch => 2 | .entry => 3 | .status => 4 }) ∧
        (poisoned = true → what = .fetch → x.func.toNat ∈ t.hi.pcie.aer ∧
          t.ring r.toNat = { x with st := .error, going := none, err := 2 }))) ∧
    (∀ req : BitVec 2,
      ((req = 1 ∧ s.hi.pcie.vfEn = false) ∨ req = 2 → (∀ e ∈ s.hi.rings, e.2.st = .disabled) →
        exec (.hiIfverWrite req) s = .next { s with hi := { s.hi with req := req, active := req } }) ∧
      (req = 0 ∨ req = 3 ∨ (req = 1 ∧ s.hi.pcie.vfEn = true) ∨ (∃ q, (s.ring q).st ≠ .disabled) →
        exec (.hiIfverWrite req) s = .next { s with hi := { s.hi with cfgerr := true } }))

/-- FUNCTION_LEVEL_RESET, PCIE_FUNDAMENTAL_RESET, BAR0_BAD_ACCESS and WINDOW_READ_COMPLETION: a reset of the PF puts the host
interface and its counters to their state after reset, but for the payload size and the messages that the send path holds, and
touches nothing else, one of a VF its own rings and vectors; a bad access is counted and a bad read ends with UR; a context
that waits for a window read goes on with its words, or with POISON of source 4 for each when it fails, and a poisoned
completion is reported to AER (R479–R481, R485, R507, R516, log entry 98). That a reset of the PF resets SPEED and WIDTH too
is log entry 59. -/
def Sys2Proof.Clause.FunctionResets : Prop :=
  ∀ (s : State) (fn : BitVec 5) (speed : BitVec 4) (width : BitVec 5),
    (∃ t, exec (.functionLevelReset 0) s = .next t ∧ ClearsTo [(0x010040, 0x01005C)] s { s with hi := { HiSt.reset with
      pcie := { PcieSt.reset with mps := s.hi.pcie.mps }, sendq := s.hi.sendq } } t) ∧
    (∃ t, exec (.pcieFundamentalReset speed width) s = .next t ∧
      ClearsTo [(0x010040, 0x01005C)] s { s with hi := { HiSt.reset with
        speed := speed, width := width, sendq := s.hi.sendq } } t) ∧
    (fn ≠ 0 → ∃ t, exec (.functionLevelReset fn) s = .next t ∧
      { t with hi := { t.hi with rings := s.hi.rings, msix := s.hi.msix, pba := s.hi.pba } } = s ∧
      (∀ q, (s.ring q).func = fn →
        t.ring q = { s.ring q with st := .disabled, armed := false, since := 0, held := false, going := none }) ∧
      (∀ q, (∀ e ∈ s.hi.rings, e.1 = q → e.2.func ≠ fn) → t.ring q = s.ring q) ∧
      (∀ i, Tab.get msixReset t.hi.msix i = if i / 256 = fn.toNat then msixReset else Tab.get msixReset s.hi.msix i) ∧
      (∀ i, i ∈ t.hi.pba ↔ i ∈ s.hi.pba ∧ i / 256 ≠ fn.toNat)) ∧
    exec (.bar0BadAccess true) s = .next (emit .badRead (bump Cnt.hiBadacc s)) ∧
    exec (.bar0BadAccess false) s = .next (bump Cnt.hiBadacc s) ∧
    (∀ (c : CtxId) (v : Option (BitVec 64)) (a : List Nat),
      (a = (if 0 ∈ s.hi.pcie.aer then s.hi.pcie.aer else s.hi.pcie.aer ++ [0]) → exec (.windowReadCompletion c none true) s =
        exec (.windowReadCompletion c none false) { s with hi := { s.hi with pcie := { s.hi.pcie with aer := a } } }) ∧
      ((s.ctx c).st ≠ .stalled ∨ (s.ctx c).stall ≠ .window → exec (.windowReadCompletion c v false) s = .next s) ∧
      ((s.ctx c).st = .stalled → (s.ctx c).stall = .window → ∀ newer a n older,
        s.out = newer ++ .winRead c a n :: older → (∀ o ∈ newer, ∀ b k, o ≠ .winRead c b k) →
        (v = none → exec (.windowReadCompletion c v false) s = .next (wakeCtx c ((bump Cnt.hiWinerr s).modCtx c fun x =>
          { x with answer := List.replicate (if n = 8 then 2 else 1) (TWord.poison 4) }))) ∧
        (∀ q, v = some q → n = 8 → exec (.windowReadCompletion c v false) s = .next (wakeCtx c (s.modCtx c fun x =>
          { x with answer := [TWord.raw (q.extractLsb' 0 32), TWord.raw (q.extractLsb' 32 32)] }))) ∧
        (∀ q, v = some q → n ≠ 8 → exec (.windowReadCompletion c v false) s = .next (wakeCtx c (s.modCtx c fun x =>
          { x with answer := [TWord.raw (q.extractLsb' 0 32 <<< (8 * (a.toNat % 4)))] })))))

/-! ### Descriptors -/

namespace Sys2Proof.Machine

/-- What a completion does to a ring x (R490, R492, R494, R496, R504): the consumer index passes the descriptor, the completion
is written into it and then the status block, and the interrupt may follow. -/
def Completes (s t : State) (r : Nat) (x : RingSt) (status detail : BitVec 16) (done : Word) : Prop :=
  (t.ring r).cons = (x.cons + 1) % (2 * 2 ^ x.log2.toNat) ∧ (t.ring r).prod = x.prod ∧ (t.ring r).st = x.st ∧
    (t.ring r).blocks = x.blocks + 1 ∧ (∀ q, q ≠ r → t.ring q = s.ring q) ∧
    Counts s t Cnt.hiDesc 1 ∧ Counts s t Cnt.hiErr (if status = 0 ∨ status = 1 then 0 else 1) ∧
    Counts s t Cnt.hiDmaerr (if status = 6 then 1 else 0) ∧
    ∃ irqs entry, (irqs = [] ∨ irqs = [.msix x.func.toNat x.vector]) ∧
      entry = (if s.hi.active = 1 then
          .hostWrite (x.rbase + BitVec.ofNat 64 (32 * (x.cons % 2 ^ x.log2.toNat) + 20)) (halfBytes status)
        else .hostWrite (x.rbase + BitVec.ofNat 64 (64 * (x.cons % 2 ^ x.log2.toNat) + 48))
          (halfBytes status ++ halfBytes detail ++ wordBytes done ++ wordBytes (s.time.setWidth 32) ++ wordBytes 0)) ∧
      t.out = irqs ++ blockOf { x with cons := (x.cons + 1) % (2 * 2 ^ x.log2.toNat), blocks := x.blocks + 1 } ::
        entry :: s.out

/-- The ring's next descriptor runs: the ring is RUNNING toward the device, a descriptor is posted, none is in progress, and PCIe
is up. -/
structure CanRun (s : State) (r : BitVec 10) : Prop where
  running : (s.ring r.toNat).st = .running
  toward : (s.ring r.toNat).fromHost = true
  posted : 0 < (s.ring r.toNat).used
  idle : (s.ring r.toNat).going = none
  up : s.pw.stage = .run

/-- The device has fetched the ring's next descriptor. -/
def fetched (s : State) (r : BitVec 10) : State :=
  let bytes := if s.hi.active = 1 then 32 else 64
  hostReads ((s.ring r.toNat).rbase + BitVec.ofNat 64 (bytes * ((s.ring r.toNat).cons % 2 ^ (s.ring r.toNat).log2.toNat))) bytes s

/-- v is u but for what the ring has in progress. -/
def WithGoing (u v : State) (r : BitVec 10) (g : Option Going) : Prop :=
  v.ring r.toNat = { u.ring r.toNat with going := g } ∧ (∀ q, q ≠ r.toNat → v.ring q = u.ring q) ∧
    { v with hi := { v.hi with rings := u.hi.rings } } = u

/-- A row ends the descriptor d with a status, DETAIL and DONE over the state u that its effect leaves. -/
def Ends (i : Instr) (s : State) (r : BitVec 10) (d : Desc) (status detail : BitVec 16) (done : Nat) (u : State) : Prop :=
  ∃ v, WithGoing u v r none ∧ exec i s = .next (complete r.toNat (d.q0.getLsbD 8) status detail (BitVec.ofNat 32 done) v)

/-- The same for a row that has written words from an address: the descriptor stays in progress while one of their lines is not
yet performed (R505). -/
def EndsWrites (i : Instr) (s : State) (r : BitVec 10) (d : Desc) (status detail : BitVec 16) (done words : Nat) (u : State) : Prop :=
  ((∀ ln, ln * 64 < (descPa d).toNat + 4 * words → (descPa d).toNat < ln * 64 + 64 → writeUnderWay u ln = false) →
    Ends i s r d status detail done u) ∧
  ((∃ ln, ln * 64 < (descPa d).toNat + 4 * words ∧ (descPa d).toNat < ln * 64 + 64 ∧ writeUnderWay u ln = true) →
    ∃ v g, exec i s = .next v ∧ WithGoing u v r (some g) ∧ g.irq = d.q0.getLsbD 8 ∧ g.status = status ∧ g.detail = detail ∧
      g.done = done ∧ g.msg = false ∧ ∀ ln, ln ∈ g.lines ↔
        (ln * 64 < (descPa d).toNat + 4 * words ∧ (descPa d).toNat < ln * 64 + 64 ∧ writeUnderWay u ln = true))

end Sys2Proof.Machine

/-- What every completion does, when a row runs, and DESCRIPTOR_NOP: NOP on a command ring completes OK, an opcode that no row
has completes BAD_OP (2); a descriptor waits on a ring that is not RUNNING or has none posted, and once PCIe is shed; one that
is in progress completes once its words are performed and its message is taken, and on a ring that drains those behind it then
complete ABORTED; accesses of host memory are cut at 4 KiB and at the programmed sizes, and a poisoned completion is reported
to AER (R479, R480, R489, R494, R495, R496, R500, R504, R505, R510, log entries 58, 98). -/
def Sys2Proof.Clause.Completions : Prop :=
  ∀ (s : State) (r : BitVec 10) (d : Desc) (x : RingSt), x = s.ring r.toNat →
    (x.fromHost = true → s.pw.stage = .run → ∀ (irq : Bool) (status detail : BitVec 16) (done : Word),
      Completes s (complete r.toNat irq status detail done s) r.toNat x status detail done) ∧
    (∀ limit a n, 0 < limit → ∀ l, l = pieces limit a n → (l.map Prod.snd).sum = n ∧
      (∀ p ∈ l, 0 < p.2 ∧ p.2 ≤ limit ∧ p.1 / 4096 = (p.1 + p.2 - 1) / 4096) ∧
      ∀ k, k < l.length → (l[k]?).map Prod.fst = some (a + ((l.take k).map Prod.snd).sum)) ∧
    (s.pw.stage = .run → ∀ (a : BitVec 64) (bytes : List Byte), bytes ≠ [] → a.toNat % 4096 + bytes.length ≤ 4096 →
      (bytes.length ≤ 128 * 2 ^ s.hi.pcie.mps.toNat → hostWrites a bytes s = emit (.hostWrite a bytes) s) ∧
      (bytes.length ≤ 128 * 2 ^ s.hi.pcie.mrrs.toNat → hostReads a bytes.length s = emit (.hostRead a bytes.length) s)) ∧
    (∀ data poisoned, (poisoned = false ∨ descLen d ≤ data.length → noteData r.toNat d data poisoned s = hostReads d.q1 (descLen d) s) ∧
      (poisoned = true → data.length < descLen d → x.func.toNat ∈ (noteData r.toNat d data poisoned s).hi.pcie.aer)) ∧
    (∀ i data poisoned, (i = .copyIn r d data poisoned ∧ descOp d = 0x01) ∨ (i = .menuLoad r d data poisoned ∧ descOp d = 0x04) ∨
        (i = .replay r d data poisoned ∧ descOp d = 0x10) ∨ (i = .send r d data poisoned ∧ descOp d = 0x20) ∨
        (i = .descriptorNop r d ∧ descOp d ∉ [0x01, 0x02, 0x04, 0x10, 0x20]) →
      (s.pw.stage ≠ .run → exec i s = .next s) ∧
      (x.going = none → x.st ≠ .running ∨ x.fromHost = false ∨ x.used = 0 → exec i s = .next s) ∧
      (s.pw.stage = .run → ∀ g, x.going = some g →
        (g.msg = true ∨ (∃ ln ∈ g.lines, writeUnderWay s ln = true) → exec i s = .next s) ∧
        (g.msg = false → (∀ ln ∈ g.lines, writeUnderWay s ln = false) → ∃ v w, WithGoing s v r none ∧
          w = complete r.toNat g.irq g.status g.detail (BitVec.ofNat 32 g.done) v ∧
          (x.st ≠ .draining → exec i s = .next w) ∧
          (x.st = .draining → exec i s = .next (abortAll r.toNat g.aborts w))))) ∧
    (descOp d ∈ [0x01, 0x02, 0x04, 0x10, 0x20] → exec (.descriptorNop r d) s = .next s) ∧
    (CanRun s r →
      (d.q0.setWidth 8 = 0 → x.ty = 0 → d.q0.extractLsb' 17 15 = 0 → Ends (.descriptorNop r d) s r d 0 0 0 (fetched s r)) ∧
      (d.q0.setWidth 8 = 0 → x.ty ≠ 0 ∨ d.q0.extractLsb' 17 15 ≠ 0 → Ends (.descriptorNop r d) s r d 2 0 0 (fetched s r)) ∧
      (descOp d ∉ [0, 0x01, 0x02, 0x04, 0x10, 0x20] → Ends (.descriptorNop r d) s r d 2 0 0 (fetched s r)))

/-- COPY_IN and COPY_OUT: the checks in order answer BAD_OP (2), ZERO_LEN (1), BAD_LEN (3) and BAD_ADDR (4) and copy nothing;
COPY_IN writes its words from the host's bytes, up to one of a TYPE that is refused (TAG, 7) or to a read that failed (6), and
completes once they are performed; COPY_OUT, when no line it reads is still to come from another node, writes host memory,
with DONE the bytes copied; words that are not TAGGED keep their IMM (R74, R484, R496–R498, R505, log entry 77). -/
def Sys2Proof.Clause.Copies : Prop :=
  ∀ (s : State) (r : BitVec 10) (d : Desc) (data : List Byte) (poisoned : Bool) (n len unit : Nat) (tagged : Bool), CanRun s r →
    len = (d.q2.extractLsb' 0 32).toNat → tagged = d.q0.getLsbD 16 → unit = (if tagged then 8 else 4) → n = len / unit →
    (∀ i fail u, (i = .copyIn r d data poisoned ∧ descOp d = 1 ∧ u = fetched s r) ∨
        (i = .copyOut r d fail ∧ descOp d = 2 ∧ u = fetched { s with miss := none } r) →
      ((s.ring r.toNat).ty ≠ 0 ∨ descReserved s d = true → Ends i s r d 2 0 0 u) ∧
      ((s.ring r.toNat).ty = 0 → descReserved s d = false →
        (len = 0 → Ends i s r d 1 0 0 u) ∧
        (len ≠ 0 → 0x4000000 < len ∨ len % unit ≠ 0 → Ends i s r d 3 0 0 u) ∧
        (len ≠ 0 → len ≤ 0x4000000 → len % unit = 0 → rangeOk s r.toNat 4 (descPa d) (4 * n) = false →
          Ends i s r d 4 0 0 u))) ∧
    ((s.ring r.toNat).ty = 0 → descReserved s d = false → len ≠ 0 → len ≤ 0x4000000 → len % unit = 0 →
      rangeOk s r.toNat 4 (descPa d) (4 * n) = true →
      (descOp d = 1 → ∀ (ws : List MWord) (u : State), ws.length ≤ n →
        (∀ k, k < ws.length → ws[k]? = some (hostWord tagged (data.drop (unit * k)))) →
        (∀ w ∈ ws, storable 1 true w.ty = true) →
        u = agentRun (!tagged) (descHint d) (descPa d) [] ws (noteData r.toNat d data poisoned (fetched s r)) →
        (ws.length = n → len ≤ data.length → EndsWrites (.copyIn r d data poisoned) s r d 0 0 len ws.length u) ∧
        (data.length < len → ws.length = data.length / unit →
          EndsWrites (.copyIn r d data poisoned) s r d 6 0 data.length ws.length u) ∧
        (ws.length < n → unit * (ws.length + 1) ≤ data.length →
          storable 1 true (hostWord tagged (data.drop (unit * ws.length))).ty = false →
          EndsWrites (.copyIn r d data poisoned) s r d 7 (BitVec.ofNat 16 ws.length) (unit * ws.length) ws.length u)) ∧
      (descOp d = 2 → ∀ ws u bytes, physReads (descPa d) n (fetched { s with miss := none } r) = (ws, u) → u.miss = none →
        bytes = ws.flatMap (fun w => if tagged then wordBytes w.val ++ [w.tag, 0, 0, 0] else wordBytes w.val) →
        Ends (.copyOut r d none) s r d 0 0 len (hostWrites d.q1 bytes u) ∧
        ∀ k : Word, Ends (.copyOut r d (some k)) s r d 6 0 k.toNat (hostWrites d.q1 (bytes.take k.toNat) u)))

/-- MENU_LOAD, REPLAY and SEND: their checks and what they do. MENU_LOAD answers ZERO_LEN, BAD_LEN, BAD_ADDR, BUSY, BAD_IMAGE
(8) and BANK (9) in turn and otherwise clears the load region to UNSET and writes the image's sections; REPLAY hands frame
images to a lane that takes them from replay rings; SEND gives a message of the words of an HDR payload a place in the host's
send path of 8, or waits for one, and completes when it has been taken (R499–R502, R505, log entries 58, 85, 98). -/
def Sys2Proof.Clause.LoadsReplaysSends : Prop :=
  ∀ (s z u : State) (r : BitVec 10) (d : Desc) (data : List Byte) (poisoned : Bool) (n len : Nat), CanRun s r → n = r.toNat →
    len = (d.q2.extractLsb' 0 32).toNat → z = fetched s r → u = noteData n d data poisoned z →
    (descOp d = 4 → ∀ h pa region, h = menuHeader data → pa = descPa d →
      region = (if data.length < 64 then 4 else menuRegion h) →
      ((s.ring n).ty ≠ 0 ∨ descReserved s d = true → Ends (.menuLoad r d data poisoned) s r d 2 0 0 z) ∧
      ((s.ring n).ty = 0 → descReserved s d = false →
        (len = 0 → Ends (.menuLoad r d data poisoned) s r d 1 0 0 z) ∧
        (len ≠ 0 → 0x10000000 < len ∨ len % descUnit d ≠ 0 → Ends (.menuLoad r d data poisoned) s r d 3 0 0 z) ∧
        (len ≠ 0 → len ≤ 0x10000000 → len % descUnit d = 0 →
          (rangeOk s n 64 pa region = false → Ends (.menuLoad r d data poisoned) s r d 4 0 0 z) ∧
          (rangeOk s n 64 pa region = true →
            (menuBusy s pa region = true → Ends (.menuLoad r d data poisoned) s r d 5 0 0 z) ∧
            (menuBusy s pa region = false →
              (data.length < len → Ends (.menuLoad r d data poisoned) s r d 6 0 data.length u) ∧
              (len ≤ data.length →
                (∀ e, menuCheck s h (data.take len) = .inl e → Ends (.menuLoad r d data poisoned) s r d 8 e 0 u) ∧
                (∀ sects, menuCheck s h (data.take len) = .inr sects →
                  (menuBankOk s h = false → Ends (.menuLoad r d data poisoned) s r d 9 0 0 u) ∧
                  (menuBankOk s h = true → ∀ k bad v,
                    menuCopy (descHint d) pa data sects 0
                      (agentRun false (descHint d) pa [] (List.replicate (region / 4) MWord.unset) u) = ((k, bad), v) →
                    (bad = true → EndsWrites (.menuLoad r d data poisoned) s r d 7 (BitVec.ofNat 16 k) (8 * k) (region / 4) v) ∧
                    (bad = false → h.format = 3 →
                      EndsWrites (.menuLoad r d data poisoned) s r d 0 (BitVec.ofNat 16 h.version) len (region / 4) v) ∧
                    (bad = false → h.format = 2 → EndsWrites (.menuLoad r d data poisoned) s r d 0 (BitVec.ofNat 16 h.version) len
                      (region / 4) (runShim d h data sects v)))))))))) ∧
    (descOp d = 0x10 → ∀ w p, w = (d.q4.extractLsb' 0 3).toNat → p = (d.q4.extractLsb' 4 4).toNat →
      ((s.ring n).ty ≠ 1 ∨ descReserved s d = true ∨ 5 < w → Ends (.replay r d data poisoned) s r d 2 0 0 z) ∧
      ((s.ring n).ty = 1 → descReserved s d = false → w ≤ 5 →
        (len = 0 → Ends (.replay r d data poisoned) s r d 1 0 0 z) ∧
        (len ≠ 0 → 0x1000000 < len ∨ len % 8 ≠ 0 → Ends (.replay r d data poisoned) s r d 3 0 0 z) ∧
        (len ≠ 0 → len ≤ 0x1000000 → len % 8 = 0 →
          ((laneCfg s w p).src = false → Ends (.replay r d data poisoned) s r d 5 0 0 z) ∧
          ((laneCfg s w p).src = true → ∀ words, words = wideWords (len / 8) data →
            (len ≤ data.length → Ends (.replay r d data poisoned) s r d 0 0 len (replayImages w p words.length words u)) ∧
            (data.length < len →
              Ends (.replay r d data poisoned) s r d 6 0 data.length (replayImages w p words.length words u)))))) ∧
    (descOp d = 0x20 →
      ((s.ring n).ty ≠ 4 ∨ descReserved s d = true → Ends (.send r d data poisoned) s r d 2 0 0 z) ∧
      ((s.ring n).ty = 4 → descReserved s d = false →
        (len = 0 → Ends (.send r d data poisoned) s r d 1 0 0 z) ∧
        (len ≠ 0 → 512 < len ∨ d.q0.getLsbD 16 = false ∨ len % 8 ≠ 0 → Ends (.send r d data poisoned) s r d 3 0 0 z) ∧
        (len ≠ 0 → len ≤ 512 → d.q0.getLsbD 16 = true → len % 8 = 0 →
          (data.length < len → Ends (.send r d data poisoned) s r d 6 0 data.length u) ∧
          (len ≤ data.length →
            ((hostWord true data).ty ≠ Ty.hdr → Ends (.send r d data poisoned) s r d 7 0 0 u) ∧
            ((hostWord true data).ty = Ty.hdr →
              (len ≠ 8 * (hdrLen (hostWord true data).val + 1) → Ends (.send r d data poisoned) s r d 3 0 0 u) ∧
              (len = 8 * (hdrLen (hostWord true data).val + 1) → ∀ k, k < len / 8 →
                (∀ j, j < k → storable 1 true (hostWord true (data.drop (8 * j))).ty = true) →
                storable 1 true (hostWord true (data.drop (8 * k))).ty = false →
                Ends (.send r d data poisoned) s r d 7 (BitVec.ofNat 16 k) 0 u) ∧
              (len = 8 * (hdrLen (hostWord true data).val + 1) → ∀ ws : List MWord,
                ws = (List.range (len / 8)).map (fun k => hostWord true (data.drop (8 * k))) →
                (∀ w ∈ ws, storable 1 true w.ty = true) → ∀ m : SendMsg,
                m = ⟨d.q4.extractLsb' 16 16, d.q4.extractLsb' 0 10, none, Ty.vec, ws.map fun w => remoteForm w.t, none, 0⟩ →
                (8 ≤ s.hi.sendq.length → exec (.send r d data poisoned) s = .next u) ∧
                (s.hi.sendq.length < 8 → ∃ v, exec (.send r d data poisoned) s = .next v ∧
                  WithGoing { u with hi := { u.hi with sendq := s.hi.sendq ++ [(n, m)] } } v r
                    (some ⟨d.q0.getLsbD 8, 0, 0, len, [], true, []⟩))))))))

/-! ### The event recorder -/

namespace Sys2Proof.Machine

/-- The records of a buffer but for whether the ER vector has reported them. -/
def bare (buf : List ErRec) : List ErRec := buf.map fun e => { e with reported := false }

/-- a is replaced before b: of lower severity, or of the same and flushed while b is not (R536). -/
def Sooner (a b : ErRec) : Prop := a.r.sev.toNat < b.r.sev.toNat ∨ (a.r.sev = b.r.sev ∧ a.flushed = true ∧ b.flushed = false)

/-- The record that stays in the buffer when r merges into e (R534). -/
def merged (r : Rec) (e : ErRec) : ErRec :=
  { e with count := if e.count = 0xFFFF then e.count else e.count + 1, r := { e.r with a4 := r.a4 }, flushed := false }

/-- r can merge into e (R534). -/
def Alike (r : Rec) (e : ErRec) : Prop := e.opened = true ∧ e.r.src = r.src ∧ e.r.reason = r.reason ∧ e.r.a2 = r.a2

/-- The buffer after a flush starts, if one does: every record that was OPEN is closed, and changed (R534). -/
def shutIf (starts : Bool) (buf : List ErRec) : List ErRec :=
  buf.map fun e => if starts && e.opened then { e with opened := false, flushed := false } else e

/-- Whether a flush starts because of n unflushed records or for another cause (R538). -/
def Starts (s : State) (cause : Bool) (n : Nat) (starts : Bool) : Prop :=
  starts = (cause || (decide (6144 ≤ n) && !s.er.flushing))

/-- Unflushed records of a buffer. -/
def notFlushed (buf : List ErRec) : Nat := (buf.filter fun e => !e.flushed).length

/-- The words of a record (Table 18-1), the last its CRC. -/
def recordWordsOf (e : ErRec) : List Word :=
  let q : BitVec 48 := BitVec.ofNat 48 e.seq
  let lo (v : BitVec 64) : Word := v.extractLsb' 0 32
  let hi (v : BitVec 64) : Word := v.extractLsb' 32 32
  let body : List Word :=
    [q.setWidth 32, (1 : BitVec 4) ++ e.r.src ++ (0 : BitVec 1) ++ bit e.opened ++ e.r.sev ++ q.extractLsb' 32 16,
      lo e.r.time, hi e.r.time, e.count ++ e.r.reason, e.node.setWidth 32, lo e.r.a0, hi e.r.a0, lo e.r.a1, hi e.r.a1,
      lo e.r.a2, hi e.r.a2, lo e.r.a3, hi e.r.a3, e.r.a4]
  body ++ [crc32c (body.flatMap wordBytes)]

end Sys2Proof.Machine

/-- RECORD_HANDOVER and RECORD_CLOSE: of the records that wait the earliest is taken, and of those of one time the one of the
lowest SOURCE; it merges into a record that is OPEN with its SOURCE, REASON and ARG2 unless it is CRIT, and otherwise takes
the next SEQ and a place in the buffer, at the cost of another when the buffer is full; a CRIT record and 6,144 unflushed ones
start a flush, which closes every OPEN record; in standby a record is lost; the end of its millisecond closes a record, after
those that wait and merge into it, and that of an ERROR record starts a flush (R533, R534, R536, R538, R539, R543). That a
record which changes after it was flushed counts as unflushed again, and that an ERROR record's flush waits for its close, are
the model's inferences (log entry 51). That CRIT records are closed at once is log entry 63. -/
def Sys2Proof.Clause.RecordsTaken : Prop :=
  ∀ s : State,
    (s.recs = [] → exec .recordHandover s = .next s) ∧
    (∀ before r after, s.recs = before ++ r :: after → (∀ q ∈ before, q.time = r.time ∧ r.src.toNat < q.src.toNat) →
      (∀ q ∈ after, q.time = r.time → r.src.toNat ≤ q.src.toNat) →
      ∃ t, exec .recordHandover s = .next t ∧ t.recs.Perm (before ++ after) ∧
        (s.pw.stage = .standby ∨ s.pw.stage = .off → { t with recs := s.recs } = s) ∧
        (s.pw.stage ≠ .standby → s.pw.stage ≠ .off → ∀ new : ErRec,
          new = ⟨seqNext s, r, s.node, 1, decide (r.sev ≠ 3), false, false⟩ →
          (r.sev ≠ 3 → (∃ e ∈ s.er.buf, Alike r e) → ∀ buf : List ErRec, buf.length = s.er.buf.length →
            (∀ (k : Nat) (e : ErRec), s.er.buf[k]? = some e → (Alike r e → buf[k]? = some (merged r e)) ∧
              (¬ Alike r e → buf[k]? = some e)) →
            Counts s t Cnt.erCoalesce 1 ∧ ∀ starts, Starts s false (notFlushed buf) starts →
              bare t.er.buf = bare (shutIf starts buf) ∧ t.er.flushing = (s.er.flushing || starts) ∧
              (starts = false → { t with er := { t.er with buf := s.er.buf }, cnt := s.cnt, recs := s.recs } = s)) ∧
          (r.sev = 3 ∨ (∀ e ∈ s.er.buf, ¬ Alike r e) →
            t.er.next = some (seqNext s + 1) ∧
            (∀ h, s.er.next.isSome → s.er.mram.hdr = some h → seqNext s + 4096 ≤ h.mark →
              ∃ g, t.er.mram.hdr = some g ∧ seqNext s + 1 + 4096 ≤ g.mark) ∧
            (s.er.buf.length < 8192 → ∀ starts, Starts s (decide (r.sev = 3)) (notFlushed s.er.buf + 1) starts →
              bare t.er.buf = bare (shutIf starts (s.er.buf ++ [new])) ∧ t.er.flushing = (s.er.flushing || starts)) ∧
            (8192 ≤ s.er.buf.length →
              (∀ pre v post, s.er.buf = pre ++ v :: post → v.opened = false → v.r.sev.toNat ≤ r.sev.toNat →
                (∀ f ∈ pre, f.opened = false → Sooner v f) → (∀ f ∈ post, f.opened = false → ¬ Sooner f v) →
                ∀ buf starts, buf = s.er.buf.filter (fun f => f.seq ≠ v.seq) ++ [new] →
                Starts s (decide (r.sev = 3)) (notFlushed buf) starts →
                bare t.er.buf = bare (shutIf starts buf) ∧ t.er.flushing = (s.er.flushing || starts) ∧ Counts s t Cnt.erOverwrite 1) ∧
              ((∀ f ∈ s.er.buf, f.opened = true ∨ r.sev.toNat < f.r.sev.toNat) →
                ∀ starts, Starts s (decide (r.sev = 3)) (notFlushed s.er.buf) starts →
                bare t.er.buf = bare (shutIf starts s.er.buf) ∧ t.er.flushing = (s.er.flushing || starts) ∧
                Counts s t Cnt.erDrop 1))))) ∧
    (∀ seq : BitVec 48,
      ((∀ e ∈ s.er.buf, e.opened = true → e.seq ≠ seq.toNat) → exec (.recordClose seq) s = .next s) ∧
      (∀ e, (s.er.buf.find? fun e => decide (e.seq = seq.toNat) && e.opened) = some e → ∃ t, exec (.recordClose seq) s = .next t ∧
        (∀ x, x ∈ t.recs ↔ x ∈ s.recs ∧ (x.sev = 3 ∨ ¬ Alike x e)) ∧
        (e.r.sev = 2 → t.er.flushing = true) ∧
        ((∀ x ∈ s.recs, x.sev = 3 ∨ ¬ Alike x e) → ∀ buf starts,
          buf = s.er.buf.map (fun f => if f.seq = seq.toNat then { f with opened := false, flushed := false } else f) →
          Starts s (decide (e.r.sev = 2)) (notFlushed buf) starts →
          bare t.er.buf = bare (shutIf starts buf) ∧ t.er.flushing = (s.er.flushing || starts)) ∧
        (∀ x, s.recs = [x] → x.sev ≠ 3 → Alike x e → (∀ f ∈ s.er.buf, Alike x f → f = e) → s.er.flushing = true → e.r.sev ≠ 2 →
          bare t.er.buf = bare (s.er.buf.map fun f => if f.seq = seq.toNat then
            { (if f = e then merged x e else f) with opened := false, flushed := false } else f))))

/-- FLUSH_AGE_EXPIRY and RECORDER_FLUSH_DONE: a flush starts while a record is unflushed and closes every OPEN record; when it
ends every record that MRAM did not hold stands in its slot, and the flush is counted. After the power-fail warning PF_WARN is
taken and written last, the highest SEQ assigned goes into E with its valid bit, and the management processor enters standby
(R533, R534, R537–R539, log entries 33, 51, 91). -/
def Sys2Proof.Clause.Flushes : Prop :=
  ∀ s : State,
    ((∀ e ∈ s.er.buf, e.flushed = true) → exec .flushAgeExpiry s = .next s) ∧
    ((∃ e ∈ s.er.buf, e.flushed = false) → ∃ t, exec .flushAgeExpiry s = .next t ∧ t.er.flushing = true ∧
      bare t.er.buf = bare (shutIf true s.er.buf) ∧ t.er.mram = s.er.mram ∧
      ((∀ e ∈ s.er.buf, e.opened = false) → t = { s with er := { s.er with flushing := true } })) ∧
    (s.er.flushing = false → exec .recorderFlushDone s = .next s) ∧
    (s.er.flushing = true → s.pw.stage ≠ .shed → ∃ t, exec .recorderFlushDone s = .next t ∧
      t.er.flushing = false ∧ t.er.buf = s.er.buf.map (fun e => { e with flushed := true }) ∧ Counts s t Cnt.erFlush 1 ∧
      (∀ pre e post, s.er.buf = pre ++ e :: post → e.flushed = false →
        (∀ f ∈ post, f.flushed = true ∨ f.seq % 524287 ≠ e.seq % 524287) →
        Tab.get none t.er.mram.slots (e.seq % 524287) = some e ∧ e.seq ≤ t.er.written) ∧
      (∀ k, (∀ e ∈ s.er.buf, e.flushed = false → e.seq % 524287 ≠ k) →
        Tab.get none t.er.mram.slots k = Tab.get none s.er.mram.slots k) ∧
      t.er.mram.hdr = s.er.mram.hdr ∧
      { t with er := s.er, cnt := s.cnt } = s) ∧
    (s.er.flushing = true → s.pw.stage = .shed → ∃ t, exec .recorderFlushDone s = .next t ∧
      t.pw.stage = .standby ∧ t.er.flushing = false ∧ (∀ e ∈ t.er.buf, e.flushed = true) ∧
      (∀ h, t.er.mram.hdr = some h → h.valid = true ∧ t.er.next = some (h.last + 1) ∨ t.er.next = some 0) ∧
      (s.recs = [] → s.pw.warned = true → s.er.buf.length < 8192 → ∃ e,
        Tab.get none t.er.mram.slots (seqNext s % 524287) = some e ∧ e.seq = seqNext s ∧ e.count = 1 ∧
        t.er.next = some (seqNext s + 1) ∧
        e.r = ⟨3, 0x90, 4, s.time, BitVec.ofNat 64 s.pw.issued, s.hub.pfAccepts.setWidth 64, 0, 0, 0⟩))

/-- ER_FETCH and ER_WIDE_LOW_READ: the record of ER_RD_SEL is looked for in the buffer and then in its MRAM slot, and its
words stand in the window with status OK, or the status is FUTURE or GONE and the window reads as before; a read of a low half
answers it, 0 over BAR0 before READY and to a VF, which has no read port, and latches the high half for the reader (R540,
R541, R544, R469, R525). That the window keeps its words is the model's reading (log entry 52). -/
def Sys2Proof.Clause.RecordReads : Prop :=
  ∀ (s : State) (n : Nat), n = s.er.rdSel.toNat →
    (seqNext s ≤ n → exec .erFetch s = .next { s with er := { s.er with rdStat := 2 } }) ∧
    (n < seqNext s →
      (∀ pre e post, s.er.buf = pre ++ e :: post → e.seq = n → (∀ f ∈ pre, f.seq ≠ n) →
        exec .erFetch s = .next { s with er := { s.er with rdStat := 0, rdData := recordWordsOf e } }) ∧
      ((∀ f ∈ s.er.buf, f.seq ≠ n) →
        (∀ e, Tab.get none s.er.mram.slots (n % 524287) = some e → e.seq = n →
          exec .erFetch s = .next { s with er := { s.er with rdStat := 0, rdData := recordWordsOf e } }) ∧
        ((∀ e, Tab.get none s.er.mram.slots (n % 524287) = some e → e.seq ≠ n) →
          exec .erFetch s = .next { s with er := { s.er with rdStat := 1 } }))) ∧
    (∀ (which : BitVec 2) (reader : Reader) (v : BitVec 48), which ≠ 3 →
      v = (if which = 0 then BitVec.ofNat 48 (seqNext s) else if which = 1 then BitVec.ofNat 48 s.er.written else s.er.rdSel) →
      (∀ k : BitVec 5, reader = .fn k →
        (s.mg.ready = false ∨ k ≠ 0 → exec (.erWideLowRead which reader) s = .next (emit (.readValue 0) s)) ∧
        (s.mg.ready = true → k = 0 → exec (.erWideLowRead which reader) s = .next (emit (.readValue (v.setWidth 32))
          { s with er := { s.er with
            latch := Tab.set 0 s.er.latch (k.toNat * 4 + which.toNat) ((v >>> 32).setWidth 32) } }))) ∧
      (reader = .mgmt → exec (.erWideLowRead which reader) s = .next (emit (.readValue (v.setWidth 32))
          { s with er := { s.er with latch := Tab.set 0 s.er.latch (32 * 4 + which.toNat) ((v >>> 32).setWidth 32) } })) ∧
      (∀ c, reader = .core c → exec (.erWideLowRead which reader) s = .next (emit (.readValue (v.setWidth 32)) s)))

/-! ### The management plane -/

namespace Sys2Proof.Machine

/-- The mailbox holds a command that is ready to be performed. -/
def Waits (s : State) (code : BitVec 8) : Prop :=
  s.mg.go = true ∧ s.mg.cmd = code ∧ s.mg.ready = true ∧ s.mg.ucWait = false ∧ s.pw.stage = .run

/-- As Waits, in a life-cycle state that serves commands. -/
def Takes (s : State) (code : BitVec 8) : Prop := Waits s code ∧ s.mg.stored.lc ≠ .retired

/-- A row completes the mailbox command with a status and DETAIL over the state u that its effect leaves. -/
def Answers (i : Instr) (s : State) (status : BitVec 8) (detail : BitVec 16) (u : State) : Prop :=
  exec i s = .next (mbDone status detail u)

/-- u is s but for the cores. -/
def OnlyCores (s u : State) : Prop := { u with cores := s.cores } = s

/-- A number of 48 bytes twice, as device memory holds it, least significant byte first, in the order of its digits (R13). -/
def numbers (l : List Byte) : List Byte := (l.take 48).reverse ++ (l.drop 48).reverse

/-- u with the record of a refusal: LC_SET and its target, or a microcode command (R374, R521). -/
def lcNote (target : Word) (status : BitVec 8) (u : State) : State :=
  { u with recs := u.recs ++ [⟨2, 0x90, 6, u.time, target.setWidth 64, status.setWidth 64, 0, 0, 0⟩] }
def ucNote (status : BitVec 8) (detail : BitVec 64) (u : State) : State :=
  { u with recs := u.recs ++ [⟨2, 0x90, 7, u.time, u.mg.cmd.setWidth 64, status.setWidth 64, detail, 0, 0⟩] }

end Sys2Proof.Machine

/-- The mailbox: a command that is not the one that GO holds does nothing, RETIRED answers STATE (2), completion clears GO,
writes the status and raises the MBOX vector; MB_TELEM answers a reading with the time of its sample, MB_DEBUG_REQ sets DBG of
a context in SERVICE alone, LCEIL sets the ceilings of the lanterns in its mask, LC_NONCE answers a new nonce, and MB_RESET
resets the module on its magic word (R338, R514, R516, R519, R521, R526, Table 17-7). Where the arguments lie is the model's
choice (log entry 60), and the words of a nonce are free (log entry 1). -/
def Sys2Proof.Clause.MailboxCommands : Prop :=
  (∀ (s : State) (i : Instr) (code : BitVec 8),
    (i, code) ∈ [(.mbTelem, 0x01), (.mbReset, 0x08), (.lcNonce, 0x10), (.lcSet, 0x11), (.keyEnroll, 0x12),
      (.keyRevoke, 0x13), (.ucLoad, 0x20), (.ucCommit, 0x21), (.ucFloor, 0x22), (.fwStage, 0x30), (.fwActivate, 0x31),
      (.mbDebugReq, 0x40), (Instr.lceil, (0x41 : BitVec 8))] →
    (¬ Waits s code → exec i s = .next s) ∧
    (Waits s code → s.mg.stored.lc = .retired → ∃ t, exec i s = .next t ∧ t.mg.go = false ∧ t.mg.status = 2 ∧
      t.mg.stored = s.mg.stored ∧ t.cores = s.cores)) ∧
  (∀ (status : BitVec 8) (detail : BitVec 16) (u t : State), t = mbDone status detail u →
    t.mg = { u.mg with go := false, ucWait := false, status := status, detail := detail } ∧
    { t with mg := u.mg, hi := u.hi, cnt := u.cnt, out := u.out } = u ∧
    (u.hi.svecEn.getLsbD 3 = false → t.out = u.out ∧ t.hi = u.hi) ∧
    (u.hi.svecEn.getLsbD 3 = true →
      ((Tab.get msixReset u.hi.msix (u.hi.svec.extractLsb' 24 8).toNat).getLsbD 96 = false →
        t.out = .msix 0 (u.hi.svec.extractLsb' 24 8) :: u.out ∧ t.hi = u.hi) ∧
      ((Tab.get msixReset u.hi.msix (u.hi.svec.extractLsb' 24 8).toNat).getLsbD 96 = true →
        t.out = u.out ∧ (u.hi.svec.extractLsb' 24 8).toNat ∈ t.hi.pba))) ∧
  (∀ (s z : State) (arg : Nat → Word), arg = Tab.get 0 s.mg.args → z = { s with miss := none } →
    (Takes s 0x01 →
      (50 ≤ (arg 0).toNat → Answers .mbTelem s 12 0 z) ∧
      ((arg 0).toNat < 50 → ∃ u, Answers .mbTelem s 0 0 u ∧ { u with mg := { u.mg with res := s.mg.res } } = z ∧
        Tab.get 0 u.mg.res 0 = (Tab.get 0 s.mg.sensors (arg 0).toNat).setWidth 32 ∧
        Tab.get 0 u.mg.res 1 = s.mg.sampled.extractLsb' 0 32 ∧ Tab.get 0 u.mg.res 2 = s.mg.sampled.extractLsb' 32 32)) ∧
    (Takes s 0x40 →
      (s.mg.stored.lc ≠ .service → Answers .mbDebugReq s 2 0 z) ∧
      (s.mg.stored.lc = .service → 0x400 ≤ (arg 0).toNat → Answers .mbDebugReq s 12 0 z) ∧
      (s.mg.stored.lc = .service → (arg 0).toNat < 0x400 →
        Answers .mbDebugReq s 0 0 (z.modCtx ((arg 0).setWidth 10) fun x => { x with dbg := true }))) ∧
    (Takes s 0x41 →
      ((arg 1).toNat < 8 ∨ 16 < (arg 1).toNat → Answers .lceil s 12 0 z) ∧
      (8 ≤ (arg 1).toNat → (arg 1).toNat ≤ 16 → ∃ u, Answers .lceil s 0 0 u ∧
        { u with mg := { u.mg with ceil := s.mg.ceil } } = z ∧
        ∀ l, l < 32 → Tab.get 16 u.mg.ceil l = if (arg 0).getLsbD l then (arg 1).setWidth 5 else Tab.get 16 s.mg.ceil l)) ∧
    (Takes s 0x10 → ∃ u, Answers .lcNonce s 0 0 u ∧ u.mg.nonce = s.freeCtr ∧ u.mg.nonceTold = true ∧ u.freeCtr = s.freeCtr + 8 ∧
      (∀ k, k < 8 → Tab.get 0 u.mg.res k = (nonceWords u.mg.nonce).getD k 0) ∧
      { u with mg := { u.mg with nonce := s.mg.nonce, nonceTold := s.mg.nonceTold, res := s.mg.res }, freeCtr := s.freeCtr } = z) ∧
    (Takes s 0x08 →
      (arg 0 = 0x52545354 → exec .mbReset s = .next (moduleReset s.mg.stored.lc true z)) ∧
      (arg 0 ≠ 0x52545354 → Answers .mbReset s 12 0 z)))

/-- LC_SET, KEY_ENROLL and KEY_REVOKE: a target that the state does not reach answers STATE (2), and one whose signature over
the target, the serial number and the nonce verifies with no unrevoked key BAD_SIG (7), each with a record and the nonce used
up; else the module resets into the target. Keys are enrolled in BLANK and PROVISIONED, the first of them resets BLANK into
PROVISIONED, and revoked in PROVISIONED while another is left (R518, R520, R521, Table 17-4); the numbers of a key and a
signature lie in memory least significant byte first (R13). Where the arguments lie is the model's choice (log entries 60,
84). -/
def Sys2Proof.Clause.LifeCycle : Prop :=
  ∀ (s z : State) (arg : Nat → Word) (key : List Byte) (v : State) (keys : List KeySlot), arg = Tab.get 0 s.mg.args →
    z = { s with miss := none } → keys = s.mg.stored.keys →
    physBytes ((arg 2 ++ arg 1).setWidth 53) 96 z = (key, v) →
    (Takes s 0x11 → ∀ (u : State) (signed : List Byte → List Byte), u = { z with mg := { z.mg with nonceTold := false } } →
      signed = (fun target => target ++ List.replicate 15 0 ++ Config.serial ++ (nonceWords s.mg.nonce).flatMap wordBytes) →
      (lcOf (arg 0) = none ∨ (∃ lc, lcOf (arg 0) = some lc ∧ lcStep s.mg.stored.lc lc = false) →
        Answers .lcSet s 2 0 (lcNote (arg 0) 2 u)) ∧
      (∀ lc sig w, lcOf (arg 0) = some lc → lcStep s.mg.stored.lc lc = true →
        physBytes ((arg 2 ++ arg 1).setWidth 53) 96 u = (sig, w) → w.miss = none →
        (s.mg.nonceTold = true → (∃ k ∈ w.mg.stored.keys, k.revoked = false ∧
            Sys2Proof.Machine.ecdsaVerify k.key (signed [(arg 0).setWidth 8]) (numbers sig) = true) →
          exec .lcSet s = .next (moduleReset lc true w)) ∧
        (s.mg.nonceTold = false ∨ (∀ k ∈ w.mg.stored.keys, k.revoked = false →
            Sys2Proof.Machine.ecdsaVerify k.key (signed [(arg 0).setWidth 8]) (numbers sig) = false) →
          Answers .lcSet s 7 0 (lcNote (arg 0) 7 w)))) ∧
    (Takes s 0x12 →
      (s.mg.stored.lc ≠ .blank → s.mg.stored.lc ≠ .provisioned → Answers .keyEnroll s 2 0 z) ∧
      (s.mg.stored.lc = .blank ∨ s.mg.stored.lc = .provisioned →
        (arg 0 = 0 ∨ 0x7FFF < (arg 0).toNat ∨ (∃ k ∈ keys, k.id.toNat = (arg 0).toNat) → Answers .keyEnroll s 12 0 z) ∧
        (arg 0 ≠ 0 → (arg 0).toNat ≤ 0x7FFF → (∀ k ∈ keys, k.id.toNat ≠ (arg 0).toNat) →
          (8 ≤ keys.length → Answers .keyEnroll s 13 0 z) ∧
          (keys.length < 8 → v.miss = none → ∀ w, w = setRes 0 (BitVec.ofNat 32 keys.length) { v with mg := { v.mg with
              stored := { v.mg.stored with keys := v.mg.stored.keys ++ [⟨(arg 0).setWidth 16, numbers key, false⟩] } } } →
            (s.mg.stored.lc = .provisioned → Answers .keyEnroll s 0 0 w) ∧
            (s.mg.stored.lc = .blank → exec .keyEnroll s = .next (moduleReset .provisioned true w)))))) ∧
    (Takes s 0x13 →
      (s.mg.stored.lc ≠ .provisioned → Answers .keyRevoke s 2 0 z) ∧
      (s.mg.stored.lc = .provisioned →
        ((∀ k ∈ keys, k.id.toNat = (arg 0).toNat → k.revoked = true) → Answers .keyRevoke s 12 0 z) ∧
        ((∃ k ∈ keys, k.id.toNat = (arg 0).toNat ∧ k.revoked = false) →
          (∀ k ∈ keys, k.revoked = false → k.id.toNat = (arg 0).toNat) → Answers .keyRevoke s 2 0 z) ∧
        ((∃ k ∈ keys, k.id.toNat = (arg 0).toNat ∧ k.revoked = false) →
          (∃ k ∈ keys, k.revoked = false ∧ k.id.toNat ≠ (arg 0).toNat) →
          ∃ w, Answers .keyRevoke s 0 0 w ∧
            w.mg.stored.keys = keys.map (fun k => if k.id.toNat = (arg 0).toNat then { k with revoked := true } else k) ∧
            { w with mg := { w.mg with res := s.mg.res, stored := { w.mg.stored with keys := keys } } } = z)))

/-- UC_LOAD, UC_COMMIT, UC_FLOOR and UC_CORE_COMMIT: an image that the life-cycle state does not accept answers STATE (2) and
one that fails a check that check's status, a floor of a key ID that no key carries NO_KEY (6), each with a record; a patch
goes to the patch RAM of every core, a bank to the shadow bank of every core, and with LIVE to the live bank as each core
commits between instructions; a floor rises to the version asked for and never falls (R364, R374–R376). Where the arguments
lie is the model's choice (log entry 60). Checks of images that Table 11-14 leaves open are log entry 64. -/
def Obligations.MicrocodeCommands : Prop :=
  (∀ (s z : State) (arg : Nat → Word), arg = Tab.get 0 s.mg.args → z = { s with miss := none } →
    (Takes s 0x20 → ∀ l u, physBytes ((arg 1 ++ arg 0).setWidth 53) (min (arg 2).toNat imgMax) z = (l, u) → u.miss = none →
      (ucAccepted u (imgKind l) = false → Answers .ucLoad s 2 0 (ucNote 2 0 u)) ∧
      (ucAccepted u (imgKind l) = true →
        (∀ st n, imgCheck u l (arg 2).toNat = some (st, n) →
          Answers .ucLoad s st (BitVec.ofNat 16 n) (ucNote st (BitVec.ofNat 64 n) u)) ∧
        (imgCheck u l (arg 2).toNat = none →
          (imgKind l = 1 → ∃ t, Answers .ucLoad s 0 0 t ∧ OnlyCores u t ∧
            ∀ k, (t.core k).uc = loadPatch l (u.core k).uc) ∧
          (imgKind l ≠ 1 → (arg 3).getLsbD 0 = false → ∃ t, Answers .ucLoad s 0 0 t ∧ OnlyCores u t ∧
            ∀ k, (t.core k).uc = loadBank l (u.core k).uc) ∧
          (imgKind l ≠ 1 → (arg 3).getLsbD 0 = true → ∃ t, exec .ucLoad s = .next t ∧ t.mg = { u.mg with ucWait := true } ∧
            ∀ k, (t.core k).uc = { loadBank l (u.core k).uc with commit := true, shadowLoaded := false })))) ∧
    (Takes s 0x21 →
      (s.mg.stored.lc ≠ .operational → s.mg.stored.lc ≠ .service → Answers .ucCommit s 2 0 (ucNote 2 0 z)) ∧
      (s.mg.stored.lc = .operational ∨ s.mg.stored.lc = .service →
        ((s.core 0).uc.shadowLoaded = false → Answers .ucCommit s 10 0 (ucNote 10 0 z)) ∧
        ((s.core 0).uc.shadowLoaded = true → ∃ t, exec .ucCommit s = .next t ∧ t.mg = { s.mg with ucWait := true } ∧
          ∀ k, (t.core k).uc = { (s.core k).uc with commit := true, shadowLoaded := false }))) ∧
    (Takes s 0x22 → ∀ kind key v old, kind = (arg 0).toNat → key = (arg 1).setWidth 16 → v = (arg 2).setWidth 16 →
      old = Tab.get 0 s.mg.stored.floors (kind * 65536 + key.toNat) →
      (ucAccepted s kind = false → Answers .ucFloor s 2 0 (ucNote 2 0 z)) ∧
      (ucAccepted s kind = true →
        (kind = 0 ∨ 3 < kind → Answers .ucFloor s 12 0 (ucNote 12 0 z)) ∧
        ((kind = 2 ∧ (∀ k ∈ s.mg.stored.keys, k.id = key → k.revoked = true)) ∨ ((kind = 1 ∨ kind = 3) ∧ key ≠ 0) →
          Answers .ucFloor s 6 0 (ucNote 6 0 z)) ∧
        ((kind = 2 ∧ (∃ k ∈ s.mg.stored.keys, k.id = key ∧ k.revoked = false)) ∨ ((kind = 1 ∨ kind = 3) ∧ key = 0) →
          (liveVersion s kind key < v → Answers .ucFloor s 8 0 (ucNote 8 0 z)) ∧
          (¬ liveVersion s kind key < v → ∃ u, Answers .ucFloor s 0 0 u ∧
            { u with mg := { u.mg with stored := { u.mg.stored with floors := s.mg.stored.floors } } } = z ∧
            ∀ j, Tab.get 0 u.mg.stored.floors j =
              if j = kind * 65536 + key.toNat then (if old < v then v else old) else Tab.get 0 s.mg.stored.floors j))))) ∧
  (∀ (s : State) (k : CoreId),
    ((s.core k).uc.commit = false ∨ s.pf = true ∨ (∃ n : BitVec 2, (s.ctx (ctxOf k n)).micro.at_ ≠ none) →
      exec (.ucCoreCommit k) s = .next s) ∧
    ((s.core k).uc.commit = true → s.pf = false → (∀ n : BitVec 2, (s.ctx (ctxOf k n)).micro.at_ = none) →
      ∀ u : State, u = s.modCore k (fun x => { x with uc := { x.uc with
          live := x.uc.shadow, shadow := x.uc.live, commit := false } }) →
      (s.mg.ucWait = false ∨ (∃ j, j ≠ k ∧ (s.core j).uc.commit = true) → exec (.ucCoreCommit k) s = .next u) ∧
      (s.mg.ucWait = true → (∀ e ∈ s.cores, e.1 ≠ k.toNat → e.2.uc.commit = false) →
        exec (.ucCoreCommit k) s = .next (mbDone 0 0 u))))

/-- FW_STAGE, FW_ACTIVATE and MG_MS_TICK: an image goes into the inactive slot and is verified as it is read back, the staged
slot becomes active with its attempt flag from the next reset, or EMPTY (10); each millisecond takes the readings, steps every
lantern's clock by the live TARGET and its ceiling, adds what the block counters have counted to the error sums, before a
CNTCLR cleared them too, and a lantern or the HUB at 105 °C in two samples or a stack at 100 °C trips the module (R513–R515,
R524, R531, log entries 60, 65, 66). -/
def Obligations.FirmwareAndMillisecond : Prop :=
  (∀ (s z : State) (arg : Nat → Word), arg = Tab.get 0 s.mg.args → z = { s with miss := none } →
    (Takes s 0x30 →
      (0x1000000 < (arg 2).toNat → Answers .fwStage s 3 0 z) ∧
      ((arg 2).toNat ≤ 0x1000000 → ∀ l v slot, physBytes ((arg 1 ++ arg 0).setWidth 53) (arg 2).toNat z = (l, v) →
        v.miss = none →
        slot = (if activeSlot v then 0 else 1) →
        ∃ u, Answers .fwStage s ((fwCheck v l (arg 2).toNat).getD 0) 0 u ∧ Tab.get none u.mg.stored.images slot = some l ∧
          (u.mg.staged = true ↔ fwCheck v l (arg 2).toNat = none) ∧ Tab.get 0 u.mg.res 0 = BitVec.ofNat 32 slot ∧
          ∀ st, st = { u.mg.stored with images := v.mg.stored.images } →
            { u with mg := { u.mg with res := v.mg.res, staged := v.mg.staged, stored := st } } = v)) ∧
    (Takes s 0x31 →
      (s.mg.staged = false → Answers .fwActivate s 10 0 z) ∧
      (s.mg.staged = true → ∃ u, Answers .fwActivate s 0 0 u ∧ u.mg.staged = false ∧
        u.mg.stored.slotB = !activeSlot s ∧ (if activeSlot s then u.mg.stored.attemptA else u.mg.stored.attemptB) = true ∧
        u.mg.stored.fresh = some (!activeSlot s) ∧ u.mg.bootB = s.mg.bootB ∧ Tab.get 0 u.mg.res 0 = if activeSlot s then 0 else 1))) ∧
  (∀ (s : State) (lo hi off : Nat), (s.cnt.map Prod.fst).Nodup →
    countedSince (clearCounters lo hi s) off = countedSince s off) ∧
  (∀ (s : State) (readings : List (BitVec 16)), s.pw.stage = .run →
    (∃ t, exec (.mgMsTick readings true) s = .next t ∧ t.mg.sensors = s.mg.sensors ∧ t.mg.freq = s.mg.freq ∧
      Counts s t Cnt.mgLate 1) ∧
    (s.pw.trip = false →
      (∀ n, n < 32 ∨ n = 36 → n ∈ s.mg.hot → (readings.getD n 0).toInt < 840) →
      (∀ n, 32 ≤ n → n < 36 → (readings.getD n 0).toInt < 800) →
      ∃ t, exec (.mgMsTick readings false) s = .next t ∧ t.pw = s.pw ∧ t.mg.sampled = s.time ∧
        (∀ n, n < 50 → Tab.get 0 t.mg.sensors n = readings.getD n 0) ∧
        (∀ e ∈ sumOf, e.1 ≠ Cnt.mgSumMemcorr → Counts s t e.1 (e.2.map (countedSince s)).sum) ∧
        (∀ l, l < 32 → ∀ target now ceil temp new, target = (if s.mg.therm.pend then s.mg.therm.sh else s.mg.therm.lv) →
          now = (Tab.get 16 s.mg.freq l).toNat → ceil = (Tab.get 16 s.mg.ceil l).toNat → temp = (readings.getD l 0).toInt →
          new = (Tab.get 16 t.mg.freq l).toNat → 8 ≤ now → now ≤ ceil → ceil ≤ 16 →
          (8 * (target.toNat : Int) < temp → new = max 8 (now - 1)) ∧
          (temp ≤ 8 * ((target.toNat : Int) - 3) → new = min ceil (now + 1)) ∧
          (8 * ((target.toNat : Int) - 3) < temp → temp ≤ 8 * target.toNat → new = now))) ∧
    (∀ n, s.pw.trip = false →
      ((n < 32 ∨ n = 36) ∧ n ∈ s.mg.hot ∧ 840 ≤ (readings.getD n 0).toInt) ∨
        (32 ≤ n ∧ n < 36 ∧ 800 ≤ (readings.getD n 0).toInt) →
      ∃ t, exec (.mgMsTick readings false) s = .next t ∧ t.pw.trip = true ∧ t.pw.stage = .shed ∧ t.pf = true ∧
        Counts s t Cnt.mgTrip 1 ∧ ∃ r ∈ t.recs, r.reason = 5 ∧ r.sev = 3 ∧ r.src = 0x90))

/-! ### The tag sequencer -/

namespace Sys2Proof.Machine

/-- The state in which the control store of core k is u. -/
def withUc (s : State) (k : CoreId) (u : Uc) : State := s.modCore k fun x => { x with uc := u }

end Sys2Proof.Machine

/-- Table mode and repair: UC_ROM_CHECK, UC_RAM_TEST, UC_WORD_WRITE, UC_WORD_READ and UC_BANK_SWAP act on a core in table mode
alone; a test that fails leaves the core FAILED with a record, the RAM test wipes everything that is loaded, ROM and
unassigned microaddresses take no write, a word is read back without the hooks; CSTORE_REWRITE puts a core whose word has been
rewritten back into service; after a power-fail warning table mode does nothing more (R351–R353, R363, R364, R556, Table
11-7). -/
def Sys2Proof.Clause.TableMode : Prop :=
  ∀ (s : State) (k : CoreId) (u : Uc), u = (s.core k).uc →
    (u.mode ≠ .table → exec (.cstoreRewrite k) s = .next s) ∧
    (u.mode ≠ .table ∨ s.pw.stage ≠ .run →
      (∀ ok, exec (.ucRomCheck k ok) s = .next s ∧ exec (.ucRamTest k ok) s = .next s) ∧
      (∀ w, exec (.ucWordWrite k w) s = .next s) ∧ (∀ a, exec (.ucWordRead k a) s = .next s) ∧
      exec (.ucBankSwap k) s = .next s) ∧
    (u.mode = .table →
      (u.rewrite = none → exec (.cstoreRewrite k) s = .next s) ∧
      (u.rewrite ≠ none →
        exec (.cstoreRewrite k) s = .next (resched k (withUc s k { u with rewrite := none, mode := .service })))) ∧
    (u.mode = .table → s.pw.stage = .run → ∀ fail : BitVec 64 → Uc → State, (fail = fun op v =>
        let t := withUc s k { v with mode := .failed }
        { t with recs := t.recs ++ [⟨3, 0xC0 + (lanOfCore k).setWidth 8, 0x22, s.time, k.setWidth 64, op, 0, 0, 0⟩] }) →
      exec (.ucRomCheck k true) s = .next s ∧
      exec (.ucRomCheck k false) s = .next (fail 1 u) ∧
      (∀ v, v = { u with patch := [], hooks := [], patchVersion := 0, patchValid := false, live := UcBank.empty,
                         shadow := UcBank.empty, shadowLoaded := false, commit := false, rewrite := none } →
        exec (.ucRamTest k true) s = .next (withUc s k v) ∧ exec (.ucRamTest k false) s = .next (fail 2 v)) ∧
      (∀ (a : BitVec 13) (w : BitVec 144),
        (a.toNat < 0x1000 ∨ 0x1C00 ≤ a.toNat → exec (.ucWordWrite k (.word a w)) s = .next s) ∧
        (0x1000 ≤ a.toNat → a.toNat < 0x1800 → exec (.ucWordWrite k (.word a w)) s =
          .next (withUc s k { u with patch := Tab.set none u.patch (a.toNat - 0x1000) (some w) })) ∧
        (0x1800 ≤ a.toNat → a.toNat < 0x1C00 → exec (.ucWordWrite k (.word a w)) s =
          .next (withUc s k { u with live := { u.live with words := Tab.set none u.live.words (a.toNat - 0x1800) (some w) } }))) ∧
      (∀ (i : BitVec 6) (e : Word), exec (.ucWordWrite k (.hook i e)) s =
        .next (withUc s k { u with hooks := Tab.set none u.hooks i.toNat (some e) })) ∧
      (∀ a : BitVec 13,
        (a.toNat < 0x1000 → exec (.ucWordRead k a) s = .next (emit (.ucWord k a (some (Config.romWord a.toNat))) s)) ∧
        (0x1000 ≤ a.toNat → a.toNat < 0x1800 → exec (.ucWordRead k a) s =
          .next (emit (.ucWord k a (Tab.get none u.patch (a.toNat - 0x1000))) s)) ∧
        (0x1800 ≤ a.toNat → a.toNat < 0x1C00 → exec (.ucWordRead k a) s =
          .next (emit (.ucWord k a (Tab.get none u.live.words (a.toNat - 0x1800))) s)) ∧
        (0x1C00 ≤ a.toNat → exec (.ucWordRead k a) s = .next (emit (.ucWord k a none) s))) ∧
      exec (.ucBankSwap k) s = .next (withUc s k { u with live := u.shadow, shadow := u.live }))

/-- CUSTOMER_INSTRUCTION: with a valid entry whose first microword ends the instruction after one ALU operation on the source
registers into rd, rd holds the result with the TYPE of rs, or a BOOL of a comparison; an entry that is not valid raises
CUST_UNDEF, and one for higher levels raises PRIV_OP at USER (R294, R295, R356, R361, R366). The order of the parts of a
microword is log entry 46. -/
def Sys2Proof.Clause.CustomerInstructions : Prop :=
  ∀ (s : State) (iss : Iss) (op : BitVec 3) (cidx rd rs rt : R5) (len : Nat) (k : CoreId) (e : BitVec 16),
    issues s iss .nativeOnly [rd, rs, rt] len = true → k = coreOf iss.ctx → (s.core k).uc.mode = .service →
    (s.ctx iss.ctx).micro.at_ = none →
    e = (Tab.get none (s.core k).uc.live.disp (32 * op.toNat + cidx.toNat)).getD 0 →
    (e.getLsbD 10 = false → exec (.customerInstruction iss op cidx rd rs rt none none) s =
      .next (raises s iss len s (mkTrap Cause.custUndef 0 TWord.unset) (withGuard (encR (0x38 + op.setWidth 6) rd rs rt cidx) iss.gp iss.gi))) ∧
    (e.getLsbD 10 = true → e.getLsbD 11 = true → (context s iss).cstat.priv = 0 →
      exec (.customerInstruction iss op cidx rd rs rt none none) s = .next (raises s iss len (found s iss)
        (mkTrap Cause.privOp 0 TWord.unset) (withGuard (encR (0x38 + op.setWidth 6) rd rs rt cidx) iss.gp iss.gi))) ∧
    (e.getLsbD 10 = true → (e.getLsbD 11 = false ∨ (context s iss).cstat.priv ≠ 0) → ∀ (w : Mword) (value : Word),
      Tab.get none (s.core k).uc.live.words (e.extractLsb' 0 10).toNat = some w →
      w.seq = 3 → w.brsel = 0 → w.mem = 0 → w.top = 0 → w.tlw = false → w.flw = false → w.mul = 0 → w.cnt = 0 →
      w.adst = 0x10 → w.asrc = 0x10 → w.bsrc = 0x11 → w.tsrc = 0 → w.aop ≠ 0x0C → w.aop ≠ 0x0D →
      microAlu w.aop (operand s iss rs).val (operand s iss rt).val = some value →
      (w.aop ≠ 0 → usable (operand s iss rs) = true) →
      (readsB w.aop = true → usable (operand s iss rt) = true) →
      ∃ m, exec (.customerInstruction iss op cidx rd rs rt none none) s = .next (goesOn s iss len fun c =>
        { c.setReg rd ⟨if w.aop = 0x11 ∨ w.aop = 0x12 then Ty.bool else (operand s iss rs).ty, value⟩ with micro := m }))

/-! ### The board: I2C, TAP, resets and power -/

namespace Sys2Proof.Machine

/-- The I2C target answers with some bytes, their number first (R527). -/
def i2cAnswer (bytes : List Byte) (s : State) : State := emit (.i2c (BitVec.ofNat 8 bytes.length :: bytes)) s

/-- The module runs and serves every I2C command. -/
def Open2c (s : State) : Prop := s.pw.stage = .run ∧ s.mg.romOnly = false ∧ s.mg.stored.lc ≠ .retired

/-- The input is good enough to answer I2C, and the module sheds or stands by in a state that serves RECORD (R519, R555). -/
def Sheds2c (s : State) : Prop := (s.pw.stage = .shed ∨ s.pw.stage = .standby) ∧ s.mg.stored.lc ≠ .retired

/-- t is the module after a reset of s into a life-cycle state, but for what MRAM holds: every block in its state after reset,
with a nonce of values not drawn before; fuses, floors, NOR, straps and the TAP as they were; its own reset held while RESET# is
low (R516–R518, R521, R551). -/
def ResetInto (s t : State) (lc : LcState) : Prop :=
  t = { State.boot s.build { s.mg.stored with lc := lc } t.er.mram
      { PwSt.reset with straps := s.pw.straps, pin := s.pw.pin, stage := if s.pw.pin = true then .run else .held } s.freeCtr with
    pending := s.pending, out := t.out, tap := s.tap }

end Sys2Proof.Machine

/-- I2C_STATUS, I2C_TELEM, I2C_ERRSUM, I2C_RECORD and I2C_SLOT: the target answers at 0x58 + ADDR1 × 2 + ADDR0 alone, and not
while the module has no power or is held in reset; what each answers while every command is served, and that RETIRED serves STATUS
and TELEM, the boot ROM STATUS and SLOT, standby all but SLOT and, without a thermal trip, RESET; what is not served, an unknown
command byte and a read with no RECORD written answer length 0 (R519, R523, R527, R541, R543, R555, R561, R562, Table 17-8). The
order of the bytes of a result is the model's choice (log entry 61), as is what is served while the module sheds (log entry 97).
-/
def Sys2Proof.Clause.BoardCommands : Prop :=
  ∀ (s : State) (addr : BitVec 7) (byte n a b : Byte) (seq : BitVec 48) (pos : BitVec 4),
    (s.pw.i2cAddress.toNat = 0x58 + (s.pw.straps.extractLsb' 0 2).toNat) ∧
    ((s.pw.straps.getLsbD 2 = true → s.pw.laneOf pos = pos) ∧
      (s.pw.straps.getLsbD 2 = false → (s.pw.laneOf pos).toNat = 15 - pos.toNat)) ∧
    (s.pw.stage = .off ∨ s.pw.stage = .held ∨ addr ≠ s.pw.i2cAddress →
      ∀ i ∈ [Instr.i2cStatus addr byte, .i2cTelem addr n, .i2cErrsum addr, .i2cRecord addr (some seq), .i2cRecord addr none,
        .i2cReset addr a b, .i2cSlot addr a], exec i s = .next s) ∧
    (s.pw.stage ≠ .off → s.pw.stage ≠ .held → addr = s.pw.i2cAddress →
      (byte ≠ 1 → exec (.i2cStatus addr byte) s = .next (i2cAnswer [] s)) ∧
      exec (.i2cRecord addr (some seq)) s = .next { s with mg := { s.mg with i2cSeq := some seq } } ∧
      (s.mg.i2cSeq = none → exec (.i2cRecord addr none) s = .next (i2cAnswer [] s)) ∧
      (s.mg.stored.lc = .retired → s.mg.romOnly = false →
        ∀ i ∈ [Instr.i2cErrsum addr, .i2cRecord addr none, .i2cReset addr a b, .i2cSlot addr a],
          exec i s = .next (i2cAnswer [] s)) ∧
      (s.pw.stage = .run → s.mg.romOnly = true →
        ∀ i ∈ [Instr.i2cTelem addr n, .i2cErrsum addr, .i2cRecord addr none, .i2cReset addr a b],
          exec i s = .next (i2cAnswer [] s)) ∧
      (s.pw.stage = .shed ∨ s.pw.stage = .standby → exec (.i2cSlot addr a) s = .next (i2cAnswer [] s) ∧
        (s.pw.trip = false → exec (.i2cReset addr a b) s = .next (i2cAnswer [] s))) ∧
      (Open2c s ∨ Sheds2c s →
        (∃ temp, exec (.i2cStatus addr 1) s = .next (i2cAnswer (wordBytes (mgStatus s) ++ [s.mg.stored.lc.code.setWidth 8] ++
            halfBytes temp ++ halfBytes (Tab.get 0 s.mg.sensors 49)) s) ∧
          (∀ k, k < 41 → (Tab.get 0 s.mg.sensors k).toInt ≤ temp.toInt) ∧ ∃ k, k < 41 ∧ temp = Tab.get 0 s.mg.sensors k) ∧
        (n.toNat < 50 → exec (.i2cTelem addr n) s = .next (i2cAnswer (halfBytes (Tab.get 0 s.mg.sensors n.toNat)) s)) ∧
        (50 ≤ n.toNat → exec (.i2cTelem addr n) s = .next (i2cAnswer [] s)) ∧
        exec (.i2cErrsum addr) s = .next (i2cAnswer ([Cnt.mgSumMemcorr, Cnt.mgSumMemunc, Cnt.mgSumLane, Cnt.mgSumFabric,
          Cnt.mgSumFallback, Cnt.mgLate, Cnt.mgTrip].flatMap fun c => wordBytes (s.counter c)) s) ∧
        (∀ u, s.mg.i2cSeq = some seq → u = { s with mg := { s.mg with i2cSeq := none } } →
          (seqNext s ≤ seq.toNat → exec (.i2cRecord addr none) s = .next (i2cAnswer [2] u)) ∧
          (seq.toNat < seqNext s → ∀ pre e post, s.er.buf = pre ++ e :: post → e.seq = seq.toNat →
            (∀ f ∈ pre, f.seq ≠ seq.toNat) → exec (.i2cRecord addr none) s = .next (i2cAnswer e.image u)))) ∧
      (Open2c s ∨ (s.pw.stage = .run ∧ s.mg.romOnly = true) → ∀ v, (a = 0 ∧ v = false) ∨ (a = 1 ∧ v = true) →
        ∃ t, exec (.i2cSlot addr a) s = .next t ∧ t.mg.stored.slotB = v ∧ t.out = .i2c [0] :: s.out ∧ t.mg.bootB = s.mg.bootB))

/-- The TAP: BYPASS, IDCODE, SAMPLE_PRELOAD, EXTEST, CLAMP and HIGHZ stand in the instruction register, shift out their
register, the first bit first, and set what drives the pins, and JTAG_PRIVATE acts as BYPASS outside SERVICE, with its own
code in the instruction register; in SERVICE the spec gives it no effect and the model refuses it (R528). What each public
instruction does beyond R528's words is as IEEE 1149.1 has it (log entries 62 and 97). That JTAG_PRIVATE alone is refused is
log entry 75. -/
def Sys2Proof.Clause.TestAccessPort : Prop :=
  ∀ (s : State) (tdi pins preload : List Bool) (code : BitVec 4) (drives : TapIr → JtagPins → State),
    (∀ i p, drives i p = { s with tap := { s.tap with ir := i, pins := p } }) →
    exec (.bypass tdi) s = .next (emit (.tdo ((false :: tdi).take tdi.length)) (drives .bypass .functional)) ∧
    exec (.clamp tdi) s = .next (emit (.tdo ((false :: tdi).take tdi.length)) (drives .clamp .boundary)) ∧
    exec (.highz tdi) s = .next (emit (.tdo ((false :: tdi).take tdi.length)) (drives .highz .highz)) ∧
    (tdi.length = 32 → exec (.idcode tdi) s = .next (emit (.tdo ((List.range 32).map fun i =>
      (0x102569A7 : Word).getLsbD i)) (drives .idcode .functional))) ∧
    exec (.samplePreload pins preload) s = .next (emit (.tdo pins) { s with tap := ⟨.sample, preload, .functional⟩ }) ∧
    exec (.extest pins preload) s = .next (emit (.tdo pins) { s with tap := ⟨.extest, preload, .boundary⟩ }) ∧
    (TapIr.priv code).code.toNat = 0x20 + code.toNat ∧
    (s.mg.stored.lc ≠ .service → exec (.jtagPrivate code tdi) s =
      .next (emit (.tdo ((false :: tdi).take tdi.length)) (drives (.priv code) .functional))) ∧
    (s.mg.stored.lc = .service → exec (.jtagPrivate code tdi) s = .refused .privateJtag)

/-- RESET_PIN, I2C_RESET, STANDBY_RELEASE, INPUT_POWER_UP and INPUT_DROPOUT: a module reset brings every block to its state
after reset and leaves fuses, floors and NOR as they were, flushing the recorder first unless power failed, and wipes MRAM on
entry to RETIRED alone; RESET# low resets the module and holds it until RESET# is high; after a power-fail warning the pin and
the command are ignored while the module sheds and in standby, and they end a thermal trip's shedding and standby, which the
input's return does not; the dropout loses what MRAM does not hold (R516–R518, R521, R551, R553, R555, R556). That a reset is
ignored while the module sheds after a warning is the model's reading (log entry 97). The factory state, the counts of
RESET_OPEN and its SOURCE are log entries 3, 89 and 90. -/
def Sys2Proof.Clause.ModuleResets : Prop :=
  (∀ (s : State) (lc : LcState),
    ResetInto s (moduleReset lc true s) lc ∧ ResetInto s (moduleReset lc false s) lc ∧
    (lc = .retired → s.mg.stored.lc ≠ .retired → (moduleReset lc true s).er.mram = MramSt.empty) ∧
    (lc ≠ .retired → (moduleReset lc false s).er.mram = s.er.mram ∧
      (∀ h, (moduleReset lc true s).er.mram.hdr = some h → h.valid = true) ∧
      (s.pw.stage = .run → s.recs = [] → s.er.buf.length < 8192 → (∀ e ∈ s.er.buf, e.r.reason ≠ 3) → ∃ e, e.seq = seqNext s ∧ e.r.reason = 3 ∧ e.r.sev = 1 ∧
        Tab.get none (moduleReset lc true s).er.mram.slots (e.seq % 524287) = some e))) ∧
  (∀ (s low high : State) (straps : BitVec 3) (pin : Bool), low = { s with pw := { s.pw with pin := false } } →
    high = { s with pw := { s.pw with pin := true } } →
    (s.pw.stage = .run ∨ (s.pw.stage = .shed ∧ s.pw.trip = true ∧ s.pw.warned = false) →
      exec (.resetPin false) s = .next (moduleReset s.mg.stored.lc true low) ∧
      (moduleReset s.mg.stored.lc true low).pw.stage = .held) ∧
    (s.pw.stage = .standby → s.pw.trip = true → exec (.resetPin false) s = .next (moduleReset s.mg.stored.lc false low) ∧
      exec .standbyRelease s = .next s ∧ (s.mg.stored.lc ≠ .retired →
        exec (.i2cReset s.pw.i2cAddress 0x5A 0xA5) s = .next (moduleReset s.mg.stored.lc false (i2cAnswer [] s)))) ∧
    (s.pw.stage = .standby → s.pw.trip = false → exec (.resetPin false) s = .next low ∧
      exec .standbyRelease s = .next (moduleReset s.mg.stored.lc false s)) ∧
    (s.pw.stage = .off ∨ s.pw.stage = .held ∨ (s.pw.stage = .shed ∧ (s.pw.trip = false ∨ s.pw.warned = true)) →
      exec (.resetPin false) s = .next low) ∧
    (s.pw.stage = .held → exec (.resetPin true) s = .next { s with pw := { s.pw with pin := true, stage := .run } }) ∧
    (s.pw.stage ≠ .held → exec (.resetPin true) s = .next high) ∧
    (s.pw.stage ≠ .standby → exec .standbyRelease s = .next s) ∧
    (Open2c s → exec (.i2cReset s.pw.i2cAddress 0x5A 0xA5) s = .next (moduleReset s.mg.stored.lc true (i2cAnswer [] s)) ∧
      ∀ a b : Byte, a ≠ 0x5A ∨ b ≠ 0xA5 → exec (.i2cReset s.pw.i2cAddress a b) s = .next (i2cAnswer [] s)) ∧
    (s.pw.stage ≠ .off → exec (.inputPowerUp straps pin) s = .next s) ∧
    (s.pw.stage = .off → ∃ t, exec (.inputPowerUp straps pin) s = .next t ∧ t.pw.straps = straps ∧ t.pw.pin = pin ∧
      t.pw.stage = (if pin = true then .run else .held) ∧ pwrgd t = true ∧ alertLow t = false ∧ t.tap = TapSt.reset ∧
      t.er.mram = s.er.mram ∧ t.mg = MgSt.boot s.mg.stored s.freeCtr ∧ t.ctxs = [] ∧ t.hbm = [] ∧ t.cnt = []) ∧
    (s.pw.stage = .shed ∨ s.pw.stage = .standby → exec .inputDropout s =
      .next { s with recs := [], er := ErSt.boot s.er.mram, pw := { s.pw with stage := .off } }) ∧
    (s.pw.stage = .run ∨ s.pw.stage = .off → exec .inputDropout s = .next s))

/-- BOOT_READY: the active slot runs when its image in the NOR verifies and its attempt flag was clear, else the other, with
FALLBACK, else the boot ROM alone, which no later BOOT_READY leaves; a step that failed leaves BOOTERR and a record; with the
wipe of HBM done the SRAMs are wiped and the module is READY, with the attempt flag of its slot clear, the verified vendor
patch of the slot of the same letter loaded, else that of the other, and a BOOT_DONE record (R375, R523–R525). Which slot
is active, what the NOR was made with and what the wipe reaches are log entries 65 and 97. -/
def Sys2Proof.Clause.Boots : Prop :=
  ∀ (s : State) (a b patA patB : List Byte) (okA okB : Bool) (speed : BitVec 4) (width : BitVec 5)
      (slot : Option Bool), a = s.mg.stored.region 0 → b = s.mg.stored.region 1 → patA = s.mg.stored.region 2 →
    patB = s.mg.stored.region 3 →
    okA = decide (fwCheck s a a.length = none) → okB = decide (fwCheck s b b.length = none) →
    slot = (if s.mg.skip = false ∧ (if activeSlot s then okB else okA) = true then some (activeSlot s)
      else if (if activeSlot s then okA else okB) = true then some (!activeSlot s) else none) →
    (∀ i l, Tab.get none s.mg.stored.images i = some l → s.mg.stored.region i = l) ∧
    (s.mg.ready = true ∨ s.mg.booterr = true ∨ s.mg.romOnly = true ∨ s.pw.stage ≠ .run → ∀ fail,
      exec (.bootReady fail speed width) s = .next s) ∧
    (s.mg.ready = false → s.mg.booterr = false → s.mg.romOnly = false → s.pw.stage = .run →
      (slot = none → ∀ fail, exec (.bootReady fail speed width) s = .next { s with mg := { s.mg with romOnly := true } }) ∧
      (∀ (v : Bool) (step : BitVec 4), slot = some v → exec (.bootReady (some step) speed width) s =
        .next { s with mg := { s.mg with booterr := true, fallback := decide (v ≠ activeSlot s), bootB := v },
                       recs := s.recs ++ [⟨3, 0x90, 2, s.time, step.setWidth 64, 0, 0, 0, 0⟩] }) ∧
      (∀ v, slot = some v → (∃ c, c < 4 ∧ (s.mc c).wipeBusy = true) →
        exec (.bootReady none speed width) s = .next s) ∧
      (∀ v version same other, slot = some v → version = imgVersion (if v then b else a) →
        same = (if v then patB else patA) → other = (if v then patA else patB) → (∀ c, c < 4 → (s.mc c).wipeBusy = false) →
        ∃ t, exec (.bootReady none speed width) s = .next t ∧ t.mg.ready = true ∧ t.mg.bootB = v ∧
          t.mg.fallback = decide (v ≠ activeSlot s) ∧ t.mg.fwVersion = version ∧ t.hi.speed = speed ∧ t.hi.width = width ∧
          (if v then t.mg.stored.attemptB else t.mg.stored.attemptA) = false ∧ t.mg.stored.lc = s.mg.stored.lc ∧
          (∃ r, t.recs = s.recs ++ [r] ∧ r.reason = 1 ∧ r.sev = 0 ∧ r.src = 0x90 ∧ r.a0 = version.setWidth 64) ∧
          (∀ k, t.core k = { CoreSt.reset with uc := (t.core k).uc }) ∧ t.ctxs = [] ∧ t.lans = [] ∧
          (∀ c, (t.mc c).dir = [] ∧ (t.mc c).tagc = []) ∧ (∀ n, ∀ e ∈ (t.wick n).entries, e.frames = []) ∧
          (∀ l, (l = same ∧ patchOk s same = true) ∨ (l = other ∧ patchOk s same = false ∧ patchOk s other = true) →
            s.mg.stored.lc ≠ .retired → ∀ k, (t.core k).uc.patch = (loadPatch l (s.core k).uc).patch ∧ (t.core k).uc.hooks = (loadPatch l (s.core k).uc).hooks) ∧
          (s.mg.stored.lc ≠ .operational → s.mg.stored.lc ≠ .service → ∀ k, (t.core k).uc.mode = (s.core k).uc.mode) ∧
          (s.mg.stored.lc = .operational ∨ s.mg.stored.lc = .service → ∀ k, (t.core k).uc.mode =
            if (s.core k).uc.mode = .table then .service else (s.core k).uc.mode)))

/-- POWER_FAIL_WARNING: a module that runs or is held in reset sheds once: no event opens any more, every block leaves its
record of what it drops, no core runs, no engine has work, optics and PCIe go off, the mailbox command and one of I2C are
abandoned and the recorder flushes; an engine's record counts its graph, move, evacuation and mark jobs; with a thermal trip
already shedding, only the warning is noted (R45, R138, R176, R239, R458, R510, R529, R553, R556). The order of what a trip
and a warning leave, and what becomes of requests under way, is log entry 33's. The counts of the records are log entry 67. -/
def Sys2Proof.Clause.PowerFail : Prop :=
  (∀ s : State,
    (s.pw.stage = .run ∨ s.pw.stage = .held → ∃ t, exec .powerFailWarning s = .next t ∧ t.pf = true ∧ t.pw.stage = .shed ∧
      t.pw.warned = true ∧ t.pw.trip = s.pw.trip ∧ t.mg.go = false ∧ t.mg.i2cSeq = none ∧ t.er.flushing = true ∧
      t.mg.stored = s.mg.stored ∧ pcieUp t = false ∧ opticsOn t = false ∧ pwrgd t = false ∧ alertLow t = true ∧
      (∀ e ∈ t.er.buf, e.opened = false) ∧
      (∀ k, (t.core k).running = none) ∧
      (∀ e, e < 8 → (t.engine e).run = none ∧ (t.engine e).evac = none ∧ (t.engine e).mark = false) ∧
      (∀ n, n < 6 → ∀ e ∈ (t.wick n).entries, e.frames = []) ∧
      ∀ src reason, (src, reason) ∈ ([(0x30, 0x33), (0x70, 0x73)] ++ ((List.range 6).map fun n => (0x10 + n, 0x40)) ++
        ((List.range 8).map fun e => (0x40 + e, 0x38)) : List (Nat × Nat)) →
        ∃ r ∈ t.recs, r.src.toNat = src ∧ r.reason.toNat = reason) ∧
    (s.pw.stage = .shed → exec .powerFailWarning s = .next { s with pw := { s.pw with warned := true } }) ∧
    (s.pw.stage = .standby ∨ s.pw.stage = .off → exec .powerFailWarning s = .next s)) ∧
  (∀ (s : State) (e : Nat) (one : Bool → BitVec 64) (moves : Bool), e < 8 → (∀ b, one b = if b = true then 1 else 0) →
    (moves = true ↔ ∃ i j p, runningJob s e = some (i, j, p) ∧ p.kind = 4) →
    ∃ r ∈ (engineStops e s).recs, r.src.toNat = 0x40 + e ∧ r.reason = 0x38 ∧
      r.a0 = one ((s.engine e).run.isSome && !moves) ∧ r.a1 = one ((s.engine e).run.isSome && moves) ∧
      r.a2 = one (s.engine e).evac.isSome ∧ r.a3 = one (s.engine e).mark)

/-! ### Register writes -/

namespace Sys2Proof.Machine

/-- Registers of plain software fields: BAR0 offset and the bits that the register has. -/
def plainRegs : List (Nat × Word) :=
  [(0x010010, 0xFFFFFFFF), (0x010014, 0xF), (0x200044, 0xFFFFFFFF), (0x200048, 0x1FF), (0x300078, 0xFFFFFFFF),
   (0x30007C, 0xFFF), (0x300080, 0xFFFF), (0x300090, 0x7FF), (0x600024, 0xFFFF), (0x900020, 0xFFFFFFFF),
   (0x90003C, 0xFFFFFFFF), (0xA00020, 0xFFFFFFFF), (0x100030, 0xFFFF)]

/-- Bits that ask for a command: BAR0 offset, bit and the command. -/
def commandBits : List (Nat × Nat × Instr) :=
  [(0x30000C, 0, .cnRunCommit), (0x30000C, 1, .cnPoolCommit), (0x20000C, 0, .llMenuCommit), (0x20000C, 1, .llPoolCommit),
   (0x204004, 0, .snCntclr), (0x208004, 0, .dpCntclr), (0x20800C, 0, .dpOutCommit), (0x40000C, 0, .tpMarkCommit),
   (0x88000C, 0, .mmRootCommit), (0x60000C, 0, .blNodeCommit), (0x60000C, 1, .blRtCommit), (0x60000C, 2, .blPortCommit),
   (0x60000C, 3, .blRingCommit), (0x600034, 0, .blRtLoad), (0x50000C, 0, .tbCfgCommit), (0x500030, 0, .tbSnap),
   (0x500004, 0, .tbCntclr), (0x90000C, 0, .mgThermCommit), (0x900004, 0, .mgCntclr), (0xA00028, 0, .erFetch),
   (0x010004, 0, .hiCntclr), (0x10000C, 2, .wkEventCommit)]

end Sys2Proof.Machine

/-- REGISTER_WRITE: while the module runs, a plain register reads back what was written in the bits that it has; a committed
field's shadow copy is written and its live copy is not, and while its COMMIT reads 1 the write is ignored; a W1C flag is
cleared by 1 alone; a bit that asks for a command has that command's effect, and written 0 none; MG_MB_CMD takes CODE, and
with GO starts a command, or completes it BUSY before READY and while one runs, and BAD_CMD for an unknown code; a VF reaches
its vectors and rings alone (R15–R21, R483, R525, R526, R531). That writes before READY act, and in what order the bits of one
write act, are log entries 69 and 72. -/
def Sys2Proof.Clause.Registers : Prop :=
  ∀ (s : State) (fn : BitVec 5) (off : BitVec 25) (v : Word) (put : Word → Outcome),
    (∀ w, put w = exec (.registerWrite (.fn 0) .bar0 off (some w)) s) →
    (s.pw.stage ≠ .run → ∀ who space w, exec (.registerWrite who space off w) s = .next s) ∧
    (s.pw.stage = .run →
      (∀ k, put v = exec (.registerWrite .mgmt .bar0 off (some v)) s ∧
        put v = exec (.registerWrite (.core k) .bar0 off (some v)) s) ∧
      (∀ r ∈ plainRegs, r.1 = off.toNat → ∃ t, put v = .next t ∧
        regRead off.toNat t = v &&& r.2 ∧ t.cnt = s.cnt ∧ t.recs = s.recs ∧ t.out = s.out) ∧
      (∀ r ∈ commandBits, r.1 = off.toNat → put (1 <<< r.2.1) = exec r.2.2 s ∧ put 0 = .next s) ∧
      (off = 0x204010 →
        (s.ll.menu.pend = true → put v = .next s) ∧
        (s.ll.menu.pend = false → ∃ t, put v = .next t ∧ t.ll.menu.lv = s.ll.menu.lv ∧
          t.ll.menu.sh = { s.ll.menu.sh with deadline := v.extractLsb' 0 24 } ∧ regRead 0x204010 t = v &&& 0xFFFFFF)) ∧
      (off = 0x300018 →
        (s.cn.run.pend = true → put v = .next s) ∧
        (s.cn.run.pend = false → ∃ t, put v = .next t ∧ t.cn.run.lv = s.cn.run.lv ∧
          t.cn.run.sh = { s.cn.run.sh with coolExtra := v })) ∧
      (off = 0x208014 →
        (s.dp.cfg.pend = true → put v = .next s) ∧
        (s.dp.cfg.pend = false → ∃ t, put v = .next t ∧ t.dp.cfg.lv = s.dp.cfg.lv ∧
          t.dp.cfg.sh = { s.dp.cfg.sh with lanes := v.extractLsb' 0 8, pol := v.extractLsb' 8 8 })) ∧
      (off = 0x200008 → put v = .next { s with ll := { s.ll with cfgerr := s.ll.cfgerr && !v.getLsbD 0 } }) ∧
      (off = 0x010008 → put v = .next { s with hi := { s.hi with cfgerr := s.hi.cfgerr && !v.getLsbD 0 } }) ∧
      (off = 0x500008 → put v = .next { s with tb := { s.tb with
        refrange := s.tb.refrange && !v.getLsbD 3, cfgerr := s.tb.cfgerr && !v.getLsbD 4 } }) ∧
      (off = 0x900010 → ∀ code, code = v.extractLsb' 0 8 →
        (v.getLsbD 31 = false → put v = .next { s with mg := { s.mg with code := code } }) ∧
        (v.getLsbD 31 = true →
          (s.mg.go = true ∨ s.mg.ready = false → ∃ t, put v = .next t ∧
            t.mg = { s.mg with code := code, status := 1, detail := 0 }) ∧
          (s.mg.go = false → s.mg.ready = true →
            (code ∈ [(0x01 : BitVec 8), 0x08, 0x10, 0x11, 0x12, 0x13, 0x20, 0x21, 0x22, 0x30, 0x31, 0x40, 0x41] →
              put v = .next { s with mg := { s.mg with code := code, go := true, cmd := code } }) ∧
            (code ∉ [(0x01 : BitVec 8), 0x08, 0x10, 0x11, 0x12, 0x13, 0x20, 0x21, 0x22, 0x30, 0x31, 0x40, 0x41] →
              ∃ t, put v = .next t ∧ t.mg = { s.mg with code := code, ucWait := false, status := 11, detail := 0 })))) ∧
      (fn ≠ 0 → off.toNat < 0x2000 ∨ (0x3000 ≤ off.toNat ∧ off.toNat < 0x8000) ∨ 0x10000 ≤ off.toNat →
        exec (.registerWrite (.fn fn) .bar0 off (some v)) s = .next s))

/-- REGISTER_WRITE at a doorbell page and at the configuration space of a function: a page's three doorbells act and every
other offset or size counts in HI_CNT_DBDROP, a read of a page answers 0; the maximum payload and read request sizes are taken
as far as Table 16-1 supports them, VF Enable cleared resets the VFs, and the AER status of a function is W1C (R479, R480,
R491). How configuration space numbers these items is the model's (log entry 98). -/
def Sys2Proof.Clause.DoorbellPages : Prop :=
  ∀ (s : State) (fn : BitVec 5) (off : BitVec 25) (v : Word) (size : Nat) (r : BitVec 10) (p : PcieSt), s.pw.stage = .run →
    r = BitVec.ofNat 10 (off.toNat / 0x1000) → p = s.hi.pcie →
    exec (.registerWrite (.fn fn) (.bar2 size) off none) s = .next (emit (.readValue 0) s) ∧
    (size ≠ 4 ∨ off.toNat % 0x1000 ∉ [0, 4, 8] →
      exec (.registerWrite (.fn fn) (.bar2 size) off (some v)) s = .next (bump Cnt.hiDbdrop s)) ∧
    (size = 4 →
      (off.toNat % 0x1000 = 0 → exec (.registerWrite (.fn fn) (.bar2 size) off (some v)) s = exec (.dbProd r v fn) s) ∧
      (off.toNat % 0x1000 = 4 → exec (.registerWrite (.fn fn) (.bar2 size) off (some v)) s = exec (.dbCons r v fn) s) ∧
      (off.toNat % 0x1000 = 8 → exec (.registerWrite (.fn fn) (.bar2 size) off (some v)) s = exec (.dbArm r fn) s)) ∧
    (exec (.registerWrite (.fn 0) .config 0 (some v)) s =
      .next (if v.toNat ≤ 2 then { s with hi := { s.hi with pcie := { p with mps := v.setWidth 3 } } } else s)) ∧
    (exec (.registerWrite (.fn 0) .config 1 (some v)) s =
      .next (if v.toNat ≤ 5 then { s with hi := { s.hi with pcie := { p with mrrs := v.setWidth 3 } } } else s)) ∧
    (v.getLsbD 0 = true → exec (.registerWrite (.fn 0) .config 2 (some v)) s =
      .next { s with hi := { s.hi with pcie := { p with vfEn := true } } }) ∧
    (v.getLsbD 0 = false → ∃ t, exec (.registerWrite (.fn 0) .config 2 (some v)) s = .next t ∧ t.hi.pcie.vfEn = false ∧
      (p.vfEn = true → ∀ k, (s.ring k).func ≠ 0 → (s.ring k).st ≠ .disabled → (t.ring k).st = .disabled)) ∧
    (v.getLsbD 12 = true → ∃ t, exec (.registerWrite (.fn fn) .config 3 (some v)) s = .next t ∧
      fn.toNat ∉ t.hi.pcie.aer ∧ ∀ g, g ≠ fn.toNat → (g ∈ t.hi.pcie.aer ↔ g ∈ p.aer)) ∧
    exec (.registerWrite (.fn fn) .config 3 none) s =
      .next (emit (.readValue (if fn.toNat ∈ p.aer then 0x1000 else 0)) s)

/-! ### The machine as a whole -/

namespace Sys2Proof.Machine

/-- What registers hold after reset, by BAR0 offset (the Reset columns of the register tables, R16; build H64). -/
def resetRegs : List (Nat × Word) :=
  [(0x000000, 0x00020256), (0x010000, 2), (0x010008, 0), (0x01000C, 0x113), (0x010010, 0), (0x010014, 0), (0x018000, 0x40),
   (0x018014, 0x10000),
   (0x100000, 2), (0x110000, 0x10002), (0x150000, 0x50002), (0x100004, 1), (0x100008, 0), (0x100010, 0),
   (0x100014, 0x80000), (0x100018, 16000), (0x10001C, 6400), (0x100020, 10), (0x100100, 2), (0x100104, 0),
   (0x200000, 2), (0x200004, 0), (0x200008, 4), (0x200018, 0x20D), (0x200030, 10), (0x200044, 0xFFFFFFFF), (0x200048, 0x104),
   (0x204000, 2), (0x204008, 0), (0x204010, 1280000), (0x204014, 128000), (0x204018, 0x10000),
   (0x208000, 2), (0x208008, 0), (0x208010, 8), (0x208014, 0),
   (0x300000, 2), (0x300004, 0), (0x300008, 0x21), (0x300010, 0x10001), (0x300014, 2), (0x300018, 0), (0x300028, 8),
   (0x300038, 16), (0x300048, 8), (0x300054, 4), (0x300068, 16), (0x300074, 0),
   (0x400000, 2), (0x400004, 0xFFFF), (0x400018, 16),
   (0x500000, 2), (0x500008, 0), (0x500020, 3564), (0x500024, 7),
   (0x600000, 0x30002), (0x600004, 0x80), (0x600008, 0), (0x600010, 0), (0x600014, 100), (0x600100, 0x418), (0x600108, 0),
   (0x700000, 2), (0x700004, 7), (0x800000, 0x400002), (0x830000, 0x430002), (0x800004, 1), (0x800008, 2), (0x800010, 8),
   (0x880000, 2), (0x880008, 0), (0x900000, 2), (0x900010, 0), (0x900060, 95), (0x900080, 0x1010),
   (0xA00000, 2), (0xA00004, 9), (0xA00020, 0), (0xA0002C, 0)]

/-- Two life-cycle stores, the later first: RETIRED stays, no floor falls, no revoked key is unrevoked or forgotten. -/
def LaterFuses (b a : MgStored) : Prop :=
  (a.lc = .retired → b.lc = .retired) ∧ (∀ k, Tab.get 0 a.floors k ≤ Tab.get 0 b.floors k) ∧
    a.keys.length ≤ b.keys.length ∧ ∀ (n : Nat) (x : KeySlot), a.keys[n]? = some x →
      ∃ y, b.keys[n]? = some y ∧ y.id = x.id ∧ y.key = x.key ∧ (x.revoked = true → y.revoked = true)

/-- Events are enabled in OPERATIONAL and SERVICE alone (R519). -/
def EventsHeld (s : State) : Prop := s.cn.enable = true → s.mg.stored.lc = .operational ∨ s.mg.stored.lc = .service

end Sys2Proof.Machine

/-- A step with a command at the front of the queue is exec of that command on the state with the queue's rest. -/
def Obligations.StepRunsFront : Prop :=
  ∀ (c : Instr) (s : State) (rest : List Instr), s.pending = c :: rest → step s = exec c { s with pending := rest }

/-- The registers of every block read after reset as the Reset columns of their tables give, memory lists nothing, the time
base does not count, every candle slot is FREE, no event is enabled, and nothing waits (R16, R61, R464). That the module is
the H64 build as made, in BLANK, with out and HBM empty, is log entries 3, 6 and 14; values that no Reset column gives are log
entry 4. -/
def Obligations.ResetValues : Prop :=
  (∀ r ∈ resetRegs, regRead r.1 State.reset = r.2) ∧
    State.reset.hbm = [] ∧ State.reset.pending = [] ∧ State.reset.recs = [] ∧ State.reset.out = [] ∧
    State.reset.time = 0 ∧ State.reset.tb.counting = false ∧ (∀ n, ((Tab.get CnSlot.reset State.reset.cn.slots n).st = .free)) ∧
    (∀ c, (State.reset.ctx c).st = .empty) ∧ (∀ k, (State.reset.core k).uc.mode = .table) ∧
    (∀ c, State.reset.counter c = 0) ∧ Memory.wf State.reset.hbm = true ∧ EventsHeld State.reset

/-- From every state, a step keeps what fuses and floors hold: RETIRED is never left, no floor falls, no key is forgotten or
unrevoked (R518, R520, R522). -/
def Obligations.FusesHold : Prop :=
  ∀ s t : State, step s = .next t → LaterFuses t.mg.stored s.mg.stored

/-- From every state in which events are enabled in OPERATIONAL and SERVICE alone, a step leads to one (R519). -/
def Obligations.EventsOnlyInService : Prop :=
  ∀ s t : State, EventsHeld s → step s = .next t → EventsHeld t

/-- From every state with memory in its canonical form, a step leads to one (the model's form of memory, log entry 14). -/
def Obligations.MemoryStaysCanonical : Prop :=
  ∀ s t : State, Memory.wf s.hbm = true → step s = .next t → Memory.wf t.hbm = true

/-- The tag of the word at a data address is one byte of the sidecar, at the address that R57 computes; a word reads back with
its TYPE, IMM and MARK, no other word is disturbed, and every byte but its four and its tag is as it was (R48, R57). How the
model holds memory is log entry 14. -/
def Obligations.TagSidecar : Prop :=
  ∀ (s : State) (a b : Nat) (w : MWord), a % 4 = 0 → a < sidecarBase s.build → ∀ line word tagat : Nat,
    line = a >>> 6 → word = (a >>> 2) &&& 0xF → tagat = sidecarBase s.build + (line >>> 2) * 64 + (line &&& 3) * 16 + word →
    (hbmWord s a).tag = (MWord.ofTag (Memory.read s.hbm tagat) (hbmWord s a).val).tag ∧
    Memory.read (setHbmWord a w s).hbm tagat = w.tag ∧
    hbmWord (setHbmWord a w s) a = w ∧
    (b % 4 = 0 → b < sidecarBase s.build → b ≠ a → hbmWord (setHbmWord a w s) b = hbmWord s b) ∧
    (¬ (a ≤ b ∧ b < a + 4) → b ≠ tagat → Memory.read (setHbmWord a w s).hbm b = Memory.read s.hbm b)

/-- On the H32 build, an access to LOCAL 0x08_0000_0000–0x0F_FFFF_FFFF does not reach memory: a load returns a POISON word, a
store is discarded, and each counts at its controller and leaves a record; a store of a pointer that leads into a candle makes
its escape entry first (R2, R113). -/
def Obligations.UnpopulatedAccess : Prop :=
  ∀ (s : State) (c : CtxId) (va : Word) (pa : PA) (bytes : Nat) (v : TWord) (g : Target) (k : Nat), s.build = .h32 →
    nodeOf pa = s.node → 0x0800000000 ≤ localOf pa → localOf pa ≤ 0x0FFFFFFFFF → g.pa = pa → k = homeAgent pa.toNat →
    ∀ counted : State → State, (∀ u, counted u = { bump (Cnt.mcUnpop k) u with
      recs := u.recs ++ [⟨1, 0x80 + BitVec.ofNat 8 k, 0x61, u.time, pa.setWidth 64, 0, 0, 0, 0⟩] }) →
      (∃ w, loadAt c bytes va pa s = .ok w (counted s) ∧ w.ty = Ty.poison) ∧
      (g.dst = none → storeDo c v g s = .ok () (counted s)) ∧
      (∀ u, escapeEntry c g.dst pa true s = .ok () u → storeDo c v g s = .ok () (counted u)) ∧
      (∃ w, physRead pa s = (w, counted s) ∧ w.ty = Ty.poison)

/-- A write of 1 to TB_SNAP_CMD.SNAP latches TB_TIME, TB_BX and TB_ORBIT of one moment, and the next read of each TB_SNAP_
register answers them (R470). -/
def Obligations.TimeSnapshot : Prop :=
  ∀ (s : State) (v : Word), s.pw.stage = .run → v.getLsbD 0 = true →
    ∃ t, exec (.registerWrite (.fn 0) .bar0 0x500030 (some v)) s = .next t ∧ exec .tbSnap s = .next t ∧
      regRead 0x500034 t = s.time.extractLsb' 0 32 ∧ regRead 0x500038 t = s.time.extractLsb' 32 32 ∧
      regRead 0x50003C t = s.tb.bx.setWidth 32 ∧ regRead 0x500040 t = s.tb.orbit ∧
      { t with tb := { t.tb with snapTime := s.tb.snapTime, snapBx := s.tb.snapBx, snapOrbit := s.tb.snapOrbit } } = s

/-- The frame of every instruction that writes one register: no other context, no byte of memory, no line of a lantern, no
counter and no record changes, and of its own context no other register, predicate, bank or special register, with the PC on
the next instruction, one step of a GUARD run gone and RPT 0; loads that stood in front of its delay slot have arrived (R243,
R276, R280, R291). That a load is performed when it issues is log entry 12. -/
def Obligations.RegisterFrame : Prop :=
  ∀ (s t u : State) (iss : Iss) (len : Nat) (rd : R5) (v : TWord) (x y : Ctx), u = found s iss → x = context s iss →
    t = goesOn s iss len (fun c => c.setReg rd v) → y = t.ctx iss.ctx →
    { t with ctxs := u.ctxs } = u ∧ (∀ d, d ≠ iss.ctx → t.ctx d = s.ctx d) ∧
    (∀ a, Memory.read t.hbm a = Memory.read s.hbm a) ∧ t.lans = s.lans ∧ t.cnt = s.cnt ∧ t.recs = s.recs ∧ t.out = s.out ∧
    (∀ l, (∀ n, l ≠ .fp n) → y.readLoc l = if l = regLoc x rd then v else x.readLoc l) ∧
    y.pc = (s.ctx iss.ctx).pc + BitVec.ofNat 32 len ∧
    y.cstat.gcnt = (if x.cstat.gcnt = 0 then 0 else x.cstat.gcnt - 1) ∧ y.cstat.rpt = false ∧
    y.cstat.mode = ((s.ctx iss.ctx).msh).getD x.cstat.mode ∧
    { y with pc := x.pc, ring := x.ring, g := x.g, shadow := x.shadow, loads := x.loads,
             cstat := { y.cstat with gcnt := x.cstat.gcnt, rpt := x.cstat.rpt, ldf := x.cstat.ldf, mode := x.cstat.mode } } = x

/-- The frame of a store into tagged memory while no snapshot barrier logs: the core sees the new word at its physical
address, with the MARK bit that the line has there and IMM 0, and every other word of every line as before; no byte of memory,
no lantern, no context and no other core changes (R50, R406). -/
def Obligations.StoreFrame : Prop :=
  ∀ (s t : State) (c : CtxId) (pa : PA) (v : TWord) (old : MWord) (dst : Option (Nat × BitVec 8)) (k : CoreId),
    k = coreOf c → snapshotLogs c pa old.t v s = [] → performStore c pa v old dst s = .ok () t →
    (∀ a, Memory.read t.hbm a = Memory.read s.hbm a) ∧ t.lans = s.lans ∧ t.ctxs = s.ctxs ∧
    (∀ j, j ≠ k → t.core j = s.core j) ∧
    (∀ l : Line, lineWord (overlay (t.core k).merge (lineNo pa) l) (pa.toNat / 4 % 16) =
      ⟨v.ty, false, (lineWord l (pa.toNat / 4 % 16)).mark, v.val⟩) ∧
    (∀ (ln i : Nat) (l : Line), i < 16 → ln ≠ lineNo pa ∨ i ≠ pa.toNat / 4 % 16 →
      lineWord (overlay (t.core k).merge ln l) i = lineWord (overlay (s.core k).merge ln l) i)

/-! ### Statements of several parts -/

/-- Generic arithmetic of integers, floats, decimals and times: the clauses IntegerArithmetic,
FloatDecimalTimeArithmetic. -/
def Obligations.Arithmetic : Prop :=
  Sys2Proof.Clause.IntegerArithmetic ∧ Sys2Proof.Clause.FloatDecimalTimeArithmetic

/-- Logic, shifts, moves, compares and predicates: the clauses LogicShiftsMoves, ComparesPredicates. -/
def Obligations.LogicCompares : Prop :=
  Sys2Proof.Clause.LogicShiftsMoves ∧ Sys2Proof.Clause.ComparesPredicates

/-- Word, byte and halfword loads and the reads of headers and tags: the clauses WordLoads, SubWordAndHeaderReads. -/
def Obligations.LoadsReads : Prop :=
  Sys2Proof.Clause.WordLoads ∧ Sys2Proof.Clause.SubWordAndHeaderReads

/-- Word, byte and halfword stores, exchanges and FREEZE: the clauses WordStores, SubWordStoresExchanges. -/
def Obligations.StoresExchanges : Prop :=
  Sys2Proof.Clause.WordStores ∧ Sys2Proof.Clause.SubWordStoresExchanges

/-- Branches, guards, calls, returns and the return stack: the clauses BranchesGuards, CallsReturns, ReturnStack. -/
def Obligations.ControlFlow : Prop :=
  Sys2Proof.Clause.BranchesGuards ∧ Sys2Proof.Clause.CallsReturns ∧ Sys2Proof.Clause.ReturnStack

/-- The floating-point unit: operations, compares, conversions and moves: the clauses FloatOperations,
FloatComparesMoves. -/
def Obligations.FloatInstructions : Prop :=
  Sys2Proof.Clause.FloatOperations ∧ Sys2Proof.Clause.FloatComparesMoves

/-- The save list, SPILL and FILL, and the return from an exception: the clauses SaveList, FramesInstructions. -/
def Obligations.FramesAndReturn : Prop :=
  Sys2Proof.Clause.SaveList ∧ Sys2Proof.Clause.FramesInstructions

/-- TRAP and BRK, taking an exception, and what an entry saves: the clauses SoftwareTraps, TakingAnException,
ExceptionSaves. -/
def Obligations.Exceptions : Prop :=
  Sys2Proof.Clause.SoftwareTraps ∧ Sys2Proof.Clause.TakingAnException ∧ Sys2Proof.Clause.ExceptionSaves

/-- Timeline marker words and the lock states: the clauses MarkerWords, LockStates. -/
def Obligations.MarkersLocks : Prop :=
  Sys2Proof.Clause.MarkerWords ∧ Sys2Proof.Clause.LockStates

/-- The closest crossing, and what a crossing edge does: the clauses ClosestCrossing, CrossingEdges. -/
def Obligations.Crossings : Prop :=
  Sys2Proof.Clause.ClosestCrossing ∧ Sys2Proof.Clause.CrossingEdges

/-- Snapshots and latched reads of time, commits and firings of the compare channels: the clauses TimeReads,
CompareChannels. -/
def Obligations.TimeAndChannels : Prop :=
  Sys2Proof.Clause.TimeReads ∧ Sys2Proof.Clause.CompareChannels

/-- Commits of the candle, block, menu and pool groups: the clauses CandleCommits, BlockCommits, MenuCommits. -/
def Obligations.TableCommits : Prop :=
  Sys2Proof.Clause.CandleCommits ∧ Sys2Proof.Clause.BlockCommits ∧ Sys2Proof.Clause.MenuCommits

/-- Opening an event and its limits: the clauses OpenRequests, EventLimits. -/
def Obligations.RequestsLimits : Prop :=
  Sys2Proof.Clause.OpenRequests ∧ Sys2Proof.Clause.EventLimits

/-- Decisions by a task and fallback decisions: the clauses DecisionsByTask, FallbackDecisions. -/
def Obligations.Decisions : Prop :=
  Sys2Proof.Clause.DecisionsByTask ∧ Sys2Proof.Clause.FallbackDecisions

/-- Dispatch, preemption and migration of tasks: the clauses Dispatch, PreemptionMigration. -/
def Obligations.TaskSwitching : Prop :=
  Sys2Proof.Clause.Dispatch ∧ Sys2Proof.Clause.PreemptionMigration

/-- Lanes and their frames: the clauses Lanes, Frames. -/
def Obligations.LanesFrames : Prop :=
  Sys2Proof.Clause.Lanes ∧ Sys2Proof.Clause.Frames

/-- Candle spans, evacuation and the mark cycle: the clauses Spans, Evacuations, MarkCycle. -/
def Obligations.SpansMarking : Prop :=
  Sys2Proof.Clause.Spans ∧ Sys2Proof.Clause.Evacuations ∧ Sys2Proof.Clause.MarkCycle

/-- Routing of packets, routing tables and messages: the clauses Routing, Messages. -/
def Obligations.RoutingMessages : Prop :=
  Sys2Proof.Clause.Routing ∧ Sys2Proof.Clause.Messages

/-- Doorbells, ring states and function resets: the clauses Doorbells, RingStates, FunctionResets. -/
def Obligations.Rings : Prop :=
  Sys2Proof.Clause.Doorbells ∧ Sys2Proof.Clause.RingStates ∧ Sys2Proof.Clause.FunctionResets

/-- Host descriptors and their completions: the clauses Completions, Copies, LoadsReplaysSends. -/
def Obligations.Descriptors : Prop :=
  Sys2Proof.Clause.Completions ∧ Sys2Proof.Clause.Copies ∧ Sys2Proof.Clause.LoadsReplaysSends

/-- The event recorder: records, flushes and reads: the clauses RecordsTaken, Flushes, RecordReads. -/
def Obligations.EventRecords : Prop :=
  Sys2Proof.Clause.RecordsTaken ∧ Sys2Proof.Clause.Flushes ∧ Sys2Proof.Clause.RecordReads

/-- The management mailbox and the life cycle: the clauses MailboxCommands, LifeCycle. -/
def Obligations.Mailbox : Prop :=
  Sys2Proof.Clause.MailboxCommands ∧ Sys2Proof.Clause.LifeCycle

/-- Table mode of the sequencer, and customer instructions: the clauses TableMode, CustomerInstructions. -/
def Obligations.Microcode : Prop :=
  Sys2Proof.Clause.TableMode ∧ Sys2Proof.Clause.CustomerInstructions

/-- The board commands over I2C, and the test access port: the clauses BoardCommands, TestAccessPort. -/
def Obligations.BoardPorts : Prop :=
  Sys2Proof.Clause.BoardCommands ∧ Sys2Proof.Clause.TestAccessPort

/-- Module resets, boots and power failure: the clauses ModuleResets, Boots, PowerFail. -/
def Obligations.ResetsBoots : Prop :=
  Sys2Proof.Clause.ModuleResets ∧ Sys2Proof.Clause.Boots ∧ Sys2Proof.Clause.PowerFail

/-- Register writes: plain fields, shadows, W1C flags, command bits, doorbell pages and configuration space: the
clauses Registers, DoorbellPages. -/
def Obligations.RegisterWrites : Prop :=
  Sys2Proof.Clause.Registers ∧ Sys2Proof.Clause.DoorbellPages
end

