-- ==== Sys2Proof/Laws/Tab.lean ====
section
/-! SUPPORT. Laws of sparse tables: a read after a write, and the canonical form. -/

namespace Sys2Proof

variable {α : Type}

theorem Tab.get_erase_self (d : α) (t : Tab α) (k : Nat) : Tab.get d (Tab.erase t k) k = d := by
  induction t with
  | nil => rfl
  | cons e r ih =>
    simp only [Tab.erase]
    split <;> simp_all [Tab.get]

theorem Tab.get_erase_ne (d : α) (t : Tab α) {k j : Nat} (h : j ≠ k) : Tab.get d (Tab.erase t k) j = Tab.get d t j := by
  induction t with
  | nil => rfl
  | cons e r ih =>
    obtain ⟨a, v⟩ := e
    simp only [Tab.erase]
    split
    · subst_vars; simp only [Tab.get, if_neg (Ne.symm h), ih]
    · simp only [Tab.get, ih]

theorem Tab.get_insert_self (d : α) (t : Tab α) (k : Nat) (v : α) (h : ∀ e ∈ t, e.1 ≠ k) :
    Tab.get d (Tab.insert t k v) k = v := by
  induction t with
  | nil => simp [Tab.insert, Tab.get]
  | cons e r ih =>
    obtain ⟨a, w⟩ := e
    have ha : a ≠ k := h (a, w) (by simp)
    simp only [Tab.insert]
    split
    · simp only [Tab.get, if_neg ha]
      exact ih fun e he => h e (by simp [he])
    · simp [Tab.get]

theorem Tab.get_insert_ne (d : α) (t : Tab α) {k j : Nat} (v : α) (h : j ≠ k) :
    Tab.get d (Tab.insert t k v) j = Tab.get d t j := by
  induction t with
  | nil => simp [Tab.insert, Tab.get, Ne.symm h]
  | cons e r ih =>
    obtain ⟨a, w⟩ := e
    simp only [Tab.insert]
    split <;> simp only [Tab.get, ih, if_neg (Ne.symm h)]

theorem Tab.erase_ne (t : Tab α) (k : Nat) : ∀ e ∈ Tab.erase t k, e.1 ≠ k := by
  induction t with
  | nil => simp [Tab.erase]
  | cons e r ih =>
    obtain ⟨a, v⟩ := e
    simp only [Tab.erase]
    split
    · exact ih
    · intro x hx
      rcases List.mem_cons.mp hx with rfl | hx
      · assumption
      · exact ih x hx

/-- A read after a write of the same key. -/
@[simp] theorem Tab.get_set_self [DecidableEq α] (d : α) (t : Tab α) (k : Nat) (v : α) :
    Tab.get d (Tab.set d t k v) k = v := by
  unfold Tab.set
  split
  · rw [Tab.get_erase_self]; exact (‹v = d›).symm
  · exact Tab.get_insert_self d _ k v (Tab.erase_ne t k)

/-- A write leaves every other key alone. -/
theorem Tab.get_set_ne [DecidableEq α] (d : α) (t : Tab α) {k j : Nat} (v : α) (h : j ≠ k) :
    Tab.get d (Tab.set d t k v) j = Tab.get d t j := by
  unfold Tab.set
  split
  · exact Tab.get_erase_ne d t h
  · rw [Tab.get_insert_ne d _ v h, Tab.get_erase_ne d t h]

theorem Tab.get_set [DecidableEq α] (d : α) (t : Tab α) (k j : Nat) (v : α) :
    Tab.get d (Tab.set d t k v) j = if j = k then v else Tab.get d t j := by
  split
  · subst_vars; exact Tab.get_set_self d t _ v
  · exact Tab.get_set_ne d t v ‹_›

theorem Tab.erase_of_ne (t : Tab α) (k : Nat) (h : ∀ e ∈ t, e.1 ≠ k) : Tab.erase t k = t := by
  induction t with
  | nil => rfl
  | cons e r ih =>
    obtain ⟨a, v⟩ := e
    simp [Tab.erase, h (a, v) (by simp)]
    exact ih fun e he => h e (by simp [he])

theorem Tab.erase_insert (t : Tab α) (k : Nat) (v : α) (h : ∀ e ∈ t, e.1 ≠ k) : Tab.erase (Tab.insert t k v) k = t := by
  induction t with
  | nil => simp [Tab.insert, Tab.erase]
  | cons e r ih =>
    obtain ⟨a, w⟩ := e
    have ha : a ≠ k := h (a, w) (by simp)
    simp only [Tab.insert]
    split
    · simp [Tab.erase, ha, ih fun e he => h e (by simp [he])]
    · simp [Tab.erase, ha, Tab.erase_of_ne r k fun e he => h e (by simp [he])]

/-- The second of two writes of one key is the one that counts. -/
@[simp] theorem Tab.set_set [DecidableEq α] (d : α) (t : Tab α) (k : Nat) (v w : α) :
    Tab.set d (Tab.set d t k v) k w = Tab.set d t k w := by
  have h : Tab.erase (Tab.set d t k v) k = Tab.erase t k := by
    unfold Tab.set
    split
    · exact Tab.erase_of_ne _ k (Tab.erase_ne t k)
    · exact Tab.erase_insert _ k v (Tab.erase_ne t k)
  unfold Tab.set at h ⊢
  rw [h]

@[simp] theorem Tab.get_nil (d : α) (k : Nat) : Tab.get d ([] : Tab α) k = d := rfl

/-! ### The canonical form -/

/-- The canonical form as a proposition. -/
def Tab.Canon (d : α) (t : Tab α) : Prop := t.Pairwise (fun a b => a.1 < b.1) ∧ ∀ e ∈ t, e.2 ≠ d

theorem Tab.wf_iff [DecidableEq α] (d : α) (t : Tab α) : Tab.wf d t = true ↔ Tab.Canon d t := by
  induction t with
  | nil => simp [Tab.wf, Tab.Canon]
  | cons e r ih =>
    obtain ⟨a, v⟩ := e
    cases r with
    | nil => simp [Tab.wf, Tab.Canon]
    | cons f q =>
      obtain ⟨b, w⟩ := f
      simp only [Tab.wf, Bool.and_eq_true, decide_eq_true_eq, ih]
      constructor
      · rintro ⟨⟨h1, h2⟩, h3, h4⟩
        refine ⟨?_, ?_⟩
        · refine List.pairwise_cons.mpr ⟨?_, h3⟩
          intro x hx
          rcases List.mem_cons.mp hx with rfl | hx
          · exact h2
          · exact Nat.lt_trans h2 ((List.pairwise_cons.mp h3).1 x hx)
        · intro x hx
          rcases List.mem_cons.mp hx with rfl | hx
          · exact h1
          · exact h4 x hx
      · rintro ⟨h3, h4⟩
        have h5 := List.pairwise_cons.mp h3
        exact ⟨⟨h4 (a, v) (by simp), h5.1 (b, w) (by simp)⟩, h5.2, fun x hx => h4 x (by simp [hx])⟩

theorem Tab.erase_sub (t : Tab α) (k : Nat) : ∀ e ∈ Tab.erase t k, e ∈ t := by
  induction t with
  | nil => simp [Tab.erase]
  | cons e r ih =>
    obtain ⟨a, v⟩ := e
    simp only [Tab.erase]
    split
    · exact fun x hx => List.mem_cons_of_mem _ (ih x hx)
    · intro x hx
      rcases List.mem_cons.mp hx with rfl | hx
      · simp
      · exact List.mem_cons_of_mem _ (ih x hx)

theorem Tab.erase_canon (d : α) (t : Tab α) (k : Nat) (h : Tab.Canon d t) : Tab.Canon d (Tab.erase t k) := by
  induction t with
  | nil => exact h
  | cons e r ih =>
    obtain ⟨a, v⟩ := e
    have h5 := List.pairwise_cons.mp h.1
    have hr : Tab.Canon d r := ⟨h5.2, fun x hx => h.2 x (by simp [hx])⟩
    simp only [Tab.erase]
    split
    · exact ih hr
    · refine ⟨List.pairwise_cons.mpr ⟨fun x hx => h5.1 x (Tab.erase_sub r k x hx), (ih hr).1⟩, ?_⟩
      intro x hx
      rcases List.mem_cons.mp hx with rfl | hx
      · exact h.2 _ (by simp)
      · exact (ih hr).2 x hx

theorem Tab.mem_insert (t : Tab α) (k : Nat) (v : α) : ∀ e ∈ Tab.insert t k v, e = (k, v) ∨ e ∈ t := by
  induction t with
  | nil => simp [Tab.insert]
  | cons e r ih =>
    obtain ⟨a, w⟩ := e
    simp only [Tab.insert]
    split
    · intro x hx
      rcases List.mem_cons.mp hx with rfl | hx
      · simp
      · rcases ih x hx with h | h
        · exact .inl h
        · exact .inr (by simp [h])
    · intro x hx
      rcases List.mem_cons.mp hx with rfl | hx
      · simp
      · exact .inr hx

theorem Tab.insert_canon (d : α) (t : Tab α) (k : Nat) (v : α) (h : Tab.Canon d t) (hv : v ≠ d) (hk : ∀ e ∈ t, e.1 ≠ k) :
    Tab.Canon d (Tab.insert t k v) := by
  induction t with
  | nil => simp [Tab.insert, Tab.Canon, hv]
  | cons e r ih =>
    obtain ⟨a, w⟩ := e
    have h5 := List.pairwise_cons.mp h.1
    have hr : Tab.Canon d r := ⟨h5.2, fun x hx => h.2 x (by simp [hx])⟩
    have ha : a ≠ k := hk (a, w) (by simp)
    simp only [Tab.insert]
    split
    · have hi := ih hr fun e he => hk e (by simp [he])
      refine ⟨List.pairwise_cons.mpr ⟨?_, hi.1⟩, ?_⟩
      · intro x hx
        rcases Tab.mem_insert r k v x hx with rfl | hx
        · assumption
        · exact h5.1 x hx
      · intro x hx
        rcases List.mem_cons.mp hx with rfl | hx
        · exact h.2 _ (by simp)
        · exact hi.2 x hx
    · have hlt : k < a := by omega
      refine ⟨List.pairwise_cons.mpr ⟨?_, h.1⟩, ?_⟩
      · intro x hx
        rcases List.mem_cons.mp hx with rfl | hx
        · exact hlt
        · exact Nat.lt_trans hlt (h5.1 x hx)
      · intro x hx
        rcases List.mem_cons.mp hx with rfl | hx
        · exact hv
        · exact h.2 x hx

/-- A write keeps the canonical form. -/
theorem Tab.set_wf [DecidableEq α] (d : α) (t : Tab α) (k : Nat) (v : α) (h : Tab.wf d t = true) :
    Tab.wf d (Tab.set d t k v) = true := by
  rw [Tab.wf_iff] at h ⊢
  unfold Tab.set
  split
  · exact Tab.erase_canon d t k h
  · exact Tab.insert_canon d _ k v (Tab.erase_canon d t k h) ‹_› (Tab.erase_ne t k)

end Sys2Proof
end

