-- ==== Sys2Proof/Laws/State.lean ====
section
/-! SUPPORT. Laws of State: what each update leaves alone, one lemma per field, and what each accessor reads after a
write of its table. -/

namespace Sys2Proof.Machine

/-! ### State.setCtx -/

@[simp] theorem State.setCtx_pending (s : State) (c : CtxId) (x : Ctx) : (s.setCtx c x).pending = s.pending := rfl
@[simp] theorem State.setCtx_build (s : State) (c : CtxId) (x : Ctx) : (s.setCtx c x).build = s.build := rfl
@[simp] theorem State.setCtx_node (s : State) (c : CtxId) (x : Ctx) : (s.setCtx c x).node = s.node := rfl
@[simp] theorem State.setCtx_time (s : State) (c : CtxId) (x : Ctx) : (s.setCtx c x).time = s.time := rfl
@[simp] theorem State.setCtx_tb (s : State) (c : CtxId) (x : Ctx) : (s.setCtx c x).tb = s.tb := rfl
@[simp] theorem State.setCtx_cnt (s : State) (c : CtxId) (x : Ctx) : (s.setCtx c x).cnt = s.cnt := rfl
@[simp] theorem State.setCtx_cores (s : State) (c : CtxId) (x : Ctx) : (s.setCtx c x).cores = s.cores := rfl
@[simp] theorem State.setCtx_lans (s : State) (c : CtxId) (x : Ctx) : (s.setCtx c x).lans = s.lans := rfl
@[simp] theorem State.setCtx_hbm (s : State) (c : CtxId) (x : Ctx) : (s.setCtx c x).hbm = s.hbm := rfl
@[simp] theorem State.setCtx_mcs (s : State) (c : CtxId) (x : Ctx) : (s.setCtx c x).mcs = s.mcs := rfl
@[simp] theorem State.setCtx_mm (s : State) (c : CtxId) (x : Ctx) : (s.setCtx c x).mm = s.mm := rfl
@[simp] theorem State.setCtx_cc (s : State) (c : CtxId) (x : Ctx) : (s.setCtx c x).cc = s.cc := rfl
@[simp] theorem State.setCtx_cn (s : State) (c : CtxId) (x : Ctx) : (s.setCtx c x).cn = s.cn := rfl
@[simp] theorem State.setCtx_ll (s : State) (c : CtxId) (x : Ctx) : (s.setCtx c x).ll = s.ll := rfl
@[simp] theorem State.setCtx_sn (s : State) (c : CtxId) (x : Ctx) : (s.setCtx c x).sn = s.sn := rfl
@[simp] theorem State.setCtx_dp (s : State) (c : CtxId) (x : Ctx) : (s.setCtx c x).dp = s.dp := rfl
@[simp] theorem State.setCtx_hub (s : State) (c : CtxId) (x : Ctx) : (s.setCtx c x).hub = s.hub := rfl
@[simp] theorem State.setCtx_ev (s : State) (c : CtxId) (x : Ctx) : (s.setCtx c x).ev = s.ev := rfl
@[simp] theorem State.setCtx_bl (s : State) (c : CtxId) (x : Ctx) : (s.setCtx c x).bl = s.bl := rfl
@[simp] theorem State.setCtx_tp (s : State) (c : CtxId) (x : Ctx) : (s.setCtx c x).tp = s.tp := rfl
@[simp] theorem State.setCtx_wk (s : State) (c : CtxId) (x : Ctx) : (s.setCtx c x).wk = s.wk := rfl
@[simp] theorem State.setCtx_ms (s : State) (c : CtxId) (x : Ctx) : (s.setCtx c x).ms = s.ms := rfl
@[simp] theorem State.setCtx_hi (s : State) (c : CtxId) (x : Ctx) : (s.setCtx c x).hi = s.hi := rfl
@[simp] theorem State.setCtx_mg (s : State) (c : CtxId) (x : Ctx) : (s.setCtx c x).mg = s.mg := rfl
@[simp] theorem State.setCtx_er (s : State) (c : CtxId) (x : Ctx) : (s.setCtx c x).er = s.er := rfl
@[simp] theorem State.setCtx_pw (s : State) (c : CtxId) (x : Ctx) : (s.setCtx c x).pw = s.pw := rfl
@[simp] theorem State.setCtx_tap (s : State) (c : CtxId) (x : Ctx) : (s.setCtx c x).tap = s.tap := rfl
@[simp] theorem State.setCtx_pf (s : State) (c : CtxId) (x : Ctx) : (s.setCtx c x).pf = s.pf := rfl
@[simp] theorem State.setCtx_out (s : State) (c : CtxId) (x : Ctx) : (s.setCtx c x).out = s.out := rfl
@[simp] theorem State.setCtx_recs (s : State) (c : CtxId) (x : Ctx) : (s.setCtx c x).recs = s.recs := rfl
@[simp] theorem State.setCtx_strike (s : State) (c : CtxId) (x : Ctx) : (s.setCtx c x).strike = s.strike := rfl
@[simp] theorem State.setCtx_miss (s : State) (c : CtxId) (x : Ctx) : (s.setCtx c x).miss = s.miss := rfl
@[simp] theorem State.setCtx_freeCtr (s : State) (c : CtxId) (x : Ctx) : (s.setCtx c x).freeCtr = s.freeCtr := rfl

/-! ### State.modCtx -/

@[simp] theorem State.modCtx_pending (s : State) (c : CtxId) (f : Ctx → Ctx) : (s.modCtx c f).pending = s.pending := rfl
@[simp] theorem State.modCtx_build (s : State) (c : CtxId) (f : Ctx → Ctx) : (s.modCtx c f).build = s.build := rfl
@[simp] theorem State.modCtx_node (s : State) (c : CtxId) (f : Ctx → Ctx) : (s.modCtx c f).node = s.node := rfl
@[simp] theorem State.modCtx_time (s : State) (c : CtxId) (f : Ctx → Ctx) : (s.modCtx c f).time = s.time := rfl
@[simp] theorem State.modCtx_tb (s : State) (c : CtxId) (f : Ctx → Ctx) : (s.modCtx c f).tb = s.tb := rfl
@[simp] theorem State.modCtx_cnt (s : State) (c : CtxId) (f : Ctx → Ctx) : (s.modCtx c f).cnt = s.cnt := rfl
@[simp] theorem State.modCtx_cores (s : State) (c : CtxId) (f : Ctx → Ctx) : (s.modCtx c f).cores = s.cores := rfl
@[simp] theorem State.modCtx_lans (s : State) (c : CtxId) (f : Ctx → Ctx) : (s.modCtx c f).lans = s.lans := rfl
@[simp] theorem State.modCtx_hbm (s : State) (c : CtxId) (f : Ctx → Ctx) : (s.modCtx c f).hbm = s.hbm := rfl
@[simp] theorem State.modCtx_mcs (s : State) (c : CtxId) (f : Ctx → Ctx) : (s.modCtx c f).mcs = s.mcs := rfl
@[simp] theorem State.modCtx_mm (s : State) (c : CtxId) (f : Ctx → Ctx) : (s.modCtx c f).mm = s.mm := rfl
@[simp] theorem State.modCtx_cc (s : State) (c : CtxId) (f : Ctx → Ctx) : (s.modCtx c f).cc = s.cc := rfl
@[simp] theorem State.modCtx_cn (s : State) (c : CtxId) (f : Ctx → Ctx) : (s.modCtx c f).cn = s.cn := rfl
@[simp] theorem State.modCtx_ll (s : State) (c : CtxId) (f : Ctx → Ctx) : (s.modCtx c f).ll = s.ll := rfl
@[simp] theorem State.modCtx_sn (s : State) (c : CtxId) (f : Ctx → Ctx) : (s.modCtx c f).sn = s.sn := rfl
@[simp] theorem State.modCtx_dp (s : State) (c : CtxId) (f : Ctx → Ctx) : (s.modCtx c f).dp = s.dp := rfl
@[simp] theorem State.modCtx_hub (s : State) (c : CtxId) (f : Ctx → Ctx) : (s.modCtx c f).hub = s.hub := rfl
@[simp] theorem State.modCtx_ev (s : State) (c : CtxId) (f : Ctx → Ctx) : (s.modCtx c f).ev = s.ev := rfl
@[simp] theorem State.modCtx_bl (s : State) (c : CtxId) (f : Ctx → Ctx) : (s.modCtx c f).bl = s.bl := rfl
@[simp] theorem State.modCtx_tp (s : State) (c : CtxId) (f : Ctx → Ctx) : (s.modCtx c f).tp = s.tp := rfl
@[simp] theorem State.modCtx_wk (s : State) (c : CtxId) (f : Ctx → Ctx) : (s.modCtx c f).wk = s.wk := rfl
@[simp] theorem State.modCtx_ms (s : State) (c : CtxId) (f : Ctx → Ctx) : (s.modCtx c f).ms = s.ms := rfl
@[simp] theorem State.modCtx_hi (s : State) (c : CtxId) (f : Ctx → Ctx) : (s.modCtx c f).hi = s.hi := rfl
@[simp] theorem State.modCtx_mg (s : State) (c : CtxId) (f : Ctx → Ctx) : (s.modCtx c f).mg = s.mg := rfl
@[simp] theorem State.modCtx_er (s : State) (c : CtxId) (f : Ctx → Ctx) : (s.modCtx c f).er = s.er := rfl
@[simp] theorem State.modCtx_pw (s : State) (c : CtxId) (f : Ctx → Ctx) : (s.modCtx c f).pw = s.pw := rfl
@[simp] theorem State.modCtx_tap (s : State) (c : CtxId) (f : Ctx → Ctx) : (s.modCtx c f).tap = s.tap := rfl
@[simp] theorem State.modCtx_pf (s : State) (c : CtxId) (f : Ctx → Ctx) : (s.modCtx c f).pf = s.pf := rfl
@[simp] theorem State.modCtx_out (s : State) (c : CtxId) (f : Ctx → Ctx) : (s.modCtx c f).out = s.out := rfl
@[simp] theorem State.modCtx_recs (s : State) (c : CtxId) (f : Ctx → Ctx) : (s.modCtx c f).recs = s.recs := rfl
@[simp] theorem State.modCtx_strike (s : State) (c : CtxId) (f : Ctx → Ctx) : (s.modCtx c f).strike = s.strike := rfl
@[simp] theorem State.modCtx_miss (s : State) (c : CtxId) (f : Ctx → Ctx) : (s.modCtx c f).miss = s.miss := rfl
@[simp] theorem State.modCtx_freeCtr (s : State) (c : CtxId) (f : Ctx → Ctx) : (s.modCtx c f).freeCtr = s.freeCtr := rfl

/-! ### State.setCore -/

@[simp] theorem State.setCore_pending (s : State) (k : CoreId) (x : CoreSt) : (s.setCore k x).pending = s.pending := rfl
@[simp] theorem State.setCore_build (s : State) (k : CoreId) (x : CoreSt) : (s.setCore k x).build = s.build := rfl
@[simp] theorem State.setCore_node (s : State) (k : CoreId) (x : CoreSt) : (s.setCore k x).node = s.node := rfl
@[simp] theorem State.setCore_time (s : State) (k : CoreId) (x : CoreSt) : (s.setCore k x).time = s.time := rfl
@[simp] theorem State.setCore_tb (s : State) (k : CoreId) (x : CoreSt) : (s.setCore k x).tb = s.tb := rfl
@[simp] theorem State.setCore_cnt (s : State) (k : CoreId) (x : CoreSt) : (s.setCore k x).cnt = s.cnt := rfl
@[simp] theorem State.setCore_ctxs (s : State) (k : CoreId) (x : CoreSt) : (s.setCore k x).ctxs = s.ctxs := rfl
@[simp] theorem State.setCore_lans (s : State) (k : CoreId) (x : CoreSt) : (s.setCore k x).lans = s.lans := rfl
@[simp] theorem State.setCore_hbm (s : State) (k : CoreId) (x : CoreSt) : (s.setCore k x).hbm = s.hbm := rfl
@[simp] theorem State.setCore_mcs (s : State) (k : CoreId) (x : CoreSt) : (s.setCore k x).mcs = s.mcs := rfl
@[simp] theorem State.setCore_mm (s : State) (k : CoreId) (x : CoreSt) : (s.setCore k x).mm = s.mm := rfl
@[simp] theorem State.setCore_cc (s : State) (k : CoreId) (x : CoreSt) : (s.setCore k x).cc = s.cc := rfl
@[simp] theorem State.setCore_cn (s : State) (k : CoreId) (x : CoreSt) : (s.setCore k x).cn = s.cn := rfl
@[simp] theorem State.setCore_ll (s : State) (k : CoreId) (x : CoreSt) : (s.setCore k x).ll = s.ll := rfl
@[simp] theorem State.setCore_sn (s : State) (k : CoreId) (x : CoreSt) : (s.setCore k x).sn = s.sn := rfl
@[simp] theorem State.setCore_dp (s : State) (k : CoreId) (x : CoreSt) : (s.setCore k x).dp = s.dp := rfl
@[simp] theorem State.setCore_hub (s : State) (k : CoreId) (x : CoreSt) : (s.setCore k x).hub = s.hub := rfl
@[simp] theorem State.setCore_ev (s : State) (k : CoreId) (x : CoreSt) : (s.setCore k x).ev = s.ev := rfl
@[simp] theorem State.setCore_bl (s : State) (k : CoreId) (x : CoreSt) : (s.setCore k x).bl = s.bl := rfl
@[simp] theorem State.setCore_tp (s : State) (k : CoreId) (x : CoreSt) : (s.setCore k x).tp = s.tp := rfl
@[simp] theorem State.setCore_wk (s : State) (k : CoreId) (x : CoreSt) : (s.setCore k x).wk = s.wk := rfl
@[simp] theorem State.setCore_ms (s : State) (k : CoreId) (x : CoreSt) : (s.setCore k x).ms = s.ms := rfl
@[simp] theorem State.setCore_hi (s : State) (k : CoreId) (x : CoreSt) : (s.setCore k x).hi = s.hi := rfl
@[simp] theorem State.setCore_mg (s : State) (k : CoreId) (x : CoreSt) : (s.setCore k x).mg = s.mg := rfl
@[simp] theorem State.setCore_er (s : State) (k : CoreId) (x : CoreSt) : (s.setCore k x).er = s.er := rfl
@[simp] theorem State.setCore_pw (s : State) (k : CoreId) (x : CoreSt) : (s.setCore k x).pw = s.pw := rfl
@[simp] theorem State.setCore_tap (s : State) (k : CoreId) (x : CoreSt) : (s.setCore k x).tap = s.tap := rfl
@[simp] theorem State.setCore_pf (s : State) (k : CoreId) (x : CoreSt) : (s.setCore k x).pf = s.pf := rfl
@[simp] theorem State.setCore_out (s : State) (k : CoreId) (x : CoreSt) : (s.setCore k x).out = s.out := rfl
@[simp] theorem State.setCore_recs (s : State) (k : CoreId) (x : CoreSt) : (s.setCore k x).recs = s.recs := rfl
@[simp] theorem State.setCore_strike (s : State) (k : CoreId) (x : CoreSt) : (s.setCore k x).strike = s.strike := rfl
@[simp] theorem State.setCore_miss (s : State) (k : CoreId) (x : CoreSt) : (s.setCore k x).miss = s.miss := rfl
@[simp] theorem State.setCore_freeCtr (s : State) (k : CoreId) (x : CoreSt) : (s.setCore k x).freeCtr = s.freeCtr := rfl

/-! ### State.modCore -/

@[simp] theorem State.modCore_pending (s : State) (k : CoreId) (f : CoreSt → CoreSt) : (s.modCore k f).pending = s.pending := rfl
@[simp] theorem State.modCore_build (s : State) (k : CoreId) (f : CoreSt → CoreSt) : (s.modCore k f).build = s.build := rfl
@[simp] theorem State.modCore_node (s : State) (k : CoreId) (f : CoreSt → CoreSt) : (s.modCore k f).node = s.node := rfl
@[simp] theorem State.modCore_time (s : State) (k : CoreId) (f : CoreSt → CoreSt) : (s.modCore k f).time = s.time := rfl
@[simp] theorem State.modCore_tb (s : State) (k : CoreId) (f : CoreSt → CoreSt) : (s.modCore k f).tb = s.tb := rfl
@[simp] theorem State.modCore_cnt (s : State) (k : CoreId) (f : CoreSt → CoreSt) : (s.modCore k f).cnt = s.cnt := rfl
@[simp] theorem State.modCore_ctxs (s : State) (k : CoreId) (f : CoreSt → CoreSt) : (s.modCore k f).ctxs = s.ctxs := rfl
@[simp] theorem State.modCore_lans (s : State) (k : CoreId) (f : CoreSt → CoreSt) : (s.modCore k f).lans = s.lans := rfl
@[simp] theorem State.modCore_hbm (s : State) (k : CoreId) (f : CoreSt → CoreSt) : (s.modCore k f).hbm = s.hbm := rfl
@[simp] theorem State.modCore_mcs (s : State) (k : CoreId) (f : CoreSt → CoreSt) : (s.modCore k f).mcs = s.mcs := rfl
@[simp] theorem State.modCore_mm (s : State) (k : CoreId) (f : CoreSt → CoreSt) : (s.modCore k f).mm = s.mm := rfl
@[simp] theorem State.modCore_cc (s : State) (k : CoreId) (f : CoreSt → CoreSt) : (s.modCore k f).cc = s.cc := rfl
@[simp] theorem State.modCore_cn (s : State) (k : CoreId) (f : CoreSt → CoreSt) : (s.modCore k f).cn = s.cn := rfl
@[simp] theorem State.modCore_ll (s : State) (k : CoreId) (f : CoreSt → CoreSt) : (s.modCore k f).ll = s.ll := rfl
@[simp] theorem State.modCore_sn (s : State) (k : CoreId) (f : CoreSt → CoreSt) : (s.modCore k f).sn = s.sn := rfl
@[simp] theorem State.modCore_dp (s : State) (k : CoreId) (f : CoreSt → CoreSt) : (s.modCore k f).dp = s.dp := rfl
@[simp] theorem State.modCore_hub (s : State) (k : CoreId) (f : CoreSt → CoreSt) : (s.modCore k f).hub = s.hub := rfl
@[simp] theorem State.modCore_ev (s : State) (k : CoreId) (f : CoreSt → CoreSt) : (s.modCore k f).ev = s.ev := rfl
@[simp] theorem State.modCore_bl (s : State) (k : CoreId) (f : CoreSt → CoreSt) : (s.modCore k f).bl = s.bl := rfl
@[simp] theorem State.modCore_tp (s : State) (k : CoreId) (f : CoreSt → CoreSt) : (s.modCore k f).tp = s.tp := rfl
@[simp] theorem State.modCore_wk (s : State) (k : CoreId) (f : CoreSt → CoreSt) : (s.modCore k f).wk = s.wk := rfl
@[simp] theorem State.modCore_ms (s : State) (k : CoreId) (f : CoreSt → CoreSt) : (s.modCore k f).ms = s.ms := rfl
@[simp] theorem State.modCore_hi (s : State) (k : CoreId) (f : CoreSt → CoreSt) : (s.modCore k f).hi = s.hi := rfl
@[simp] theorem State.modCore_mg (s : State) (k : CoreId) (f : CoreSt → CoreSt) : (s.modCore k f).mg = s.mg := rfl
@[simp] theorem State.modCore_er (s : State) (k : CoreId) (f : CoreSt → CoreSt) : (s.modCore k f).er = s.er := rfl
@[simp] theorem State.modCore_pw (s : State) (k : CoreId) (f : CoreSt → CoreSt) : (s.modCore k f).pw = s.pw := rfl
@[simp] theorem State.modCore_tap (s : State) (k : CoreId) (f : CoreSt → CoreSt) : (s.modCore k f).tap = s.tap := rfl
@[simp] theorem State.modCore_pf (s : State) (k : CoreId) (f : CoreSt → CoreSt) : (s.modCore k f).pf = s.pf := rfl
@[simp] theorem State.modCore_out (s : State) (k : CoreId) (f : CoreSt → CoreSt) : (s.modCore k f).out = s.out := rfl
@[simp] theorem State.modCore_recs (s : State) (k : CoreId) (f : CoreSt → CoreSt) : (s.modCore k f).recs = s.recs := rfl
@[simp] theorem State.modCore_strike (s : State) (k : CoreId) (f : CoreSt → CoreSt) : (s.modCore k f).strike = s.strike := rfl
@[simp] theorem State.modCore_miss (s : State) (k : CoreId) (f : CoreSt → CoreSt) : (s.modCore k f).miss = s.miss := rfl
@[simp] theorem State.modCore_freeCtr (s : State) (k : CoreId) (f : CoreSt → CoreSt) : (s.modCore k f).freeCtr = s.freeCtr := rfl

/-! ### State.setLan -/

@[simp] theorem State.setLan_pending (s : State) (l : Lan) (x : LanSt) : (s.setLan l x).pending = s.pending := rfl
@[simp] theorem State.setLan_build (s : State) (l : Lan) (x : LanSt) : (s.setLan l x).build = s.build := rfl
@[simp] theorem State.setLan_node (s : State) (l : Lan) (x : LanSt) : (s.setLan l x).node = s.node := rfl
@[simp] theorem State.setLan_time (s : State) (l : Lan) (x : LanSt) : (s.setLan l x).time = s.time := rfl
@[simp] theorem State.setLan_tb (s : State) (l : Lan) (x : LanSt) : (s.setLan l x).tb = s.tb := rfl
@[simp] theorem State.setLan_cnt (s : State) (l : Lan) (x : LanSt) : (s.setLan l x).cnt = s.cnt := rfl
@[simp] theorem State.setLan_ctxs (s : State) (l : Lan) (x : LanSt) : (s.setLan l x).ctxs = s.ctxs := rfl
@[simp] theorem State.setLan_cores (s : State) (l : Lan) (x : LanSt) : (s.setLan l x).cores = s.cores := rfl
@[simp] theorem State.setLan_hbm (s : State) (l : Lan) (x : LanSt) : (s.setLan l x).hbm = s.hbm := rfl
@[simp] theorem State.setLan_mcs (s : State) (l : Lan) (x : LanSt) : (s.setLan l x).mcs = s.mcs := rfl
@[simp] theorem State.setLan_mm (s : State) (l : Lan) (x : LanSt) : (s.setLan l x).mm = s.mm := rfl
@[simp] theorem State.setLan_cc (s : State) (l : Lan) (x : LanSt) : (s.setLan l x).cc = s.cc := rfl
@[simp] theorem State.setLan_cn (s : State) (l : Lan) (x : LanSt) : (s.setLan l x).cn = s.cn := rfl
@[simp] theorem State.setLan_ll (s : State) (l : Lan) (x : LanSt) : (s.setLan l x).ll = s.ll := rfl
@[simp] theorem State.setLan_sn (s : State) (l : Lan) (x : LanSt) : (s.setLan l x).sn = s.sn := rfl
@[simp] theorem State.setLan_dp (s : State) (l : Lan) (x : LanSt) : (s.setLan l x).dp = s.dp := rfl
@[simp] theorem State.setLan_hub (s : State) (l : Lan) (x : LanSt) : (s.setLan l x).hub = s.hub := rfl
@[simp] theorem State.setLan_ev (s : State) (l : Lan) (x : LanSt) : (s.setLan l x).ev = s.ev := rfl
@[simp] theorem State.setLan_bl (s : State) (l : Lan) (x : LanSt) : (s.setLan l x).bl = s.bl := rfl
@[simp] theorem State.setLan_tp (s : State) (l : Lan) (x : LanSt) : (s.setLan l x).tp = s.tp := rfl
@[simp] theorem State.setLan_wk (s : State) (l : Lan) (x : LanSt) : (s.setLan l x).wk = s.wk := rfl
@[simp] theorem State.setLan_ms (s : State) (l : Lan) (x : LanSt) : (s.setLan l x).ms = s.ms := rfl
@[simp] theorem State.setLan_hi (s : State) (l : Lan) (x : LanSt) : (s.setLan l x).hi = s.hi := rfl
@[simp] theorem State.setLan_mg (s : State) (l : Lan) (x : LanSt) : (s.setLan l x).mg = s.mg := rfl
@[simp] theorem State.setLan_er (s : State) (l : Lan) (x : LanSt) : (s.setLan l x).er = s.er := rfl
@[simp] theorem State.setLan_pw (s : State) (l : Lan) (x : LanSt) : (s.setLan l x).pw = s.pw := rfl
@[simp] theorem State.setLan_tap (s : State) (l : Lan) (x : LanSt) : (s.setLan l x).tap = s.tap := rfl
@[simp] theorem State.setLan_pf (s : State) (l : Lan) (x : LanSt) : (s.setLan l x).pf = s.pf := rfl
@[simp] theorem State.setLan_out (s : State) (l : Lan) (x : LanSt) : (s.setLan l x).out = s.out := rfl
@[simp] theorem State.setLan_recs (s : State) (l : Lan) (x : LanSt) : (s.setLan l x).recs = s.recs := rfl
@[simp] theorem State.setLan_strike (s : State) (l : Lan) (x : LanSt) : (s.setLan l x).strike = s.strike := rfl
@[simp] theorem State.setLan_miss (s : State) (l : Lan) (x : LanSt) : (s.setLan l x).miss = s.miss := rfl
@[simp] theorem State.setLan_freeCtr (s : State) (l : Lan) (x : LanSt) : (s.setLan l x).freeCtr = s.freeCtr := rfl

/-! ### State.modLan -/

@[simp] theorem State.modLan_pending (s : State) (l : Lan) (f : LanSt → LanSt) : (s.modLan l f).pending = s.pending := rfl
@[simp] theorem State.modLan_build (s : State) (l : Lan) (f : LanSt → LanSt) : (s.modLan l f).build = s.build := rfl
@[simp] theorem State.modLan_node (s : State) (l : Lan) (f : LanSt → LanSt) : (s.modLan l f).node = s.node := rfl
@[simp] theorem State.modLan_time (s : State) (l : Lan) (f : LanSt → LanSt) : (s.modLan l f).time = s.time := rfl
@[simp] theorem State.modLan_tb (s : State) (l : Lan) (f : LanSt → LanSt) : (s.modLan l f).tb = s.tb := rfl
@[simp] theorem State.modLan_cnt (s : State) (l : Lan) (f : LanSt → LanSt) : (s.modLan l f).cnt = s.cnt := rfl
@[simp] theorem State.modLan_ctxs (s : State) (l : Lan) (f : LanSt → LanSt) : (s.modLan l f).ctxs = s.ctxs := rfl
@[simp] theorem State.modLan_cores (s : State) (l : Lan) (f : LanSt → LanSt) : (s.modLan l f).cores = s.cores := rfl
@[simp] theorem State.modLan_hbm (s : State) (l : Lan) (f : LanSt → LanSt) : (s.modLan l f).hbm = s.hbm := rfl
@[simp] theorem State.modLan_mcs (s : State) (l : Lan) (f : LanSt → LanSt) : (s.modLan l f).mcs = s.mcs := rfl
@[simp] theorem State.modLan_mm (s : State) (l : Lan) (f : LanSt → LanSt) : (s.modLan l f).mm = s.mm := rfl
@[simp] theorem State.modLan_cc (s : State) (l : Lan) (f : LanSt → LanSt) : (s.modLan l f).cc = s.cc := rfl
@[simp] theorem State.modLan_cn (s : State) (l : Lan) (f : LanSt → LanSt) : (s.modLan l f).cn = s.cn := rfl
@[simp] theorem State.modLan_ll (s : State) (l : Lan) (f : LanSt → LanSt) : (s.modLan l f).ll = s.ll := rfl
@[simp] theorem State.modLan_sn (s : State) (l : Lan) (f : LanSt → LanSt) : (s.modLan l f).sn = s.sn := rfl
@[simp] theorem State.modLan_dp (s : State) (l : Lan) (f : LanSt → LanSt) : (s.modLan l f).dp = s.dp := rfl
@[simp] theorem State.modLan_hub (s : State) (l : Lan) (f : LanSt → LanSt) : (s.modLan l f).hub = s.hub := rfl
@[simp] theorem State.modLan_ev (s : State) (l : Lan) (f : LanSt → LanSt) : (s.modLan l f).ev = s.ev := rfl
@[simp] theorem State.modLan_bl (s : State) (l : Lan) (f : LanSt → LanSt) : (s.modLan l f).bl = s.bl := rfl
@[simp] theorem State.modLan_tp (s : State) (l : Lan) (f : LanSt → LanSt) : (s.modLan l f).tp = s.tp := rfl
@[simp] theorem State.modLan_wk (s : State) (l : Lan) (f : LanSt → LanSt) : (s.modLan l f).wk = s.wk := rfl
@[simp] theorem State.modLan_ms (s : State) (l : Lan) (f : LanSt → LanSt) : (s.modLan l f).ms = s.ms := rfl
@[simp] theorem State.modLan_hi (s : State) (l : Lan) (f : LanSt → LanSt) : (s.modLan l f).hi = s.hi := rfl
@[simp] theorem State.modLan_mg (s : State) (l : Lan) (f : LanSt → LanSt) : (s.modLan l f).mg = s.mg := rfl
@[simp] theorem State.modLan_er (s : State) (l : Lan) (f : LanSt → LanSt) : (s.modLan l f).er = s.er := rfl
@[simp] theorem State.modLan_pw (s : State) (l : Lan) (f : LanSt → LanSt) : (s.modLan l f).pw = s.pw := rfl
@[simp] theorem State.modLan_tap (s : State) (l : Lan) (f : LanSt → LanSt) : (s.modLan l f).tap = s.tap := rfl
@[simp] theorem State.modLan_pf (s : State) (l : Lan) (f : LanSt → LanSt) : (s.modLan l f).pf = s.pf := rfl
@[simp] theorem State.modLan_out (s : State) (l : Lan) (f : LanSt → LanSt) : (s.modLan l f).out = s.out := rfl
@[simp] theorem State.modLan_recs (s : State) (l : Lan) (f : LanSt → LanSt) : (s.modLan l f).recs = s.recs := rfl
@[simp] theorem State.modLan_strike (s : State) (l : Lan) (f : LanSt → LanSt) : (s.modLan l f).strike = s.strike := rfl
@[simp] theorem State.modLan_miss (s : State) (l : Lan) (f : LanSt → LanSt) : (s.modLan l f).miss = s.miss := rfl
@[simp] theorem State.modLan_freeCtr (s : State) (l : Lan) (f : LanSt → LanSt) : (s.modLan l f).freeCtr = s.freeCtr := rfl

/-! ### State.setMc -/

@[simp] theorem State.setMc_pending (s : State) (c : Nat) (x : McSt) : (s.setMc c x).pending = s.pending := rfl
@[simp] theorem State.setMc_build (s : State) (c : Nat) (x : McSt) : (s.setMc c x).build = s.build := rfl
@[simp] theorem State.setMc_node (s : State) (c : Nat) (x : McSt) : (s.setMc c x).node = s.node := rfl
@[simp] theorem State.setMc_time (s : State) (c : Nat) (x : McSt) : (s.setMc c x).time = s.time := rfl
@[simp] theorem State.setMc_tb (s : State) (c : Nat) (x : McSt) : (s.setMc c x).tb = s.tb := rfl
@[simp] theorem State.setMc_cnt (s : State) (c : Nat) (x : McSt) : (s.setMc c x).cnt = s.cnt := rfl
@[simp] theorem State.setMc_ctxs (s : State) (c : Nat) (x : McSt) : (s.setMc c x).ctxs = s.ctxs := rfl
@[simp] theorem State.setMc_cores (s : State) (c : Nat) (x : McSt) : (s.setMc c x).cores = s.cores := rfl
@[simp] theorem State.setMc_lans (s : State) (c : Nat) (x : McSt) : (s.setMc c x).lans = s.lans := rfl
@[simp] theorem State.setMc_hbm (s : State) (c : Nat) (x : McSt) : (s.setMc c x).hbm = s.hbm := rfl
@[simp] theorem State.setMc_mm (s : State) (c : Nat) (x : McSt) : (s.setMc c x).mm = s.mm := rfl
@[simp] theorem State.setMc_cc (s : State) (c : Nat) (x : McSt) : (s.setMc c x).cc = s.cc := rfl
@[simp] theorem State.setMc_cn (s : State) (c : Nat) (x : McSt) : (s.setMc c x).cn = s.cn := rfl
@[simp] theorem State.setMc_ll (s : State) (c : Nat) (x : McSt) : (s.setMc c x).ll = s.ll := rfl
@[simp] theorem State.setMc_sn (s : State) (c : Nat) (x : McSt) : (s.setMc c x).sn = s.sn := rfl
@[simp] theorem State.setMc_dp (s : State) (c : Nat) (x : McSt) : (s.setMc c x).dp = s.dp := rfl
@[simp] theorem State.setMc_hub (s : State) (c : Nat) (x : McSt) : (s.setMc c x).hub = s.hub := rfl
@[simp] theorem State.setMc_ev (s : State) (c : Nat) (x : McSt) : (s.setMc c x).ev = s.ev := rfl
@[simp] theorem State.setMc_bl (s : State) (c : Nat) (x : McSt) : (s.setMc c x).bl = s.bl := rfl
@[simp] theorem State.setMc_tp (s : State) (c : Nat) (x : McSt) : (s.setMc c x).tp = s.tp := rfl
@[simp] theorem State.setMc_wk (s : State) (c : Nat) (x : McSt) : (s.setMc c x).wk = s.wk := rfl
@[simp] theorem State.setMc_ms (s : State) (c : Nat) (x : McSt) : (s.setMc c x).ms = s.ms := rfl
@[simp] theorem State.setMc_hi (s : State) (c : Nat) (x : McSt) : (s.setMc c x).hi = s.hi := rfl
@[simp] theorem State.setMc_mg (s : State) (c : Nat) (x : McSt) : (s.setMc c x).mg = s.mg := rfl
@[simp] theorem State.setMc_er (s : State) (c : Nat) (x : McSt) : (s.setMc c x).er = s.er := rfl
@[simp] theorem State.setMc_pw (s : State) (c : Nat) (x : McSt) : (s.setMc c x).pw = s.pw := rfl
@[simp] theorem State.setMc_tap (s : State) (c : Nat) (x : McSt) : (s.setMc c x).tap = s.tap := rfl
@[simp] theorem State.setMc_pf (s : State) (c : Nat) (x : McSt) : (s.setMc c x).pf = s.pf := rfl
@[simp] theorem State.setMc_out (s : State) (c : Nat) (x : McSt) : (s.setMc c x).out = s.out := rfl
@[simp] theorem State.setMc_recs (s : State) (c : Nat) (x : McSt) : (s.setMc c x).recs = s.recs := rfl
@[simp] theorem State.setMc_strike (s : State) (c : Nat) (x : McSt) : (s.setMc c x).strike = s.strike := rfl
@[simp] theorem State.setMc_miss (s : State) (c : Nat) (x : McSt) : (s.setMc c x).miss = s.miss := rfl
@[simp] theorem State.setMc_freeCtr (s : State) (c : Nat) (x : McSt) : (s.setMc c x).freeCtr = s.freeCtr := rfl

/-! ### State.modMc -/

@[simp] theorem State.modMc_pending (s : State) (c : Nat) (f : McSt → McSt) : (s.modMc c f).pending = s.pending := rfl
@[simp] theorem State.modMc_build (s : State) (c : Nat) (f : McSt → McSt) : (s.modMc c f).build = s.build := rfl
@[simp] theorem State.modMc_node (s : State) (c : Nat) (f : McSt → McSt) : (s.modMc c f).node = s.node := rfl
@[simp] theorem State.modMc_time (s : State) (c : Nat) (f : McSt → McSt) : (s.modMc c f).time = s.time := rfl
@[simp] theorem State.modMc_tb (s : State) (c : Nat) (f : McSt → McSt) : (s.modMc c f).tb = s.tb := rfl
@[simp] theorem State.modMc_cnt (s : State) (c : Nat) (f : McSt → McSt) : (s.modMc c f).cnt = s.cnt := rfl
@[simp] theorem State.modMc_ctxs (s : State) (c : Nat) (f : McSt → McSt) : (s.modMc c f).ctxs = s.ctxs := rfl
@[simp] theorem State.modMc_cores (s : State) (c : Nat) (f : McSt → McSt) : (s.modMc c f).cores = s.cores := rfl
@[simp] theorem State.modMc_lans (s : State) (c : Nat) (f : McSt → McSt) : (s.modMc c f).lans = s.lans := rfl
@[simp] theorem State.modMc_hbm (s : State) (c : Nat) (f : McSt → McSt) : (s.modMc c f).hbm = s.hbm := rfl
@[simp] theorem State.modMc_mm (s : State) (c : Nat) (f : McSt → McSt) : (s.modMc c f).mm = s.mm := rfl
@[simp] theorem State.modMc_cc (s : State) (c : Nat) (f : McSt → McSt) : (s.modMc c f).cc = s.cc := rfl
@[simp] theorem State.modMc_cn (s : State) (c : Nat) (f : McSt → McSt) : (s.modMc c f).cn = s.cn := rfl
@[simp] theorem State.modMc_ll (s : State) (c : Nat) (f : McSt → McSt) : (s.modMc c f).ll = s.ll := rfl
@[simp] theorem State.modMc_sn (s : State) (c : Nat) (f : McSt → McSt) : (s.modMc c f).sn = s.sn := rfl
@[simp] theorem State.modMc_dp (s : State) (c : Nat) (f : McSt → McSt) : (s.modMc c f).dp = s.dp := rfl
@[simp] theorem State.modMc_hub (s : State) (c : Nat) (f : McSt → McSt) : (s.modMc c f).hub = s.hub := rfl
@[simp] theorem State.modMc_ev (s : State) (c : Nat) (f : McSt → McSt) : (s.modMc c f).ev = s.ev := rfl
@[simp] theorem State.modMc_bl (s : State) (c : Nat) (f : McSt → McSt) : (s.modMc c f).bl = s.bl := rfl
@[simp] theorem State.modMc_tp (s : State) (c : Nat) (f : McSt → McSt) : (s.modMc c f).tp = s.tp := rfl
@[simp] theorem State.modMc_wk (s : State) (c : Nat) (f : McSt → McSt) : (s.modMc c f).wk = s.wk := rfl
@[simp] theorem State.modMc_ms (s : State) (c : Nat) (f : McSt → McSt) : (s.modMc c f).ms = s.ms := rfl
@[simp] theorem State.modMc_hi (s : State) (c : Nat) (f : McSt → McSt) : (s.modMc c f).hi = s.hi := rfl
@[simp] theorem State.modMc_mg (s : State) (c : Nat) (f : McSt → McSt) : (s.modMc c f).mg = s.mg := rfl
@[simp] theorem State.modMc_er (s : State) (c : Nat) (f : McSt → McSt) : (s.modMc c f).er = s.er := rfl
@[simp] theorem State.modMc_pw (s : State) (c : Nat) (f : McSt → McSt) : (s.modMc c f).pw = s.pw := rfl
@[simp] theorem State.modMc_tap (s : State) (c : Nat) (f : McSt → McSt) : (s.modMc c f).tap = s.tap := rfl
@[simp] theorem State.modMc_pf (s : State) (c : Nat) (f : McSt → McSt) : (s.modMc c f).pf = s.pf := rfl
@[simp] theorem State.modMc_out (s : State) (c : Nat) (f : McSt → McSt) : (s.modMc c f).out = s.out := rfl
@[simp] theorem State.modMc_recs (s : State) (c : Nat) (f : McSt → McSt) : (s.modMc c f).recs = s.recs := rfl
@[simp] theorem State.modMc_strike (s : State) (c : Nat) (f : McSt → McSt) : (s.modMc c f).strike = s.strike := rfl
@[simp] theorem State.modMc_miss (s : State) (c : Nat) (f : McSt → McSt) : (s.modMc c f).miss = s.miss := rfl
@[simp] theorem State.modMc_freeCtr (s : State) (c : Nat) (f : McSt → McSt) : (s.modMc c f).freeCtr = s.freeCtr := rfl

/-! ### State.setSlot -/

@[simp] theorem State.setSlot_pending (s : State) (i : Nat) (x : CnSlot) : (s.setSlot i x).pending = s.pending := rfl
@[simp] theorem State.setSlot_build (s : State) (i : Nat) (x : CnSlot) : (s.setSlot i x).build = s.build := rfl
@[simp] theorem State.setSlot_node (s : State) (i : Nat) (x : CnSlot) : (s.setSlot i x).node = s.node := rfl
@[simp] theorem State.setSlot_time (s : State) (i : Nat) (x : CnSlot) : (s.setSlot i x).time = s.time := rfl
@[simp] theorem State.setSlot_tb (s : State) (i : Nat) (x : CnSlot) : (s.setSlot i x).tb = s.tb := rfl
@[simp] theorem State.setSlot_cnt (s : State) (i : Nat) (x : CnSlot) : (s.setSlot i x).cnt = s.cnt := rfl
@[simp] theorem State.setSlot_ctxs (s : State) (i : Nat) (x : CnSlot) : (s.setSlot i x).ctxs = s.ctxs := rfl
@[simp] theorem State.setSlot_cores (s : State) (i : Nat) (x : CnSlot) : (s.setSlot i x).cores = s.cores := rfl
@[simp] theorem State.setSlot_lans (s : State) (i : Nat) (x : CnSlot) : (s.setSlot i x).lans = s.lans := rfl
@[simp] theorem State.setSlot_hbm (s : State) (i : Nat) (x : CnSlot) : (s.setSlot i x).hbm = s.hbm := rfl
@[simp] theorem State.setSlot_mcs (s : State) (i : Nat) (x : CnSlot) : (s.setSlot i x).mcs = s.mcs := rfl
@[simp] theorem State.setSlot_mm (s : State) (i : Nat) (x : CnSlot) : (s.setSlot i x).mm = s.mm := rfl
@[simp] theorem State.setSlot_cc (s : State) (i : Nat) (x : CnSlot) : (s.setSlot i x).cc = s.cc := rfl
@[simp] theorem State.setSlot_ll (s : State) (i : Nat) (x : CnSlot) : (s.setSlot i x).ll = s.ll := rfl
@[simp] theorem State.setSlot_sn (s : State) (i : Nat) (x : CnSlot) : (s.setSlot i x).sn = s.sn := rfl
@[simp] theorem State.setSlot_dp (s : State) (i : Nat) (x : CnSlot) : (s.setSlot i x).dp = s.dp := rfl
@[simp] theorem State.setSlot_hub (s : State) (i : Nat) (x : CnSlot) : (s.setSlot i x).hub = s.hub := rfl
@[simp] theorem State.setSlot_ev (s : State) (i : Nat) (x : CnSlot) : (s.setSlot i x).ev = s.ev := rfl
@[simp] theorem State.setSlot_bl (s : State) (i : Nat) (x : CnSlot) : (s.setSlot i x).bl = s.bl := rfl
@[simp] theorem State.setSlot_tp (s : State) (i : Nat) (x : CnSlot) : (s.setSlot i x).tp = s.tp := rfl
@[simp] theorem State.setSlot_wk (s : State) (i : Nat) (x : CnSlot) : (s.setSlot i x).wk = s.wk := rfl
@[simp] theorem State.setSlot_ms (s : State) (i : Nat) (x : CnSlot) : (s.setSlot i x).ms = s.ms := rfl
@[simp] theorem State.setSlot_hi (s : State) (i : Nat) (x : CnSlot) : (s.setSlot i x).hi = s.hi := rfl
@[simp] theorem State.setSlot_mg (s : State) (i : Nat) (x : CnSlot) : (s.setSlot i x).mg = s.mg := rfl
@[simp] theorem State.setSlot_er (s : State) (i : Nat) (x : CnSlot) : (s.setSlot i x).er = s.er := rfl
@[simp] theorem State.setSlot_pw (s : State) (i : Nat) (x : CnSlot) : (s.setSlot i x).pw = s.pw := rfl
@[simp] theorem State.setSlot_tap (s : State) (i : Nat) (x : CnSlot) : (s.setSlot i x).tap = s.tap := rfl
@[simp] theorem State.setSlot_pf (s : State) (i : Nat) (x : CnSlot) : (s.setSlot i x).pf = s.pf := rfl
@[simp] theorem State.setSlot_out (s : State) (i : Nat) (x : CnSlot) : (s.setSlot i x).out = s.out := rfl
@[simp] theorem State.setSlot_recs (s : State) (i : Nat) (x : CnSlot) : (s.setSlot i x).recs = s.recs := rfl
@[simp] theorem State.setSlot_strike (s : State) (i : Nat) (x : CnSlot) : (s.setSlot i x).strike = s.strike := rfl
@[simp] theorem State.setSlot_miss (s : State) (i : Nat) (x : CnSlot) : (s.setSlot i x).miss = s.miss := rfl
@[simp] theorem State.setSlot_freeCtr (s : State) (i : Nat) (x : CnSlot) : (s.setSlot i x).freeCtr = s.freeCtr := rfl

/-! ### State.modSlot -/

@[simp] theorem State.modSlot_pending (s : State) (i : Nat) (f : CnSlot → CnSlot) : (s.modSlot i f).pending = s.pending := rfl
@[simp] theorem State.modSlot_build (s : State) (i : Nat) (f : CnSlot → CnSlot) : (s.modSlot i f).build = s.build := rfl
@[simp] theorem State.modSlot_node (s : State) (i : Nat) (f : CnSlot → CnSlot) : (s.modSlot i f).node = s.node := rfl
@[simp] theorem State.modSlot_time (s : State) (i : Nat) (f : CnSlot → CnSlot) : (s.modSlot i f).time = s.time := rfl
@[simp] theorem State.modSlot_tb (s : State) (i : Nat) (f : CnSlot → CnSlot) : (s.modSlot i f).tb = s.tb := rfl
@[simp] theorem State.modSlot_cnt (s : State) (i : Nat) (f : CnSlot → CnSlot) : (s.modSlot i f).cnt = s.cnt := rfl
@[simp] theorem State.modSlot_ctxs (s : State) (i : Nat) (f : CnSlot → CnSlot) : (s.modSlot i f).ctxs = s.ctxs := rfl
@[simp] theorem State.modSlot_cores (s : State) (i : Nat) (f : CnSlot → CnSlot) : (s.modSlot i f).cores = s.cores := rfl
@[simp] theorem State.modSlot_lans (s : State) (i : Nat) (f : CnSlot → CnSlot) : (s.modSlot i f).lans = s.lans := rfl
@[simp] theorem State.modSlot_hbm (s : State) (i : Nat) (f : CnSlot → CnSlot) : (s.modSlot i f).hbm = s.hbm := rfl
@[simp] theorem State.modSlot_mcs (s : State) (i : Nat) (f : CnSlot → CnSlot) : (s.modSlot i f).mcs = s.mcs := rfl
@[simp] theorem State.modSlot_mm (s : State) (i : Nat) (f : CnSlot → CnSlot) : (s.modSlot i f).mm = s.mm := rfl
@[simp] theorem State.modSlot_cc (s : State) (i : Nat) (f : CnSlot → CnSlot) : (s.modSlot i f).cc = s.cc := rfl
@[simp] theorem State.modSlot_ll (s : State) (i : Nat) (f : CnSlot → CnSlot) : (s.modSlot i f).ll = s.ll := rfl
@[simp] theorem State.modSlot_sn (s : State) (i : Nat) (f : CnSlot → CnSlot) : (s.modSlot i f).sn = s.sn := rfl
@[simp] theorem State.modSlot_dp (s : State) (i : Nat) (f : CnSlot → CnSlot) : (s.modSlot i f).dp = s.dp := rfl
@[simp] theorem State.modSlot_hub (s : State) (i : Nat) (f : CnSlot → CnSlot) : (s.modSlot i f).hub = s.hub := rfl
@[simp] theorem State.modSlot_ev (s : State) (i : Nat) (f : CnSlot → CnSlot) : (s.modSlot i f).ev = s.ev := rfl
@[simp] theorem State.modSlot_bl (s : State) (i : Nat) (f : CnSlot → CnSlot) : (s.modSlot i f).bl = s.bl := rfl
@[simp] theorem State.modSlot_tp (s : State) (i : Nat) (f : CnSlot → CnSlot) : (s.modSlot i f).tp = s.tp := rfl
@[simp] theorem State.modSlot_wk (s : State) (i : Nat) (f : CnSlot → CnSlot) : (s.modSlot i f).wk = s.wk := rfl
@[simp] theorem State.modSlot_ms (s : State) (i : Nat) (f : CnSlot → CnSlot) : (s.modSlot i f).ms = s.ms := rfl
@[simp] theorem State.modSlot_hi (s : State) (i : Nat) (f : CnSlot → CnSlot) : (s.modSlot i f).hi = s.hi := rfl
@[simp] theorem State.modSlot_mg (s : State) (i : Nat) (f : CnSlot → CnSlot) : (s.modSlot i f).mg = s.mg := rfl
@[simp] theorem State.modSlot_er (s : State) (i : Nat) (f : CnSlot → CnSlot) : (s.modSlot i f).er = s.er := rfl
@[simp] theorem State.modSlot_pw (s : State) (i : Nat) (f : CnSlot → CnSlot) : (s.modSlot i f).pw = s.pw := rfl
@[simp] theorem State.modSlot_tap (s : State) (i : Nat) (f : CnSlot → CnSlot) : (s.modSlot i f).tap = s.tap := rfl
@[simp] theorem State.modSlot_pf (s : State) (i : Nat) (f : CnSlot → CnSlot) : (s.modSlot i f).pf = s.pf := rfl
@[simp] theorem State.modSlot_out (s : State) (i : Nat) (f : CnSlot → CnSlot) : (s.modSlot i f).out = s.out := rfl
@[simp] theorem State.modSlot_recs (s : State) (i : Nat) (f : CnSlot → CnSlot) : (s.modSlot i f).recs = s.recs := rfl
@[simp] theorem State.modSlot_strike (s : State) (i : Nat) (f : CnSlot → CnSlot) : (s.modSlot i f).strike = s.strike := rfl
@[simp] theorem State.modSlot_miss (s : State) (i : Nat) (f : CnSlot → CnSlot) : (s.modSlot i f).miss = s.miss := rfl
@[simp] theorem State.modSlot_freeCtr (s : State) (i : Nat) (f : CnSlot → CnSlot) : (s.modSlot i f).freeCtr = s.freeCtr := rfl

/-! ### State.setEvent -/

@[simp] theorem State.setEvent_pending (s : State) (i : Nat) (x : EvSt) : (s.setEvent i x).pending = s.pending := rfl
@[simp] theorem State.setEvent_build (s : State) (i : Nat) (x : EvSt) : (s.setEvent i x).build = s.build := rfl
@[simp] theorem State.setEvent_node (s : State) (i : Nat) (x : EvSt) : (s.setEvent i x).node = s.node := rfl
@[simp] theorem State.setEvent_time (s : State) (i : Nat) (x : EvSt) : (s.setEvent i x).time = s.time := rfl
@[simp] theorem State.setEvent_tb (s : State) (i : Nat) (x : EvSt) : (s.setEvent i x).tb = s.tb := rfl
@[simp] theorem State.setEvent_cnt (s : State) (i : Nat) (x : EvSt) : (s.setEvent i x).cnt = s.cnt := rfl
@[simp] theorem State.setEvent_ctxs (s : State) (i : Nat) (x : EvSt) : (s.setEvent i x).ctxs = s.ctxs := rfl
@[simp] theorem State.setEvent_cores (s : State) (i : Nat) (x : EvSt) : (s.setEvent i x).cores = s.cores := rfl
@[simp] theorem State.setEvent_lans (s : State) (i : Nat) (x : EvSt) : (s.setEvent i x).lans = s.lans := rfl
@[simp] theorem State.setEvent_hbm (s : State) (i : Nat) (x : EvSt) : (s.setEvent i x).hbm = s.hbm := rfl
@[simp] theorem State.setEvent_mcs (s : State) (i : Nat) (x : EvSt) : (s.setEvent i x).mcs = s.mcs := rfl
@[simp] theorem State.setEvent_mm (s : State) (i : Nat) (x : EvSt) : (s.setEvent i x).mm = s.mm := rfl
@[simp] theorem State.setEvent_cc (s : State) (i : Nat) (x : EvSt) : (s.setEvent i x).cc = s.cc := rfl
@[simp] theorem State.setEvent_cn (s : State) (i : Nat) (x : EvSt) : (s.setEvent i x).cn = s.cn := rfl
@[simp] theorem State.setEvent_ll (s : State) (i : Nat) (x : EvSt) : (s.setEvent i x).ll = s.ll := rfl
@[simp] theorem State.setEvent_sn (s : State) (i : Nat) (x : EvSt) : (s.setEvent i x).sn = s.sn := rfl
@[simp] theorem State.setEvent_dp (s : State) (i : Nat) (x : EvSt) : (s.setEvent i x).dp = s.dp := rfl
@[simp] theorem State.setEvent_hub (s : State) (i : Nat) (x : EvSt) : (s.setEvent i x).hub = s.hub := rfl
@[simp] theorem State.setEvent_bl (s : State) (i : Nat) (x : EvSt) : (s.setEvent i x).bl = s.bl := rfl
@[simp] theorem State.setEvent_tp (s : State) (i : Nat) (x : EvSt) : (s.setEvent i x).tp = s.tp := rfl
@[simp] theorem State.setEvent_wk (s : State) (i : Nat) (x : EvSt) : (s.setEvent i x).wk = s.wk := rfl
@[simp] theorem State.setEvent_ms (s : State) (i : Nat) (x : EvSt) : (s.setEvent i x).ms = s.ms := rfl
@[simp] theorem State.setEvent_hi (s : State) (i : Nat) (x : EvSt) : (s.setEvent i x).hi = s.hi := rfl
@[simp] theorem State.setEvent_mg (s : State) (i : Nat) (x : EvSt) : (s.setEvent i x).mg = s.mg := rfl
@[simp] theorem State.setEvent_er (s : State) (i : Nat) (x : EvSt) : (s.setEvent i x).er = s.er := rfl
@[simp] theorem State.setEvent_pw (s : State) (i : Nat) (x : EvSt) : (s.setEvent i x).pw = s.pw := rfl
@[simp] theorem State.setEvent_tap (s : State) (i : Nat) (x : EvSt) : (s.setEvent i x).tap = s.tap := rfl
@[simp] theorem State.setEvent_pf (s : State) (i : Nat) (x : EvSt) : (s.setEvent i x).pf = s.pf := rfl
@[simp] theorem State.setEvent_out (s : State) (i : Nat) (x : EvSt) : (s.setEvent i x).out = s.out := rfl
@[simp] theorem State.setEvent_recs (s : State) (i : Nat) (x : EvSt) : (s.setEvent i x).recs = s.recs := rfl
@[simp] theorem State.setEvent_strike (s : State) (i : Nat) (x : EvSt) : (s.setEvent i x).strike = s.strike := rfl
@[simp] theorem State.setEvent_miss (s : State) (i : Nat) (x : EvSt) : (s.setEvent i x).miss = s.miss := rfl
@[simp] theorem State.setEvent_freeCtr (s : State) (i : Nat) (x : EvSt) : (s.setEvent i x).freeCtr = s.freeCtr := rfl

/-! ### State.modEvent -/

@[simp] theorem State.modEvent_pending (s : State) (i : Nat) (f : EvSt → EvSt) : (s.modEvent i f).pending = s.pending := rfl
@[simp] theorem State.modEvent_build (s : State) (i : Nat) (f : EvSt → EvSt) : (s.modEvent i f).build = s.build := rfl
@[simp] theorem State.modEvent_node (s : State) (i : Nat) (f : EvSt → EvSt) : (s.modEvent i f).node = s.node := rfl
@[simp] theorem State.modEvent_time (s : State) (i : Nat) (f : EvSt → EvSt) : (s.modEvent i f).time = s.time := rfl
@[simp] theorem State.modEvent_tb (s : State) (i : Nat) (f : EvSt → EvSt) : (s.modEvent i f).tb = s.tb := rfl
@[simp] theorem State.modEvent_cnt (s : State) (i : Nat) (f : EvSt → EvSt) : (s.modEvent i f).cnt = s.cnt := rfl
@[simp] theorem State.modEvent_ctxs (s : State) (i : Nat) (f : EvSt → EvSt) : (s.modEvent i f).ctxs = s.ctxs := rfl
@[simp] theorem State.modEvent_cores (s : State) (i : Nat) (f : EvSt → EvSt) : (s.modEvent i f).cores = s.cores := rfl
@[simp] theorem State.modEvent_lans (s : State) (i : Nat) (f : EvSt → EvSt) : (s.modEvent i f).lans = s.lans := rfl
@[simp] theorem State.modEvent_hbm (s : State) (i : Nat) (f : EvSt → EvSt) : (s.modEvent i f).hbm = s.hbm := rfl
@[simp] theorem State.modEvent_mcs (s : State) (i : Nat) (f : EvSt → EvSt) : (s.modEvent i f).mcs = s.mcs := rfl
@[simp] theorem State.modEvent_mm (s : State) (i : Nat) (f : EvSt → EvSt) : (s.modEvent i f).mm = s.mm := rfl
@[simp] theorem State.modEvent_cc (s : State) (i : Nat) (f : EvSt → EvSt) : (s.modEvent i f).cc = s.cc := rfl
@[simp] theorem State.modEvent_cn (s : State) (i : Nat) (f : EvSt → EvSt) : (s.modEvent i f).cn = s.cn := rfl
@[simp] theorem State.modEvent_ll (s : State) (i : Nat) (f : EvSt → EvSt) : (s.modEvent i f).ll = s.ll := rfl
@[simp] theorem State.modEvent_sn (s : State) (i : Nat) (f : EvSt → EvSt) : (s.modEvent i f).sn = s.sn := rfl
@[simp] theorem State.modEvent_dp (s : State) (i : Nat) (f : EvSt → EvSt) : (s.modEvent i f).dp = s.dp := rfl
@[simp] theorem State.modEvent_hub (s : State) (i : Nat) (f : EvSt → EvSt) : (s.modEvent i f).hub = s.hub := rfl
@[simp] theorem State.modEvent_bl (s : State) (i : Nat) (f : EvSt → EvSt) : (s.modEvent i f).bl = s.bl := rfl
@[simp] theorem State.modEvent_tp (s : State) (i : Nat) (f : EvSt → EvSt) : (s.modEvent i f).tp = s.tp := rfl
@[simp] theorem State.modEvent_wk (s : State) (i : Nat) (f : EvSt → EvSt) : (s.modEvent i f).wk = s.wk := rfl
@[simp] theorem State.modEvent_ms (s : State) (i : Nat) (f : EvSt → EvSt) : (s.modEvent i f).ms = s.ms := rfl
@[simp] theorem State.modEvent_hi (s : State) (i : Nat) (f : EvSt → EvSt) : (s.modEvent i f).hi = s.hi := rfl
@[simp] theorem State.modEvent_mg (s : State) (i : Nat) (f : EvSt → EvSt) : (s.modEvent i f).mg = s.mg := rfl
@[simp] theorem State.modEvent_er (s : State) (i : Nat) (f : EvSt → EvSt) : (s.modEvent i f).er = s.er := rfl
@[simp] theorem State.modEvent_pw (s : State) (i : Nat) (f : EvSt → EvSt) : (s.modEvent i f).pw = s.pw := rfl
@[simp] theorem State.modEvent_tap (s : State) (i : Nat) (f : EvSt → EvSt) : (s.modEvent i f).tap = s.tap := rfl
@[simp] theorem State.modEvent_pf (s : State) (i : Nat) (f : EvSt → EvSt) : (s.modEvent i f).pf = s.pf := rfl
@[simp] theorem State.modEvent_out (s : State) (i : Nat) (f : EvSt → EvSt) : (s.modEvent i f).out = s.out := rfl
@[simp] theorem State.modEvent_recs (s : State) (i : Nat) (f : EvSt → EvSt) : (s.modEvent i f).recs = s.recs := rfl
@[simp] theorem State.modEvent_strike (s : State) (i : Nat) (f : EvSt → EvSt) : (s.modEvent i f).strike = s.strike := rfl
@[simp] theorem State.modEvent_miss (s : State) (i : Nat) (f : EvSt → EvSt) : (s.modEvent i f).miss = s.miss := rfl
@[simp] theorem State.modEvent_freeCtr (s : State) (i : Nat) (f : EvSt → EvSt) : (s.modEvent i f).freeCtr = s.freeCtr := rfl

/-! ### State.modTask -/

@[simp] theorem State.modTask_pending (s : State) (i : Nat) (f : TaskD → TaskD) : (s.modTask i f).pending = s.pending := rfl
@[simp] theorem State.modTask_build (s : State) (i : Nat) (f : TaskD → TaskD) : (s.modTask i f).build = s.build := rfl
@[simp] theorem State.modTask_node (s : State) (i : Nat) (f : TaskD → TaskD) : (s.modTask i f).node = s.node := rfl
@[simp] theorem State.modTask_time (s : State) (i : Nat) (f : TaskD → TaskD) : (s.modTask i f).time = s.time := rfl
@[simp] theorem State.modTask_tb (s : State) (i : Nat) (f : TaskD → TaskD) : (s.modTask i f).tb = s.tb := rfl
@[simp] theorem State.modTask_cnt (s : State) (i : Nat) (f : TaskD → TaskD) : (s.modTask i f).cnt = s.cnt := rfl
@[simp] theorem State.modTask_ctxs (s : State) (i : Nat) (f : TaskD → TaskD) : (s.modTask i f).ctxs = s.ctxs := rfl
@[simp] theorem State.modTask_cores (s : State) (i : Nat) (f : TaskD → TaskD) : (s.modTask i f).cores = s.cores := rfl
@[simp] theorem State.modTask_lans (s : State) (i : Nat) (f : TaskD → TaskD) : (s.modTask i f).lans = s.lans := rfl
@[simp] theorem State.modTask_hbm (s : State) (i : Nat) (f : TaskD → TaskD) : (s.modTask i f).hbm = s.hbm := rfl
@[simp] theorem State.modTask_mcs (s : State) (i : Nat) (f : TaskD → TaskD) : (s.modTask i f).mcs = s.mcs := rfl
@[simp] theorem State.modTask_mm (s : State) (i : Nat) (f : TaskD → TaskD) : (s.modTask i f).mm = s.mm := rfl
@[simp] theorem State.modTask_cc (s : State) (i : Nat) (f : TaskD → TaskD) : (s.modTask i f).cc = s.cc := rfl
@[simp] theorem State.modTask_cn (s : State) (i : Nat) (f : TaskD → TaskD) : (s.modTask i f).cn = s.cn := rfl
@[simp] theorem State.modTask_sn (s : State) (i : Nat) (f : TaskD → TaskD) : (s.modTask i f).sn = s.sn := rfl
@[simp] theorem State.modTask_dp (s : State) (i : Nat) (f : TaskD → TaskD) : (s.modTask i f).dp = s.dp := rfl
@[simp] theorem State.modTask_hub (s : State) (i : Nat) (f : TaskD → TaskD) : (s.modTask i f).hub = s.hub := rfl
@[simp] theorem State.modTask_ev (s : State) (i : Nat) (f : TaskD → TaskD) : (s.modTask i f).ev = s.ev := rfl
@[simp] theorem State.modTask_bl (s : State) (i : Nat) (f : TaskD → TaskD) : (s.modTask i f).bl = s.bl := rfl
@[simp] theorem State.modTask_tp (s : State) (i : Nat) (f : TaskD → TaskD) : (s.modTask i f).tp = s.tp := rfl
@[simp] theorem State.modTask_wk (s : State) (i : Nat) (f : TaskD → TaskD) : (s.modTask i f).wk = s.wk := rfl
@[simp] theorem State.modTask_ms (s : State) (i : Nat) (f : TaskD → TaskD) : (s.modTask i f).ms = s.ms := rfl
@[simp] theorem State.modTask_hi (s : State) (i : Nat) (f : TaskD → TaskD) : (s.modTask i f).hi = s.hi := rfl
@[simp] theorem State.modTask_mg (s : State) (i : Nat) (f : TaskD → TaskD) : (s.modTask i f).mg = s.mg := rfl
@[simp] theorem State.modTask_er (s : State) (i : Nat) (f : TaskD → TaskD) : (s.modTask i f).er = s.er := rfl
@[simp] theorem State.modTask_pw (s : State) (i : Nat) (f : TaskD → TaskD) : (s.modTask i f).pw = s.pw := rfl
@[simp] theorem State.modTask_tap (s : State) (i : Nat) (f : TaskD → TaskD) : (s.modTask i f).tap = s.tap := rfl
@[simp] theorem State.modTask_pf (s : State) (i : Nat) (f : TaskD → TaskD) : (s.modTask i f).pf = s.pf := rfl
@[simp] theorem State.modTask_out (s : State) (i : Nat) (f : TaskD → TaskD) : (s.modTask i f).out = s.out := rfl
@[simp] theorem State.modTask_recs (s : State) (i : Nat) (f : TaskD → TaskD) : (s.modTask i f).recs = s.recs := rfl
@[simp] theorem State.modTask_strike (s : State) (i : Nat) (f : TaskD → TaskD) : (s.modTask i f).strike = s.strike := rfl
@[simp] theorem State.modTask_miss (s : State) (i : Nat) (f : TaskD → TaskD) : (s.modTask i f).miss = s.miss := rfl
@[simp] theorem State.modTask_freeCtr (s : State) (i : Nat) (f : TaskD → TaskD) : (s.modTask i f).freeCtr = s.freeCtr := rfl

/-! ### bumpBy -/

@[simp] theorem bumpBy_pending (s : State) (o n : Nat) : (bumpBy o n s).pending = s.pending := rfl
@[simp] theorem bumpBy_build (s : State) (o n : Nat) : (bumpBy o n s).build = s.build := rfl
@[simp] theorem bumpBy_node (s : State) (o n : Nat) : (bumpBy o n s).node = s.node := rfl
@[simp] theorem bumpBy_time (s : State) (o n : Nat) : (bumpBy o n s).time = s.time := rfl
@[simp] theorem bumpBy_tb (s : State) (o n : Nat) : (bumpBy o n s).tb = s.tb := rfl
@[simp] theorem bumpBy_ctxs (s : State) (o n : Nat) : (bumpBy o n s).ctxs = s.ctxs := rfl
@[simp] theorem bumpBy_cores (s : State) (o n : Nat) : (bumpBy o n s).cores = s.cores := rfl
@[simp] theorem bumpBy_lans (s : State) (o n : Nat) : (bumpBy o n s).lans = s.lans := rfl
@[simp] theorem bumpBy_hbm (s : State) (o n : Nat) : (bumpBy o n s).hbm = s.hbm := rfl
@[simp] theorem bumpBy_mcs (s : State) (o n : Nat) : (bumpBy o n s).mcs = s.mcs := rfl
@[simp] theorem bumpBy_mm (s : State) (o n : Nat) : (bumpBy o n s).mm = s.mm := rfl
@[simp] theorem bumpBy_cc (s : State) (o n : Nat) : (bumpBy o n s).cc = s.cc := rfl
@[simp] theorem bumpBy_cn (s : State) (o n : Nat) : (bumpBy o n s).cn = s.cn := rfl
@[simp] theorem bumpBy_ll (s : State) (o n : Nat) : (bumpBy o n s).ll = s.ll := rfl
@[simp] theorem bumpBy_sn (s : State) (o n : Nat) : (bumpBy o n s).sn = s.sn := rfl
@[simp] theorem bumpBy_dp (s : State) (o n : Nat) : (bumpBy o n s).dp = s.dp := rfl
@[simp] theorem bumpBy_hub (s : State) (o n : Nat) : (bumpBy o n s).hub = s.hub := rfl
@[simp] theorem bumpBy_ev (s : State) (o n : Nat) : (bumpBy o n s).ev = s.ev := rfl
@[simp] theorem bumpBy_bl (s : State) (o n : Nat) : (bumpBy o n s).bl = s.bl := rfl
@[simp] theorem bumpBy_tp (s : State) (o n : Nat) : (bumpBy o n s).tp = s.tp := rfl
@[simp] theorem bumpBy_wk (s : State) (o n : Nat) : (bumpBy o n s).wk = s.wk := rfl
@[simp] theorem bumpBy_ms (s : State) (o n : Nat) : (bumpBy o n s).ms = s.ms := rfl
@[simp] theorem bumpBy_hi (s : State) (o n : Nat) : (bumpBy o n s).hi = s.hi := rfl
@[simp] theorem bumpBy_mg (s : State) (o n : Nat) : (bumpBy o n s).mg = s.mg := rfl
@[simp] theorem bumpBy_er (s : State) (o n : Nat) : (bumpBy o n s).er = s.er := rfl
@[simp] theorem bumpBy_pw (s : State) (o n : Nat) : (bumpBy o n s).pw = s.pw := rfl
@[simp] theorem bumpBy_tap (s : State) (o n : Nat) : (bumpBy o n s).tap = s.tap := rfl
@[simp] theorem bumpBy_pf (s : State) (o n : Nat) : (bumpBy o n s).pf = s.pf := rfl
@[simp] theorem bumpBy_out (s : State) (o n : Nat) : (bumpBy o n s).out = s.out := rfl
@[simp] theorem bumpBy_recs (s : State) (o n : Nat) : (bumpBy o n s).recs = s.recs := rfl
@[simp] theorem bumpBy_strike (s : State) (o n : Nat) : (bumpBy o n s).strike = s.strike := rfl
@[simp] theorem bumpBy_miss (s : State) (o n : Nat) : (bumpBy o n s).miss = s.miss := rfl
@[simp] theorem bumpBy_freeCtr (s : State) (o n : Nat) : (bumpBy o n s).freeCtr = s.freeCtr := rfl

/-! ### bump -/

@[simp] theorem bump_pending (s : State) (o : Nat) : (bump o s).pending = s.pending := rfl
@[simp] theorem bump_build (s : State) (o : Nat) : (bump o s).build = s.build := rfl
@[simp] theorem bump_node (s : State) (o : Nat) : (bump o s).node = s.node := rfl
@[simp] theorem bump_time (s : State) (o : Nat) : (bump o s).time = s.time := rfl
@[simp] theorem bump_tb (s : State) (o : Nat) : (bump o s).tb = s.tb := rfl
@[simp] theorem bump_ctxs (s : State) (o : Nat) : (bump o s).ctxs = s.ctxs := rfl
@[simp] theorem bump_cores (s : State) (o : Nat) : (bump o s).cores = s.cores := rfl
@[simp] theorem bump_lans (s : State) (o : Nat) : (bump o s).lans = s.lans := rfl
@[simp] theorem bump_hbm (s : State) (o : Nat) : (bump o s).hbm = s.hbm := rfl
@[simp] theorem bump_mcs (s : State) (o : Nat) : (bump o s).mcs = s.mcs := rfl
@[simp] theorem bump_mm (s : State) (o : Nat) : (bump o s).mm = s.mm := rfl
@[simp] theorem bump_cc (s : State) (o : Nat) : (bump o s).cc = s.cc := rfl
@[simp] theorem bump_cn (s : State) (o : Nat) : (bump o s).cn = s.cn := rfl
@[simp] theorem bump_ll (s : State) (o : Nat) : (bump o s).ll = s.ll := rfl
@[simp] theorem bump_sn (s : State) (o : Nat) : (bump o s).sn = s.sn := rfl
@[simp] theorem bump_dp (s : State) (o : Nat) : (bump o s).dp = s.dp := rfl
@[simp] theorem bump_hub (s : State) (o : Nat) : (bump o s).hub = s.hub := rfl
@[simp] theorem bump_ev (s : State) (o : Nat) : (bump o s).ev = s.ev := rfl
@[simp] theorem bump_bl (s : State) (o : Nat) : (bump o s).bl = s.bl := rfl
@[simp] theorem bump_tp (s : State) (o : Nat) : (bump o s).tp = s.tp := rfl
@[simp] theorem bump_wk (s : State) (o : Nat) : (bump o s).wk = s.wk := rfl
@[simp] theorem bump_ms (s : State) (o : Nat) : (bump o s).ms = s.ms := rfl
@[simp] theorem bump_hi (s : State) (o : Nat) : (bump o s).hi = s.hi := rfl
@[simp] theorem bump_mg (s : State) (o : Nat) : (bump o s).mg = s.mg := rfl
@[simp] theorem bump_er (s : State) (o : Nat) : (bump o s).er = s.er := rfl
@[simp] theorem bump_pw (s : State) (o : Nat) : (bump o s).pw = s.pw := rfl
@[simp] theorem bump_tap (s : State) (o : Nat) : (bump o s).tap = s.tap := rfl
@[simp] theorem bump_pf (s : State) (o : Nat) : (bump o s).pf = s.pf := rfl
@[simp] theorem bump_out (s : State) (o : Nat) : (bump o s).out = s.out := rfl
@[simp] theorem bump_recs (s : State) (o : Nat) : (bump o s).recs = s.recs := rfl
@[simp] theorem bump_strike (s : State) (o : Nat) : (bump o s).strike = s.strike := rfl
@[simp] theorem bump_miss (s : State) (o : Nat) : (bump o s).miss = s.miss := rfl
@[simp] theorem bump_freeCtr (s : State) (o : Nat) : (bump o s).freeCtr = s.freeCtr := rfl

/-! ### setCounter -/

@[simp] theorem setCounter_pending (s : State) (o : Nat) (v : Word) : (setCounter o v s).pending = s.pending := rfl
@[simp] theorem setCounter_build (s : State) (o : Nat) (v : Word) : (setCounter o v s).build = s.build := rfl
@[simp] theorem setCounter_node (s : State) (o : Nat) (v : Word) : (setCounter o v s).node = s.node := rfl
@[simp] theorem setCounter_time (s : State) (o : Nat) (v : Word) : (setCounter o v s).time = s.time := rfl
@[simp] theorem setCounter_tb (s : State) (o : Nat) (v : Word) : (setCounter o v s).tb = s.tb := rfl
@[simp] theorem setCounter_ctxs (s : State) (o : Nat) (v : Word) : (setCounter o v s).ctxs = s.ctxs := rfl
@[simp] theorem setCounter_cores (s : State) (o : Nat) (v : Word) : (setCounter o v s).cores = s.cores := rfl
@[simp] theorem setCounter_lans (s : State) (o : Nat) (v : Word) : (setCounter o v s).lans = s.lans := rfl
@[simp] theorem setCounter_hbm (s : State) (o : Nat) (v : Word) : (setCounter o v s).hbm = s.hbm := rfl
@[simp] theorem setCounter_mcs (s : State) (o : Nat) (v : Word) : (setCounter o v s).mcs = s.mcs := rfl
@[simp] theorem setCounter_mm (s : State) (o : Nat) (v : Word) : (setCounter o v s).mm = s.mm := rfl
@[simp] theorem setCounter_cc (s : State) (o : Nat) (v : Word) : (setCounter o v s).cc = s.cc := rfl
@[simp] theorem setCounter_cn (s : State) (o : Nat) (v : Word) : (setCounter o v s).cn = s.cn := rfl
@[simp] theorem setCounter_ll (s : State) (o : Nat) (v : Word) : (setCounter o v s).ll = s.ll := rfl
@[simp] theorem setCounter_sn (s : State) (o : Nat) (v : Word) : (setCounter o v s).sn = s.sn := rfl
@[simp] theorem setCounter_dp (s : State) (o : Nat) (v : Word) : (setCounter o v s).dp = s.dp := rfl
@[simp] theorem setCounter_hub (s : State) (o : Nat) (v : Word) : (setCounter o v s).hub = s.hub := rfl
@[simp] theorem setCounter_ev (s : State) (o : Nat) (v : Word) : (setCounter o v s).ev = s.ev := rfl
@[simp] theorem setCounter_bl (s : State) (o : Nat) (v : Word) : (setCounter o v s).bl = s.bl := rfl
@[simp] theorem setCounter_tp (s : State) (o : Nat) (v : Word) : (setCounter o v s).tp = s.tp := rfl
@[simp] theorem setCounter_wk (s : State) (o : Nat) (v : Word) : (setCounter o v s).wk = s.wk := rfl
@[simp] theorem setCounter_ms (s : State) (o : Nat) (v : Word) : (setCounter o v s).ms = s.ms := rfl
@[simp] theorem setCounter_hi (s : State) (o : Nat) (v : Word) : (setCounter o v s).hi = s.hi := rfl
@[simp] theorem setCounter_mg (s : State) (o : Nat) (v : Word) : (setCounter o v s).mg = s.mg := rfl
@[simp] theorem setCounter_er (s : State) (o : Nat) (v : Word) : (setCounter o v s).er = s.er := rfl
@[simp] theorem setCounter_pw (s : State) (o : Nat) (v : Word) : (setCounter o v s).pw = s.pw := rfl
@[simp] theorem setCounter_tap (s : State) (o : Nat) (v : Word) : (setCounter o v s).tap = s.tap := rfl
@[simp] theorem setCounter_pf (s : State) (o : Nat) (v : Word) : (setCounter o v s).pf = s.pf := rfl
@[simp] theorem setCounter_out (s : State) (o : Nat) (v : Word) : (setCounter o v s).out = s.out := rfl
@[simp] theorem setCounter_recs (s : State) (o : Nat) (v : Word) : (setCounter o v s).recs = s.recs := rfl
@[simp] theorem setCounter_strike (s : State) (o : Nat) (v : Word) : (setCounter o v s).strike = s.strike := rfl
@[simp] theorem setCounter_miss (s : State) (o : Nat) (v : Word) : (setCounter o v s).miss = s.miss := rfl
@[simp] theorem setCounter_freeCtr (s : State) (o : Nat) (v : Word) : (setCounter o v s).freeCtr = s.freeCtr := rfl

/-! ### clearCounters -/

@[simp] theorem clearCounters_pending (s : State) (lo hi : Nat) : (clearCounters lo hi s).pending = s.pending := rfl
@[simp] theorem clearCounters_build (s : State) (lo hi : Nat) : (clearCounters lo hi s).build = s.build := rfl
@[simp] theorem clearCounters_node (s : State) (lo hi : Nat) : (clearCounters lo hi s).node = s.node := rfl
@[simp] theorem clearCounters_time (s : State) (lo hi : Nat) : (clearCounters lo hi s).time = s.time := rfl
@[simp] theorem clearCounters_tb (s : State) (lo hi : Nat) : (clearCounters lo hi s).tb = s.tb := rfl
@[simp] theorem clearCounters_ctxs (s : State) (lo hi : Nat) : (clearCounters lo hi s).ctxs = s.ctxs := rfl
@[simp] theorem clearCounters_cores (s : State) (lo hi : Nat) : (clearCounters lo hi s).cores = s.cores := rfl
@[simp] theorem clearCounters_lans (s : State) (lo hi : Nat) : (clearCounters lo hi s).lans = s.lans := rfl
@[simp] theorem clearCounters_hbm (s : State) (lo hi : Nat) : (clearCounters lo hi s).hbm = s.hbm := rfl
@[simp] theorem clearCounters_mcs (s : State) (lo hi : Nat) : (clearCounters lo hi s).mcs = s.mcs := rfl
@[simp] theorem clearCounters_mm (s : State) (lo hi : Nat) : (clearCounters lo hi s).mm = s.mm := rfl
@[simp] theorem clearCounters_cc (s : State) (lo hi : Nat) : (clearCounters lo hi s).cc = s.cc := rfl
@[simp] theorem clearCounters_cn (s : State) (lo hi : Nat) : (clearCounters lo hi s).cn = s.cn := rfl
@[simp] theorem clearCounters_ll (s : State) (lo hi : Nat) : (clearCounters lo hi s).ll = s.ll := rfl
@[simp] theorem clearCounters_sn (s : State) (lo hi : Nat) : (clearCounters lo hi s).sn = s.sn := rfl
@[simp] theorem clearCounters_dp (s : State) (lo hi : Nat) : (clearCounters lo hi s).dp = s.dp := rfl
@[simp] theorem clearCounters_hub (s : State) (lo hi : Nat) : (clearCounters lo hi s).hub = s.hub := rfl
@[simp] theorem clearCounters_ev (s : State) (lo hi : Nat) : (clearCounters lo hi s).ev = s.ev := rfl
@[simp] theorem clearCounters_bl (s : State) (lo hi : Nat) : (clearCounters lo hi s).bl = s.bl := rfl
@[simp] theorem clearCounters_tp (s : State) (lo hi : Nat) : (clearCounters lo hi s).tp = s.tp := rfl
@[simp] theorem clearCounters_wk (s : State) (lo hi : Nat) : (clearCounters lo hi s).wk = s.wk := rfl
@[simp] theorem clearCounters_ms (s : State) (lo hi : Nat) : (clearCounters lo hi s).ms = s.ms := rfl
@[simp] theorem clearCounters_hi (s : State) (lo hi : Nat) : (clearCounters lo hi s).hi = s.hi := rfl
@[simp] theorem clearCounters_er (s : State) (lo hi : Nat) : (clearCounters lo hi s).er = s.er := rfl
@[simp] theorem clearCounters_pw (s : State) (lo hi : Nat) : (clearCounters lo hi s).pw = s.pw := rfl
@[simp] theorem clearCounters_tap (s : State) (lo hi : Nat) : (clearCounters lo hi s).tap = s.tap := rfl
@[simp] theorem clearCounters_pf (s : State) (lo hi : Nat) : (clearCounters lo hi s).pf = s.pf := rfl
@[simp] theorem clearCounters_out (s : State) (lo hi : Nat) : (clearCounters lo hi s).out = s.out := rfl
@[simp] theorem clearCounters_recs (s : State) (lo hi : Nat) : (clearCounters lo hi s).recs = s.recs := rfl
@[simp] theorem clearCounters_strike (s : State) (lo hi : Nat) : (clearCounters lo hi s).strike = s.strike := rfl
@[simp] theorem clearCounters_miss (s : State) (lo hi : Nat) : (clearCounters lo hi s).miss = s.miss := rfl
@[simp] theorem clearCounters_freeCtr (s : State) (lo hi : Nat) : (clearCounters lo hi s).freeCtr = s.freeCtr := rfl

/-! ### record -/

@[simp] theorem record_pending (s : State) (v : BitVec 2) (r : BitVec 8) (y : BitVec 16) (a b c d : BitVec 64) (e : BitVec 32) : (record v r y a b c d e s).pending = s.pending := rfl
@[simp] theorem record_build (s : State) (v : BitVec 2) (r : BitVec 8) (y : BitVec 16) (a b c d : BitVec 64) (e : BitVec 32) : (record v r y a b c d e s).build = s.build := rfl
@[simp] theorem record_node (s : State) (v : BitVec 2) (r : BitVec 8) (y : BitVec 16) (a b c d : BitVec 64) (e : BitVec 32) : (record v r y a b c d e s).node = s.node := rfl
@[simp] theorem record_time (s : State) (v : BitVec 2) (r : BitVec 8) (y : BitVec 16) (a b c d : BitVec 64) (e : BitVec 32) : (record v r y a b c d e s).time = s.time := rfl
@[simp] theorem record_tb (s : State) (v : BitVec 2) (r : BitVec 8) (y : BitVec 16) (a b c d : BitVec 64) (e : BitVec 32) : (record v r y a b c d e s).tb = s.tb := rfl
@[simp] theorem record_cnt (s : State) (v : BitVec 2) (r : BitVec 8) (y : BitVec 16) (a b c d : BitVec 64) (e : BitVec 32) : (record v r y a b c d e s).cnt = s.cnt := rfl
@[simp] theorem record_ctxs (s : State) (v : BitVec 2) (r : BitVec 8) (y : BitVec 16) (a b c d : BitVec 64) (e : BitVec 32) : (record v r y a b c d e s).ctxs = s.ctxs := rfl
@[simp] theorem record_cores (s : State) (v : BitVec 2) (r : BitVec 8) (y : BitVec 16) (a b c d : BitVec 64) (e : BitVec 32) : (record v r y a b c d e s).cores = s.cores := rfl
@[simp] theorem record_lans (s : State) (v : BitVec 2) (r : BitVec 8) (y : BitVec 16) (a b c d : BitVec 64) (e : BitVec 32) : (record v r y a b c d e s).lans = s.lans := rfl
@[simp] theorem record_hbm (s : State) (v : BitVec 2) (r : BitVec 8) (y : BitVec 16) (a b c d : BitVec 64) (e : BitVec 32) : (record v r y a b c d e s).hbm = s.hbm := rfl
@[simp] theorem record_mcs (s : State) (v : BitVec 2) (r : BitVec 8) (y : BitVec 16) (a b c d : BitVec 64) (e : BitVec 32) : (record v r y a b c d e s).mcs = s.mcs := rfl
@[simp] theorem record_mm (s : State) (v : BitVec 2) (r : BitVec 8) (y : BitVec 16) (a b c d : BitVec 64) (e : BitVec 32) : (record v r y a b c d e s).mm = s.mm := rfl
@[simp] theorem record_cc (s : State) (v : BitVec 2) (r : BitVec 8) (y : BitVec 16) (a b c d : BitVec 64) (e : BitVec 32) : (record v r y a b c d e s).cc = s.cc := rfl
@[simp] theorem record_cn (s : State) (v : BitVec 2) (r : BitVec 8) (y : BitVec 16) (a b c d : BitVec 64) (e : BitVec 32) : (record v r y a b c d e s).cn = s.cn := rfl
@[simp] theorem record_ll (s : State) (v : BitVec 2) (r : BitVec 8) (y : BitVec 16) (a b c d : BitVec 64) (e : BitVec 32) : (record v r y a b c d e s).ll = s.ll := rfl
@[simp] theorem record_sn (s : State) (v : BitVec 2) (r : BitVec 8) (y : BitVec 16) (a b c d : BitVec 64) (e : BitVec 32) : (record v r y a b c d e s).sn = s.sn := rfl
@[simp] theorem record_dp (s : State) (v : BitVec 2) (r : BitVec 8) (y : BitVec 16) (a b c d : BitVec 64) (e : BitVec 32) : (record v r y a b c d e s).dp = s.dp := rfl
@[simp] theorem record_hub (s : State) (v : BitVec 2) (r : BitVec 8) (y : BitVec 16) (a b c d : BitVec 64) (e : BitVec 32) : (record v r y a b c d e s).hub = s.hub := rfl
@[simp] theorem record_ev (s : State) (v : BitVec 2) (r : BitVec 8) (y : BitVec 16) (a b c d : BitVec 64) (e : BitVec 32) : (record v r y a b c d e s).ev = s.ev := rfl
@[simp] theorem record_bl (s : State) (v : BitVec 2) (r : BitVec 8) (y : BitVec 16) (a b c d : BitVec 64) (e : BitVec 32) : (record v r y a b c d e s).bl = s.bl := rfl
@[simp] theorem record_tp (s : State) (v : BitVec 2) (r : BitVec 8) (y : BitVec 16) (a b c d : BitVec 64) (e : BitVec 32) : (record v r y a b c d e s).tp = s.tp := rfl
@[simp] theorem record_wk (s : State) (v : BitVec 2) (r : BitVec 8) (y : BitVec 16) (a b c d : BitVec 64) (e : BitVec 32) : (record v r y a b c d e s).wk = s.wk := rfl
@[simp] theorem record_ms (s : State) (v : BitVec 2) (r : BitVec 8) (y : BitVec 16) (a b c d : BitVec 64) (e : BitVec 32) : (record v r y a b c d e s).ms = s.ms := rfl
@[simp] theorem record_hi (s : State) (v : BitVec 2) (r : BitVec 8) (y : BitVec 16) (a b c d : BitVec 64) (e : BitVec 32) : (record v r y a b c d e s).hi = s.hi := rfl
@[simp] theorem record_mg (s : State) (v : BitVec 2) (r : BitVec 8) (y : BitVec 16) (a b c d : BitVec 64) (e : BitVec 32) : (record v r y a b c d e s).mg = s.mg := rfl
@[simp] theorem record_er (s : State) (v : BitVec 2) (r : BitVec 8) (y : BitVec 16) (a b c d : BitVec 64) (e : BitVec 32) : (record v r y a b c d e s).er = s.er := rfl
@[simp] theorem record_pw (s : State) (v : BitVec 2) (r : BitVec 8) (y : BitVec 16) (a b c d : BitVec 64) (e : BitVec 32) : (record v r y a b c d e s).pw = s.pw := rfl
@[simp] theorem record_tap (s : State) (v : BitVec 2) (r : BitVec 8) (y : BitVec 16) (a b c d : BitVec 64) (e : BitVec 32) : (record v r y a b c d e s).tap = s.tap := rfl
@[simp] theorem record_pf (s : State) (v : BitVec 2) (r : BitVec 8) (y : BitVec 16) (a b c d : BitVec 64) (e : BitVec 32) : (record v r y a b c d e s).pf = s.pf := rfl
@[simp] theorem record_out (s : State) (v : BitVec 2) (r : BitVec 8) (y : BitVec 16) (a b c d : BitVec 64) (e : BitVec 32) : (record v r y a b c d e s).out = s.out := rfl
@[simp] theorem record_strike (s : State) (v : BitVec 2) (r : BitVec 8) (y : BitVec 16) (a b c d : BitVec 64) (e : BitVec 32) : (record v r y a b c d e s).strike = s.strike := rfl
@[simp] theorem record_miss (s : State) (v : BitVec 2) (r : BitVec 8) (y : BitVec 16) (a b c d : BitVec 64) (e : BitVec 32) : (record v r y a b c d e s).miss = s.miss := rfl
@[simp] theorem record_freeCtr (s : State) (v : BitVec 2) (r : BitVec 8) (y : BitVec 16) (a b c d : BitVec 64) (e : BitVec 32) : (record v r y a b c d e s).freeCtr = s.freeCtr := rfl

/-! ### emit -/

@[simp] theorem emit_pending (s : State) (o : Out) : (emit o s).pending = s.pending := rfl
@[simp] theorem emit_build (s : State) (o : Out) : (emit o s).build = s.build := rfl
@[simp] theorem emit_node (s : State) (o : Out) : (emit o s).node = s.node := rfl
@[simp] theorem emit_time (s : State) (o : Out) : (emit o s).time = s.time := rfl
@[simp] theorem emit_tb (s : State) (o : Out) : (emit o s).tb = s.tb := rfl
@[simp] theorem emit_cnt (s : State) (o : Out) : (emit o s).cnt = s.cnt := rfl
@[simp] theorem emit_ctxs (s : State) (o : Out) : (emit o s).ctxs = s.ctxs := rfl
@[simp] theorem emit_cores (s : State) (o : Out) : (emit o s).cores = s.cores := rfl
@[simp] theorem emit_lans (s : State) (o : Out) : (emit o s).lans = s.lans := rfl
@[simp] theorem emit_hbm (s : State) (o : Out) : (emit o s).hbm = s.hbm := rfl
@[simp] theorem emit_mcs (s : State) (o : Out) : (emit o s).mcs = s.mcs := rfl
@[simp] theorem emit_mm (s : State) (o : Out) : (emit o s).mm = s.mm := rfl
@[simp] theorem emit_cc (s : State) (o : Out) : (emit o s).cc = s.cc := rfl
@[simp] theorem emit_cn (s : State) (o : Out) : (emit o s).cn = s.cn := rfl
@[simp] theorem emit_ll (s : State) (o : Out) : (emit o s).ll = s.ll := rfl
@[simp] theorem emit_sn (s : State) (o : Out) : (emit o s).sn = s.sn := rfl
@[simp] theorem emit_dp (s : State) (o : Out) : (emit o s).dp = s.dp := rfl
@[simp] theorem emit_hub (s : State) (o : Out) : (emit o s).hub = s.hub := rfl
@[simp] theorem emit_ev (s : State) (o : Out) : (emit o s).ev = s.ev := rfl
@[simp] theorem emit_bl (s : State) (o : Out) : (emit o s).bl = s.bl := rfl
@[simp] theorem emit_tp (s : State) (o : Out) : (emit o s).tp = s.tp := rfl
@[simp] theorem emit_wk (s : State) (o : Out) : (emit o s).wk = s.wk := rfl
@[simp] theorem emit_ms (s : State) (o : Out) : (emit o s).ms = s.ms := rfl
@[simp] theorem emit_hi (s : State) (o : Out) : (emit o s).hi = s.hi := rfl
@[simp] theorem emit_mg (s : State) (o : Out) : (emit o s).mg = s.mg := rfl
@[simp] theorem emit_er (s : State) (o : Out) : (emit o s).er = s.er := rfl
@[simp] theorem emit_pw (s : State) (o : Out) : (emit o s).pw = s.pw := rfl
@[simp] theorem emit_tap (s : State) (o : Out) : (emit o s).tap = s.tap := rfl
@[simp] theorem emit_pf (s : State) (o : Out) : (emit o s).pf = s.pf := rfl
@[simp] theorem emit_recs (s : State) (o : Out) : (emit o s).recs = s.recs := rfl
@[simp] theorem emit_strike (s : State) (o : Out) : (emit o s).strike = s.strike := rfl
@[simp] theorem emit_miss (s : State) (o : Out) : (emit o s).miss = s.miss := rfl
@[simp] theorem emit_freeCtr (s : State) (o : Out) : (emit o s).freeCtr = s.freeCtr := rfl

/-! ### Reads after writes -/

@[simp] theorem State.ctx_setCtx (s : State) (c : CtxId) (x : Ctx) : (s.setCtx c x).ctx c = x :=
  Tab.get_set_self _ _ _ _
theorem State.ctx_setCtx_ne (s : State) {c d : CtxId} (x : Ctx) (h : d ≠ c) : (s.setCtx c x).ctx d = s.ctx d :=
  Tab.get_set_ne _ _ _ fun e => h (BitVec.eq_of_toNat_eq e)
@[simp] theorem State.ctx_modCtx (s : State) (c : CtxId) (f : Ctx → Ctx) : (s.modCtx c f).ctx c = f (s.ctx c) :=
  State.ctx_setCtx s c _
theorem State.ctx_modCtx_ne (s : State) {c d : CtxId} (f : Ctx → Ctx) (h : d ≠ c) : (s.modCtx c f).ctx d = s.ctx d :=
  State.ctx_setCtx_ne s _ h

@[simp] theorem State.core_setCore (s : State) (c : CoreId) (x : CoreSt) : (s.setCore c x).core c = x :=
  Tab.get_set_self _ _ _ _
theorem State.core_setCore_ne (s : State) {c d : CoreId} (x : CoreSt) (h : d ≠ c) : (s.setCore c x).core d = s.core d :=
  Tab.get_set_ne _ _ _ fun e => h (BitVec.eq_of_toNat_eq e)
@[simp] theorem State.core_modCore (s : State) (c : CoreId) (f : CoreSt → CoreSt) : (s.modCore c f).core c = f (s.core c) :=
  State.core_setCore s c _
theorem State.core_modCore_ne (s : State) {c d : CoreId} (f : CoreSt → CoreSt) (h : d ≠ c) : (s.modCore c f).core d = s.core d :=
  State.core_setCore_ne s _ h

@[simp] theorem State.lan_setLan (s : State) (c : Lan) (x : LanSt) : (s.setLan c x).lan c = x :=
  Tab.get_set_self _ _ _ _
theorem State.lan_setLan_ne (s : State) {c d : Lan} (x : LanSt) (h : d ≠ c) : (s.setLan c x).lan d = s.lan d :=
  Tab.get_set_ne _ _ _ fun e => h (BitVec.eq_of_toNat_eq e)
@[simp] theorem State.lan_modLan (s : State) (c : Lan) (f : LanSt → LanSt) : (s.modLan c f).lan c = f (s.lan c) :=
  State.lan_setLan s c _
theorem State.lan_modLan_ne (s : State) {c d : Lan} (f : LanSt → LanSt) (h : d ≠ c) : (s.modLan c f).lan d = s.lan d :=
  State.lan_setLan_ne s _ h

@[simp] theorem State.mc_setMc (s : State) (c : Nat) (x : McSt) : (s.setMc c x).mc c = x :=
  Tab.get_set_self _ _ _ _
theorem State.mc_setMc_ne (s : State) {c d : Nat} (x : McSt) (h : d ≠ c) : (s.setMc c x).mc d = s.mc d :=
  Tab.get_set_ne _ _ _ h
@[simp] theorem State.mc_modMc (s : State) (c : Nat) (f : McSt → McSt) : (s.modMc c f).mc c = f (s.mc c) :=
  State.mc_setMc s c _
theorem State.mc_modMc_ne (s : State) {c d : Nat} (f : McSt → McSt) (h : d ≠ c) : (s.modMc c f).mc d = s.mc d :=
  State.mc_setMc_ne s _ h

@[simp] theorem State.slot_setSlot (s : State) (c : Nat) (x : CnSlot) : (s.setSlot c x).slot c = x :=
  Tab.get_set_self _ _ _ _
theorem State.slot_setSlot_ne (s : State) {c d : Nat} (x : CnSlot) (h : d ≠ c) : (s.setSlot c x).slot d = s.slot d :=
  Tab.get_set_ne _ _ _ h
@[simp] theorem State.slot_modSlot (s : State) (c : Nat) (f : CnSlot → CnSlot) : (s.modSlot c f).slot c = f (s.slot c) :=
  State.slot_setSlot s c _
theorem State.slot_modSlot_ne (s : State) {c d : Nat} (f : CnSlot → CnSlot) (h : d ≠ c) : (s.modSlot c f).slot d = s.slot d :=
  State.slot_setSlot_ne s _ h

@[simp] theorem State.event_setEvent (s : State) (c : Nat) (x : EvSt) : (s.setEvent c x).event c = x :=
  Tab.get_set_self _ _ _ _
theorem State.event_setEvent_ne (s : State) {c d : Nat} (x : EvSt) (h : d ≠ c) : (s.setEvent c x).event d = s.event d :=
  Tab.get_set_ne _ _ _ h
@[simp] theorem State.event_modEvent (s : State) (c : Nat) (f : EvSt → EvSt) : (s.modEvent c f).event c = f (s.event c) :=
  State.event_setEvent s c _
theorem State.event_modEvent_ne (s : State) {c d : Nat} (f : EvSt → EvSt) (h : d ≠ c) : (s.modEvent c f).event d = s.event d :=
  State.event_setEvent_ne s _ h

@[simp] theorem State.task_modTask (s : State) (i : Nat) (f : TaskD → TaskD) : (s.modTask i f).task i = f (s.task i) :=
  Tab.get_set_self _ _ _ _
theorem State.task_modTask_ne (s : State) {i j : Nat} (f : TaskD → TaskD) (h : j ≠ i) : (s.modTask i f).task j = s.task j :=
  Tab.get_set_ne _ _ _ h

@[simp] theorem counter_setCounter (s : State) (o : Nat) (v : Word) : (setCounter o v s).counter o = v :=
  Tab.get_set_self _ _ _ _
theorem counter_setCounter_ne (s : State) {o p : Nat} (v : Word) (h : p ≠ o) : (setCounter o v s).counter p = s.counter p :=
  Tab.get_set_ne _ _ _ h
theorem counter_bumpBy (s : State) (o n : Nat) :
    (bumpBy o n s).counter o = BitVec.ofNat 32 (min 0xFFFFFFFF ((s.counter o).toNat + n)) :=
  Tab.get_set_self _ _ _ _
theorem counter_bumpBy_ne (s : State) {o p : Nat} (n : Nat) (h : p ≠ o) : (bumpBy o n s).counter p = s.counter p :=
  Tab.get_set_ne _ _ _ h

@[simp] theorem State.setCtx_setCtx (s : State) (c : CtxId) (x y : Ctx) : (s.setCtx c x).setCtx c y = s.setCtx c y := by
  simp [State.setCtx]
@[simp] theorem State.modCtx_modCtx (s : State) (c : CtxId) (f g : Ctx → Ctx) :
    (s.modCtx c f).modCtx c g = s.modCtx c fun x => g (f x) := by
  simp [State.modCtx]

@[simp] theorem State.setCore_setCore (s : State) (c : CoreId) (x y : CoreSt) : (s.setCore c x).setCore c y = s.setCore c y := by
  simp [State.setCore]
@[simp] theorem State.modCore_modCore (s : State) (c : CoreId) (f g : CoreSt → CoreSt) :
    (s.modCore c f).modCore c g = s.modCore c fun x => g (f x) := by
  simp [State.modCore]

@[simp] theorem State.setLan_setLan (s : State) (c : Lan) (x y : LanSt) : (s.setLan c x).setLan c y = s.setLan c y := by
  simp [State.setLan]
@[simp] theorem State.modLan_modLan (s : State) (c : Lan) (f g : LanSt → LanSt) :
    (s.modLan c f).modLan c g = s.modLan c fun x => g (f x) := by
  simp [State.modLan]

@[simp] theorem State.setMc_setMc (s : State) (c : Nat) (x y : McSt) : (s.setMc c x).setMc c y = s.setMc c y := by
  simp [State.setMc]
@[simp] theorem State.modMc_modMc (s : State) (c : Nat) (f g : McSt → McSt) :
    (s.modMc c f).modMc c g = s.modMc c fun x => g (f x) := by
  simp [State.modMc]

@[simp] theorem State.setEvent_setEvent (s : State) (c : Nat) (x y : EvSt) : (s.setEvent c x).setEvent c y = s.setEvent c y := by
  simp [State.setEvent]
@[simp] theorem State.modEvent_modEvent (s : State) (c : Nat) (f g : EvSt → EvSt) :
    (s.modEvent c f).modEvent c g = s.modEvent c fun x => g (f x) := by
  simp [State.modEvent]

@[simp] theorem State.setSlot_setSlot (s : State) (c : Nat) (x y : CnSlot) : (s.setSlot c x).setSlot c y = s.setSlot c y := by
  simp [State.setSlot]
@[simp] theorem State.modSlot_modSlot (s : State) (c : Nat) (f g : CnSlot → CnSlot) :
    (s.modSlot c f).modSlot c g = s.modSlot c fun x => g (f x) := by
  simp [State.modSlot]

/-! ### Accessors across updates of other parts -/

@[simp] theorem State.setCtx_get_core (s : State) (c : CtxId) (x : Ctx) (q : CoreId) : (s.setCtx c x).core q = s.core q := rfl
@[simp] theorem State.setCtx_get_lan (s : State) (c : CtxId) (x : Ctx) (q : Lan) : (s.setCtx c x).lan q = s.lan q := rfl
@[simp] theorem State.setCtx_get_mc (s : State) (c : CtxId) (x : Ctx) (q : Nat) : (s.setCtx c x).mc q = s.mc q := rfl
@[simp] theorem State.setCtx_get_slot (s : State) (c : CtxId) (x : Ctx) (q : Nat) : (s.setCtx c x).slot q = s.slot q := rfl
@[simp] theorem State.setCtx_get_event (s : State) (c : CtxId) (x : Ctx) (q : Nat) : (s.setCtx c x).event q = s.event q := rfl
@[simp] theorem State.setCtx_get_task (s : State) (c : CtxId) (x : Ctx) (q : Nat) : (s.setCtx c x).task q = s.task q := rfl
@[simp] theorem State.setCtx_get_counter (s : State) (c : CtxId) (x : Ctx) (q : Nat) : (s.setCtx c x).counter q = s.counter q := rfl
@[simp] theorem State.modCtx_get_core (s : State) (c : CtxId) (f : Ctx → Ctx) (q : CoreId) : (s.modCtx c f).core q = s.core q := rfl
@[simp] theorem State.modCtx_get_lan (s : State) (c : CtxId) (f : Ctx → Ctx) (q : Lan) : (s.modCtx c f).lan q = s.lan q := rfl
@[simp] theorem State.modCtx_get_mc (s : State) (c : CtxId) (f : Ctx → Ctx) (q : Nat) : (s.modCtx c f).mc q = s.mc q := rfl
@[simp] theorem State.modCtx_get_slot (s : State) (c : CtxId) (f : Ctx → Ctx) (q : Nat) : (s.modCtx c f).slot q = s.slot q := rfl
@[simp] theorem State.modCtx_get_event (s : State) (c : CtxId) (f : Ctx → Ctx) (q : Nat) : (s.modCtx c f).event q = s.event q := rfl
@[simp] theorem State.modCtx_get_task (s : State) (c : CtxId) (f : Ctx → Ctx) (q : Nat) : (s.modCtx c f).task q = s.task q := rfl
@[simp] theorem State.modCtx_get_counter (s : State) (c : CtxId) (f : Ctx → Ctx) (q : Nat) : (s.modCtx c f).counter q = s.counter q := rfl
@[simp] theorem State.setCore_get_ctx (s : State) (k : CoreId) (x : CoreSt) (q : CtxId) : (s.setCore k x).ctx q = s.ctx q := rfl
@[simp] theorem State.setCore_get_lan (s : State) (k : CoreId) (x : CoreSt) (q : Lan) : (s.setCore k x).lan q = s.lan q := rfl
@[simp] theorem State.setCore_get_mc (s : State) (k : CoreId) (x : CoreSt) (q : Nat) : (s.setCore k x).mc q = s.mc q := rfl
@[simp] theorem State.setCore_get_slot (s : State) (k : CoreId) (x : CoreSt) (q : Nat) : (s.setCore k x).slot q = s.slot q := rfl
@[simp] theorem State.setCore_get_event (s : State) (k : CoreId) (x : CoreSt) (q : Nat) : (s.setCore k x).event q = s.event q := rfl
@[simp] theorem State.setCore_get_task (s : State) (k : CoreId) (x : CoreSt) (q : Nat) : (s.setCore k x).task q = s.task q := rfl
@[simp] theorem State.setCore_get_counter (s : State) (k : CoreId) (x : CoreSt) (q : Nat) : (s.setCore k x).counter q = s.counter q := rfl
@[simp] theorem State.modCore_get_ctx (s : State) (k : CoreId) (f : CoreSt → CoreSt) (q : CtxId) : (s.modCore k f).ctx q = s.ctx q := rfl
@[simp] theorem State.modCore_get_lan (s : State) (k : CoreId) (f : CoreSt → CoreSt) (q : Lan) : (s.modCore k f).lan q = s.lan q := rfl
@[simp] theorem State.modCore_get_mc (s : State) (k : CoreId) (f : CoreSt → CoreSt) (q : Nat) : (s.modCore k f).mc q = s.mc q := rfl
@[simp] theorem State.modCore_get_slot (s : State) (k : CoreId) (f : CoreSt → CoreSt) (q : Nat) : (s.modCore k f).slot q = s.slot q := rfl
@[simp] theorem State.modCore_get_event (s : State) (k : CoreId) (f : CoreSt → CoreSt) (q : Nat) : (s.modCore k f).event q = s.event q := rfl
@[simp] theorem State.modCore_get_task (s : State) (k : CoreId) (f : CoreSt → CoreSt) (q : Nat) : (s.modCore k f).task q = s.task q := rfl
@[simp] theorem State.modCore_get_counter (s : State) (k : CoreId) (f : CoreSt → CoreSt) (q : Nat) : (s.modCore k f).counter q = s.counter q := rfl
@[simp] theorem State.setLan_get_ctx (s : State) (l : Lan) (x : LanSt) (q : CtxId) : (s.setLan l x).ctx q = s.ctx q := rfl
@[simp] theorem State.setLan_get_core (s : State) (l : Lan) (x : LanSt) (q : CoreId) : (s.setLan l x).core q = s.core q := rfl
@[simp] theorem State.setLan_get_mc (s : State) (l : Lan) (x : LanSt) (q : Nat) : (s.setLan l x).mc q = s.mc q := rfl
@[simp] theorem State.setLan_get_slot (s : State) (l : Lan) (x : LanSt) (q : Nat) : (s.setLan l x).slot q = s.slot q := rfl
@[simp] theorem State.setLan_get_event (s : State) (l : Lan) (x : LanSt) (q : Nat) : (s.setLan l x).event q = s.event q := rfl
@[simp] theorem State.setLan_get_task (s : State) (l : Lan) (x : LanSt) (q : Nat) : (s.setLan l x).task q = s.task q := rfl
@[simp] theorem State.setLan_get_counter (s : State) (l : Lan) (x : LanSt) (q : Nat) : (s.setLan l x).counter q = s.counter q := rfl
@[simp] theorem State.modLan_get_ctx (s : State) (l : Lan) (f : LanSt → LanSt) (q : CtxId) : (s.modLan l f).ctx q = s.ctx q := rfl
@[simp] theorem State.modLan_get_core (s : State) (l : Lan) (f : LanSt → LanSt) (q : CoreId) : (s.modLan l f).core q = s.core q := rfl
@[simp] theorem State.modLan_get_mc (s : State) (l : Lan) (f : LanSt → LanSt) (q : Nat) : (s.modLan l f).mc q = s.mc q := rfl
@[simp] theorem State.modLan_get_slot (s : State) (l : Lan) (f : LanSt → LanSt) (q : Nat) : (s.modLan l f).slot q = s.slot q := rfl
@[simp] theorem State.modLan_get_event (s : State) (l : Lan) (f : LanSt → LanSt) (q : Nat) : (s.modLan l f).event q = s.event q := rfl
@[simp] theorem State.modLan_get_task (s : State) (l : Lan) (f : LanSt → LanSt) (q : Nat) : (s.modLan l f).task q = s.task q := rfl
@[simp] theorem State.modLan_get_counter (s : State) (l : Lan) (f : LanSt → LanSt) (q : Nat) : (s.modLan l f).counter q = s.counter q := rfl
@[simp] theorem State.setMc_get_ctx (s : State) (c : Nat) (x : McSt) (q : CtxId) : (s.setMc c x).ctx q = s.ctx q := rfl
@[simp] theorem State.setMc_get_core (s : State) (c : Nat) (x : McSt) (q : CoreId) : (s.setMc c x).core q = s.core q := rfl
@[simp] theorem State.setMc_get_lan (s : State) (c : Nat) (x : McSt) (q : Lan) : (s.setMc c x).lan q = s.lan q := rfl
@[simp] theorem State.setMc_get_slot (s : State) (c : Nat) (x : McSt) (q : Nat) : (s.setMc c x).slot q = s.slot q := rfl
@[simp] theorem State.setMc_get_event (s : State) (c : Nat) (x : McSt) (q : Nat) : (s.setMc c x).event q = s.event q := rfl
@[simp] theorem State.setMc_get_task (s : State) (c : Nat) (x : McSt) (q : Nat) : (s.setMc c x).task q = s.task q := rfl
@[simp] theorem State.setMc_get_counter (s : State) (c : Nat) (x : McSt) (q : Nat) : (s.setMc c x).counter q = s.counter q := rfl
@[simp] theorem State.modMc_get_ctx (s : State) (c : Nat) (f : McSt → McSt) (q : CtxId) : (s.modMc c f).ctx q = s.ctx q := rfl
@[simp] theorem State.modMc_get_core (s : State) (c : Nat) (f : McSt → McSt) (q : CoreId) : (s.modMc c f).core q = s.core q := rfl
@[simp] theorem State.modMc_get_lan (s : State) (c : Nat) (f : McSt → McSt) (q : Lan) : (s.modMc c f).lan q = s.lan q := rfl
@[simp] theorem State.modMc_get_slot (s : State) (c : Nat) (f : McSt → McSt) (q : Nat) : (s.modMc c f).slot q = s.slot q := rfl
@[simp] theorem State.modMc_get_event (s : State) (c : Nat) (f : McSt → McSt) (q : Nat) : (s.modMc c f).event q = s.event q := rfl
@[simp] theorem State.modMc_get_task (s : State) (c : Nat) (f : McSt → McSt) (q : Nat) : (s.modMc c f).task q = s.task q := rfl
@[simp] theorem State.modMc_get_counter (s : State) (c : Nat) (f : McSt → McSt) (q : Nat) : (s.modMc c f).counter q = s.counter q := rfl
@[simp] theorem State.setSlot_get_ctx (s : State) (i : Nat) (x : CnSlot) (q : CtxId) : (s.setSlot i x).ctx q = s.ctx q := rfl
@[simp] theorem State.setSlot_get_core (s : State) (i : Nat) (x : CnSlot) (q : CoreId) : (s.setSlot i x).core q = s.core q := rfl
@[simp] theorem State.setSlot_get_lan (s : State) (i : Nat) (x : CnSlot) (q : Lan) : (s.setSlot i x).lan q = s.lan q := rfl
@[simp] theorem State.setSlot_get_mc (s : State) (i : Nat) (x : CnSlot) (q : Nat) : (s.setSlot i x).mc q = s.mc q := rfl
@[simp] theorem State.setSlot_get_event (s : State) (i : Nat) (x : CnSlot) (q : Nat) : (s.setSlot i x).event q = s.event q := rfl
@[simp] theorem State.setSlot_get_task (s : State) (i : Nat) (x : CnSlot) (q : Nat) : (s.setSlot i x).task q = s.task q := rfl
@[simp] theorem State.setSlot_get_counter (s : State) (i : Nat) (x : CnSlot) (q : Nat) : (s.setSlot i x).counter q = s.counter q := rfl
@[simp] theorem State.modSlot_get_ctx (s : State) (i : Nat) (f : CnSlot → CnSlot) (q : CtxId) : (s.modSlot i f).ctx q = s.ctx q := rfl
@[simp] theorem State.modSlot_get_core (s : State) (i : Nat) (f : CnSlot → CnSlot) (q : CoreId) : (s.modSlot i f).core q = s.core q := rfl
@[simp] theorem State.modSlot_get_lan (s : State) (i : Nat) (f : CnSlot → CnSlot) (q : Lan) : (s.modSlot i f).lan q = s.lan q := rfl
@[simp] theorem State.modSlot_get_mc (s : State) (i : Nat) (f : CnSlot → CnSlot) (q : Nat) : (s.modSlot i f).mc q = s.mc q := rfl
@[simp] theorem State.modSlot_get_event (s : State) (i : Nat) (f : CnSlot → CnSlot) (q : Nat) : (s.modSlot i f).event q = s.event q := rfl
@[simp] theorem State.modSlot_get_task (s : State) (i : Nat) (f : CnSlot → CnSlot) (q : Nat) : (s.modSlot i f).task q = s.task q := rfl
@[simp] theorem State.modSlot_get_counter (s : State) (i : Nat) (f : CnSlot → CnSlot) (q : Nat) : (s.modSlot i f).counter q = s.counter q := rfl
@[simp] theorem State.setEvent_get_ctx (s : State) (i : Nat) (x : EvSt) (q : CtxId) : (s.setEvent i x).ctx q = s.ctx q := rfl
@[simp] theorem State.setEvent_get_core (s : State) (i : Nat) (x : EvSt) (q : CoreId) : (s.setEvent i x).core q = s.core q := rfl
@[simp] theorem State.setEvent_get_lan (s : State) (i : Nat) (x : EvSt) (q : Lan) : (s.setEvent i x).lan q = s.lan q := rfl
@[simp] theorem State.setEvent_get_mc (s : State) (i : Nat) (x : EvSt) (q : Nat) : (s.setEvent i x).mc q = s.mc q := rfl
@[simp] theorem State.setEvent_get_slot (s : State) (i : Nat) (x : EvSt) (q : Nat) : (s.setEvent i x).slot q = s.slot q := rfl
@[simp] theorem State.setEvent_get_task (s : State) (i : Nat) (x : EvSt) (q : Nat) : (s.setEvent i x).task q = s.task q := rfl
@[simp] theorem State.setEvent_get_counter (s : State) (i : Nat) (x : EvSt) (q : Nat) : (s.setEvent i x).counter q = s.counter q := rfl
@[simp] theorem State.modEvent_get_ctx (s : State) (i : Nat) (f : EvSt → EvSt) (q : CtxId) : (s.modEvent i f).ctx q = s.ctx q := rfl
@[simp] theorem State.modEvent_get_core (s : State) (i : Nat) (f : EvSt → EvSt) (q : CoreId) : (s.modEvent i f).core q = s.core q := rfl
@[simp] theorem State.modEvent_get_lan (s : State) (i : Nat) (f : EvSt → EvSt) (q : Lan) : (s.modEvent i f).lan q = s.lan q := rfl
@[simp] theorem State.modEvent_get_mc (s : State) (i : Nat) (f : EvSt → EvSt) (q : Nat) : (s.modEvent i f).mc q = s.mc q := rfl
@[simp] theorem State.modEvent_get_slot (s : State) (i : Nat) (f : EvSt → EvSt) (q : Nat) : (s.modEvent i f).slot q = s.slot q := rfl
@[simp] theorem State.modEvent_get_task (s : State) (i : Nat) (f : EvSt → EvSt) (q : Nat) : (s.modEvent i f).task q = s.task q := rfl
@[simp] theorem State.modEvent_get_counter (s : State) (i : Nat) (f : EvSt → EvSt) (q : Nat) : (s.modEvent i f).counter q = s.counter q := rfl
@[simp] theorem State.modTask_get_ctx (s : State) (i : Nat) (f : TaskD → TaskD) (q : CtxId) : (s.modTask i f).ctx q = s.ctx q := rfl
@[simp] theorem State.modTask_get_core (s : State) (i : Nat) (f : TaskD → TaskD) (q : CoreId) : (s.modTask i f).core q = s.core q := rfl
@[simp] theorem State.modTask_get_lan (s : State) (i : Nat) (f : TaskD → TaskD) (q : Lan) : (s.modTask i f).lan q = s.lan q := rfl
@[simp] theorem State.modTask_get_mc (s : State) (i : Nat) (f : TaskD → TaskD) (q : Nat) : (s.modTask i f).mc q = s.mc q := rfl
@[simp] theorem State.modTask_get_slot (s : State) (i : Nat) (f : TaskD → TaskD) (q : Nat) : (s.modTask i f).slot q = s.slot q := rfl
@[simp] theorem State.modTask_get_event (s : State) (i : Nat) (f : TaskD → TaskD) (q : Nat) : (s.modTask i f).event q = s.event q := rfl
@[simp] theorem State.modTask_get_counter (s : State) (i : Nat) (f : TaskD → TaskD) (q : Nat) : (s.modTask i f).counter q = s.counter q := rfl
@[simp] theorem bumpBy_get_ctx (s : State) (o n : Nat) (q : CtxId) : (bumpBy o n s).ctx q = s.ctx q := rfl
@[simp] theorem bumpBy_get_core (s : State) (o n : Nat) (q : CoreId) : (bumpBy o n s).core q = s.core q := rfl
@[simp] theorem bumpBy_get_lan (s : State) (o n : Nat) (q : Lan) : (bumpBy o n s).lan q = s.lan q := rfl
@[simp] theorem bumpBy_get_mc (s : State) (o n : Nat) (q : Nat) : (bumpBy o n s).mc q = s.mc q := rfl
@[simp] theorem bumpBy_get_slot (s : State) (o n : Nat) (q : Nat) : (bumpBy o n s).slot q = s.slot q := rfl
@[simp] theorem bumpBy_get_event (s : State) (o n : Nat) (q : Nat) : (bumpBy o n s).event q = s.event q := rfl
@[simp] theorem bumpBy_get_task (s : State) (o n : Nat) (q : Nat) : (bumpBy o n s).task q = s.task q := rfl
@[simp] theorem bump_get_ctx (s : State) (o : Nat) (q : CtxId) : (bump o s).ctx q = s.ctx q := rfl
@[simp] theorem bump_get_core (s : State) (o : Nat) (q : CoreId) : (bump o s).core q = s.core q := rfl
@[simp] theorem bump_get_lan (s : State) (o : Nat) (q : Lan) : (bump o s).lan q = s.lan q := rfl
@[simp] theorem bump_get_mc (s : State) (o : Nat) (q : Nat) : (bump o s).mc q = s.mc q := rfl
@[simp] theorem bump_get_slot (s : State) (o : Nat) (q : Nat) : (bump o s).slot q = s.slot q := rfl
@[simp] theorem bump_get_event (s : State) (o : Nat) (q : Nat) : (bump o s).event q = s.event q := rfl
@[simp] theorem bump_get_task (s : State) (o : Nat) (q : Nat) : (bump o s).task q = s.task q := rfl
@[simp] theorem setCounter_get_ctx (s : State) (o : Nat) (v : Word) (q : CtxId) : (setCounter o v s).ctx q = s.ctx q := rfl
@[simp] theorem setCounter_get_core (s : State) (o : Nat) (v : Word) (q : CoreId) : (setCounter o v s).core q = s.core q := rfl
@[simp] theorem setCounter_get_lan (s : State) (o : Nat) (v : Word) (q : Lan) : (setCounter o v s).lan q = s.lan q := rfl
@[simp] theorem setCounter_get_mc (s : State) (o : Nat) (v : Word) (q : Nat) : (setCounter o v s).mc q = s.mc q := rfl
@[simp] theorem setCounter_get_slot (s : State) (o : Nat) (v : Word) (q : Nat) : (setCounter o v s).slot q = s.slot q := rfl
@[simp] theorem setCounter_get_event (s : State) (o : Nat) (v : Word) (q : Nat) : (setCounter o v s).event q = s.event q := rfl
@[simp] theorem setCounter_get_task (s : State) (o : Nat) (v : Word) (q : Nat) : (setCounter o v s).task q = s.task q := rfl
@[simp] theorem clearCounters_get_ctx (s : State) (lo hi : Nat) (q : CtxId) : (clearCounters lo hi s).ctx q = s.ctx q := rfl
@[simp] theorem clearCounters_get_core (s : State) (lo hi : Nat) (q : CoreId) : (clearCounters lo hi s).core q = s.core q := rfl
@[simp] theorem clearCounters_get_lan (s : State) (lo hi : Nat) (q : Lan) : (clearCounters lo hi s).lan q = s.lan q := rfl
@[simp] theorem clearCounters_get_mc (s : State) (lo hi : Nat) (q : Nat) : (clearCounters lo hi s).mc q = s.mc q := rfl
@[simp] theorem clearCounters_get_slot (s : State) (lo hi : Nat) (q : Nat) : (clearCounters lo hi s).slot q = s.slot q := rfl
@[simp] theorem clearCounters_get_event (s : State) (lo hi : Nat) (q : Nat) : (clearCounters lo hi s).event q = s.event q := rfl
@[simp] theorem clearCounters_get_task (s : State) (lo hi : Nat) (q : Nat) : (clearCounters lo hi s).task q = s.task q := rfl
@[simp] theorem record_get_ctx (s : State) (v : BitVec 2) (r : BitVec 8) (y : BitVec 16) (a b c d : BitVec 64) (e : BitVec 32) (q : CtxId) : (record v r y a b c d e s).ctx q = s.ctx q := rfl
@[simp] theorem record_get_core (s : State) (v : BitVec 2) (r : BitVec 8) (y : BitVec 16) (a b c d : BitVec 64) (e : BitVec 32) (q : CoreId) : (record v r y a b c d e s).core q = s.core q := rfl
@[simp] theorem record_get_lan (s : State) (v : BitVec 2) (r : BitVec 8) (y : BitVec 16) (a b c d : BitVec 64) (e : BitVec 32) (q : Lan) : (record v r y a b c d e s).lan q = s.lan q := rfl
@[simp] theorem record_get_mc (s : State) (v : BitVec 2) (r : BitVec 8) (y : BitVec 16) (a b c d : BitVec 64) (e : BitVec 32) (q : Nat) : (record v r y a b c d e s).mc q = s.mc q := rfl
@[simp] theorem record_get_slot (s : State) (v : BitVec 2) (r : BitVec 8) (y : BitVec 16) (a b c d : BitVec 64) (e : BitVec 32) (q : Nat) : (record v r y a b c d e s).slot q = s.slot q := rfl
@[simp] theorem record_get_event (s : State) (v : BitVec 2) (r : BitVec 8) (y : BitVec 16) (a b c d : BitVec 64) (e : BitVec 32) (q : Nat) : (record v r y a b c d e s).event q = s.event q := rfl
@[simp] theorem record_get_task (s : State) (v : BitVec 2) (r : BitVec 8) (y : BitVec 16) (a b c d : BitVec 64) (e : BitVec 32) (q : Nat) : (record v r y a b c d e s).task q = s.task q := rfl
@[simp] theorem record_get_counter (s : State) (v : BitVec 2) (r : BitVec 8) (y : BitVec 16) (a b c d : BitVec 64) (e : BitVec 32) (q : Nat) : (record v r y a b c d e s).counter q = s.counter q := rfl
@[simp] theorem emit_get_ctx (s : State) (o : Out) (q : CtxId) : (emit o s).ctx q = s.ctx q := rfl
@[simp] theorem emit_get_core (s : State) (o : Out) (q : CoreId) : (emit o s).core q = s.core q := rfl
@[simp] theorem emit_get_lan (s : State) (o : Out) (q : Lan) : (emit o s).lan q = s.lan q := rfl
@[simp] theorem emit_get_mc (s : State) (o : Out) (q : Nat) : (emit o s).mc q = s.mc q := rfl
@[simp] theorem emit_get_slot (s : State) (o : Out) (q : Nat) : (emit o s).slot q = s.slot q := rfl
@[simp] theorem emit_get_event (s : State) (o : Out) (q : Nat) : (emit o s).event q = s.event q := rfl
@[simp] theorem emit_get_task (s : State) (o : Out) (q : Nat) : (emit o s).task q = s.task q := rfl
@[simp] theorem emit_get_counter (s : State) (o : Out) (q : Nat) : (emit o s).counter q = s.counter q := rfl

end Sys2Proof.Machine
end

