-- ==== Sys2Proof/Laws/Issue.lean ====
section
/-! SUPPORT. Laws of an instruction's issue: what issue, settle and finish can do. -/

namespace Sys2Proof.Machine

/-- No outstanding load holds an instruction that needs none of the late ones. -/
theorem heldBack_noLate {f : Form} {x : Ctx} (h : noLateLoads x = true) : heldBack f x = false := by
  rw [heldBack, List.any_eq_false]
  intro p hp
  have := List.all_eq_true.mp h p hp
  simp only [Bool.or_eq_true, Bool.not_eq_true'] at this
  rcases this with this | this <;> simp [this]

/-- Nor one whose registers all have their values. -/
theorem heldBack_ready {f : Form} {x : Ctx} (ha : f.all = false) (hr : loadsIssue x f.names = true)
    (hf : fpReady x f.fps = true) : heldBack f x = false := by
  rw [heldBack, List.any_eq_false]
  intro p hp
  have h1 := List.all_eq_true.mp hr p hp
  have h2 := List.all_eq_true.mp hf p hp
  simp only [Bool.or_eq_true, Bool.not_eq_true'] at h1 h2
  rcases h1 with (h1 | h1) | h1
  · simp [h1]
  · simp [h1]
  · rcases h2 with (h2 | h2) | h2 <;> simp [h1, h2, ha]

/-- An instruction that issues and names no f register is not held back. -/
theorem heldBack_issues {f : Form} {iss : Iss} {s : State} {len : Nat} {fm : Forms} {nm : List R5}
    (h : issues s iss fm nm len = true) (hn : nm = f.names) (ha : f.all = false) (hf : f.fps = []) :
    heldBack f (s.ctx iss.ctx) = false := by
  subst hn
  refine heldBack_ready ha ?_ (by simp [hf, fpReady])
  simp only [issues, Bool.and_eq_true] at h
  exact h.1.1.2

/-- An instruction whose guards let it execute comes to its body. -/
theorem issue_body {f : Form} {iss : Iss} {body : CtxId → State → Res Flow} {s : State} {len : Nat}
    (h : issues s iss ⟨f.long.isSome, f.short.isSome, f.zek.isSome⟩ f.names len = true) (hb : f.bad = none)
    (hr : f.isRepeat = false) (ha : heldBack f (s.ctx iss.ctx) = false) :
    ∃ w, issue f iss body s = settle iss.ctx (s.ctx iss.ctx) w len (body iss.ctx (beginIssue iss.ctx s)) := by
  obtain ⟨fl, fs, fz, nm, bad, rep, all, fps⟩ := f
  subst hb hr
  simp only [issues, Bool.and_eq_true, decide_eq_true_eq] at h
  obtain ⟨⟨⟨⟨⟨⟨⟨h1, h2⟩, h3⟩, h4⟩, h5⟩, _⟩, h7⟩, _⟩ := h
  generalize hx : s.ctx iss.ctx = x at *
  have hc : canIssue x = true := by simp [canIssue, h1, h2]
  have hn : shadowNames ⟨fl, fs, fz, nm, none, false, all, fps⟩ x = false := by
    simp only [shadowNames, namesIssue, Bool.or_eq_true, Bool.not_eq_true'] at h5 ⊢
    rcases h5 with (h5 | h5) | h5
    · simp [h5]
    · simp [h5]
    · have : (nm.any fun r => decide (16 ≤ r.toNat) && decide (r.toNat < 24)) = false := by
        rw [List.any_eq_false]
        intro r hr
        have := List.all_eq_true.mp h5 r hr
        simp only [Bool.or_eq_true, decide_eq_true_eq, Bool.and_eq_true] at this ⊢
        omega
      simp [this]
  have hg : (if x.cstat.gcnt = 0 then true else Bool.xor (x.pred x.cstat.gpred) x.cstat.ginv) = true := by
    simp only [runIssues, Bool.or_eq_true, decide_eq_true_eq] at h4
    split
    · rfl
    · exact h4.resolve_left ‹_›
  have key : ∀ w, Form.enc ⟨fl, fs, fz, nm, none, false, all, fps⟩ iss x = some (w, len) →
      decodeCause ⟨fl, fs, fz, nm, none, false, all, fps⟩ iss x = none →
      (if x.cstat.mode || iss.short then true else Bool.xor (x.pred iss.gp) iss.gi) = true →
      issue ⟨fl, fs, fz, nm, none, false, all, fps⟩ iss body s =
        settle iss.ctx x w len (body iss.ctx (beginIssue iss.ctx s)) := by
    intro w e d g
    have hh : guardHolds ⟨fl, fs, fz, nm, none, false, all, fps⟩ iss x = true := by
      unfold guardHolds
      rw [g, hg]; simp
    simp [issue, h7, issueClean, hx, hc, e, d, hh, hn, ha]
  simp only [formIssues] at h3
  by_cases hm : x.cstat.mode = true
  · simp only [hm, if_true, Bool.and_eq_true, Bool.not_eq_true', decide_eq_true_eq] at h3
    obtain ⟨⟨⟨⟨⟨e1, e2⟩, e3⟩, e4⟩, e5⟩, e6⟩ := h3
    obtain ⟨w, rfl⟩ := Option.isSome_iff_exists.mp e1
    exact ⟨w, key w (by simp [Form.enc, hm, e2, e3, e4, e5]) (by simp [decodeCause, hm, e6]) (by simp [hm])⟩
  · simp only [hm, Bool.false_eq_true, if_false] at h3
    replace hm : x.cstat.mode = false := by simpa using hm
    by_cases hsh : iss.short = true
    · simp only [hsh, if_true, Bool.and_eq_true, Bool.not_eq_true', decide_eq_true_eq] at h3
      obtain ⟨⟨⟨⟨e1, e3⟩, e4⟩, e5⟩, e6⟩ := h3
      obtain ⟨w, rfl⟩ := Option.isSome_iff_exists.mp e1
      exact ⟨(0 : BitVec 16) ++ w, key _ (by simp [Form.enc, hm, hsh, e3, e4, e5])
        (by simp only [decodeCause, hm, e6, e4]; simp) (by simp [hsh])⟩
    · replace hsh : iss.short = false := by simpa using hsh
      simp only [hsh, Bool.false_eq_true, if_false, Bool.and_eq_true, Bool.not_eq_true', decide_eq_true_eq] at h3
      obtain ⟨⟨⟨⟨e1, e2⟩, e3⟩, e4⟩, e5⟩ := h3
      obtain ⟨w, rfl⟩ := Option.isSome_iff_exists.mp e1
      have e2' : ¬ (iss.gp = 0 ∧ iss.gi = true) := by
        rintro ⟨a, b⟩; simp [a, b] at e2
      exact ⟨withGuard w iss.gp iss.gi, key _ (by simp [Form.enc, hm, hsh, e3])
        (by simp only [decodeCause, hm, e4, if_neg e2']; simp) (by simp [hm, hsh, e5])⟩

/-- An instruction whose body answers goes where its body says. -/
theorem issue_ok {f : Form} {iss : Iss} {body : CtxId → State → Res Flow} {s s' : State} {len : Nat} {fl : Flow}
    (h : issues s iss ⟨f.long.isSome, f.short.isSome, f.zek.isSome⟩ f.names len = true) (hb : f.bad = none)
    (hr : f.isRepeat = false) (ha : heldBack f (s.ctx iss.ctx) = false) (hbody : body iss.ctx (beginIssue iss.ctx s) = .ok fl s') :
    issue f iss body s = finish iss.ctx (s.ctx iss.ctx) len fl s' := by
  obtain ⟨w, hw⟩ := issue_body (body := body) h hb hr ha
  rw [hw, hbody]; rfl

@[simp] theorem Res.bind_ok {α β : Type} (a : α) (s : State) (f : α → State → Res β) : (Res.ok a s).bind f = f a s := rfl
@[simp] theorem Res.bind_trap {α β : Type} (t : Trap) (s : State) (f : α → State → Res β) :
    (Res.trap t s : Res α).bind f = .trap t s := rfl
@[simp] theorem Res.bind_wait {α β : Type} (o : StallOn) (s : State) (f : α → State → Res β) :
    (Res.wait o s : Res α).bind f = .wait o s := rfl

end Sys2Proof.Machine
end

