-- ==== Sys2Proof/Laws/Checks.lean ====
section
/-! SUPPORT. Laws of the checks of Table 09-1: what each answers for a word that passes it, and an instruction's next state
from what its body answers. -/

namespace Sys2Proof.Machine

theorem checkTy_ok {ok : Ty → Bool} {w : TWord} {s : State} (h0 : w.ty ≠ Ty.unset) (h1 : w.ty ≠ Ty.poison)
    (h2 : isReservedTy w.ty = false) (h3 : ok w.ty = true) (h4 : payloadOk w = true) : checkTy ok w s = .ok () s := by
  simp [checkTy, checkUse, h0, h1, h2, h3, h4]

/-- The TYPEs whose every payload is allowed. -/
theorem checkTy_plain {ok : Ty → Bool} {t : Ty} {v : Word} {s : State}
    (ht : t = Ty.fix ∨ t = Ty.big ∨ t = Ty.flt ∨ t = Ty.time ∨ t = Ty.raw ∨ t = Ty.chid) (h3 : ok t = true) :
    checkTy ok ⟨t, v⟩ s = .ok () s := by
  have key : ∀ t : Ty, (t = Ty.fix ∨ t = Ty.big ∨ t = Ty.flt ∨ t = Ty.time ∨ t = Ty.raw ∨ t = Ty.chid) →
      t ≠ Ty.unset ∧ t ≠ Ty.poison ∧ isReservedTy t = false ∧ t ≠ Ty.bcd ∧ t ≠ Ty.char ∧ t ≠ Ty.bool ∧ t ≠ Ty.nil := by decide
  obtain ⟨k1, k2, k3, k4, k5, k6, k7⟩ := key t ht
  exact checkTy_ok k1 k2 k3 h3 (by simp [payloadOk, k4, k5, k6, k7])

theorem checkTy_payload {ok : Ty → Bool} {t : Ty} {v : Word} {s : State} (ht : t = Ty.bcd ∨ t = Ty.char ∨ t = Ty.bool ∨ t = Ty.nil)
    (h3 : ok t = true) (hp : payloadOk ⟨t, v⟩ = true) : checkTy ok ⟨t, v⟩ s = .ok () s := by
  have key : ∀ t : Ty, (t = Ty.bcd ∨ t = Ty.char ∨ t = Ty.bool ∨ t = Ty.nil) →
      t ≠ Ty.unset ∧ t ≠ Ty.poison ∧ isReservedTy t = false := by decide
  obtain ⟨k1, k2, k3⟩ := key t ht
  exact checkTy_ok k1 k2 k3 h3 hp

theorem checkFix_fix (a : Word) (s : State) : checkFix (TWord.fix a) s = .ok () s :=
  checkTy_plain (.inl rfl) (by simp)

theorem checkAddress_ok {p : BitVec 2} {w : TWord} {s : State} (h : addressOk p w = true) : checkBase p w s = .ok () s := by
  simp only [addressOk, Bool.or_eq_true, Bool.and_eq_true, decide_eq_true_eq] at h
  obtain ⟨ty, v⟩ := w
  have key : ∀ ty : Ty, ((0x10 ≤ ty ∧ ty ≤ 0x17) ∨ (ty = Ty.raw ∨ ty = Ty.fix)) →
      ty ≠ Ty.unset ∧ ty ≠ Ty.poison ∧ isReservedTy ty = false ∧ ty ≠ Ty.bcd ∧ ty ≠ Ty.char ∧ ty ≠ Ty.bool ∧ ty ≠ Ty.nil := by
    decide
  obtain ⟨k1, k2, k3, k4, k5, k6, k7⟩ := key ty (by tauto)
  exact checkTy_ok k1 k2 k3 (by simpa using h) (by simp [payloadOk, k4, k5, k6, k7])

theorem checkBase_ok {p : BitVec 2} {w : TWord} {s : State} (h : baseOk p w = true) : checkBase p w s = .ok () s :=
  checkAddress_ok (by simp only [baseOk, Bool.and_eq_true] at h; exact h.1)

theorem checkDeref_ok {p : BitVec 2} {w : TWord} {va : Word} {s : State} (h : baseOk p w = true) :
    checkDeref w va s = .ok () s := by
  simp only [baseOk, Bool.and_eq_true] at h
  simp [checkDeref, h.2]

theorem checkCarry_ok {w : TWord} {s : State} (h : carried w = true) : checkCarry w s = .ok () s := by
  simp only [carried, Bool.and_eq_true, decide_eq_true_eq, Bool.not_eq_true'] at h
  simp [checkCarry, h.1, h.2]

theorem checkUse_ok {w : TWord} {s : State} (h : usable w = true) : checkUse w s = .ok () s := by
  simp only [usable, Bool.and_eq_true, decide_eq_true_eq, Bool.not_eq_true'] at h
  simp [checkUse, h.1, h.2]

theorem checkClass_ok {p : BitVec 2} {b : Bool} {v : TWord} {s : State} (h : storable p b v.ty = true) :
    checkClass p b v s = .ok () s := by
  simp [checkClass, h]

theorem checkSnan_ok {w : TWord} {s : State} (h : w.ty = Ty.flt → isSnan w.val = false) : checkSnan w s = .ok () s := by
  unfold checkSnan
  rw [if_neg]
  rintro ⟨a, b⟩
  simp [h a] at b

@[simp] theorem isSome_ite_some {α : Type} (p : Prop) [Decidable p] (a : α) :
    (if p then some a else none).isSome = decide p := by
  by_cases h : p <;> simp [h]
@[simp] theorem isSome_ite_none {α : Type} (p : Prop) [Decidable p] (a : α) :
    (if p then none else some a).isSome = !decide p := by
  by_cases h : p <;> simp [h]

/-- What the operands, the level and the context of an instruction are in the state that its body starts from. -/
theorem opnd_found (s : State) (iss : Iss) (r : R5) : opnd iss.ctx r (found s iss) = operand s iss r := rfl
theorem privOf_found (s : State) (iss : Iss) : privOf iss.ctx (found s iss) = (context s iss).cstat.priv := rfl
theorem ctx_found (s : State) (iss : Iss) : (found s iss).ctx iss.ctx = context s iss := rfl

/-- Where the body's flow takes an instruction that issues. -/
theorem run_flow {f : Form} {iss : Iss} {body : CtxId → State → Res Flow} {s t : State} {len : Nat} {fm : Forms}
    {nm : List R5} {fl : Flow} (h : issues s iss fm nm len = true)
    (hf : fm = ⟨f.long.isSome, f.short.isSome, f.zek.isSome⟩) (hn : nm = f.names) (hb : f.bad = none)
    (hr : f.isRepeat = false) (ha : heldBack f (s.ctx iss.ctx) = false)
    (hbody : body iss.ctx (found s iss) = .ok fl t) :
    run f iss body s = .next (finish iss.ctx (s.ctx iss.ctx) len fl t) := by
  subst hf hn
  rw [run, issue_ok h hb hr ha hbody]

/-- An instruction whose body goes on to the next instruction. -/
theorem run_leaves {f : Form} {iss : Iss} {body : CtxId → State → Res Flow} {s t : State} {len : Nat} {fm : Forms}
    {nm : List R5} (h : issues s iss fm nm len = true) (hf : fm = ⟨f.long.isSome, f.short.isSome, f.zek.isSome⟩)
    (hn : nm = f.names) (hb : f.bad = none) (hr : f.isRepeat = false) (ha : heldBack f (s.ctx iss.ctx) = false)
    (hbody : body iss.ctx (found s iss) = .ok .next t) :
    run f iss body s = .next (leaves s iss len t) :=
  run_flow h hf hn hb hr ha hbody

/-- An instruction whose body changes its own context last and goes on. -/
theorem run_goesOn {f : Form} {iss : Iss} {body : CtxId → State → Res Flow} {s t : State} {len : Nat} {fm : Forms}
    {nm : List R5} {g : Ctx → Ctx} (h : issues s iss fm nm len = true)
    (hf : fm = ⟨f.long.isSome, f.short.isSome, f.zek.isSome⟩) (hn : nm = f.names) (hb : f.bad = none)
    (hr : f.isRepeat = false) (ha : heldBack f (s.ctx iss.ctx) = false)
    (hbody : body iss.ctx (found s iss) = .ok .next (t.modCtx iss.ctx g)) :
    run f iss body s = .next (goesOnFrom s iss len t g) :=
  run_leaves h hf hn hb hr ha hbody

end Sys2Proof.Machine
end

