-- ==== Sys2Proof/Laws/Memory.lean ====
section
/-! SUPPORT. Laws of HBM: a read after a write, and the canonical form kept by every memory operation (02 R56–R58). -/

namespace Sys2Proof.Machine

/-- A byte reads as written. -/
@[simp] theorem Memory.read_write_self (m : List Host.Cell) (a : Nat) (b : Byte) : Memory.read (Memory.write m a b) a = b :=
  Tab.get_set_self _ _ _ _

/-- A write leaves every other byte alone. -/
theorem Memory.read_write_ne (m : List Host.Cell) {a x : Nat} (b : Byte) (h : x ≠ a) :
    Memory.read (Memory.write m a b) x = Memory.read m x :=
  Tab.get_set_ne _ _ _ h

/-- A byte write keeps the canonical form. -/
theorem Memory.write_wf (m : List Host.Cell) (a : Nat) (b : Byte) (h : Memory.wf m = true) :
    Memory.wf (Memory.write m a b) = true :=
  Tab.set_wf _ _ _ _ h

/-- A word write keeps the canonical form. -/
theorem setHbmWord_wf (loc : Nat) (w : MWord) (s : State) (h : Memory.wf s.hbm = true) :
    Memory.wf (setHbmWord loc w s).hbm = true := by
  simp only [setHbmWord]
  exact Memory.write_wf _ _ _ (Memory.write_wf _ _ _ (Memory.write_wf _ _ _ (Memory.write_wf _ _ _
    (Memory.write_wf _ _ _ h))))

/-- A write of words in order keeps the canonical form. -/
theorem setHbmWords_wf (l : Line) : ∀ (loc : Nat) (s : State), Memory.wf s.hbm = true →
    Memory.wf (setHbmWords loc l s).hbm = true := by
  induction l with
  | nil => exact fun _ _ h => h
  | cons w r ih => exact fun loc s h => ih (loc + 4) _ (setHbmWord_wf loc w s h)

/-- A line write keeps the canonical form. -/
theorem setHbmLine_wf (loc : Nat) (l : Line) (s : State) (h : Memory.wf s.hbm = true) :
    Memory.wf (setHbmLine loc l s).hbm = true :=
  setHbmWords_wf l loc s h

/-- A home agent's write keeps the canonical form. -/
theorem homeWrite_wf (loc : Nat) (l : Line) (s : State) (h : Memory.wf s.hbm = true) :
    Memory.wf (homeWrite loc l s).hbm = true := by
  refine setHbmLine_wf loc l _ ?_
  simp only [touchTag]
  split <;> exact h

/-- Memory after reset is in its canonical form. -/
theorem reset_memory_wf : Memory.wf State.reset.hbm = true := rfl

/-- A word write leaves the bytes outside the word and its tag alone. -/
theorem setHbmWord_read_ne (loc : Nat) (w : MWord) (s : State) (a : Nat) (h1 : ¬ (loc ≤ a ∧ a < loc + 4))
    (h2 : a ≠ tagAt s loc) : Memory.read (setHbmWord loc w s).hbm a = Memory.read s.hbm a := by
  simp only [setHbmWord]
  rw [Memory.read_write_ne _ _ h2, Memory.read_write_ne _ _ (by omega), Memory.read_write_ne _ _ (by omega),
    Memory.read_write_ne _ _ (by omega), Memory.read_write_ne _ _ (by omega)]

end Sys2Proof.Machine
end

