-- ==== Sys2Proof/WellFormed.lean ====
section
/-! DEFINITION. Which commands the module's interfaces can carry: operands in the ranges that the spec gives them. -/

namespace Sys2Proof

/-- A short form has no guard field (R275). -/
def issOk (iss : Iss) : Bool := !iss.short || (decide (iss.gp = 0) && !iss.gi)

/-- There are six wicks (R1). -/
def wickOk (n : BitVec 3) : Bool := decide (n.toNat < 6)

/-- A line is 16 words (R10). -/
def lineOk (words : List MWord) : Bool := decide (words.length = 16)

/-- A partial write names 1 to 16 words of its line, each once. -/
def partOk (ws : List (BitVec 4 × MWord)) : Bool := !ws.isEmpty && decide ((ws.map Prod.fst).Nodup)

/-- Link rates Gen1 to Gen5 and widths 1, 4, 8 and 16 (Table 16-11). -/
def linkOk (speed : BitVec 4) (width : BitVec 5) : Bool :=
  decide (1 ≤ speed.toNat ∧ speed.toNat ≤ 5) && (width = 1 || width = 4 || width = 8 || width = 16)

/-- A list of a length: 50 sensors (17 Table 17-1), the 96 bytes of a flit (14 R437), credits of 10 virtual channels and shared ones (14 R440), boundary bits. -/
def lenIs {α : Type} (n : Nat) (l : List α) : Bool := decide (l.length = n)

/-- There are three 48-bit registers (18 R544). -/
def wideOk (which : BitVec 2) : Bool := decide (which ≠ 3)

/-- BAR0 takes accesses aligned to 4 bytes (16 R481); BAR2 is 4 MiB (16 R482). -/
def offOk (space : RegSpace) (off : BitVec 25) : Bool :=
  match space with
  | .bar0 => decide (off.toNat % 4 = 0)
  | .bar2 _ => decide (off.toNat < 0x400000)
  | .config => true

/-- A return-stack entry is one of 16 (07 R259). -/
def mcheckOk : McheckAt → Bool
  | .rs i => decide (i < 16)
  | .creg _ => true
  | .cstat => true

def Instr.wf (i : Instr) : Bool :=
  match i with
  | .add iss _ _ _ => issOk iss
  | .sub iss _ _ _ => issOk iss
  | .mul iss _ _ _ => issOk iss
  | .div iss _ _ _ => issOk iss
  | .rem iss _ _ _ => issOk iss
  | .neg iss _ _ => issOk iss
  | .abs iss _ _ => issOk iss
  | .and iss _ _ _ => issOk iss
  | .or iss _ _ _ => issOk iss
  | .xor iss _ _ _ => issOk iss
  | .andn iss _ _ _ => issOk iss
  | .not iss _ _ => issOk iss
  | .shl iss _ _ _ => issOk iss
  | .shr iss _ _ _ => issOk iss
  | .sar iss _ _ _ => issOk iss
  | .mov iss _ _ => issOk iss
  | .movp iss _ _ => issOk iss
  | .dadj iss _ _ _ _ => issOk iss
  | .addi iss _ _ _ => issOk iss
  | .addq iss _ _ => issOk iss
  | .andi iss _ _ _ => issOk iss
  | .shi iss _ _ _ _ => issOk iss
  | .movi iss _ _ => issOk iss
  | .movq iss _ _ => issOk iss
  | .nop iss => issOk iss
  | .eq iss _ _ _ => issOk iss
  | .ne iss _ _ _ => issOk iss
  | .lt iss _ _ _ => issOk iss
  | .le iss _ _ _ => issOk iss
  | .gt iss _ _ _ => issOk iss
  | .ge iss _ _ _ => issOk iss
  | .eqi iss _ _ _ => issOk iss
  | .pand iss _ _ _ => issOk iss
  | .por iss _ _ _ => issOk iss
  | .pxor iss _ _ _ => issOk iss
  | .pandn iss _ _ _ => issOk iss
  | .pnot iss _ _ => issOk iss
  | .pset iss _ _ => issOk iss
  | .ld iss _ _ _ => issOk iss
  | .st iss _ _ _ => issOk iss
  | .lbs iss _ _ _ => issOk iss
  | .lbu iss _ _ _ => issOk iss
  | .lhs iss _ _ _ => issOk iss
  | .lhu iss _ _ _ => issOk iss
  | .sb iss _ _ _ => issOk iss
  | .sh iss _ _ _ => issOk iss
  | .ldx iss _ _ _ => issOk iss
  | .stx iss _ _ _ => issOk iss
  | .ldp iss _ _ _ => issOk iss
  | .stp iss _ _ _ => issOk iss
  | .ldB iss _ _ _ => issOk iss
  | .stB iss _ _ _ => issOk iss
  | .ldpB iss _ _ _ => issOk iss
  | .stpB iss _ _ _ => issOk iss
  | .cas iss _ _ _ => issOk iss
  | .xchg iss _ _ _ => issOk iss
  | .car iss _ _ => issOk iss
  | .cdr iss _ _ => issOk iss
  | .ldnf iss _ _ _ => issOk iss
  | .ldl iss _ _ => issOk iss
  | .cons iss _ _ _ => issOk iss
  | .setcar iss _ _ => issOk iss
  | .setcdr iss _ _ => issOk iss
  | .null iss _ _ => issOk iss
  | .consp iss _ _ => issOk iss
  | .vlen iss _ _ => issOk iss
  | .vref iss _ _ _ => issOk iss
  | .vset iss _ _ _ => issOk iss
  | .allocv iss _ _ _ => issOk iss
  | .allocr iss _ _ _ => issOk iss
  | .allocs iss _ _ _ => issOk iss
  | .freeze iss _ => issOk iss
  | .tagof iss _ _ => issOk iss
  | .tagofMem iss _ _ => issOk iss
  | .retag iss _ _ _ => issOk iss
  | .br iss _ => issOk iss
  | .brs iss _ => issOk iss
  | .call iss _ => issOk iss
  | .jr iss _ => issOk iss
  | .callr iss _ => issOk iss
  | .ret iss => issOk iss
  | .dbnz iss _ _ => issOk iss
  | .guard iss _ _ _ => issOk iss
  | .rmov iss _ _ _ => issOk iss
  | .rfill iss _ _ _ => issOk iss
  | .rscan iss _ _ _ _ => issOk iss
  | .fadd iss _ _ _ => issOk iss
  | .fsub iss _ _ _ => issOk iss
  | .fmul iss _ _ _ => issOk iss
  | .fdiv iss _ _ _ => issOk iss
  | .fsqrt iss _ _ => issOk iss
  | .fmin iss _ _ _ => issOk iss
  | .fmax iss _ _ _ => issOk iss
  | .fma iss _ _ _ => issOk iss
  | .fneg iss _ _ => issOk iss
  | .fabs iss _ _ => issOk iss
  | .feq iss _ _ _ => issOk iss
  | .flt iss _ _ _ => issOk iss
  | .fle iss _ _ _ => issOk iss
  | .fun iss _ _ _ => issOk iss
  | .fmv iss _ _ => issOk iss
  | .mtf iss _ _ => issOk iss
  | .mff iss _ _ => issOk iss
  | .cvtif iss _ _ => issOk iss
  | .cvtfi iss _ _ => issOk iss
  | .fld iss _ _ _ => issOk iss
  | .fst iss _ _ _ => issOk iss
  | .decide iss _ _ _ _ => issOk iss
  | .cgrow iss _ => issOk iss
  | .spawn iss _ _ => issOk iss
  | .waitj iss _ => issOk iss
  | .waitr iss _ => issOk iss
  | .exit iss => issOk iss
  | .yield iss => issOk iss
  | .tsub iss _ _ => issOk iss
  | .msend iss _ _ _ => issOk iss
  | .xld iss _ _ _ => issOk iss
  | .xst iss _ _ _ => issOk iss
  | .clean iss _ => issOk iss
  | .inv iss _ => issOk iss
  | .clinv iss _ => issOk iss
  | .iinv iss _ => issOk iss
  | .crngClean iss _ _ => issOk iss
  | .crngInvalidate iss _ _ => issOk iss
  | .crngCleanInvalidate iss _ _ => issOk iss
  | .csync iss => issOk iss
  | .tlbinv iss _ _ => issOk iss
  | .tlbasid iss _ => issOk iss
  | .tlball iss => issOk iss
  | .wcinv iss _ _ => issOk iss
  | .wcall iss => issOk iss
  | .fence iss _ => issOk iss
  | .ifence iss => issOk iss
  | .mfc iss _ _ => issOk iss
  | .mtc iss _ _ => issOk iss
  | .xget iss _ => issOk iss
  | .xput iss _ => issOk iss
  | .savel iss => issOk iss
  | .saveh iss => issOk iss
  | .rstl iss => issOk iss
  | .rsth iss => issOk iss
  | .spill iss => issOk iss
  | .fill iss => issOk iss
  | .rfe iss => issOk iss
  | .trap iss _ => issOk iss
  | .brk iss => issOk iss
  | .mcver iss _ _ => issOk iss
  | .rdtb iss _ _ => issOk iss
  | .zekiefBt iss _ _ => issOk iss
  | .zekiefBf iss _ _ => issOk iss
  | .zekiefJ iss _ => issOk iss
  | .zcall iss _ => issOk iss
  | .zret iss => issOk iss
  | .zdecide iss _ _ _ => issOk iss
  | .customerInstruction iss _ _ _ _ _ _ _ => issOk iss
  | .markerIdle _ => true
  | .accept _ => true
  | .markerOrbit _ => true
  | .markerCrossing _ => true
  | .markerReset _ => true
  | .alignLoss _ => true
  | .crossingEdge => true
  | .refAcquired _ => true
  | .pllLocked => true
  | .refLoss => true
  | .refReturn _ => true
  | .compareFire _ => true
  | .tbSnap => true
  | .tbTimeLowRead _ => true
  | .tbCfgCommit => true
  | .tbCmpCommit _ => true
  | .tbCntclr => true
  | .openRequest => true
  | .openNotification n => wickOk n
  | .windowTimeout => true
  | .closeReport n => wickOk n
  | .dropNotice n => wickOk n
  | .decideRequest _ => true
  | .decideAnswer _ => true
  | .deadlineWarning => true
  | .hardDeadline => true
  | .faultReport _ => true
  | .retireStart _ => true
  | .evacJobQueue _ => true
  | .evacJobStart _ => true
  | .evacJobDone _ => true
  | .coolingExpiry => true
  | .decisionRecordSend => true
  | .beat _ => true
  | .allocChunkRefill _ _ => true
  | .cnSpanClaim _ => true
  | .cnSpanRelease => true
  | .cnSpanRetire => true
  | .markStart => true
  | .markFinish => true
  | .markTraceStart => true
  | .markSweepDone => true
  | .cnEnableWrite _ => true
  | .cnRunCommit => true
  | .cnPoolCommit => true
  | .cnPoolCommitApply => true
  | .cnCntclr => true
  | .barrierBufferDrain _ => true
  | .storeWaitResume _ => true
  | .laneClockRecovered n _ => wickOk n
  | .laneSyncLocked n _ => wickOk n
  | .laneAligned n _ _ => wickOk n
  | .laneLockLost n _ => wickOk n
  | .laneLossOfSignal n _ => wickOk n
  | .frameHeader n _ _ => wickOk n
  | .frameEof n _ _ => wickOk n
  | .holdExpiry n _ => wickOk n
  | .wickCloseTimeout n => wickOk n
  | .wickCloseDecision n => wickOk n
  | .frameWrite n _ => wickOk n
  | .wkMapLoad n => wickOk n
  | .mapLoadDone n => wickOk n
  | .wkMapCommit n => wickOk n
  | .wkLaneCommit n => wickOk n
  | .wkEventCommit => true
  | .wkEnableWrite _ => true
  | .wkMapDataAccess n _ => wickOk n
  | .wkCntclr n => wickOk n
  | .taskDispatch _ => true
  | .preemption _ => true
  | .migration _ => true
  | .deferDrain => true
  | .spawnRequest => true
  | .contextTimeslice _ => true
  | .llMenuCommit => true
  | .menuCommitApply => true
  | .llPoolCommit => true
  | .llPoolCommitApply => true
  | .llEnableWrite _ => true
  | .llCntclr => true
  | .snCntclr => true
  | .dpOutCommit => true
  | .dpCntclr => true
  | .graphJobStart _ => true
  | .moveJobStart _ => true
  | .jobComplete _ => true
  | .markPop _ => true
  | .markLogConsume => true
  | .markRequest _ _ => true
  | .engineKill _ => true
  | .tpMarkCommit => true
  | .tpMarkCommitApply => true
  | .tpCntclr => true
  | .loadDataReturn _ => true
  | .exceptionEntry _ => true
  | .machineCheck _ what => mcheckOk what
  | .debugInterrupt _ => true
  | .tableWalk _ _ _ _ _ => true
  | .rangeOpDone _ => true
  | .ucCoreCommit _ => true
  | .cstoreRewrite _ => true
  | .ucRomCheck _ _ => true
  | .ucRamTest _ _ => true
  | .ucWordWrite _ _ => true
  | .ucWordRead _ _ => true
  | .ucBankSwap _ => true
  | .mmRootCommit => true
  | .mmCntclr => true
  | .mmLastfClr => true
  | .sharedRead _ _ _ _ _ => true
  | .ownRead _ _ _ _ _ => true
  | .upgrade _ _ _ _ _ => true
  | .writeBack _ _ _ words => lineOk words
  | .evictionNotice _ _ _ => true
  | .hintedWrite _ _ ws => partOk ws
  | .uncachedWrite _ _ _ ws => partOk ws
  | .exchangeAtHome _ _ _ _ _ => true
  | .forwardShared _ _ _ _ => true
  | .forwardOwn _ _ _ _ => true
  | .invalidate _ _ => true
  | .dataResponse _ _ _ words => lineOk words
  | .ackResponse _ => true
  | .nodataResponse _ => true
  | .errResponse _ => true
  | .xrep _ _ => true
  | .mergeBufferDrain _ _ => true
  | .scrubRead _ _ => true
  | .hbmWipeDone _ => true
  | .mcTestRead _ => true
  | .mcTestWrite _ => true
  | .mcLasteLowRead _ _ => true
  | .ccCntclr => true
  | .mcCntclr _ => true
  | .portPhyLock _ => true
  | .phyLockTimeout _ => true
  | .portLanesAligned _ => true
  | .capability _ _ _ _ _ credits => lenIs 11 credits
  | .capabilityTimer _ => true
  | .negotTimeout _ => true
  | .blLossOfSignal _ => true
  | .fecLimit _ _ _ => true
  | .retrainComplete _ _ => true
  | .retrainFailed _ => true
  | .blRetrain _ => true
  | .blIsolate _ => true
  | .blRelease _ => true
  | .powerfailNotice _ => true
  | .flitReceived _ bytes => lenIs 96 bytes
  | .nak _ _ _ => true
  | .linkCreditAck _ credits _ => lenIs 11 credits
  | .ackTimer _ => true
  | .packetRoute => true
  | .msgSendTake _ => true
  | .remoteRequestTimeout _ => true
  | .xldRequest _ _ _ _ _ => true
  | .xstRequest _ _ _ _ _ _ => true
  | .msgDelivery => true
  | .blRtLoad => true
  | .rtLoadDone => true
  | .blRtCommit => true
  | .blNodeCommit => true
  | .blPortCommit => true
  | .blRingCommit => true
  | .blCntclr => true
  | .dbProd _ _ _ => true
  | .dbCons _ _ _ => true
  | .dbArm _ _ => true
  | .descriptorNop _ _ => true
  | .copyIn _ _ _ _ => true
  | .copyOut _ _ _ => true
  | .menuLoad _ _ _ _ => true
  | .replay _ _ _ _ => true
  | .send _ _ _ _ => true
  | .ringEnable _ _ _ => true
  | .ringDisable _ _ _ _ => true
  | .ringDrainDone _ => true
  | .hiIfverWrite _ => true
  | .functionLevelReset _ => true
  | .pcieFundamentalReset speed width => linkOk speed width
  | .irqHoldoffExpiry _ => true
  | .hostDmaTimeout _ _ _ => true
  | .bar0BadAccess _ => true
  | .windowReadCompletion _ _ _ => true
  | .hiCntclr => true
  | .mgMsTick readings _ => lenIs 50 readings
  | .mbTelem => true
  | .mbReset => true
  | .lcNonce => true
  | .lcSet => true
  | .keyEnroll => true
  | .keyRevoke => true
  | .ucLoad => true
  | .ucCommit => true
  | .ucFloor => true
  | .fwStage => true
  | .fwActivate => true
  | .mbDebugReq => true
  | .lceil => true
  | .mgThermCommit => true
  | .mgCntclr => true
  | .i2cStatus _ _ => true
  | .i2cTelem _ _ => true
  | .i2cErrsum _ => true
  | .i2cRecord _ _ => true
  | .i2cReset _ _ _ => true
  | .i2cSlot _ _ => true
  | .bypass _ => true
  | .idcode _ => true
  | .samplePreload pins preload => lenIs pins.length preload
  | .extest pins preload => lenIs pins.length preload
  | .clamp _ => true
  | .highz _ => true
  | .jtagPrivate _ _ => true
  | .resetPin _ => true
  | .bootReady _ speed width => linkOk speed width
  | .inputPowerUp _ _ => true
  | .powerFailWarning => true
  | .inputDropout => true
  | .standbyRelease => true
  | .recordHandover => true
  | .recordClose _ => true
  | .flushAgeExpiry => true
  | .recorderFlushDone => true
  | .erFetch => true
  | .erWideLowRead which _ => wideOk which
  | .erCntclr => true
  | .registerWrite _ space off _ => offOk space off
  | .markerWordDiscarded _ => true
  | .markerAlignmentGained _ => true
  | .invalidSyncHeader n _ _ => wickOk n
  | .framingErrorBlock n _ _ => wickOk n
  | .illegalInstruction _ _ _ => true

end Sys2Proof
end

