-- ==== Sys2Proof/Tests/Slice0.lean ====
section
/-! SUPPORT. Tests: for the clauses of the obligations, states and operands that meet their hypotheses, with results worked
out from the spec; and an ill-formed command for each check of WellFormed. -/

open Sys2Proof Sys2Proof.Machine

namespace Sys2Proof.Tests

set_option Elab.async false

/-- exec answers this next state. -/
def answers (i : Instr) (s t : State) : Bool :=
  match exec i s with
  | .next u => u = t
  | _ => false

/-- exec answers this next state, but for the cores. -/
def answersApart (i : Instr) (s t : State) : Bool :=
  match exec i s with
  | .next u => { u with cores := [] } = { t with cores := [] }
  | _ => false

/-- exec answers a next state with this property. -/
def answersWith (i : Instr) (s : State) (p : State → Bool) : Bool :=
  match exec i s with
  | .next u => p u
  | _ => false

/-- An operation ends well, with this property of its result and state. -/
def okIs {α : Type} (r : Res α) (p : α → State → Bool) : Bool :=
  match r with
  | .ok a s => p a s
  | _ => false

/-- The controllers have wiped their stacks (R428). -/
def wiped (s : State) : State := [0, 1, 2, 3].foldl (fun s c => s.modMc c fun m => { m with wipeBusy := false }) s

/-- An operation raises this cause. -/
def trapsWith {α : Type} (r : Res α) (cause : BitVec 8) : Bool :=
  match r with
  | .trap t _ => t.cause = cause
  | _ => false

/-- Context 0 runs on core 0, with registers, one global translation of its whole space to the module's memory, and what f
makes of it. -/
def core0 (regs : List (R5 × TWord)) (f : Ctx → Ctx := id) : State :=
  let map : Tlb := ⟨0, true, 0, 32, 0, true, true, true, true, true⟩
  ((wiped State.reset).setCtx 0 (regs.foldl (fun x e => x.setReg e.1 e.2) (f { Ctx.reset with st := .running }))).setCore 0
    { CoreSt.reset with running := some 0, dtlb := [map], itlb := [map] }

/-- Above USER. -/
def monitor (x : Ctx) : Ctx := { x with cstat := { x.cstat with priv := 1 } }

/-- In Zekief mode. -/
def zek (x : Ctx) : Ctx := { x with cstat := { x.cstat with mode := true } }

/-- An unguarded long form or Zekief instruction, and a short form, in context 0. -/
def long0 : Iss := ⟨0, false, 0, false, .none⟩
def short0 : Iss := ⟨0, true, 0, false, .none⟩

/-! ### Arithmetic, logic and compares -/

/-- Registers 8 and 9 hold these words. -/
def two (a b : TWord) : State := core0 [(8, a), (9, b)]

def fix (n : Int) : TWord := TWord.fix (BitVec.ofInt 32 n)

/-- The clause of IntegerArithmetic for an operation, at two integers and their result. -/
def intOp (op : Gop) (a b r : Int) : Bool :=
  let s := two (fix a) (fix b)
  okIs (intOf 0 (operand s long0 8) (beginIssue 0 s)) fun x s1 =>
    okIs (intOf 0 (operand s long0 9) s1) fun y s2 =>
      okIs (intResult 0 (op.ints x y) s2) fun v s3 =>
        issues s long0 (arithForms op 10 8) [10, 8, 9] 4 && isInt (operand s long0 8).ty && isInt (operand s long0 9).ty &&
          y ≠ 0 && v = fix r && answers (arithInstr op long0 10 8 9) s (goesOnFrom s long0 4 s3 fun c => c.setReg 10 v)

theorem witness_integers :
    intOp .add 0x7FFFFFFE 1 0x7FFFFFFF ∧ intOp .sub (-0x7FFFFFFF) 1 (-0x80000000) ∧ intOp .mul (-3) 5 (-15) ∧
      intOp .div (-7) 2 (-3) ∧ intOp .rem (-7) 2 (-1) := by decide +kernel

/-- ADD past 2^31 - 1 makes a BIG (R79). -/
theorem test_add_makes_big : okIs (intResult 0 0x80000000 (two TWord.nil TWord.nil)) (fun v _ => v.ty = Ty.big) ||
    answersWith (.add long0 10 8 9) (two (fix 0x7FFFFFFF) (fix 1)) (fun t => (t.ctx 0).raised.isSome) := by decide +kernel

/-- One-operand integer clauses at a value: NEG, ABS, ADDI, ADDQ. -/
theorem witness_integers_one :
    let s := two (fix (-5)) TWord.nil
    (operand s long0 8 = fix (-5) ∧ isInt (operand s long0 8).ty ∧
      issues s long0 .nativeZekief [10, 8, 0] 4 ∧ issues s long0 ⟨fitsI10 7, false, true⟩ [10, 8] 4 ∧
      issues s short0 .shortOnly [8] 2) ∧
    answers (.neg long0 10 8) s (goesOn s long0 4 fun c => c.setReg 10 (fix 5)) ∧
    answers (.abs long0 10 8) s (goesOn s long0 4 fun c => c.setReg 10 (fix 5)) ∧
    answers (.addi long0 10 8 7) s (goesOn s long0 4 fun c => c.setReg 10 (fix 2)) ∧
    answers (.addq short0 8 (-1)) s (goesOn s short0 2 fun c => c.setReg 8 (fix (-6))) := by decide +kernel

def flt (a : Word) : TWord := ⟨Ty.flt, a⟩
def bcd (a : Word) : TWord := ⟨Ty.bcd, a⟩
def tim (a : Word) : TWord := ⟨Ty.time, a⟩

/-- Generic arithmetic of floats: 1.5 + 2.0, 3.0 / 2 (Tables 02-9, 02-10). -/
theorem witness_floats :
    let s := two (flt 0x3FC00000) (flt 0x40000000)
    let u := two (flt 0x40400000) (fix 2)
    (issues s long0 (arithForms .add 10 8) [10, 8, 9] 4 ∧ operand s long0 8 = flt 0x3FC00000 ∧ isSnan 0x3FC00000 = false) ∧
    answers (.add long0 10 8 9) s (goesOn s long0 4 fun c => c.setReg 10 (flt 0x40600000)) ∧
    issues u long0 (arithForms .div 10 8) [10, 8, 9] 4 ∧
    answers (.div long0 10 8 9) u (goesOn u long0 4 fun c => c.setReg 10 (flt 0x3FC00000)) := by decide +kernel

/-- Decimals and times (R78, R80): 1 + 9999998 is the greatest decimal, 1 - 2 is -1; TIME with FIX and TIME with TIME. -/
theorem witness_decimal_time :
    let s := two (bcd 0x0000001C) (bcd 0x9999998C)
    let u := two (bcd 0x0000001C) (bcd 0x0000002C)
    let v := two (tim 0xFFFFFFFF) (fix 3)
    let w := two (fix 3) (tim 0xFFFFFFFF)
    let x := two (tim 2) (tim 0xFFFFFFFF)
    (payloadOk (bcd 0x9999998C) ∧ issues s long0 ⟨true, false, true⟩ [10, 8, 9] 4 ∧
      operand s long0 9 = bcd 0x9999998C ∧ (bcdInt 0x0000001C + bcdInt 0x9999998C).natAbs < 10000000) ∧
    answers (.add long0 10 8 9) s (goesOn s long0 4 fun c => c.setReg 10 (bcd 0x9999999C)) ∧
    answers (.sub long0 10 8 9) u (goesOn u long0 4 fun c => c.setReg 10 (bcd 0x0000001D)) ∧
    answers (.add long0 10 8 9) v (goesOn v long0 4 fun c => c.setReg 10 (tim 2)) ∧
    answers (.sub long0 10 8 9) v (goesOn v long0 4 fun c => c.setReg 10 (tim 0xFFFFFFFC)) ∧
    answers (.add long0 10 8 9) w (goesOn w long0 4 fun c => c.setReg 10 (tim 2)) ∧
    answers (.sub long0 10 8 9) x (goesOn x long0 4 fun c => c.setReg 10 (fix 3)) := by decide +kernel

/-- NEG and ABS of FLT and BCD. -/
theorem witness_neg_abs :
    let s := two (flt 0xBF800000) TWord.nil
    let u := two (bcd 0x0000007D) TWord.nil
    (issues s long0 .nativeZekief [10, 8, 0] 4 ∧ operand s long0 8 = flt 0xBF800000 ∧ payloadOk (bcd 0x0000007D)) ∧
    answers (.neg long0 10 8) s (goesOn s long0 4 fun c => c.setReg 10 (flt 0x3F800000)) ∧
    answers (.abs long0 10 8) s (goesOn s long0 4 fun c => c.setReg 10 (flt 0x3F800000)) ∧
    answers (.neg long0 10 8) u (goesOn u long0 4 fun c => c.setReg 10 (bcd 0x0000007C)) ∧
    answers (.abs long0 10 8) u (goesOn u long0 4 fun c => c.setReg 10 (bcd 0x0000007C)) := by decide +kernel

/-- Logic and shifts at their edges: a shift by 31, a BOOL NOT, ANDI with a negative immediate. -/
theorem witness_logic :
    let s := two ⟨Ty.raw, 0xF0F0F0F0⟩ ⟨Ty.raw, 0xFF00FF00⟩
    let u := two (fix (-2)) (fix 31)
    let b := two (TWord.bool true) (TWord.bool false)
    (issues s long0 (logicForms .andn 10 8) [10, 8, 9] 4 ∧ issues s long0 .nativeOnly [10, 8] 4) ∧
    answers (.and long0 10 8 9) s (goesOn s long0 4 fun c => c.setReg 10 ⟨Ty.raw, 0xF000F000⟩) ∧
    answers (.or long0 10 8 9) s (goesOn s long0 4 fun c => c.setReg 10 ⟨Ty.raw, 0xFFF0FFF0⟩) ∧
    answers (.xor long0 10 8 9) s (goesOn s long0 4 fun c => c.setReg 10 ⟨Ty.raw, 0x0FF00FF0⟩) ∧
    answers (.andn long0 10 8 9) s (goesOn s long0 4 fun c => c.setReg 10 ⟨Ty.raw, 0x00F000F0⟩) ∧
    answers (.not long0 10 8) s (goesOn s long0 4 fun c => c.setReg 10 ⟨Ty.raw, 0x0F0F0F0F⟩) ∧
    answers (.not long0 10 8) b (goesOn b long0 4 fun c => c.setReg 10 (TWord.bool false)) ∧
    answers (.shl long0 10 8 9) u (goesOn u long0 4 fun c => c.setReg 10 (fix 0)) ∧
    answers (.shr long0 10 8 9) u (goesOn u long0 4 fun c => c.setReg 10 (fix 1)) ∧
    answers (.sar long0 10 8 9) u (goesOn u long0 4 fun c => c.setReg 10 (fix (-1))) ∧
    answers (.shi long0 10 8 2 31) u (goesOn u long0 4 fun c => c.setReg 10 (fix (-1))) ∧
    answers (.andi long0 10 8 0x3FF) u (goesOn u long0 4 fun c => c.setReg 10 (fix (-2))) := by decide +kernel

/-- Moves, NOP and DADJ: 9999999 + 1 wraps with a carry (R83). -/
theorem witness_moves :
    let s := two (bcd 0x9999999C) (bcd 0x0000001C)
    (issues s long0 ⟨true, true, true⟩ [10, 8, 0] 4 ∧ issues s short0 .shortOnly [10] 2 ∧ issues s short0 .shortOnly [] 2 ∧
      issues s long0 ⟨fitsI10 0x1FF, false, true⟩ [10] 4 ∧ decimalOk 0x9999999C) ∧
    answers (.mov long0 10 8) s (goesOn s long0 4 fun c => c.setReg 10 (bcd 0x9999999C)) ∧
    answers (.movp long0 10 0) s (goesOn s long0 4 fun c => c.setReg 10 (TWord.bool true)) ∧
    answers (.movi long0 10 0x1FF) s (goesOn s long0 4 fun c => c.setReg 10 (fix 511)) ∧
    answers (.movq short0 10 (-16)) s (goesOn s short0 2 fun c => c.setReg 10 (fix (-16))) ∧
    answers (.nop short0) s (goesOn s short0 2 id) ∧
    answers (.dadj long0 10 8 9 3) s (goesOn s long0 4 fun c => (c.setReg 10 (bcd 0x0000000C)).setPred 3 true) := by decide +kernel

def cmp (op : Cop) (a b : TWord) (v : Bool) : Bool :=
  let s := two a b
  issues s long0 .nativeZekief [8, 9] 4 && answers (compareInstr op long0 7 8 9) s (goesOn s long0 4 (putTruth 7 v))

/-- Compares of each class of operands, at equality and just beside it. -/
theorem witness_compares :
    cmp .lt (fix (-1)) (fix 0) true ∧ cmp .ge (fix 3) (fix 3) true ∧ cmp .le (flt 0x80000000) (flt 0) true ∧
    cmp .eq (flt 0x7FC00000) (flt 0x7FC00000) false ∧ cmp .gt ⟨Ty.char, 0x10FFFF⟩ ⟨Ty.char, 0⟩ true ∧
    cmp .lt (tim 0xFFFFFFFF) (tim 0) true ∧ cmp .le (bcd 0x0000001D) (bcd 0x0000000C) true ∧
    cmp .ne (TWord.bool true) (TWord.bool false) true ∧ cmp .eq TWord.nil TWord.nil true := by decide +kernel

/-- The same in Zekief mode: a BOOL in xd, whose number may be 8 or more. -/
theorem witness_compares_zekief :
    let s := core0 [(8, fix 1), (9, fix 1)] zek
    (context s long0).cstat.mode ∧ issues s long0 .nativeZekief [8, 9] 4 ∧
    answers (.eq long0 31 8 9) s (goesOn s long0 4 fun c => c.setReg 31 (TWord.bool true)) ∧
    answers (.eqi long0 31 8 9) s (goesOn s long0 4 fun c => c.setReg 31 (TWord.bool true)) := by decide +kernel

theorem witness_predicates :
    let s := core0 [(8, TWord.bool false), (9, TWord.nil)] fun x => { x with p := 0x06 }
    (issues s long0 .nativeOnly [] 4 ∧ issues s long0 .nativeZekief [9, 0] 4 ∧ (operand s long0 9).ty ≠ Ty.unset) ∧
    answers (.null long0 7 9) s (goesOn s long0 4 fun c => c.setPred 7 true) ∧
    answers (.consp long0 7 9) s (goesOn s long0 4 fun c => c.setPred 7 false) ∧
    answers (.pand long0 3 1 2) s (goesOn s long0 4 fun c => c.setPred 3 true) ∧
    answers (.por long0 3 3 2) s (goesOn s long0 4 fun c => c.setPred 3 true) ∧
    answers (.pxor long0 1 1 2) s (goesOn s long0 4 fun c => c.setPred 1 false) ∧
    answers (.pandn long0 4 1 3) s (goesOn s long0 4 fun c => c.setPred 4 true) ∧
    answers (.pnot long0 0 1) s (goesOn s long0 4 id) ∧
    answers (.pset long0 2 8) s (goesOn s long0 4 fun c => c.setPred 2 false) := by decide +kernel

/-! ### Loads and stores -/

/-- The same state with words of memory from 0x100 on. -/
def holding (ws : List TWord) (s : State) : State := setHbmWords 0x100 (ws.map TWord.m) s

/-- A cell or object at 0x100, its pointer in w8, an index or value in w9, a further word in w10. -/
def obj (ty : Ty) (ws : List TWord) (i v : TWord) (f : Ctx → Ctx := id) : State :=
  holding ws (core0 [(8, ⟨ty, 0x100⟩), (9, i), (10, v)] f)

/-- The clauses of WordLoads that read one word through loadWord. -/
def loads (i : Instr) (s : State) (va : Word) (v : TWord) (rd : R5) : Bool :=
  okIs (loadWord 0 va (found s long0)) fun w t =>
    w.t = v && answers i s (goesOnFrom s long0 4 t fun x => pendLoad (regLoc x rd) w.t x)

theorem witness_load :
    let s := obj Ty.vec [fix 1, fix 2, fix 3] (fix 4) TWord.nil
    let u := obj Ty.raw [fix 1, fix 2] (fix 4) TWord.nil monitor
    (issues s long0 ⟨(dispField 8).isSome, false, true⟩ [11, 8] 4 ∧ baseOk 0 (operand s long0 8) ∧
      issues s long0 .nativeOnly [11, 8, 9] 4 ∧ baseOk 1 (operand u long0 8)) ∧
    loads (.ld long0 11 8 8) s 0x108 (fix 3) 11 ∧
    loads (.ldx long0 11 8 9) s 0x104 (fix 2) 11 ∧ loads (.ldx long0 11 8 9) u 0x104 (fix 2) 11 := by decide +kernel

/-- A load of memory that nothing has written gives UNSET and execution goes on (R61). -/
theorem test_load_unset : loads (.ld long0 11 8 8) (obj Ty.vec [] TWord.nil TWord.nil) 0x108 TWord.unset 11 := by decide +kernel

theorem witness_load_zekief :
    let s := obj Ty.vec [fix 1] TWord.nil TWord.nil zek
    issues s long0 ⟨(dispField 4).isSome, false, true⟩ [11, 8] 4 ∧
      loads (.ld long0 11 8 0) s 0x100 (fix 1) 11 := by decide +kernel

/-- The clauses of WordLoads that read a pair into registers 12 and 13. -/
def loadsPair (i : Instr) (s : State) (va : Word) (a b : TWord) : Bool :=
  okIs (loadHop 0 .load va (found s long0) 8) fun x u => okIs (loadHop 0 .load (va + 4) u 8) fun y v =>
    okIs (checkLoaded 0 x.2.1 x.2.2 x.1.t v) fun _ w => okIs (checkLoaded 0 y.2.1 y.2.2 y.1.t w) fun _ t =>
      x.1.ty ≠ Ty.fwd && y.1.ty ≠ Ty.fwd && x.1.t = a && y.1.t = b && va.extractLsb' 0 3 = 0 &&
        answers i s (goesOnFrom s long0 4 t fun c => pendLoad (regLoc c 13) b (pendLoad (regLoc c 12) a c))

theorem witness_load_bank :
    let s := holding [fix 1, fix 2, fix 3] (core0 [] fun x => { x with b := [(2, ⟨Ty.vec, 0x100⟩)] })
    (issues s long0 ⟨true, false, false⟩ [12] 4 ∧ issues s short0 ⟨true, true, false⟩ [11] 2 ∧
      baseOk 0 ((context s long0).bank 2)) ∧
    loads (.ldB long0 12 2 1) s 0x104 (fix 2) 12 ∧
    okIs (loadWord 0 0x108 (found s short0)) (fun w t =>
      answers (.ldB short0 11 2 2) s (goesOnFrom s short0 2 t fun x => pendLoad (regLoc x 11) w.t x)) ∧
    issues s long0 .nativeOnly [12, 13] 4 ∧ loadsPair (.ldpB long0 12 2 0) s 0x100 (fix 1) (fix 2) := by decide +kernel

theorem witness_load_pair :
    let s := obj Ty.vec [fix 1, fix 2, fix 3, fix 4] TWord.nil TWord.nil
    issues s long0 .nativeOnly [12, 13, 8] 4 ∧ ((operand s long0 8).val + disp10 2).extractLsb' 0 3 = 0 ∧
    baseOk 0 (operand s long0 8) ∧ loadsPair (.ldp long0 12 8 2) s 0x108 (fix 3) (fix 4) := by decide +kernel

theorem witness_cells :
    let n := core0 [(8, TWord.nil)]
    let s := obj Ty.cons [fix 1, fix 2] TWord.nil TWord.nil
    (issues n long0 ⟨true, true, false⟩ [11, 8, 0] 4 ∧ operand n long0 8 = TWord.nil ∧
      (operand s long0 8).ty = Ty.cons ∧ (operand s long0 8).val.extractLsb' 0 3 = 0) ∧
    answers (.car long0 11 8) n (goesOn n long0 4 fun x => pendLoad (regLoc x 11) TWord.nil x) ∧
    answers (.cdr long0 11 8) n (goesOn n long0 4 fun x => pendLoad (regLoc x 11) TWord.nil x) ∧
    loads (.car long0 11 8) s 0x100 (fix 1) 11 ∧ loads (.cdr long0 11 8) s 0x104 (fix 2) 11 := by decide +kernel

/-- VREF at the last index of a VEC of two; VLEN. -/
theorem witness_vectors :
    let s := obj Ty.vec [⟨Ty.hdr, 0x00000002⟩, fix 7, fix 9] (fix 1) TWord.nil
    okIs (objHdr 0 (operand s long0 8) (found s long0)) (fun h t =>
      issues s long0 .nativeZekief [11, 8, 9] 4 && isRefable (operand s long0 8).ty && decide (1 < hdrLen h.2) &&
        okIs (loadWord 0 (h.1 + 4 + ((1 : Word) <<< 2)) t) fun w t1 =>
          w.t = fix 9 && answers (.vref long0 11 8 9) s (goesOnFrom s long0 4 t1 fun x => pendLoad (regLoc x 11) w.t x)) ∧
    okIs (objHdr 0 (operand s long0 8) (found s long0)) (fun h t =>
      issues s long0 .nativeZekief [11, 8, 0] 4 && isObject (operand s long0 8).ty &&
        answers (.vlen long0 11 8) s (goesOnFrom s long0 4 t fun x =>
          x.setReg 11 (TWord.fix ((h.2.extractLsb' 0 24).setWidth 32))) &&
        (h.2.extractLsb' 0 24).setWidth 32 = (2 : Word)) := by decide +kernel

/-- LDNF reads a FWD word itself; LDL reads code; TAGOF_MEM the tag byte. -/
theorem witness_other_reads :
    let s := obj Ty.vec [fix 1, ⟨Ty.fwd, 0x100⟩] (fix 4) TWord.nil monitor
    let l := setHbmWord 0x200 ⟨Ty.raw, false, false, 5⟩ (core0 [] fun x => { x with pc := 0x1F8 })
    okIs (loadVa 0 .load 0x104 (found s long0)) (fun r t => okIs (checkLoaded 0 0x104 r.2 r.1.t t) fun _ t1 =>
      issues s long0 .nativeOnly [11, 8, 9] 4 && r.1.ty = Ty.fwd &&
        answers (.ldnf long0 11 8 9) s (goesOnFrom s long0 4 t1 fun x => pendLoad (regLoc x 11) r.1.t x)) ∧
    okIs (loadVa 0 .fetch 0x200 (found l long0)) (fun r t =>
      issues l long0 .nativeOnly [11] 4 && r.1.t = ⟨Ty.raw, 5⟩ &&
        answers (.ldl long0 11 2) l (goesOnFrom l long0 4 t fun x => pendLoad (regLoc x 11) r.1.t x)) ∧
    okIs (loadVa 0 .load 0x100 (found s long0)) (fun r t =>
      issues s long0 .nativeZekief [11, 8, 0] 4 &&
        answers (.tagofMem long0 11 8) s (goesOnFrom s long0 4 t fun x =>
          x.setReg 11 (TWord.fix (r.1.tag.setWidth 32))) && r.1.tag = 1) := by decide +kernel

/-- Sub-word loads of the top byte and half of a word. -/
theorem witness_sub_loads :
    let s := obj Ty.vec [fix (-2)] (fix 3) TWord.nil
    let u := obj Ty.vec [fix (-2)] (fix 2) TWord.nil
    okIs (loadFwd 0 .load 0x103 (found s long0) 1) (fun r t =>
      issues s long0 .nativeOnly [11, 8, 9] 4 && usable r.1.t &&
      answers (.lbs long0 11 8 9) s (goesOnFrom s long0 4 t fun x => pendLoad (regLoc x 11) (fix (-1)) x) &&
      answers (.lbu long0 11 8 9) s (goesOnFrom s long0 4 t fun x => pendLoad (regLoc x 11) (fix 255) x)) ∧
    okIs (loadFwd 0 .load 0x102 (found u long0) 2) (fun r t =>
      usable r.1.t && answers (.lhs long0 11 8 9) u (goesOnFrom u long0 4 t fun x => pendLoad (regLoc x 11) (fix (-1)) x) &&
      answers (.lhu long0 11 8 9) u (goesOnFrom u long0 4 t fun x => pendLoad (regLoc x 11) (fix 65535) x)) := by decide +kernel

/-- The clauses of WordStores that store one word through storeWord. -/
def stores (i : Instr) (s : State) (h : StoreHow) (va : Word) (v : TWord) : Bool :=
  okIs (storeWord 0 h va v (found s long0)) fun _ t =>
    carried v && storable (context s long0).cstat.priv false v.ty && answers i s (leaves s long0 4 t) &&
      okIs (loadWord 0 va t) fun w _ => w.t = v

theorem witness_stores :
    let s := obj Ty.vec [] (fix 4) (fix 77)
    let b := core0 [(10, fix 77)] fun x => { x with b := [(2, ⟨Ty.vec, 0x100⟩)] }
    let c := obj Ty.cons [] (fix 77) TWord.nil
    (issues s long0 ⟨(dispField 4).isSome, false, true⟩ [10, 8] 4 ∧ issues s long0 .nativeOnly [10, 8, 9] 4 ∧
      issues b long0 ⟨true, false, false⟩ [10] 4 ∧ issues c long0 .nativeZekief [0, 8, 9] 4) ∧
    stores (.st long0 10 8 4) s ⟨false, false⟩ 0x104 (fix 77) ∧ stores (.stx long0 10 8 9) s ⟨false, false⟩ 0x104 (fix 77) ∧
    stores (.stB long0 10 2 3) b ⟨false, false⟩ 0x10C (fix 77) ∧
    stores (.setcar long0 8 9) c ⟨false, false⟩ 0x100 (fix 77) ∧
    stores (.setcdr long0 8 9) c ⟨false, false⟩ 0x104 (fix 77) := by decide +kernel

/-- STP and STP_B, outside windows and through one. -/
def storesPair (i : Instr) (s : State) (base : TWord) (va : Word) : Bool :=
  let a := operand s long0 10
  let b := operand s long0 11
  okIs (checkReached 0 .store va [a, b] (found s long0)) fun _ y =>
    okIs (storeTarget 0 ⟨freeBase base, true⟩ .store va a y) fun t0 u =>
      okIs (storeTarget 0 ⟨freeBase base, true⟩ .store (va + 4) b u) fun t1 v =>
        carried a && carried b && baseOk (context s long0).cstat.priv base && va.extractLsb' 0 3 = 0 &&
          (if regionOf v t0.pa = .window ∧ t1.pa = t0.pa + 4 then
            answers i s (leaves s long0 4 (winStore (localOf t0.pa) (wordBytes a.val ++ wordBytes b.val) v))
          else okIs (storeDo 0 a t0 v) fun _ x => okIs (storeDo 0 b t1 x) fun _ t => answers i s (leaves s long0 4 t))

theorem witness_store_pairs :
    let s := core0 [(8, ⟨Ty.vec, 0x100⟩), (10, fix 1), (11, ⟨Ty.pte, 2⟩)]
      fun x => { monitor x with b := [(1, ⟨Ty.raw, 0x100⟩)] }
    (issues s long0 .nativeOnly [10, 11, 8] 4 ∧ issues s long0 .nativeOnly [10, 11] 4 ∧
      storable 1 true (operand s long0 11).ty) ∧
    storesPair (.stp long0 10 8 2) s ⟨Ty.vec, 0x100⟩ 0x108 ∧ storesPair (.stpB long0 10 1 2) s ⟨Ty.raw, 0x100⟩ 0x108 := by decide +kernel

/-- STP through host window 0, at host address 0x5000: one write of 8 bytes (16 R507). -/
theorem witness_store_pair_window :
    let s := core0 [(8, ⟨Ty.raw, 0x100⟩), (10, fix 1), (11, fix 2)] monitor
    let s := { (s.modCore 0 fun k => { k with dtlb := [⟨0, true, 0, 32, 0x1400000000, true, true, true, true, true⟩] }) with
      hi := { s.hi with winLo := [(0, 0x5001)] } }
    issues s long0 .nativeOnly [10, 11, 8] 4 ∧ storesPair (.stp long0 10 8 0) s ⟨Ty.raw, 0x100⟩ 0x100 ∧
    answersWith (.stp long0 10 8 0) s (fun t => t.out = [.winWrite 0x5100 [1, 0, 0, 0, 2, 0, 0, 0]]) := by decide +kernel

/-- VSET at the last index of a VEC. -/
theorem witness_vset :
    let s := obj Ty.vec [⟨Ty.hdr, 0x01000002⟩, fix 7, fix 9] (fix 1) (fix 5)
    okIs (checkReached 0 .load 0x100 [] (found s long0)) fun _ x =>
      okIs (valueCandle 0 (0x104 + ((1 : Word) <<< 2)) (fix 5) x) fun _ y =>
        okIs (objHdr 0 (operand s long0 8) y) fun h u =>
          okIs (storeTarget 0 ⟨false, false⟩ .store (h.1 + 4 + ((1 : Word) <<< 2)) (fix 5) u) fun g v =>
            okIs (storeDo 0 (fix 5) g v) fun _ t =>
              issues s long0 .nativeZekief [10, 8, 9] 4 && decide (1 < hdrLen h.2) && hdrSub h.2 = (fix 5).ty.setWidth 8 &&
                isSetable (operand s long0 8).ty && storable 0 false (fix 5).ty &&
                answers (.vset long0 10 8 9) s (leaves s long0 4 t) := by decide +kernel

/-- Sub-word stores: SB at byte 3, SH at byte 2; and SH through a FWD word. -/
theorem witness_sub_stores :
    let s := obj Ty.vec [TWord.raw 0] (fix 3) (fix 0xAB)
    let u := obj Ty.vec [TWord.raw 0x11223344] (fix 2) ⟨Ty.raw, 0xABCD⟩
    let f := obj Ty.vec [⟨Ty.fwd, 0x140⟩] (fix 0) ⟨Ty.raw, 0xABCD⟩
    (issues s long0 .nativeOnly [10, 8, 9] 4 ∧ baseOk 0 (operand s long0 8)) ∧
    okIs (subStoreAt 0 1 0xAB 0x103 false (found s long0)) (fun r t =>
      r = none && answers (.sb long0 10 8 9) s (leaves s long0 4 t)) ∧
    okIs (subStoreAt 0 2 0xABCD 0x102 false (found u long0)) (fun r t =>
      r = none && answers (.sh long0 10 8 9) u (leaves u long0 4 t)) ∧
    okIs (subStoreAt 0 2 0xABCD 0x100 false (found f long0)) (fun r t => r.isSome && (match r with
      | some va => okIs (subStoreAt 0 2 0xABCD va true t) fun q t1 => q = none && answers (.sh long0 10 8 9) f (leaves f long0 4 t1)
      | none => false)) := by decide +kernel

/-- CAS that succeeds, CAS that fails on the TYPE, and XCHG. -/
theorem witness_exchanges :
    let s := obj Ty.vec [fix 5] (fix 6) (fix 5)
    let f := obj Ty.vec [⟨Ty.raw, 5⟩] (fix 6) (fix 5)
    let go (i : Instr) (s : State) (ok : TWord → Bool) : Bool :=
      okIs (drainAll 0 8 (found s long0)) fun _ u =>
        okIs (rmwTarget 0 ⟨false, false⟩ 0x100 (fix 6) u) fun g v =>
          okIs (rmwDo 0 (fix 6) ok g v) fun old t =>
            issues s long0 .nativeOnly [10, 8, 9] 4 && old = g.old.t &&
              answers i s (goesOnFrom s long0 4 t fun x => x.setReg 10 old)
    go (.cas long0 10 8 9) s (fun w => w = fix 5) ∧ go (.cas long0 10 8 9) f (fun w => w = fix 5) ∧
      go (.xchg long0 10 8 9) s (fun _ => true) := by decide +kernel

theorem witness_freeze :
    let s := obj Ty.cons [fix 5, fix 6] TWord.nil TWord.nil
    okIs (freezeRange 0 (operand s long0 8) (found s long0)) fun r u =>
      okIs (freezeCheck 0 r.2 r.1 u) fun _ v => okIs (freezeWords 0 r.2 r.1 v) fun _ t =>
        issues s long0 .nativeZekief [0, 8, 0] 4 && r = (0x100, 2) && ((t.l2 0 4).words.map MWord.imm).take 3 = [true, true, false] &&
          answers (.freeze long0 8) s (leaves s long0 4 t) := by decide +kernel

/-- An integer beside a FLT: a FIX on the left and on the right, and a BIG, 2^32, on either side (R78). -/
theorem witness_int_beside_float :
    let s := two (fix 3) (flt 0x40000000)
    let u := two (flt 0x40000000) (fix 3)
    let b := holding [mkHdr 0 2, TWord.raw 0, TWord.raw 1] (core0 [(8, ⟨Ty.big, 0x100⟩), (9, flt 0x40000000)])
    let go (i : Instr) (s : State) (r : R5) (n : Int) (v : Word) : Bool :=
      okIs (intOf 0 (operand s long0 r) (found s long0)) fun m t => m = n && isInt (operand s long0 r).ty &&
        answers i s (goesOnFrom s long0 4 t fun c => c.setReg 10 (flt v))
    (issues s long0 (arithForms .sub 10 8) [10, 8, 9] 4 ∧ issues b long0 (arithForms .mul 10 9) [10, 9, 8] 4) ∧
    go (.sub long0 10 8 9) s 8 3 0x3F800000 ∧ go (.sub long0 10 8 9) u 9 3 0xBF800000 ∧
    go (.mul long0 10 8 9) b 8 0x100000000 0x50000000 ∧ go (.div long0 10 9 8) b 8 0x100000000 0x30000000 := by decide +kernel

/-! ### Control flow, repeats and floats -/

/-- A transfer of control to pc. -/
def jumps (i : Instr) (s : State) (iss : Iss) (pc : Word) : Bool := answers i s (goesTo s iss (found s iss) pc id)

theorem witness_branches :
    let s := core0 [(8, ⟨Ty.code, 0x400⟩), (9, fix 0), (10, fix 1), (11, fix 2), (12, fix 0x7FFFFFFF)] fun x => { x with pc := 0x100 }
    (issues s long0 .nativeOnly [] 4 ∧ issues s short0 .shortOnly [] 2 ∧ issues s long0 ⟨true, true, true⟩ [0, 8, 0] 4 ∧
      issues s long0 .nativeOnly [9] 4 ∧ operand s long0 8 = ⟨Ty.code, 0x400⟩) ∧
    jumps (.br long0 (-1)) s long0 0xFE ∧ jumps (.brs short0 0x1FF) s short0 0x4FE ∧ jumps (.jr long0 8) s long0 0x400 ∧
    answers (.dbnz long0 9 5) s (leaves s long0 4 (found s long0)) ∧
    answers (.dbnz long0 10 5) s (goesOn s long0 4 fun x => x.setReg 10 (fix 0)) ∧
    answers (.dbnz long0 11 5) s (goesTo s long0 (found s long0) 0x10A fun x => x.setReg 11 (fix 1)) ∧
    answers (.dbnz long0 12 (-1)) s (goesTo s long0 (found s long0) 0xFE fun x => x.setReg 12 (fix 0x7FFFFFFE)) ∧
    answers (.guard short0 2 true 3) s (s.modCtx 0 fun x =>
      { x with pc := 0x102, cstat := { x.cstat with gcnt := 4, gpred := 2, ginv := true } }) := by decide +kernel

theorem witness_branches_zekief :
    let s := core0 [(8, TWord.bool true), (9, TWord.bool false)] fun x => { zek x with pc := 0x100 }
    (issues s long0 .zekiefOnly [] 4 ∧ operand s long0 8 = TWord.bool true) ∧
    jumps (.zekiefBt long0 8 (-2)) s long0 0xF8 ∧ answers (.zekiefBt long0 9 4) s (leaves s long0 4 (found s long0)) ∧
    jumps (.zekiefBf long0 9 4) s long0 0x110 ∧ answers (.zekiefBf long0 8 4) s (leaves s long0 4 (found s long0)) ∧
    jumps (.zekiefJ long0 1) s long0 0x104 := by decide +kernel

/-- A guard that does not hold lets the instruction do nothing (R275). -/
theorem test_guard_false :
    let s := core0 [(8, ⟨Ty.code, 0x400⟩)]
    answers (.jr ⟨0, false, 1, false, .none⟩ 8) s (s.modCtx 0 fun x => { x with pc := 4 }) := by decide +kernel

def callState : State :=
  core0 [(8, ⟨Ty.code, 0x400⟩), (7, ⟨Ty.ret, 0x200⟩)] fun x =>
    { x with pc := 0x100, rs := [(0x200, true)], wptr := { x.wptr with resw := 6 } }

theorem witness_calls :
    let s := callState
    ((context s long0).cstat.shadow = false ∧ (context s long0).wptr.resw ≠ 7 ∧ issues s long0 .nativeOnly [23] 4 ∧
      issues s short0 ⟨true, true, false⟩ [8, 23] 2 ∧ issues s long0 ⟨true, true, false⟩ [7] 4 ∧
      (context s long0).wptr.resw ≠ 1 ∧ operand s long0 8 = ⟨Ty.code, 0x400⟩ ∧ operand s long0 7 = ⟨Ty.ret, 0x200⟩) ∧
    okIs (pushReturn 0 0x104 (found s long0)) (fun r t => r.1 = [(0x104, true), (0x200, true)] &&
      answers (.call long0 0x10) s (goesTo s long0 t 0x120 fun x =>
        { x with rs := r.1, ssp := r.2.1, wptr := { x.wptr with cwp := 1, resw := 7, unchk := r.2.2 } }.setReg 7
          ⟨Ty.ret, 0x104⟩)) ∧
    okIs (pushReturn 0 0x102 (found s short0)) (fun r t =>
      answers (.callr short0 8) s (goesTo s short0 t 0x400 fun x =>
        { x with rs := r.1, ssp := r.2.1, wptr := { x.wptr with cwp := 1, resw := 7, unchk := r.2.2 } }.setReg 7
          ⟨Ty.ret, 0x102⟩)) ∧
    okIs (checkReturn 0 ⟨Ty.ret, 0x200⟩ (found s long0)) (fun r t => r.1 = [] &&
      answers (.ret long0) s (goesTo s long0 t 0x200 fun x =>
        { x with rs := r.1, ssp := r.2.1, wptr := { x.wptr with cwp := 7, resw := 5, unchk := r.2.2 } })) := by decide +kernel

theorem witness_calls_zekief :
    let s := core0 [(31, ⟨Ty.ret, 0x200⟩)] fun x => { zek x with pc := 0x100, rs := [(0x200, true)] }
    (issues s long0 .zekiefOnly [31] 4 ∧ (context s long0).cstat.shadow = false ∧ operand s long0 31 = ⟨Ty.ret, 0x200⟩) ∧
    okIs (pushReturn 0 0x104 (found s long0)) (fun r t =>
      answers (.zcall long0 4) s (goesTo s long0 t 0x110 fun x =>
        { x with rs := r.1, ssp := r.2.1, wptr := { x.wptr with unchk := r.2.2 } }.setReg 31 ⟨Ty.ret, 0x104⟩)) ∧
    okIs (checkReturn 0 ⟨Ty.ret, 0x200⟩ (found s long0)) (fun r t =>
      answers (.zret long0) s (goesTo s long0 t 0x200 fun x =>
        { x with rs := r.1, ssp := r.2.1, wptr := { x.wptr with unchk := r.2.2 } })) := by decide +kernel

/-- The return stack: with room, with the address on top, with a checked and an unchecked mismatch, and empty. -/
theorem witness_return_stack :
    let top (l : List (Word × Bool)) (u : BitVec 8) := core0 [] fun x => { x with rs := l, wptr := { x.wptr with unchk := u } }
    okIs (pushReturn 0 8 (top (List.replicate 15 (4, true)) 0)) (fun r _ => r.1.length = 16) ∧
    okIs (checkReturn 0 ⟨Ty.ret, 4⟩ (top [(4, true)] 0)) (fun r _ => r.1 = []) ∧
    okIs (checkReturn 0 ⟨Ty.ret, 8⟩ (top [(4, false)] 0)) (fun r _ => r.1 = []) ∧
    trapsWith (checkReturn 0 ⟨Ty.ret, 8⟩ (top [(4, true)] 0)) Cause.rsMismatch ∧
    okIs (checkReturn 0 ⟨Ty.ret, 8⟩ (top [] 1)) (fun r _ => r.2.2 = 0) ∧
    trapsWith (checkReturn 0 ⟨Ty.ret, 8⟩ (top [] 0)) Cause.rsEmpty := by decide +kernel

/-- A count of 0. -/
theorem witness_repeats_none :
    let s := core0 [(8, ⟨Ty.vec, 0x180⟩), (9, ⟨Ty.vec, 0x100⟩), (11, fix 0)]
    (issues s long0 .nativeOnly [8, 9, 11] 4 ∧ operand s long0 11 = fix 0) ∧
    answers (.rmov long0 8 9 11) s (leaves s long0 4 (found s long0)) ∧
    answers (.rfill long0 8 9 11) s (leaves s long0 4 (found s long0)) ∧
    answers (.rscan long0 8 9 11 1) s (leaves s long0 4 (found s long0)) := by decide +kernel

/-- repeatStored as a test. -/
def storedThen (base v : TWord) (s : State) (p : State → Bool) : Bool :=
  carried v && baseOk (privOf 0 s) base && storable (privOf 0 s) false v.ty &&
    okIs (storeTarget 0 ⟨freeBase base, false⟩ .store base.val v s) fun g u =>
      okIs (if regionOf u g.pa = .data then makeRoom 0 (lineNo g.pa) u else .ok () u) fun _ w =>
        okIs (storeDo 0 v g w) fun _ t => p t

/-- RMOV and RFILL with counts of 2 and 1. -/
theorem witness_repeat_stores :
    let s := holding [fix 5, fix 6] (core0 [(8, ⟨Ty.vec, 0x180⟩), (9, ⟨Ty.vec, 0x100⟩), (10, fix 2), (12, fix 5), (13, fix 1)])
    let mov (rt : R5) : Bool :=
      okIs (checkReached 0 .load 0x100 [] (found s long0)) fun _ x => okIs (checkReached 0 .store 0x180 [] x) fun _ y =>
        okIs (loadWord 0 0x100 y) fun w z => w.t = fix 5 && storedThen (operand s long0 8) w.t z fun t =>
          answers (.rmov long0 8 9 rt) s (repeats s long0 4 rt (t.modCtx 0 (iterated [9, 8] rt)))
    let fill (rt : R5) : Bool := storedThen (operand s long0 8) (fix 5) (found s long0) fun t =>
      answers (.rfill long0 8 12 rt) s (repeats s long0 4 rt (t.modCtx 0 (iterated [8] rt)))
    (issues s long0 .nativeOnly [8, 9, 10] 4 ∧ issues s long0 .nativeOnly [8, 12, 13] 4 ∧ operand s long0 10 = fix 2 ∧
      baseOk 0 (operand s long0 8) ∧ baseOk 0 (operand s long0 9)) ∧ mov 10 ∧ mov 13 ∧ fill 10 ∧ fill 13 := by decide +kernel

/-- RSCAN: a match, a word passed over with words left, and the last one passed over. -/
theorem witness_scans :
    let s := holding [fix 5, fix 6] (core0 [(9, ⟨Ty.vec, 0x100⟩), (10, fix 2), (12, fix 5), (13, fix 1)])
    okIs (loadWord 0 0x100 (found s long0)) fun w t => w.t = fix 5 && issues s long0 .nativeOnly [9, 12, 10] 4 &&
      answers (.rscan long0 9 12 10 1) s (leaves s long0 4 (t.modCtx 0 fun x => x.setPred 1 true)) &&
      answers (.rscan long0 9 13 10 1) s (stands s long0 (t.modCtx 0 (iterated [9] 10))) &&
      okIs (loadWord 0 0x100 (found (s.modCtx 0 fun x => x.setReg 10 (fix 1)) long0)) fun _ t =>
        answers (.rscan long0 9 13 10 1) (s.modCtx 0 fun x => x.setReg 10 (fix 1))
          (leaves (s.modCtx 0 fun x => x.setReg 10 (fix 1)) long0 4 ((t.modCtx 0 (iterated [9] 10)).modCtx 0 fun x => x.setPred 1 false)) := by
  decide +kernel

/-- An iteration that is not the last leaves the context at the boundary, with RPT set and the pointers moved (R291, R342). -/
theorem test_repeat_boundary :
    answersWith (.rmov long0 8 9 10)
      (holding [fix 5, fix 6] (core0 [(8, ⟨Ty.vec, 0x180⟩), (9, ⟨Ty.vec, 0x100⟩), (10, fix 2)] fun x => { x with pc := 0x40 }))
      (fun t => (t.ctx 0).pc = 0x40 && (t.ctx 0).cstat.rpt && (t.ctx 0).reg 8 = ⟨Ty.vec, 0x184⟩ && (t.ctx 0).reg 10 = fix 1) := by
  decide +kernel

/-- The core's f registers belong to context 0. -/
def fpu (l : List (Nat × Word)) (regs : List (R5 × TWord)) : State :=
  (core0 regs fun x => { x with cstat := { x.cstat with fpa := true, fpv := true } }).modCore 0 fun k =>
    { k with fp := l, fpOwner := some (0, 0) }

theorem witness_float_operations :
    let s := fpu [(1, 0x3FC00000), (2, 0x40000000), (3, 0x40800000)] []
    issues s long0 .nativeOnly [] 4 ∧
    okIs (takeFp 0 (found s long0)) (fun _ u =>
      let go (i : Instr) (d : R5) (v : Word) : Bool := answers i s (leaves s long0 4 (fput 0 d v u))
      !isSnan (fget 0 1 u) && !isSnan (fget 0 2 u) && fpReady (s.ctx 0) [15, 1, 2] &&
      go (.fadd long0 15 1 2) 15 0x40600000 && go (.fsub long0 15 1 2) 15 0xBF000000 && go (.fmul long0 15 1 2) 15 0x40400000 &&
      go (.fdiv long0 15 1 2) 15 0x3F400000 && go (.fmin long0 15 1 2) 15 0x3FC00000 && go (.fmax long0 15 1 2) 15 0x40000000 &&
      go (.fsqrt long0 15 3) 15 0x40000000 && go (.fma long0 3 1 2) 3 0x40E00000 && go (.fneg long0 15 1) 15 0xBFC00000 &&
      go (.fabs long0 15 1) 15 0x3FC00000 && go (.fmv long0 15 1) 15 0x3FC00000) := by decide +kernel

/-- FMA of 0 and infinity with a quiet NaN: the INVALID flag is a free value. -/
theorem witness_fma_free :
    let s := fpu [(1, 0), (2, 0x7F800000), (3, 0x7FC00000)] []
    okIs (takeFp 0 (found s long0)) fun _ u =>
      (f32Fma (roundMode 0 u) (fget 0 1 u) (fget 0 2 u) (fget 0 3 u)).2.2 && !isSnan (fget 0 3 u) := by decide +kernel

theorem witness_float_compares :
    let s := fpu [(1, 0x3FC00000), (2, 0x40000000), (3, 0x7FC00000)] []
    (issues s long0 .nativeOnly [] 4 ∧ fpReady (s.ctx 0) [1, 2]) ∧
    okIs (takeFp 0 (found s long0)) (fun _ u =>
      let go (i : Instr) (v : Bool) : Bool := answers i s (goesOnFrom s long0 4 u fun x => x.setPred 1 v)
      go (.feq long0 1 1 2) false && go (.flt long0 1 1 2) true && go (.fle long0 1 1 1) true && go (.fun long0 1 1 2) false &&
      go (.fun long0 1 1 3) true && go (.feq long0 1 3 3) false &&
      answers (.flt long0 1 1 3) s (goesOnFrom s long0 4 (raiseFlags 0 Fflags.invalid u) fun x => x.setPred 1 false)) := by
  decide +kernel

theorem witness_float_moves :
    let s := holding [flt 0x3F800000] (fpu [(1, 0x3FC00000), (2, 0x40400000)] [(8, flt 0x40A00000), (9, fix (-3)), (10, ⟨Ty.vec, 0x100⟩)])
    (issues s long0 .nativeOnly [8] 4 ∧ issues s long0 .nativeOnly [10] 4) ∧
    okIs (takeFp 0 (found s long0)) (fun _ u =>
      (u.ctx 0).reg 8 = flt 0x40A00000 && baseOk 0 ((u.ctx 0).reg 10) &&
      answers (.mtf long0 15 8) s (leaves s long0 4 (fput 0 15 0x40A00000 u)) &&
      answers (.mff long0 8 1) s (goesOnFrom s long0 4 u fun x => x.setReg 8 (flt 0x3FC00000)) &&
      answers (.cvtif long0 15 9) s (leaves s long0 4 (fput 0 15 0xC0400000 u)) &&
      answers (.cvtfi long0 8 2) s (goesOnFrom s long0 4 u fun x => x.setReg 8 (fix 3)) &&
      okIs (loadWord 0 0x100 u) (fun w v =>
        answers (.fld long0 15 10 0) s (leaves s long0 4 (addLoad 0 (.fp 15) w.t false v)) && w.ty = Ty.flt) &&
      okIs (storeWord 0 ⟨false, false⟩ 0x104 (flt 0x3FC00000) u) fun _ v =>
        answers (.fst long0 1 10 1) s (leaves s long0 4 v)) := by decide +kernel

/-! ### Tasks, fabric, maintenance, system registers, frames, exceptions -/

/-- Context 0 runs task 5 of event slot 3, generation 1. -/
def tasked (regs : List (R5 × TWord)) (f : Ctx → Ctx := id) (d : TaskD → TaskD := id) : State :=
  (core0 regs fun x => f { x with task := some 5 }).modTask 5 fun _ =>
    d { TaskD.free with st := .running, handle := some 0x00803, ctx := some 0 }

theorem witness_decide :
    let s := tasked [(8, fix 15), (9, fix 7), (10, TWord.raw 1)]
    let z := tasked [(8, fix 8), (9, fix 7), (10, TWord.raw 1)] zek
    let req (s : State) (n : BitVec 4) (pd : Option (BitVec 3)) : State :=
      waitsIn s long0 4 { found s long0 with ll := { (found s long0).ll with
        decides := (found s long0).ll.decides ++ [⟨0, 5, 0x00803, n, 0x100000007, pd, true⟩] } } .stalled .decide
    (handleOf (found s long0) 0 = some 0x00803 ∧ (context s long0).task = some 5 ∧ operand s long0 8 = fix 15 ∧
      issues s long0 .nativeOnly [8, 9, 10] 4 ∧ issues z long0 .zekiefOnly [] 4) ∧
    answers (.decide long0 2 8 9 10) s (req s 15 (some 2)) ∧ answers (.zdecide long0 8 9 10) z (req z 8 none) := by decide +kernel

theorem witness_spawn :
    let s := { tasked [(8, fix 0), (9, fix 3)] with ll := { (tasked []).ll with
      menu := Rwc.reset { LlMenu.reset with tmpls := 1 }, templ := [(0, { Templ.off with en := true, kind := 5 })] } }
    okIs (drainAll 0 8 (found s long0)) fun _ u => issues s long0 .nativeOnly [0, 8, 9] 4 &&
      (templateAt (found s long0) 0).isSome &&
      answers (.spawn long0 8 9) s (leaves s long0 4
        { u with ll := { u.ll with spawns := u.ll.spawns ++ [⟨0, fix 3, some 0x00803, 0⟩] } }) := by decide +kernel

/-- WAITJ with a wake pending, without a job, with a job of the task; WAITR with and without a wake pending. -/
theorem witness_waits :
    let job : Job := ⟨1, 0x100, 0, 0, none, some 5, 0, 0, none, false⟩
    let p := tasked [(8, fix 0x0480)] id fun d => { d with pend := true }
    let n := tasked [(8, fix 0x0480)]
    let j := { tasked [(8, fix 0x0480)] with tp := { (tasked []).tp with jobs := [(0x80, some job)] } }
    let r := { tasked [(8, fix 1)] with bl := { (tasked []).bl with ring := Rwc.reset { BlRing.reset with cnt := 2 } } }
    (issues p long0 .nativeZekief [0, 8, 0] 4 ∧ (p.task 5).pend ∧ jobOutstanding (found n long0) 5 0x0480 = false ∧
      jobOutstanding (found j long0) 5 0x0480 ∧ (1 : Word).toNat < r.bl.ring.lv.cnt.toNat) ∧
    answers (.waitj long0 8) p (leaves p long0 4
      (putTask 5 (fun t => { t with waitKind := 3, waitId := 0x0480, pend := false }) (found p long0))) ∧
    answers (.waitj long0 8) n (leaves n long0 4
      (putTask 5 (fun t => { t with waitKind := 3, waitId := 0x0480 }) (found n long0))) ∧
    answers (.waitj long0 8) j (waitsIn j long0 4
      (putTask 5 (fun t => { t with waitKind := 3, waitId := 0x0480, st := .waiting }) (found j long0)) .waiting .none) ∧
    answers (.waitr long0 8) r (waitsIn r long0 4
      (putTask 5 (fun t => { t with waitKind := 4, waitId := 1, st := .waiting })
        { found r long0 with ll := { (found r long0).ll with listeners := Tab.set none (found r long0).ll.listeners 1 (some 5) } })
      .waiting .none) := by decide +kernel

theorem witness_exit_yield :
    let s := tasked []
    let g := tasked [(8, fix 2)]
    let b := g.modSlot 3 fun t => { t with st := .opened, gen := 1 }
    let e := { b with cn := { b.cn with pool := Rwc.reset { CnPool.reset with banks := [(0, ⟨0, 2, true⟩)] } } }
    (issues s long0 .nativeZekief [] 4 ∧ (context s long0).task = some 5) ∧
    answers (.exit long0) s (endTask 5 (found s long0)) ∧
    answers (.yield long0) s (finish 0 (s.ctx 0) 4 .yielded (found s long0)) ∧
    (issues e long0 .nativeOnly [8] 4 ∧ handleOf (found e long0) 0 = some 0x00803 ∧
      grantCause 3 2 (coolDue (found e long0)) = none) := by decide +kernel

/-- TSUB of a record; MSEND with a full and with an empty send buffer; XLD and XST. -/
theorem witness_fabric :
    let s := obj Ty.rec_ (⟨Ty.hdr, 0xC300000C⟩ :: List.replicate 12 (fix 0)) TWord.nil TWord.nil
    let m := obj Ty.vec [⟨Ty.hdr, 0x00000001⟩, fix 7] (fix 0x00120003) TWord.nil
    let e := obj Ty.ext [TWord.raw 0x00020000, TWord.raw 0x500] (fix 2) (fix 9)
    let msg : SendMsg := ⟨0x12, 3, none, Ty.vec, [(TWord.mk Ty.hdr 1).m, (fix 7).m], none, 0⟩
    let full := m.modCore 0 fun k => { k with send := List.replicate 8 msg }
    okIs (objHead 0 (operand s long0 8) (found s long0)) (fun h t => okIs (drainAll 0 8 t) fun _ _ =>
      issues s long0 .nativeOnly [10, 8, 0] 4 && hdrLen h.2.val = 12 && hdrSub h.2.val = 0xC3 && !h.2.imm) ∧
    okIs (objHead 0 (operand m long0 8) (found m long0)) (fun h t => okIs (objectWords 0 (hdrLen h.2.val) (h.1 + 4) t) fun body u =>
      okIs (drainAll 0 8 u) fun _ v => issues m long0 .nativeZekief [10, 9, 8] 4 && body = [(fix 7).m] &&
        answers (.msend long0 10 9 8) m (goesOnFrom m long0 4 (v.modCore 0 fun k => { k with send := k.send ++ [msg] })
          fun x => x.setReg 10 (TWord.bool true))) ∧
    answersWith (.msend long0 10 9 8) full (fun t => (t.ctx 0).reg 10 = TWord.bool false) ∧
    okIs (extCell 0 (operand e long0 8) (found e long0)) (fun c t => okIs (drainAll 0 8 t) fun _ u =>
      issues e long0 .nativeZekief [10, 8, 9] 4 &&
      answersWith (.xld long0 10 8 9) e (fun t => (t.ctx 0).st = .stalled && t.bl.reqs.length = 1) &&
      answers (.xst long0 10 8 9) e (leaves e long0 4
        (post 2 u.bl.txNext 0x09 [c.1, c.2, (fix 2).m, (fix 9).m] []
          { u with bl := { u.bl with txNext := nextTx u.bl.txNext,
                                     reqs := u.bl.reqs ++ [⟨u.bl.txNext, .write, 0, none, 0, none⟩] } }))) := by decide +kernel

/-- Entries of the job table from a up, each with a job. -/
def fullJobs (a : Nat) : Nat → Tab (Option Job)
  | 0 => []
  | n + 1 => (a, some ⟨1, 0x100, 0, 0, none, none, 0, 0, none, false⟩) :: fullJobs (a + 1) n

theorem fullJobs_some : ∀ n a k, a ≤ k → k < a + n → (Tab.get none (fullJobs a n) k).isSome
  | 0, _, _, h, h' => absurd h' (by omega)
  | n + 1, a, k, h, h' => by
    rw [fullJobs, Tab.get]
    split
    · rfl
    · exact fullJobs_some n (a + 1) k (by omega) (by omega)

/-- A record for TSUB in w8, and a job table. -/
def submitting (jobs : Tab (Option Job)) : State :=
  let s := obj Ty.rec_ (⟨Ty.hdr, 0xC300000C⟩ :: List.replicate 12 (fix 0)) TWord.nil TWord.nil
  { s with tp := { s.tp with jobs := jobs } }

/-- What TSUB asks of its record, with an empty job table. -/
theorem witness_tsub :
    okIs (objHead 0 (operand (submitting []) long0 8) (found (submitting []) long0)) fun h t =>
      okIs (drainAll 0 8 t) fun _ u => issues (submitting []) long0 .nativeOnly [10, 8] 4 && h.1 = 0x100 &&
        hdrLen h.2.val = 12 && hdrSub h.2.val = 0xC3 && !h.2.imm && (u.job 128).isNone := by decide +kernel

/-- A job table with no free entry, which the checks of TSUB leave as it is. -/
theorem witness_tsub_full :
    (∀ i, 128 ≤ i → i < 1024 → ((submitting (fullJobs 128 896)).job i).isSome = true) ∧
    ∀ jobs, (found (submitting jobs) long0).tp.jobs = jobs :=
  ⟨fun i h h' => fullJobs_some 896 128 i h (by omega), fun _ => rfl⟩

/-- Line 4 (0x100) is in lantern 0's L2. -/
def cached (st : Moesi) (f : Ctx → Ctx := id) : State :=
  setL2 0 4 ⟨st, lineOf (fix 3).m, [], .clean⟩ (core0 [(8, ⟨Ty.vec, 0x100⟩), (9, fix 64), (10, fix 4095)] f)

theorem witness_cache_lines :
    let s := cached .M monitor
    (issues s long0 .nativeOnly [0, 8, 0] 4 ∧ baseOk 1 (operand s long0 8)) ∧
    okIs (lineAt 0 .load 0x100 (found s long0)) (fun o t => o = some (4, 0) &&
      answers (.clean long0 8) s (leaves s long0 4 (cleanLine 0 4 t)) &&
      answers (.iinv long0 8) s (leaves s long0 4 (t.modCore 0 fun k => { k with l1i := l1Drop k.l1i 4 }))) ∧
    okIs (lineAt 0 .store 0x100 (found s long0)) (fun o t => o = some (4, 0) &&
      answers (.inv long0 8) s (leaves s long0 4 (discardLine 0 4 t)) &&
      answers (.clinv long0 8) s (leaves s long0 4 (evict 0 4 t))) := by decide +kernel

theorem witness_cache_ranges :
    let s := cached .M monitor
    let u (op : RangeOp) := (found s long0).modLan 0 fun l => { l with ranges := [⟨0, 0, 1, 0x100, 64, op⟩] }
    (issues s long0 .nativeOnly [0, 8, 9] 4 ∧ ((found s long0).lan 0).ranges = [] ∧ issues s long0 .nativeOnly [] 4) ∧
    answers (.crngClean long0 8 9) s (leaves s long0 4 (u .clean)) ∧
    answers (.crngInvalidate long0 8 9) s (leaves s long0 4 (u .invalidate)) ∧
    answers (.crngCleanInvalidate long0 8 9) s (leaves s long0 4 (u .cleanInvalidate)) ∧
    answers (.csync long0) s (leaves s long0 4 (found s long0)) := by decide +kernel

theorem witness_translation_caches :
    let s := cached .E monitor
    (issues s long0 .nativeOnly [0, 8, 10] 4 ∧ issues s long0 .nativeOnly [0, 0, 10] 4 ∧ operand s long0 10 = fix 4095) ∧
    answers (.tlball long0) s (leaves s long0 4 (keepTlbs (fun _ => false) (found s long0))) ∧
    answers (.wcall long0) s (leaves s long0 4 (keepWcs (fun _ => false) (found s long0))) ∧
    answers (.tlbinv long0 8 10) s (leaves s long0 4 (keepTlbs (fun e => !e.hits 4095 0x100) (found s long0))) ∧
    answers (.wcinv long0 8 10) s (leaves s long0 4 (keepWcs (fun e => !(e.asid = 4095 && e.region = 0)) (found s long0))) ∧
    answers (.tlbasid long0 10) s (leaves s long0 4
      (keepWcs (fun e => e.asid ≠ 4095) (keepTlbs (fun e => e.g || e.asid ≠ 4095) (found s long0)))) ∧
    okIs (drainAll 0 8 (found s long0)) (fun _ u =>
      issues s long0 .nativeOnly [0, 0, 15] 4 && answers (.fence long0 15) s (leaves s long0 4 u) &&
      answers (.ifence long0) s (leaves s long0 4 (u.modCore 0 fun k => { k with l1i := [] }))) ∧
    answers (.fence long0 3) s (leaves s long0 4 (found s long0)) := by decide +kernel

theorem witness_control_registers :
    let s := core0 [(8, TWord.raw 0x00000001), (9, TWord.raw 0x0000000D), (10, ⟨Ty.save, 0x1040⟩), (11, fix 2), (12, fix 1), (13, fix 0)] monitor
    (issues s long0 .nativeZekief [8] 4 ∧ issues s long0 .nativeOnly [14, 11, 0] 4 ∧ (context s long0).cstat.priv = 1 ∧
      (Cstat.unpack 0x0D).priv ≤ 1 ∧ (Cstat.unpack 0x0D).mode ≠ (context s long0).cstat.mode) ∧
    answers (.mfc long0 14 0) s (goesOn s long0 4 fun x => x.setReg 14 (TWord.raw 1)) ∧
    answers (.mfc long0 14 31) s (goesOn s long0 4 fun x => x.setReg 14 (TWord.raw 0)) ∧
    answers (.mtc long0 1 8) s (goesOn s long0 4 fun x => { x with epc := TWord.raw 1 }) ∧
    answers (.mtc long0 7 8) s (goesOn s long0 4 fun x => { x with wptr := ⟨1, 1, 0, 0⟩ }) ∧
    answers (.mtc long0 0 8) s (goesOn s long0 4 fun x =>
      { x with cstat := x.cstat.written (Cstat.unpack 1), msh := none }) ∧
    answers (.mtc long0 0 9) s (goesOn s long0 4 fun x =>
      { x with cstat := x.cstat.written (Cstat.unpack 0x0D), msh := some true }) ∧
    answers (.mtc long0 4 10) s (goesOn s long0 4 fun x => { x with savep := ⟨Ty.save, 0x1040⟩ }) ∧
    answers (.mcver long0 14 11) s (goesOn s long0 4 fun x => x.setReg 14 (TWord.raw (mcverWord (s.core 0).uc 2))) ∧
    answers (.rdtb long0 14 13) s (goesOn s long0 4 fun x => { x with rdtb := 0 }.setReg 14 ⟨Ty.time, 0⟩) ∧
    answers (.rdtb long0 14 12) s (goesOn s long0 4 fun x => x.setReg 14 (TWord.raw 0)) := by decide +kernel

/-- MTC of a level above its own is not of the statement: it traps (R321). -/
theorem test_mtc_escalation : answersWith (.mtc long0 0 8) (core0 [(8, TWord.raw 1)]) (fun t =>
    (t.ctx 0).raised.map (fun r => r.trap.cause) = some Cause.privEsc) := by decide +kernel

/-- XGET and XPUT through XBANK of context 1 of the same core. -/
theorem witness_xbank :
    let s := (core0 [(8, fix 9)] fun x => { monitor x with xbank := ⟨1, 0, 127, true⟩ }).modCtx 1 fun x =>
      { x with st := .stalled, stall := .xld, ring := [(127, fix 4)] }
    (issues s long0 .nativeOnly [14, 0, 0] 4 ∧ issues s long0 .nativeOnly [0, 8, 0] 4) ∧
    okIs (xbTarget 0 false (found s long0)) (fun c t => c = 1 && t = found s long0 &&
      answers (.xget long0 14) s (goesOnFrom s long0 4 (xbStep 0 (found s long0)) fun x => x.setReg 14 (fix 4))) ∧
    okIs (xbTarget 0 true (found s long0)) (fun c t => c = 1 && t = found s long0 &&
      okIs (xbWrite 0 c (fix 9) t) fun _ u => answers (.xput long0 8) s (leaves s long0 4 (xbStep 0 u)) &&
        Tab.get TWord.unset (u.ctx 1).ring 127 = fix 9) := by decide +kernel

/-- A context above USER with a save list at 0x1040. -/
def saving (f : Ctx → Ctx := id) : State :=
  core0 [(8, fix 1)] fun x => f { monitor x with savep := ⟨Ty.save, 0x1040⟩, pc := 0x100, wptr := { x.wptr with resw := 3, cwp := 4 } }

/-- What a command leaves. -/
def after (i : Instr) (s : State) : State :=
  match exec i s with
  | .next t => t
  | _ => s

/-- SAVEL with a return stack of two that UNCHK takes, and with one that the shadow stack takes. -/
theorem witness_savel :
    let s := saving fun x => { x with rs := [(0x10, true), (0x20, true)] }
    let h := saving fun x => { x with rs := [(0x10, true), (0x20, true)], ssp := TWord.raw 0x2000, cstat := { x.cstat with rsmode := true } }
    (issues s long0 .nativeOnly [] 4 ∧ noLateLoads (s.ctx 0) ∧ (context s long0).cstat.priv ≠ 0) ∧
    okIs (push 0 (context s long0).savep false
        (lowerWords (context s long0) (nextCstat (context s long0)) 0x104 2 0) (found s long0)) (fun p t =>
      p = 0x1080 && answersApart (.savel long0) s (goesOnFrom s long0 4 t fun x =>
        { x with rs := [], ssp := (context s long0).ssp, wptr := { x.wptr with unchk := 2 }, savep := ⟨Ty.save, p⟩ })) ∧
    (let ws : List SvWrite := [⟨0x1FFC, ⟨Ty.ret, 0x20⟩, true⟩, ⟨0x1FF8, ⟨Ty.ret, 0x10⟩, true⟩]
     okIs (svCheck 0 ws (found h long0)) fun _ u =>
      okIs (pushPlan 0 (context h long0).savep false (lowerWords { u.ctx 0 with wptr := (context h long0).wptr }
          (nextCstat (context h long0)) 0x104 0 0x1FF8) u) fun p v =>
        okIs (svWrites 0 (ws ++ p.1) v) fun _ t =>
          answersApart (.savel long0) h (goesOnFrom h long0 4 t fun x =>
            { x with rs := [], ssp := TWord.raw 0x1FF8, wptr := { x.wptr with unchk := 0 }, savep := ⟨Ty.save, p.2⟩ })) := by
  decide +kernel

/-- RSTL of the frame that SAVEL has saved. -/
theorem witness_rstl :
    let u := after (.savel long0) (saving fun x => { x with g := [(2, fix 6)], b := [(1, ⟨Ty.vec, 0x40⟩)], p := 5 })
    issues u long0 .nativeOnly [] 4 ∧ noLateLoads (u.ctx 0) ∧ okIs (pop 0 (context u long0).savep 1 (found u long0)) (fun r t =>
      let w := lineWord r.1
      (w 12).ty = Ty.raw && (w 13).ty = Ty.code && (w 14).ty = Ty.raw && (w 15).ty = Ty.raw &&
      (Cstat.unpack (w 12).val).priv.toNat ≤ 1 && (w 13).val = 0x104 && (w 2).t = fix 6 && (w 9).t = ⟨Ty.vec, 0x40⟩ &&
      answersApart (.rstl long0) u (t.modCtx 0 fun x =>
        { x with
          g := listTab ((r.1.take 8).map MWord.t), b := listTab (((r.1.drop 8).take 4).map MWord.t),
          cstat := { Cstat.unpack (w 12).val with fpa := false },
          pc := (w 13).val, p := (w 14).val.setWidth 8 &&& 0xFE, wptr := Wptr.unpack ((w 14).val >>> 8),
          ssp := if (w 15).val = 0 then TWord.unset else TWord.raw (w 15).val, rs := [], rdtb := 0,
          savep := ⟨Ty.save, 0x1040⟩, loads := [] })) := by decide +kernel

theorem witness_spill :
    let s := saving
    (context s long0).wptr.resw ≠ 1 ∧
    okIs (push 0 ⟨Ty.save, 0x1040⟩ true ((spillCells 10).map fun i => Tab.get TWord.unset (context s long0).ring i) (found s long0))
      (fun p t => answersApart (.spill long0) s (goesOnFrom s long0 4 t fun x =>
        { x with savep := ⟨Ty.save, p⟩, wptr := { x.wptr with resw := 2, wspill := 1 } })) := by decide +kernel

/-- FILL of the window that SPILL has spilled. -/
theorem witness_fill :
    let v := after (.spill long0) saving
    (issues v long0 .nativeOnly [] 4 ∧ (context v long0).wptr.resw ≠ 7 ∧ (context v long0).wptr.wspill ≠ 0) ∧
    okIs (pop 0 (context v long0).savep 1 (found v long0)) (fun r t =>
      answersApart (.fill long0) v (goesOnFrom v long0 4 t fun x =>
        { x with ring := ((spillCells 18).zip (r.1.map MWord.t)).foldl (fun t e => Tab.set TWord.unset t e.1 e.2) x.ring,
                 savep := ⟨Ty.save, r.2⟩, wptr := { x.wptr with resw := 3, wspill := 0 } }) && r.2 = 0x1040) := by decide +kernel

/-- SAVEH of a ring, and RSTH of a frame that memory holds. -/
theorem witness_saveh :
    let s := saving fun x => { x with ring := [(0, fix 3), (127, fix 4)] }
    answersWith (.saveh long0) s (fun t => (t.ctx 0).savep = ⟨Ty.save, 0x1240⟩ && (t.ctx 0).pc = 0x104 &&
      okIs (saveLoad 0 0x1040 t) (fun w _ => w.t = fix 3) && okIs (saveLoad 0 0x123C t) (fun w _ => w.t = fix 4)) := by
  decide +kernel

theorem witness_rsth :
    let s := setHbmWord 0x123C (fix 9).m (saving fun x => { x with savep := ⟨Ty.save, 0x1240⟩ })
    answersWith (.rsth long0) s (fun t => (t.ctx 0).savep = ⟨Ty.save, 0x1040⟩ && (t.ctx 0).pc = 0x104 &&
      Tab.get TWord.unset (t.ctx 0).ring 127 = fix 9 && Tab.get TWord.unset (t.ctx 0).ring 0 = TWord.unset) := by decide +kernel

/-- Pushes of a line within an area and into the next one, and pops within an area and back over its border (R254). -/
theorem witness_save_list :
    let sv (a : Word) : MWord := (TWord.mk Ty.save a).m
    let s := setHbmWord 0x13FC (sv 0x1400) (setHbmWord 0x17F8 (sv 0x1000) (setHbmWord 0x13F4 (TWord.raw 0x3C0).m
      (setHbmWord 0x1380 (fix 7).m saving)))
    let ws := List.replicate 16 (fix 1)
    okIs (svCheck 0 (frameAt 0x1040 ws) s) (fun _ t => okIs (pushPlan 0 ⟨Ty.save, 0x1040⟩ false ws s) fun r u =>
      u = t && r.2 = 0x1080 && (r.1.map SvWrite.va) = ((frameAt 0x1040 ws).map SvWrite.va)) ∧
    okIs (saveLoad 0 0x13FC s) (fun next t => next = sv 0x1400 &&
      let links : List SvWrite := [⟨0x13F4, TWord.raw 0x3C0, false⟩, ⟨0x17F8, ⟨Ty.save, 0x1000⟩, false⟩]
      okIs (svCheck 0 links t) fun _ v => okIs (svCheck 0 (frameAt 0x1440 ws) v) fun _ u =>
        okIs (pushPlan 0 ⟨Ty.save, 0x13C0⟩ false ws s) fun r x => x = u && r.2 = 0x1480 && r.1.length = 18) ∧
    okIs (saveLoads 0 16 0x1040 s) (fun l t => okIs (pop 0 ⟨Ty.save, 0x1080⟩ 1 s) fun r u => u = t && r = (l, 0x1040)) ∧
    okIs (saveLoad 0 0x17F8 s) (fun back t => back.ty = Ty.save && okIs (saveLoad 0 (back.val + 0x3F4) t) fun fill u =>
      back.val + fill.val = 0x13C0 && okIs (saveLoads 0 16 0x1380 u) fun l v =>
        okIs (pop 0 ⟨Ty.save, 0x1440⟩ 1 s) fun r x => x = v && r = (l, 0x1380) && l.head? = some (fix 7).m) := by decide +kernel

theorem witness_rfe :
    let s := core0 [] fun x => { monitor x with
      epc := ⟨Ty.ret, 0x200⟩, estat := TWord.raw 0x00001C5C, cstat := { x.cstat with priv := 1, shadow := true } }
    (issues s long0 .nativeZekief [] 4 ∧ (0x00001C5C : Word).extractLsb' 0 2 ≤ (context s long0).cstat.priv) ∧
    answers (.rfe long0) s ((found s long0).modCtx 0 fun x =>
      { x with pc := 0x200, msh := none, cstat := { x.cstat with
        priv := 0, mode := true, ie := true, gcnt := 5, gpred := 0, ginv := true, rpt := true, ldf := false, shadow := false } }) := by
  decide +kernel

/-- TRAP 31 and BRK; then the entry at the vectors' handlers, and what it saves. -/
theorem witness_exceptions :
    let s := setHbmWord 0x7FFFFE40 ⟨Ty.code, false, false, 0x800⟩ (core0 [] fun x => { x with pc := 0x100 })
    let u := after (.trap long0 31) s
    let x := (u.ctx 0)
    (issues s long0 .nativeZekief [] 4 ∧ issues s long0 .nativeOnly [] 4) ∧
    u = raises s long0 4 (found s long0) ⟨16, 0x9F, 0, TWord.unset⟩ (withGuard (encR 0x2E 0 0 31 1) 0 false) ∧
    answers (.brk long0) s (raises s long0 4 (found s long0) ⟨17, Cause.brk, 0, TWord.unset⟩ (withGuard (encR 0x2E 0 0 0 2) 0 false)) ∧
    (x.st = .running ∧ x.raised.isSome ∧ x.cstat.shadow = false) ∧
    answersWith (.exceptionEntry 0) u (fun t => (t.ctx 0).pc = 0x800 && (t.ctx 0).cstat.priv = 1 && (t.ctx 0).cstat.shadow &&
      (t.ctx 0).epc = ⟨Ty.ret, 0x100⟩ && (t.ctx 0).estat = TWord.raw 0x27D00000) := by decide +kernel

/-- A context with a load and a DEBUG request pending. -/
def pendingCtx (x : Ctx) : Ctx :=
  { x with rs := [(4, true)], dbg := true, loads := [⟨.ring 3, fix 6, false, false⟩], pc := 0x102, cstat := { x.cstat with ie := true } }

theorem witness_context_events :
    let s := core0 [] pendingCtx
    let z := core0 [] fun x => { zek x with pc := 0x102 }
    let noMap := s.setCore 0 CoreSt.reset
    ((s.ctx 0).st ≠ .empty ∧ atBoundary (s.ctx 0) ∧ canIssue (s.ctx 0) ∧ canIssue (z.ctx 0)) ∧
    answers (.machineCheck 0 .cstat) s (faulted 0 Cause.cstatEcc 0 s) ∧
    answersWith (.debugInterrupt 0) s (fun t => (t.ctx 0).cstat.shadow || (t.ctx 0).st = .waiting || !(t.ctx 0).dbg) ∧
    answers (.loadDataReturn 0) s (s.modCtx 0 fun x => { x with loads := [], ring := [(3, fix 6)] }) ∧
    decodeWord 0 false (encR 0x30 0 0 0 0) = none ∧
    answers (.illegalInstruction 0 .enc (encR 0x30 0 0 0 0)) s
      (raises s long0 4 s ⟨4, Cause.illEnc, 0, TWord.unset⟩ (encR 0x30 0 0 0 0)) ∧
    answers (.illegalInstruction 0 .enc 0) z (raises z long0 4 z ⟨4, Cause.illAlign, 0, TWord.unset⟩ 0) ∧
    (∀ e ∈ (noMap.core 0).dtlb, e.hits 0 0x100 = false) := by decide +kernel

/-- A machine check on the return stack off a boundary, where it is held (R337). -/
theorem witness_machine_check_held :
    let b := core0 [] fun x => { pendingCtx x with raised := some ⟨⟨16, 0x80, 0, TWord.unset⟩, 0x100, 0, false, some 0x104⟩ }
    (0 < (b.ctx 0).rs.length ∧ (b.ctx 0).mcheck = [] ∧ (b.ctx 0).cstat.shadow = false ∧ atBoundary (b.ctx 0) = false) := by
  decide +kernel

/-- FETCH_TAG: a long form at an aligned PC, a short form in the lower and in the upper half, a long form of which the second
parcel lies in the next word, that next word, and a Zekief instruction (R268, Table 10-4); and ILL_ALIGN before any of it. -/
theorem witness_fetch_tag :
    let at' (pc : Word) (f : Ctx → Ctx) := core0 [] fun x => f { x with pc := pc }
    let tag (s : State) (first : Option (BitVec 16)) (w enc : Word) (len : Nat) : Bool := canIssue (s.ctx 0) &&
      answers (.illegalInstruction 0 (.fetchTag Ty.fix first) w) s (raises s long0 len s ⟨4, Cause.fetchTag, 0, ⟨Ty.fix, w⟩⟩ enc)
    tag (at' 0x100 id) none 0x12345673 0x12345673 4 ∧ tag (at' 0x100 id) none 0x12345670 0x00005670 2 ∧
    tag (at' 0x102 id) none 0x12345673 0x00001234 2 ∧ tag (at' 0x102 id) (some 0x5673) 0x99991234 0x12345673 4 ∧
    tag (at' 0x100 zek) none 0x12345670 0x12345670 4 ∧
    answersWith (.illegalInstruction 0 (.fetchTag Ty.fix none) 0x12375673) (at' 0x102 id) (fun t => t.freeCtr = 9) ∧
    (let s := at' 0x102 zek
     answers (.illegalInstruction 0 (.fetchTag Ty.fix none) 1) s (raises s long0 4 s ⟨4, Cause.illAlign, 0, TWord.unset⟩ 1)) := by
  decide +kernel

/-- A second check waits behind the first, and the first is entered at the boundary (R330, R337). -/
theorem witness_machine_checks :
    let s := setHbmWord 0x7FFFFF80 ⟨Ty.code, false, false, 0x800⟩
      (core0 [] fun x => { pendingCtx x with loads := [], mcheck := [(Cause.cstatEcc, TWord.unset)] })
    atBoundary (s.ctx 0) ∧ (s.ctx 0).cstat.shadow = false ∧
    answersWith (.machineCheck 0 (.rs 0)) s (fun t => (t.ctx 0).cstat.shadow && (t.ctx 0).mcheck.length = 1 &&
      (t.ctx 0).mcheck.map Prod.fst = [Cause.rsEcc]) := by decide +kernel

/-- ASID 0 has a level-1 table at 0x10000 whose first pair maps 4 GiB to itself; core 0 has no TLB entry. -/
def paged : State :=
  let pte (v : Word) : MWord := ⟨Ty.pte, false, false, v⟩
  let s := { core0 [] with mm := { MmSt.reset with root := 0x20000, en := true } }
  (setHbmWords 0x10000 [pte 0x0001BE00, pte 0] (setHbmWords 0x20000 [pte 0x00800010, pte 0] s)).setCore 0
    { CoreSt.reset with running := some 0 }

theorem witness_table_walk :
    ((∀ e ∈ (paged.core 0).tlb false, e.hits 0 0x100 = false) ∧ (∀ e ∈ (paged.engine 0).tlb, e.hits 0 0x100 = false)) ∧
    okIs (xlate 0 0 0 .load 0x100 paged) (fun o u => o = .inr 0x100 &&
      answers (.tableWalk (.ctx 0) 0x100 .load .none 0) paged u && (u.core 0).dtlb.length = 1) ∧
    okIs (xlate 0 0 0 .fetch 0 paged) (fun o u => o = .inr 0 && fetchesAt (paged.ctx 0) 0 &&
      answers (.tableWalk (.ctx 0) 0 .fetch .none 0) paged (fetchLine 0 0 0 u)) ∧
    answersWith (.tableWalk (.taper 0 0 1) 0x100 .load .none 0) paged (fun t => (t.engine 0).tlb.length = 1) := by decide +kernel

/-- A walk that has nothing to do, and walks of a data access and of a fetch that fault: there is no level-1 table for ASID 1. -/
theorem witness_table_walk_faults :
    let s := paged.modCtx 0 fun x => { x with asid := 1, pc := 0x100 }
    let n := core0 []
    answers (.tableWalk (.ctx 0) 0x100 .load .none 0) n n ∧ canIssue (s.ctx 0) ∧ fetchesAt (s.ctx 0) 0x100 ∧
    okIs (xlate 0 1 0 .load 0x100 s) (fun o u => match o with
      | .inl k => answers (.tableWalk (.ctx 0) 0x100 .load .none 3) s
          (raiseTrap 0 (u.ctx 0) (mkTrap k 0x100 TWord.unset) 3 4 (recordFault k 0x100 1 0 false u))
      | .inr _ => false) ∧
    okIs (xlate 0 1 0 .fetch 0x100 s) (fun o u => match o with
      | .inl _ => answersWith (.tableWalk (.ctx 0) 0x100 .fetch .none 3) s (fun t =>
          (t.ctx 0).raised.isSome && t.freeCtr = u.freeCtr + 1)
      | .inr _ => false) := by decide +kernel

/-! ### The time base, counters and commits -/

/-- The time base counts at LEN 4, at a crossing, aligned or not. -/
def timed (orbit : BitVec 32) (bx : BitVec 16) (f : TbSt → TbSt := id) : State :=
  { State.reset with tb := f { TbSt.reset with
      counting := true, aligned := true, lock := .locked, orbit := orbit, bx := bx, cfg := Rwc.reset { TbCfg.reset with len := 4 } } }

/-- Timing words as 8b/10b has them, after negative running disparity: K28.5 and the data characters TYPE, ARG low and ARG high;
a K28.0 for TYPE; and four D0.0. -/
def idleWord : BitVec 40 := 0x3E98B62D8B
def orbitWord : BitVec 40 := 0x3EA2B62D8B
def crossingWord : BitVec 40 := 0x3E92B4AD8B
def acceptWord0 : BitVec 40 := 0x3EB149D274
def acceptWord3 : BitVec 40 := 0x3EB14C6D8B
def acceptWord4 : BitVec 40 := 0x3EB14D5274
def resetWord : BitVec 40 := 0x3E8AB62D8B
def type5Word : BitVec 40 := 0x3EA949D274
def controlWord : BitVec 40 := 0x3EB0B62D8B
def badWord : BitVec 40 := 0x3E80000000
def noCommaWord : BitVec 40 := 0x9D2749D274

/-- 8b/10b words read as their characters under each running disparity, with D.x.7 in its primary and alternate forms (R461):
ACCEPT of ARG 0x0DEB, and D17.7 after a positive group. -/
theorem test_timing_chars :
    timingChars (timed 0 0) 0x3EB14D3AC4 = ([.comma, .data 3, .data 0xEB, .data 0x0D], false) ∧
    timingChars (timed 0 0 fun t => { t with rd := true }) 0xC171BD22CB =
      ([.comma, .data 3, .data 0xEB, .data 0x0D], true) ∧
    (timingChars (timed 0 0) 0x3EA318DDC8).1 = [.comma, .data 0xF1, .data 0xF1, .data 0xEE] ∧
    (timingChars (timed 0 0) controlWord).1 = [.comma, .control, .data 0, .data 0] ∧
    Char8.bad ∈ (timingChars (timed 0 0) badWord).1 ∧
    timingChars (timed 0 0) noCommaWord = (List.replicate 4 (.data 0), false) ∧
    (timingChars (timed 0 0 fun t => { t with cfg := Rwc.reset { TbCfg.reset with len := 4, pol := true } }) (~~~idleWord)).1 =
      [.comma, .data 0, .data 0, .data 0] := by decide +kernel

/-- s with a word received and sent back, and the receiver's running disparity after it. -/
def heard (w : BitVec 40) (rd : Bool) (s : State) : State :=
  { s with out := .timing w :: s.out, tb := { s.tb with rd := rd } }

/-- Marker words while aligned: at the limits of ARG, before and after the power-fail warning. -/
theorem witness_markers :
    let s := timed 1 0
    let off := { s with tb := { s.tb with aligned := false } }
    let raw := { s with tb := { s.tb with counting := false } }
    let late := { s with tb := { s.tb with miss := 3 } }
    (s.tb.aligned ∧ s.tb.cfg.lv.acceptEn ∧ s.tb.counting ∧ s.pf = false ∧ s.wk.event.lv.mode = false ∧ s.tb.miss < 3 ∧
      (timingChars s acceptWord3).1 = [.comma, .data 3, .data 3, .data 0] ∧
      (timingChars s acceptWord4).1 = [.comma, .data 3, .data 4, .data 0]) ∧
    answers (.accept acceptWord3) off (heard acceptWord3 true off) ∧
    answers (.markerAlignmentGained idleWord) off (heard idleWord true s) ∧
    answers (.markerAlignmentGained noCommaWord) off { off with out := [.timing noCommaWord] } ∧
    answers (.markerAlignmentGained idleWord) s { s with out := [.timing idleWord] } ∧
    answers (.accept acceptWord4) s (bump Cnt.tbUnknown (heard acceptWord4 false s)) ∧
    answersWith (.accept acceptWord3) s (fun t => t.hub.openReqs = [⟨0x000000000003, true⟩]) ∧
    answers (.accept acceptWord3) raw (bump Cnt.tbAccepts (heard acceptWord3 true raw)) ∧
    answersWith (.accept acceptWord0) { s with pf := true } (fun t => t.hub.pfAccepts = 0 && t.counter Cnt.tbAccepts = 1) ∧
    answersWith (.accept acceptWord0) { s with pf := true, pw := { s.pw with warned := true } } (fun t => t.hub.pfAccepts = 1) ∧
    answers (.markerIdle idleWord) s (heard idleWord true s) ∧
    answers (.markerWordDiscarded badWord) s (bump Cnt.tbCodeErr (heard badWord (timingChars s badWord).2 s)) ∧
    answers (.markerWordDiscarded controlWord) s (bump Cnt.tbUnknown (heard controlWord true s)) ∧
    answers (.markerWordDiscarded type5Word) s (bump Cnt.tbUnknown (heard type5Word false s)) ∧
    answers (.markerIdle noCommaWord) s { heard noCommaWord false s with tb := { s.tb with miss := 1 } } ∧
    answers (.alignLoss [noCommaWord]) late (bump Cnt.tbAlignLoss (heard noCommaWord false off)) ∧
    answersWith (.alignLoss (List.replicate 4 noCommaWord)) s (fun t => !t.tb.aligned && t.counter Cnt.tbAlignLoss = 1) ∧
    answersWith (.markerOrbit orbitWord) s (fun t => t.tb.mark = some .orbit) ∧
    answers (.markerOrbit orbitWord) raw (heard orbitWord true raw) ∧
    answersWith (.markerCrossing crossingWord) s (fun t => t.tb.mark = some (.crossing 2)) ∧
    answersWith (.markerReset resetWord) { s with hub := { s.hub with highest := some 5 } }
      (fun t => t.tb.mark = some .reset && t.hub.highest = none) := by
  decide +kernel

/-- Crossings from bx 3 of 4 (wraps) and from bx 1, with each kind of marker. -/
theorem witness_crossing_edges :
    let e (bx : BitVec 16) (m : Option EdgeMark) : State := timed 7 bx fun t => { t with mark := m }
    let goes (s : State) (orbit : BitVec 32) (bx : BitVec 16) (n : Nat) : Bool :=
      answersWith .crossingEdge s fun t => t.tb.orbit = orbit && t.tb.bx = bx && t.tb.mark = none && t.counter n = (if n = 0 then 0 else 1)
    goes (e 3 none) 8 0 0 ∧ goes (e 1 none) 7 2 0 ∧ goes (e 3 (some .orbit)) 8 0 0 ∧ goes (e 1 (some .orbit)) 8 0 Cnt.tbOrbitSlip ∧
    goes (e 1 (some (.crossing 2))) 7 2 0 ∧ goes (e 1 (some (.crossing 3))) 7 2 Cnt.tbBxMismatch ∧
    goes (e 1 (some .reset)) 0 0 Cnt.tbResets ∧
    answersWith .tbCfgCommit (timed 0 0) (fun t => t.tb.cfg.pend) ∧
    answersWith .crossingEdge (timed 7 1 fun t => { t with cfg := ⟨{ TbCfg.reset with len := 2 }, t.cfg.lv, true⟩ })
      (fun t => t.tb.cfg.lv.len = 2 && t.tb.orbit = 8 && t.tb.bx = 0) ∧
    answersWith .crossingEdge (timed 7 1 fun t => { t with cfg := ⟨{ TbCfg.reset with len := 0 }, t.cfg.lv, true⟩ })
      (fun t => t.tb.cfg.lv.len = 4 && t.tb.cfgerr && t.tb.bx = 2) := by decide +kernel

theorem test_closest_crossing :
    closestOrbit 4 7 3 0 = 8 ∧ closestOrbit 4 7 0 3 = 6 ∧ closestOrbit 4 7 1 3 = 6 ∧ closestOrbit 4 7 2 0 = 7 := by decide +kernel

/-- Lock states at the limits of the frequency range. -/
theorem witness_lock_states :
    let l (k : LockStep) (c : Bool) : State := timed 0 0 fun t => { t with lock := k, counting := c, aligned := false, khz := 40000 }
    let goes (i : Instr) (s : State) (k : LockStep) : Bool := answersWith i s fun t => t.tb.lock = k
    goes (.refAcquired 25000) (l .noref false) .acquire ∧ goes (.refAcquired 50001) (l .noref false) .noref ∧
    goes .pllLocked (l .acquire false) .locked ∧ goes .pllLocked (l .acquire true) .locked ∧
    goes .refLoss (l .acquire true) .holdover ∧ goes .refLoss (l .acquire false) .noref ∧ goes .refLoss (l .locked true) .holdover ∧
    goes (.refReturn 50000) (l .holdover true) .acquire ∧ goes (.refReturn 24999) (l .holdover true) .noref ∧
    answers .refLoss (l .noref false) (l .noref false) ∧ answers (.refReturn 40000) (l .locked true) (l .locked true) := by decide +kernel

theorem witness_time_reads :
    let s := { timed 3 2 with time := 0x100000002, mg := { State.reset.mg with ready := true } }
    answers .tbSnap s { s with tb := { s.tb with snapTime := 0x100000002, snapBx := 2, snapOrbit := 3 } } ∧
    answersWith (.tbTimeLowRead (.fn 31)) s (fun t => t.out = [.readValue 2] && Tab.get 0 t.tb.latch 31 = 1 && Tab.get 0 t.tb.latch 32 = 0) ∧
    answersWith (.tbTimeLowRead .mgmt) s (fun t => t.out = [.readValue 2] && Tab.get 0 t.tb.latch 32 = 1) := by decide +kernel

/-- The high half of TB_TIME as each reader has latched it (R469). -/
theorem witness_latched_time :
    let s := { timed 3 2 with time := 0x100000002, mg := { State.reset.mg with ready := true } }
    answersWith (.tbTimeLowRead (.fn 2)) s fun t =>
      let u := { t with time := 0x500000000 }
      (hostRead (.fn 2) 0x500014 u).1 = 1 && (hostRead .mgmt 0x500014 u).1 = 0 && (hostRead (.fn 3) 0x500014 u).1 = 0 := by
  decide +kernel

/-- CROSSING that does not match under RESYNC, at an edge that would wrap: TB_BX takes ARG and TB_ORBIT stays (R467). -/
theorem witness_resync :
    let s := timed 7 3 fun t => { t with
      mark := some (.crossing 2), cfg := Rwc.reset { TbCfg.reset with len := 4, chkbx := true, resync := true } }
    answersWith .crossingEdge s fun t => t.tb.bx = 2 && t.tb.orbit = 7 && t.counter Cnt.tbBxMismatch = 1 := by decide +kernel

/-- A state with one compare channel. -/
def channel (n : Nat) (c : CmpCh) (enable : Bool := false) : State :=
  let s := timed 0 0 fun t => { t with ch := [(n, c)] }
  { s with cn := { s.cn with enable := enable } }

theorem witness_compare_channels :
    let iv (v : BitVec 32) : CmpCfg := ⟨true, true, true, false, v⟩
    let ab : CmpCfg := ⟨true, false, false, true, 9⟩
    let pend (c : CmpCfg) : CmpCh := ⟨⟨c, CmpCfg.reset, true⟩, false, 5, none⟩
    answers (.tbCmpCommit 61) (channel 61 (pend ab) true) (channel 61 (pend ab) true) ∧
    answersWith (.tbCmpCommit 60) (channel 60 ⟨⟨iv 9, CmpCfg.reset, false⟩, false, 5, none⟩ true) (fun t => cmpCh t 60 = pend (iv 9)) ∧
    (let t := cmpCommit 60 (channel 60 (pend (iv 0)) true); t.tb.cfgerr ∧ (cmpCh t 60).cfg.lv = CmpCfg.reset) ∧
    (let t := cmpCommit 60 (channel 60 (pend (iv 9))); (cmpCh t 60).cfg.lv = iv 9 ∧ (cmpCh t 60).cnt = 0) ∧
    (cmpCh (cmpCommit 63 (channel 63 (pend ab))) 63).armed ∧
    answers (.compareFire 5) (channel 6 (pend ab)) (channel 6 (pend ab)) ∧
    answersWith (.compareFire 60) (channel 60 ⟨Rwc.reset ab, false, 0, some (true, true)⟩) (fun t =>
      t.tb.fired = (1 : BitVec 64) <<< 60 && (cmpCh t 60).due = none) ∧
    answersWith (.compareFire 63) (channel 63 ⟨Rwc.reset ab, false, 0, some (true, true)⟩) (fun t =>
      t.tb.fired = (1 : BitVec 64) <<< 63) ∧
    (let h (now : BitVec 64) : State := { channel 61 (pend ab) true with time := now, hub := { HubSt.reset with windows := [⟨5, 0x00803⟩] } }
     fireChannel (h 4) 61 = h 4 ∧ (fireChannel (h 5) 61).tb.fired = (1 : BitVec 64) <<< 61) := by decide +kernel

/-- A tick: absolute and interval channels one before and at their values. -/
theorem witness_ticks :
    let ab : CmpCfg := ⟨true, false, true, false, 1⟩
    let iv : CmpCfg := ⟨true, true, true, false, 3⟩
    let ticked (s : State) (p : State → Bool) : Bool := match step s with | .next t => p t | _ => false
    ticked (channel 4 ⟨Rwc.reset ab, true, 0, none⟩) (fun t => t.time = 1 && cmpCh t 4 = ⟨Rwc.reset ab, false, 0, some (true, false)⟩) ∧
    ticked (channel 4 ⟨Rwc.reset { ab with val := 2 }, true, 0, none⟩) (fun t => (cmpCh t 4).due = none) ∧
    ticked (channel 4 ⟨Rwc.reset iv, false, 1, none⟩) (fun t => (cmpCh t 4).cnt = 2 && (cmpCh t 4).due = none) ∧
    ticked (channel 4 ⟨Rwc.reset iv, false, 2, none⟩) (fun t => (cmpCh t 4).cnt = 0 && (cmpCh t 4).due = some (true, false)) ∧
    ticked (channel 61 ⟨Rwc.reset iv, false, 2, none⟩ true) (fun t => (cmpCh t 61).cnt = 2) ∧
    ticked State.reset (fun t => t = State.reset) := by decide +kernel

/-- Each CNTCLR clears the first and last counter of its table and leaves that of another block. -/
theorem witness_counters_clear :
    let clears (i : Instr) (a b : Nat) : Bool :=
      answersWith i { State.reset with cnt := Tab.set 0 (Tab.set 0 [(4, 7)] a 5) b 6 } fun t => t.cnt = [(4, 7)]
    clears .tbCntclr 0x500050 0x50006C ∧ clears .cnCntclr 0x3000C0 0x3000F4 ∧ clears (.wkCntclr 5) 0x150050 0x1504F4 ∧
    clears .llCntclr 0x200060 0x20008C ∧ clears .snCntclr 0x204040 0x204060 ∧ clears .dpCntclr 0x208040 0x20807C ∧
    clears .tpCntclr 0x400040 0x400060 ∧ clears .mmCntclr Cnt.mmWalks Cnt.mmFaults ∧ clears .ccCntclr 0x700040 0x70006C ∧
    clears (.mcCntclr 3) (Cnt.mcCorr 3) (Cnt.mcTagcMiss 3) ∧ clears .blCntclr 0x600040 0x6004FF ∧ clears .hiCntclr 0x010040 0x01005C ∧
    clears .mgCntclr Cnt.mgSumMemcorr Cnt.mgTrip ∧ clears .erCntclr Cnt.erDrop Cnt.erFlush := by decide +kernel

def cn (f : CnSt → CnSt) : State := { State.reset with cn := f CnSt.reset }
def serving (s : State) : State := { s with mg := { s.mg with stored := { s.mg.stored with lc := .operational } } }

/-- Candle commits at the limits of their fields. -/
theorem witness_candle_commits :
    let run (a b : BitVec 9) : State := cn fun c => { c with run := ⟨⟨a, b, 4, 0⟩, CnRun.reset, true⟩ }
    let pool (p : CnPool) (en : Bool) : State := cn fun c => { c with pool := ⟨p, CnPool.reset, true⟩, enable := en }
    let good : CnPool := { CnPool.reset with banks := [(0, ⟨0x1000, 1, true⟩)] }
    let bad : CnPool := { CnPool.reset with eovfSize := 31 }
    answersWith .cnRunCommit (run 256 1) (fun t => t.cn.run.lv.initSpans = 256 && !t.cn.cfgerr) ∧
    answersWith .cnRunCommit (run 257 1) (fun t => t.cn.run.lv = CnRun.reset && t.cn.cfgerr) ∧
    answersWith .cnPoolCommit (cn id) (fun t => t.cn.pool.pend) ∧ answers .cnPoolCommitApply (pool good true) (pool good true) ∧
    (cnIdle (pool good false) ∧ poolRanges good ∧ bankRules (pool good false) good ∧ ¬ (poolRanges bad)) ∧
    answersWith .cnPoolCommitApply (pool good false) (fun t => t.cn.pool.lv.banks = good.banks && !t.cn.cfgerr && !t.cn.pool.pend) ∧
    answersWith .cnPoolCommitApply (pool bad false) (fun t => t.cn.pool.lv = CnPool.reset && t.cn.cfgerr) ∧
    answersWith (.cnEnableWrite true) (cn id) (fun t => !t.cn.enable && t.cn.cfgerr) ∧
    answers (.cnEnableWrite true) (timed 0 0) (timed 0 0) ∧ answers (.cnEnableWrite false) (cn id) (cn id) ∧
    answersWith (.cnEnableWrite true) (serving (cn id)) (fun t => !t.cn.enable && t.cn.cfgerr) ∧
    answersWith (.cnEnableWrite true) (serving (timed 0 0)) (fun t => t.cn.enable) ∧
    answersWith (.cnEnableWrite false) (serving (cn fun c => { c with enable := true })) (fun t => !t.cn.enable) := by decide +kernel

theorem witness_block_commits :
    let tp (m : BitVec 5) : State := { State.reset with tp := { State.reset.tp with mark := ⟨⟨0, m⟩, State.reset.tp.mark.lv, true⟩ } }
    let mm (r : PA) : State := { State.reset with mm := { MmSt.reset with rootSh := r, enSh := true } }
    let bl (t : BitVec 16) (n : BitVec 11) : State :=
      { State.reset with bl := { State.reset.bl with ring := ⟨{ State.reset.bl.ring.sh with timeout := t, cnt := n }, State.reset.bl.ring.lv, true⟩ } }
    let th (v : BitVec 8) : State := { State.reset with mg := { State.reset.mg with therm := ⟨v, State.reset.mg.therm.lv, false⟩ } }
    let up : State := State.reset.modPort 15 fun p => { p with st := .isolated }
    answersWith .tpMarkCommitApply (tp 22) (fun t => t.tp.mark.lv.log2 = 22) ∧ answersWith .tpMarkCommitApply (tp 23) (fun t => t.tp.cfgerr) ∧
    answersWith .tpMarkCommit (tp 12) (fun t => t.tp.mark.pend) ∧
    answersWith .mmRootCommit (mm 0x8000) (fun t => t.mm.root = 0x8000 && t.mm.en) ∧
    answersWith .mmRootCommit (mm 0x4000) (fun t => t.mm.root = 0 && t.mm.cfgerr) ∧
    answersWith .mmLastfClr { State.reset with mm := { MmSt.reset with lastVa := 4 } } (fun t => t.mm.lastVa = 0) ∧
    answersWith .blRingCommit (bl 1 1024) (fun t => t.bl.ring.lv.cnt = 1024) ∧ answersWith .blRingCommit (bl 0 1024) (fun t => t.bl.cfgerr) ∧
    answersWith .blNodeCommit { State.reset with bl := { State.reset.bl with nodeSh := 9 } } (fun t => t.node = 9) ∧
    answersWith .blNodeCommit up (fun t => t.bl.cfgerr) ∧
    answersWith .mgThermCommit (th 70) (fun t => t.mg.therm.pend) ∧ answersWith .mgThermCommit (th 101) (fun t => t.mg.cfgerr) ∧
    answersWith .llPoolCommit State.reset (fun t => t.ll.pool.pend) ∧
    answersWith .llPoolCommitApply { State.reset with ll := { LlSt.reset with pool := ⟨LlPool.reset, LlPool.reset, true⟩ } }
      (fun t => !t.ll.pool.pend && t.ll.cfgerr = !llPoolOk LlPool.reset) := by decide +kernel

/-! ### Events, decisions, tasks of the Lamplighter -/

/-- The event of slot 3, generation 1, in a state of its slot, and what f makes of it; the time base counts. -/
def event (st : SlotSt) (f : EvSt → EvSt := id) : State :=
  (({ wiped State.reset with tb := { TbSt.reset with counting := true } }.modSlot 3 fun t => { t with st := st, gen := 1 }).modEvent 3
    fun e => f { e with crossing := 0x77, window := true, policy := 2, prescale := 2, menu := 9 })

def hub (f : HubSt → HubSt) (s : State) : State := { s with hub := f s.hub }

/-- Open requests: none, not above the highest crossing, granted with the one free span, and without a span. -/
theorem witness_open_requests :
    let s := hub (fun h => { h with openReqs := [⟨0x78, true⟩], highest := some 0x77 }) (event .opened)
    let g : State := { s with cn := { s.cn with enable := true, pool := Rwc.reset { CnPool.reset with banks := [(0, ⟨0, 1, true⟩)] } } }
    (s.pf = false ∧ s.tb.counting) ∧
    answers .openRequest (hub (fun h => { h with openReqs := [] }) s) (hub (fun h => { h with openReqs := [] }) s) ∧
    answersWith .openRequest (hub (fun h => { h with highest := some 0x78 }) s) (fun t => t.hub.openReqs = [] && t.hub.dupAccept = 1) ∧
    (grantSlot (hub (fun h => { h with openReqs := [], highest := some 0x78 }) g)).map Prod.fst = some 0 ∧
    answersWith .openRequest g (fun t => (t.slot 0).st = .opened && (t.event 0).crossing = 0x78 && t.hub.hards.length = 1 &&
      (t.slot 0).spans = [0] && t.hub.highest = some 0x78) ∧
    grantSlot (hub (fun h => { h with openReqs := [], highest := some 0x78 }) s) = none ∧
    answersWith .openRequest { s with dp := { s.dp with cfg := Rwc.reset { DpCfg.reset with lanes := 1 } } } (fun t =>
      t.dp.queue.map DRec.reason = [1] && t.recs.length = 1 && t.cn = s.cn) := by decide +kernel

/-- Each limit at its time, one unit before it, of an event in each state, and of one that has gone. -/
theorem witness_limits :
    let at_ (t : BitVec 64) (s : State) : State := { s with time := t }
    let l : List Limit := [⟨5, 0x00803⟩]
    let w (s : State) := hub (fun h => { h with windows := l }) s
    let a (s : State) := hub (fun h => { h with warnings := l }) s
    let d (s : State) := hub (fun h => { h with hards := l }) s
    answers .windowTimeout (at_ 4 (w (event .opened))) (at_ 4 (w (event .opened))) ∧
    answersWith .windowTimeout (at_ 5 (w (event .opened))) (fun t => (t.event 3).winto && !(t.event 3).window && t.hub.windows = []) ∧
    answersWith .windowTimeout (at_ 5 (w (event .opened fun e => { e with window := false }))) (fun t => !(t.event 3).winto) ∧
    answersWith .windowTimeout (at_ 5 (w State.reset)) (fun t => t.counter Cnt.llWakeLate = 1) ∧
    answers .deadlineWarning (at_ 4 (a (event .opened))) (at_ 4 (a (event .opened))) ∧
    answersWith .deadlineWarning (at_ 5 (a (event .closed))) (fun t => (t.event 3).warned && t.counter Cnt.snWarn = 1) ∧
    answersWith .deadlineWarning (at_ 5 (a (event .decided))) (fun t => !(t.event 3).warned && t.hub.warnings = []) ∧
    answersWith .deadlineWarning (at_ 5 (a State.reset)) (fun t => t.counter Cnt.llWakeLate = 1) ∧
    answers .hardDeadline (at_ 4 (d (event .opened))) (at_ 4 (d (event .opened))) ∧
    answersWith .hardDeadline (at_ 5 (d (event .closed))) (fun t => (t.slot 3).st = .snuffed && (t.event 3).decided) ∧
    answersWith .hardDeadline (at_ 5 (d (event .decided))) (fun t => (t.event 3).killed && (t.slot 3).st = .decided) ∧
    answersWith .hardDeadline (at_ 5 (d (event .retiring))) (fun t => (t.slot 3).st = .retiring && t.hub.hards = []) ∧
    answersWith .hardDeadline (at_ 5 (d State.reset)) (fun t => t.counter Cnt.llWakeLate = 1) := by decide +kernel

def ll (f : LlSt → LlSt) (s : State) : State := { s with ll := f s.ll }
/-- Records go to lane 0. -/
def laned (s : State) : State := { s with dp := { s.dp with cfg := Rwc.reset { DpCfg.reset with lanes := 1 } } }

theorem witness_decisions :
    let q : DecideReq := ⟨0, 5, 0x00803, 9, 0xAB, some 2, true⟩
    let s := ll (fun l => { l with decides := [q] }) (laned (event .opened))
    let late := ll (fun l => { l with decides := [q] }) (laned (event .decided))
    let ans := ll (fun l => { l with answers := [⟨0, 5, some 2, true, true⟩] })
      ((laned (event .opened)).setCtx 0 { Ctx.reset with st := .stalled, stall := .decide, task := some 5 })
    (s.stale 0x00803 = false ∧ noDest s = false) ∧
    answers (.decideRequest [0]) (event .opened) (event .opened) ∧
    answersWith (.decideRequest [0]) s (fun t => (t.slot 3).st = .decided && t.dp.queue = [recordOf s 0x00803 9 0 0xAB] &&
      t.ll.answers = [⟨0, 5, some 2, true, true⟩] && t.ll.decides = []) ∧
    answersWith (.decideRequest [0]) late (fun t => t.dp.queue = [] && t.ll.answers = [⟨0, 5, some 2, false, true⟩] &&
      t.counter Cnt.snLateDecide = 1) ∧
    answersWith (.decideRequest [1, 0]) (ll (fun l => { l with decides := [{ q with ctx := 1, outcome := 4 }, q] }) s)
      (fun t => t.dp.queue.map DRec.outcome = [9] && t.counter Cnt.snLateDecide = 1 && t.ll.decides = []) ∧
    answers (.decideAnswer 1) ans ans ∧
    answersWith (.decideAnswer 0) (ll (fun l => { l with answers := [⟨0, 5, some 2, true, false⟩] }) ans) (fun t =>
      (t.ctx 0).st = .stalled && t.ll.answers = []) ∧
    answersWith (.decideAnswer 0) ans (fun t => (t.ctx 0).st = .runnable && (t.ctx 0).pred 2 && t.ll.answers = []) ∧
    answersWith (.decideAnswer 0) (ans.modCtx 0 fun x => { x with st := .waiting }) (fun t =>
      (t.ctx 0).st = .waiting && t.ll.answers = []) := by decide +kernel

/-- Fallbacks with each POLICY; fault reports before and after the decision. -/
theorem witness_fallbacks :
    let f (p : BitVec 2) (n : BitVec 16) : State := fallback 0x00803 2 (laned (event .opened fun e => { e with policy := p, prescale := n }))
    let r (st : SlotSt) (p : Bool) := ll (fun l => { l with faults := [⟨0x00803, p⟩] }) (laned (event st fun e => { e with deadline := 8000 }))
    ((f 0 2).dp.queue.map DRec.outcome = [0] ∧ (f 1 2).dp.queue.map DRec.outcome = [1] ∧
      (f 2 1).dp.queue.map DRec.outcome = [2] ∧ (f 2 2).dp.queue.map DRec.outcome = [3]) ∧
    ((f 0 2).dp.queue = [recordOf (laned (event .opened fun e => { e with policy := 0 })) 0x00803 0 2 0] ∧
      (f 0 2).counter (countOfReason 2) = 1 ∧ ((f 0 2).slot 3).st = .snuffed) ∧
    answers (.faultReport 1) (event .opened) (event .opened) ∧
    answersWith (.faultReport 1) (r .closed true) (fun t => t.dp.queue.map DRec.reason = [3] && t.counter (countOfReason 3) = 1) ∧
    answersWith (.faultReport 1) (r .opened false) (fun t => t.dp.queue.map DRec.reason = [4]) ∧
    answersWith (.faultReport 1) { r .opened false with time := 8000 } (fun t => t.dp.queue.map DRec.reason = [2]) ∧
    answersWith (.faultReport 1) (r .decided false) (fun t => t.dp.queue = [] && t.ll.faults = []) ∧
    answersWith (.faultReport 2) (ll (fun l => { l with faults := [⟨0x00803, false⟩, ⟨0x00803, true⟩] }) (r .opened false))
      (fun t => t.dp.queue.map DRec.reason = [3] && t.ll.faults = []) ∧
    (let busy : State := (({ laned (event .opened) with
         tp := { TpSt.reset with jobs := [(0x80, some ⟨1, 0x100, 0, 1, some 0x00803, none, 0, 0, none, false⟩)] } }.modTask 5 fun _ =>
        { TaskD.free with st := .running, handle := some 0x00803, ctx := some 0 }).setCtx 0 { Ctx.reset with st := .running, task := some 5 })
     let t := fallback 0x00803 2 busy
     (t.task 5).handle = none ∧ (t.ctx 0).st = .empty ∧ (t.ctx 0).task = none ∧ (t.job 0x80).map Job.killed = some true ∧
       (t.event 3).killed) := by decide +kernel

/-- The fifth and sixth close reports, drop notices, retirement and SPAWN requests. -/
theorem witness_closes :
    let told (n : Nat) : EvSt → EvSt := fun e => { e with reports := (List.range n).map fun i => (i, 1) }
    let rep (s : State) : State := s.modWick 5 fun w => { w with reports := [⟨0x00803, 7, true⟩] }
    let drop (s : State) : State := s.modWick 0 fun w => { w with notices := [0x00803] }
    let done := event .decided fun e => { e with window := false, decided := true }
    let sp (s : State) := ll (fun l => { l with spawns := [⟨0, TWord.fix 3, some 0x00803, 9⟩], enable := true,
                                                templ := [(0, { Templ.off with en := true, kind := 5, count := 1 })] }) s
    answersWith (.closeReport 5) (rep (event .opened (told 4))) (fun t => (t.event 3).window && (t.event 3).reports.length = 5) ∧
    answersWith (.closeReport 5) (rep (event .opened (told 5))) (fun t => !(t.event 3).window && (t.slot 3).st = .closed && (t.event 3).trunc) ∧
    answersWith (.closeReport 5) (rep State.reset) (fun t => (t.wick 5).reports = []) ∧
    answers (.closeReport 6) State.reset State.reset ∧ answers (.dropNotice 7) State.reset State.reset ∧
    answersWith (.dropNotice 0) (drop (event .closed)) (fun t => (t.event 3).trunc) ∧
    answersWith (.dropNotice 0) (drop (event .decided fun e => { e with decided := true })) (fun t => !(t.event 3).trunc && (t.wick 0).notices = []) ∧
    answersWith (.retireStart 3) done (fun t => (t.slot 3).st = .retiring) ∧
    answers (.retireStart 3) (event .opened) (event .opened) ∧ answers .spawnRequest State.reset State.reset ∧
    answersWith .spawnRequest { sp (event .opened) with pf := true } (fun t => t.ll.spawns = [] && t.ll.tasks = []) ∧
    answersWith .spawnRequest (sp (event .opened)) (fun t => t.ll.spawns = [] && t.ll.tasks.map (fun e => e.2.handle) = [some 0x00803]) ∧
    answersWith .spawnRequest (ll (fun l => { l with enable := false }) (sp (event .opened))) (fun t => t.counter Cnt.llWakeLate = 1) := by
  decide +kernel

/-- A record in the queue of the decision port. -/
def sending (c : DpCfg) (lane : Nat) : State :=
  { State.reset with dp := { DpSt.reset with cfg := Rwc.reset c, lane := lane, queue := [⟨5, 1, 0, true, false, false, false, false, 6, 7, 8, 9, none⟩] } }

/-- Records on the lane that is next, on the first after the last, on every lane, and with no destination. -/
theorem witness_decision_port :
    let one := sending { DpCfg.reset with lanes := 0x81 } 1
    let wrap := sending { DpCfg.reset with lanes := 0x03 } 2
    let all := sending { DpCfg.reset with lanes := 0x03, lanemode := true } 0
    let sofs (t : State) : List Nat := t.out.filterMap fun o => match o with
      | .dpBlock l _ (some 0x78) _ => some l
      | _ => none
    let sent (s : State) (ls : List Nat) : Bool := answersWith .decisionRecordSend s fun t =>
      t.dp.queue = [] && t.dp.rseq = 1 && t.counter Cnt.dpRecords = 1 &&
        sofs t = ls
    sent one [7] ∧ sent wrap [0] ∧ sent all [1, 0] ∧ answers .decisionRecordSend State.reset State.reset ∧
    answersWith .decisionRecordSend (sending DpCfg.reset 0) (fun t => t.counter Cnt.dpRecords = 1 && t.out = [] && t.dp.rseq = 1) ∧
    (let ringed (f : RingSt → RingSt := id) : State :=
       { (sending { DpCfg.reset with hostcopy := true } 0) with
         hi := { HiSt.reset with active := 2, rings := [(3, f { RingSt.reset with st := .running, ty := 2, rbase := 0x2000 })] } }
     answersWith .decisionRecordSend ringed (fun t => (t.ring 3).prod = 1 && t.counter Cnt.dpHostdrop = 0 && t.dp.rseq = 1 &&
       t.out.any fun o => match o with | .hostWrite a b => a = 0x2000 && b.length = 64 && b.take 6 = [5, 0, 0, 0, 0, 0] | _ => false) ∧
     answersWith .decisionRecordSend (ringed fun x => { x with prod := 16 }) (fun t => t.counter Cnt.dpHostdrop = 1 && t.out = []) ∧
     answersWith .decisionRecordSend { (ringed) with pw := { PwSt.reset with stage := .shed } } (fun t => t.counter Cnt.dpHostdrop = 1)) ∧
    answers .decisionRecordSend { one with pw := { PwSt.reset with stage := .off } } { one with pw := { PwSt.reset with stage := .off } } ∧
    answersWith (.beat 7) { one with pw := { PwSt.reset with stage := .standby } } (fun t => t.out.length = 1) ∧
    answersWith (.beat 7) one (fun t => t.out.length = 1) ∧ answers (.beat 1) one one ∧
    answersWith .dpOutCommit (serving (cn fun c => { c with enable := true })) (fun t => t.dp.cfgerr) ∧
    answersWith .dpOutCommit { State.reset with dp := { DpSt.reset with cfg := ⟨{ DpCfg.reset with lanes := 1, order := true }, DpCfg.reset, true⟩ } }
      (fun t => t.dp.cfg.lv.order && !t.dp.cfg.pend) := by decide +kernel

/-- Core 0 in service with no task, and task 5 READY on lantern 0; the cores of lantern 0 but core 0 are not in service. -/
def ready (d : TaskD → TaskD := id) : State :=
  ll (fun l => { l with enable := true }) ((State.reset.modCore 0 fun k => { k with uc := { k.uc with mode := .service } }).modTask 5
    fun _ => d { TaskD.free with st := .ready, entry := ⟨Ty.code, 0x400⟩, args := [TWord.fix 1], priv := 1, prio := 2 })

theorem witness_dispatch :
    let s := ready
    (queueOf s 0 = [(5, s.task 5)] ∧ inService s 0 ∧ (s.ctx 0).st = .empty) ∧
    answersWith (.taskDispatch 0) s (fun t => (t.ctx 0).st = .running && (t.ctx 0).pc = 0x400 && (t.ctx 0).reg 0 = TWord.fix 1 &&
      (t.ctx 0).cstat.priv = 1 && (t.ctx 0).cstat.ie && (t.task 5).st = .running) ∧
    answers (.taskDispatch 1) s s ∧ answers (.taskDispatch 0) { s with pf := true } { s with pf := true } ∧
    answers (.contextTimeslice 0) s s := by decide +kernel

/-- A time slice with another context of the same level, and without one. -/
theorem witness_timeslice :
    let s := (core0 []).modCtx 1 fun x => { x with st := .runnable }
    (∃ d ∈ ctxsOf 0, (s.ctx d).st = .runnable ∧ ctxLevel s d = ctxLevel s (ctxOf 0 0)) ∧
    answers (.contextTimeslice 0) s (rotate 0 s) ∧ (rotate 0 s).core 0 ≠ s.core 0 ∧
    answers (.contextTimeslice 0) (core0 []) (core0 []) := by decide +kernel

/-- Preemption of the task of a lower level; migration of the head task to a free lantern. -/
theorem witness_preemption :
    let busy (p : BitVec 2) : State := ([0, 1, 2, 3].foldl (fun (s : State) c => s.modCtx c fun x =>
        { x with st := if c = 0 then .running else .waiting, task := if c = 0 then some 9 else none, savep := ⟨Ty.save, 0x1040⟩ })
      (ready fun d => { d with prio := p })).modTask 9 fun _ => { TaskD.free with st := .running, prio := 2, ctx := some 0 }
    let m := ll (fun l => { l with migMin := 1, migEn := true }) (State.reset.modCore 4 fun k => { k with uc := { k.uc with mode := .service } })
    let q := ll (fun l => { l with enable := true }) (m.modTask 5 fun _ => { TaskD.free with st := .ready, lan := 0, affinity := 1 })
    (freeContext (busy 0) 0 = none ∧ (firstTaken (onLantern (busy 0) 0 0)).map Prod.fst = some 9 ∧ savable ((busy 0).ctx 0)) ∧
    answers (.preemption 0) (busy 2) (busy 2) ∧ answers (.preemption 1) (busy 0) (busy 0) ∧
    (lanOfCore 4 = 1 → freeContext q 1 = some 16 ∧ migrateFrom 1 q = some 0 ∧
      answersWith (.migration 1) q (fun t => (t.task 5).lan = 1 && t.counter Cnt.llMigrate = 1)) ∧
    answers (.migration 0) q q ∧ answers .deferDrain q q := by decide +kernel

theorem witness_menu_commits :
    let s (m : LlMenu) (p : Bool) : State := ll (fun l => { l with menu := ⟨m, LlMenu.reset, p⟩ }) (wiped State.reset)
    let ok : LlMenu := { LlMenu.reset with deadline := 8000, warn := 7999, policy := 2, prescale := 1 }
    answers .llMenuCommit (s ok true) (s ok true) ∧
    answersWith .llMenuCommit (s { ok with warn := 8000 } false) (fun t => t.sn.cfgerr && t.ll.menu.lv = LlMenu.reset) ∧
    answersWith .llMenuCommit (s { ok with deadline := 12800001 } false) (fun t => t.sn.cfgerr) ∧
    answersWith .llMenuCommit (s { ok with tmpls := 257 } false) (fun t => t.ll.cfgerr && !t.sn.cfgerr) ∧
    answersWith .llMenuCommit (s ok false) (fun t => t.ll.menuLoaded && t.ll.menu.pend && t.ll.menu.lv = LlMenu.reset) ∧
    answers .menuCommitApply (s ok false) (s ok false) ∧
    answersWith .menuCommitApply (s ok true) (fun t => t.ll.menu.lv = ok && !t.ll.menu.pend) ∧
    answersWith .menuCommitApply (ll (fun l => { l with menuLoaded := true }) { s ok true with sn := { SnSt.reset with prescaleCnt := 1 } })
      (fun t => t.ll.menu.lv = ok && !t.ll.menu.pend && t.sn.prescaleCnt = 0) ∧
    answersWith (.llEnableWrite true) State.reset (fun t => t.ll.enable) ∧
    answersWith (.llEnableWrite false) (ready) (fun t => !t.ll.enable) := by decide +kernel

/-! ### Wicks, candles and marking -/

/-- Lane 2 of wick 1. -/
def lane (f : LaneRx → LaneRx) : State := (timed 7 1).modLane 1 2 f
def theLane (s : State) : LaneRx := s.lane 1 2

/-- A format 1 frame of BX 2, LSEQ 5, one hit, with its CRC (R148). -/
def header1 : BitVec 64 := 0x0001000100050002
def hit1 : BitVec 64 := 0x000300040005_0006
def rx1 : RxFrame := ⟨some header1, none, false, false, 7, 1, 1, false, []⟩
def crc1 : BitVec 32 := crc32c (frameBytes { rx1 with hits := [hit1] })

/-- The transmitter's scrambler (R142), bit by bit: each bit sent is the payload's bit with the 39th and the 58th before it. -/
def scramble : BitVec 58 → List (BitVec 2 × BitVec 64) → List (BitVec 66)
  | _, [] => []
  | d, (h, w) :: r =>
    let x := (List.range 64).foldl (fun (x : BitVec 58 × BitVec 64) i =>
      let b := bit (w.getLsbD i ^^ x.1.getLsbD 19 ^^ x.1.getLsbD 0)
      (b ++ x.1.extractLsb' 1 57, b ++ x.2.extractLsb' 1 63)) (d, 0)
    (h ++ x.2) :: scramble x.1 r

def dataB (w : BitVec 64) : BitVec 2 × BitVec 64 := (1, w)
def ctlB (ty : BitVec 8) (w : BitVec 56 := 0) : BitVec 2 × BitVec 64 := (2, w ++ ty)
def eofB (crc : BitVec 32) : BitVec 2 × BitVec 64 := ctlB 0xE1 (crc.setWidth 56)

/-- The blocks of this list, from a scrambler of zeros. -/
def sent (l : List (BitVec 2 × BitVec 64)) : List (BitVec 66) := scramble 0 l

theorem witness_lanes :
    let at_ (st : LaneStep) : State := lane fun l => { l with st := st }
    let goes (i : Instr) (a b : LaneStep) : Bool := answersWith i (at_ a) fun t => (theLane t).st = b
    let framed : State := lane fun l => { l with st := .up, rx := some rx1 }
    let one (b : BitVec 2 × BitVec 64) : BitVec 66 := (sent [b]).headD 0
    let inverted : State := (at_ .align).modWick 1 fun w => { w with lcfg := Rwc.reset [(2, { LaneCfg.reset with pol := true })] }
    let idles := sent (List.replicate 16 (ctlB 0x1E))
    ((laneCfg (at_ .up) 1 2).src = false) ∧
    goes (.laneClockRecovered 1 2) .acquire .locking ∧ goes (.laneClockRecovered 1 2) .off .off ∧
    goes (.laneSyncLocked 1 2) .locking .align ∧ goes (.laneAligned 1 2 idles) .align .up ∧
    goes (.laneAligned 1 2 (idles.drop 1)) .align .align ∧ goes (.laneAligned 1 2 idles) .locking .locking ∧
    answersWith (.laneAligned 1 2 (idles.map fun b => ~~~b)) inverted (fun t => (theLane t).st = .up) ∧
    goes (.laneLossOfSignal 1 2) .align .acquire ∧ goes (.laneLossOfSignal 1 2) .up .acquire ∧ goes (.laneLockLost 1 2) .align .align ∧
    answersWith (.laneLockLost 1 2) framed (fun t =>
      (theLane t).st = .acquire && (theLane t).lockLost && t.counter (Cnt.wkLockLoss 1 2) = 1 && t.counter (Cnt.wkFraming 1 2) = 1) ∧
    answersWith (.invalidSyncHeader 1 2 (one (3, 5))) framed (fun t =>
      t.counter (Cnt.wkSyncErr 1 2) = 1 && t.counter (Cnt.wkFraming 1 2) = 1 && (theLane t).skip) ∧
    answersWith (.invalidSyncHeader 1 2 (one (0, 5))) (at_ .up) (fun t => t.counter (Cnt.wkSyncErr 1 2) = 1 && t.counter (Cnt.wkFraming 1 2) = 0) ∧
    answersWith (.framingErrorBlock 1 2 (one (dataB 5))) (at_ .up) (fun t => t.counter (Cnt.wkFraming 1 2) = 1) ∧
    answersWith (.framingErrorBlock 1 2 (one (ctlB 0x78))) framed (fun t => t.counter (Cnt.wkFraming 1 2) = 1) ∧
    answersWith (.frameHeader 1 2 [one (ctlB 0x78)]) (at_ .up) (fun t => (theLane t).rx.isSome && !(theLane t).skip) ∧
    answersWith (.frameHeader 1 2 [one (ctlB 0x1E)]) (at_ .up) (fun t => (theLane t).rx = none && t.cnt = []) := by decide +kernel

/-- Headers that pass, and that fail each rule; with room for the last unit and without; ends that pass and fail. -/
theorem witness_frames_received :
    let up (rx : Option RxFrame) : State :=
      { (lane fun l => { l with st := .up, rx := rx, ref := some 3 }).modWick 1 fun w =>
          { w with lcfg := Rwc.reset [(2, { LaneCfg.reset with fmt := false })] } with wk := { ((lane fun l => { l with st := .up, rx := rx, ref := some 3 }).modWick 1 fun w =>
          { w with lcfg := Rwc.reset [(2, { LaneCfg.reset with fmt := false })] }).wk with enable := true } }
    let full (n : Nat) : State := (up none).modWick 1 fun w =>
      { w with entries := [{ XEntry.new 5 0 with frames := [⟨0, false, [], n⟩] }] }
    let started (h : BitVec 64) := Instr.frameHeader 1 2 (sent [ctlB 0x78, dataB h])
    let ended (crc : BitVec 32) := Instr.frameEof 1 2 (sent [eofB crc])
    let got : RxFrame := { rx1 with hits := [hit1] }
    (crc32c [0x31, 0x32, 0x33, 0x34, 0x35, 0x36, 0x37, 0x38, 0x39] = 0xE3069283) ∧ (laneCfg (up none) 1 2).src = false ∧
    answersWith (started header1) (up none) (fun t => (theLane t).rx = some rx1 && (t.wick 1).bufHwm = 1) ∧
    answersWith (started 0x0002000100050002) (up none) (fun t =>
      (theLane t).rx.map RxFrame.failed = some true && t.counter (Cnt.wkFmt 1 2) = 1) ∧
    answersWith (started 0x0001040100050002) (up none) (fun t => t.counter (Cnt.wkLen 1 2) = 1) ∧
    answersWith (started header1) (up (some rx1)) (fun t => t.counter (Cnt.wkFraming 1 2) = 1) ∧
    answersWith (started header1) (full 32767) (fun t => (theLane t).rx.map RxFrame.noRoom = some false) ∧
    answersWith (started header1) (full 32768) (fun t => (theLane t).rx.map RxFrame.noRoom = some true) ∧
    answersWith (.frameEof 1 2 (sent [dataB hit1])) (up (some rx1)) (fun t => (theLane t).rx = some got) ∧
    answersWith (ended crc1) (up (some got)) (fun t => t.counter (Cnt.wkFrames 1 2) = 1 && t.counter (Cnt.wkHits 1 2) = 1 &&
      t.counter (Cnt.wkSeqGap 1 2) = 1 && (theLane t).lastLseq = 5 && (findX t 1 0x000000070002).isSome) ∧
    answersWith (.frameEof 1 2 (sent [ctlB 0x78, dataB header1, dataB hit1, eofB crc1])) (up none) (fun t =>
      t.counter (Cnt.wkFrames 1 2) = 1 && (theLane t).rx = none && (findX t 1 0x000000070002).isSome) ∧
    answersWith (ended (crc1 + 1)) (up (some got)) (fun t => t.counter (Cnt.wkCrc 1 2) = 1) ∧
    answersWith (ended crc1) (up (some rx1)) (fun t => t.counter (Cnt.wkLen 1 2) = 1) ∧
    answersWith (ended crc1) (up (some { got with failed := true })) (fun t => t.cnt = []) := by decide +kernel

/-- A wick with one entry. -/
def entry (e : XEntry) (now : BitVec 64) (notes : List WkNote := []) : State :=
  let s := (event .opened fun v => { v with extUnits := 8 }).modWick 1 fun w => { w with entries := [e], notes := notes, map := [(3, 0x1000A)] }
  { s with time := now, wk := { s.wk with enable := true } }

theorem witness_entries :
    let held : XEntry := { XEntry.new 0x77 0 with frames := [⟨2, false, [hit1], 1⟩], eoc := 4 }
    let open_ : XEntry := { held with handle := some 0x00803, mask := 6 }
    let dark (s : State) : State := { s with wk := { s.wk with enable := false } }
    let rep (n : WkNote) (e : XEntry) (i : Instr) (p : WkReport → Bool) : Bool := answersWith i (entry e 9 [n]) fun t =>
      (t.wick 1).notes = [] && (match (t.wick 1).reports with | [r] => p r | _ => false)
    answers (.holdExpiry 1 0x77) (entry held 6399) (entry held 6399) ∧
    answersWith (.holdExpiry 1 0x77) (entry held 6400) (fun t => (t.wick 1).entries = [] && t.counter (Cnt.wkOrphan 1 2) = 2) ∧
    answers (.holdExpiry 1 0x78) (entry held 6400) (entry held 6400) ∧
    answersWith (.openNotification 1) (entry held 9 [.opened 0x77 0x00803 4 1 0x80100000]) (fun t =>
      ((t.wick 1).entries.map fun e => (e.handle, e.home, e.mask)) = [(some 0x00803, 4, 0)]) ∧
    answersWith (.openNotification 1) { entry held 9 [.opened 0x77 0x00803 4 1 0x80100000] with pf := true } (fun t => (t.wick 1).notes = []) ∧
    answersWith (.openNotification 1) (dark (entry held 9 [.opened 0x77 0x00803 4 1 0x80100000])) (fun t =>
      (t.wick 1).notes = [] && (t.wick 1).reports = [⟨0x00803, 0, false⟩] && (lineWord (t.l2 4 0x4000).words 6).ty = Ty.hitv) ∧
    answersWith (.openNotification 1) ((dark (entry held 9 [.opened 0x77 0x00803 4 1 0x80100000])).modWick 1 fun w => { w with dropped := [0x77] })
      (fun t => (t.wick 1).reports = [⟨0x00803, 0, true⟩] && (t.wick 1).notices = [0x00803]) ∧
    answersWith (.frameWrite 1 0x77) (entry open_ 9) (fun t => ((t.wick 1).entries.map fun e => (e.frames.length, e.hits)) = [(0, 1)]) ∧
    answers (.frameWrite 1 0x77) (entry held 9) (entry held 9) ∧
    answers (.frameWrite 1 0x77) { entry open_ 9 with pw := { PwSt.reset with stage := .shed } } { entry open_ 9 with pw := { PwSt.reset with stage := .shed } } ∧
    rep (.timeout 0x00803) open_ (.wickCloseTimeout 1) (fun r => r = ⟨0x00803, 1, false⟩) ∧
    rep (.decided 0x00803) open_ (.wickCloseDecision 1) (fun r => r.hits = 0) ∧
    answersWith (.wickCloseTimeout 1) (entry held 9 [.timeout 0x00803]) (fun t => (t.wick 1).reports = []) ∧
    hitWords [(3, 0x1000A)] hit1 = some [⟨Ty.hit0, true, false, 0x000A0006⟩, ⟨Ty.hit1, true, false, 0x00040005⟩] ∧
    hitWords [(3, 0x0000A)] hit1 = none := by decide +kernel

theorem witness_maps :
    let s (en : Bool) (f : WkSt → WkSt) : State := { State.reset.modWick 5 f with wk := { (State.reset.modWick 5 f).wk with enable := en } }
    let ev (u : BitVec 6) (b : BitVec 5) : State :=
      { State.reset with wk := { State.reset.wk with event := ⟨{ WkEvent.reset with extUnits := u, batch := b, winto := 64 }, WkEvent.reset, true⟩ } }
    answers (.wkMapLoad 6) State.reset State.reset ∧
    answersWith (.wkMapLoad 5) (s true fun w => { w with mapSrc := 64 }) (fun t => (t.wick 5).loading = some 64) ∧
    answersWith (.wkMapLoad 5) (s true fun w => { w with mapSrc := 32 }) (fun t => (t.wick 5).cfgerr) ∧
    answersWith (.wkMapLoad 5) (s true fun w => { w with mapPend := true }) (fun t => (t.wick 5).cfgerr) ∧
    answersWith (.wkMapLoad 5) (s true fun w => { w with mapPend := true, loading := some 64 }) (fun t => (t.wick 5).cfgerr) ∧
    answers (.mapLoadDone 5) State.reset State.reset ∧
    answersWith (.wkMapCommit 5) (s true id) (fun t => (t.wick 5).mapPend) ∧
    answersWith (.wkMapCommit 5) (s false fun w => { w with mapSh := [(1, 9)] }) (fun t => (t.wick 5).map = [(1, 9)] && !(t.wick 5).mapPend) ∧
    answersWith (.wkMapDataAccess 5 (some 0xFFFFFFFF)) (s true fun w => { w with mapSel := 0xFFFF, autoinc := true }) (fun t =>
      (t.wick 5).mapSh = [(0xFFFF, 0x1FFFF)] && (t.wick 5).mapSel = 0) ∧
    answersWith (.wkMapDataAccess 5 none) (s true fun w => { w with mapSh := [(0, 7)] }) (fun t => t.out = [.readValue 7]) ∧
    answersWith (.wkLaneCommit 5) (s true id) (fun t => (t.wick 5).lcfg.pend) ∧
    answersWith (.wkLaneCommit 5) (s false fun w => { w with lcfg := ⟨[(3, ⟨true, true, false, false⟩)], [], false⟩ }) (fun t =>
      (t.lane 5 3).st = .acquire) ∧
    answersWith .wkEventCommit (ev 42 16) (fun t => t.wk.event.lv.extUnits = 42) ∧
    answersWith .wkEventCommit (ev 43 16) (fun t => t.wk.event.lv = WkEvent.reset && (t.wick 0).cfgerr) ∧
    answersWith (.wkEnableWrite true) State.reset (fun t => t.wk.enable) ∧
    answersWith (.wkEnableWrite false) (entry (XEntry.new 5 0) 0) (fun t => !t.wk.enable && (t.wick 1).entries = []) := by decide +kernel

/-- A pool of four spans at 1 MiB. -/
def pool (f : CnSt → CnSt) : State :=
  { wiped State.reset with cn := f { CnSt.reset with enable := true, pool := Rwc.reset { CnPool.reset with banks := [(0, ⟨1, 4, true⟩)] } } }

theorem witness_spans :
    let sel (i : BitVec 16) (st : SpanSt) : State := pool fun c => { c with spanSel := i, spans := Tab.set SpanEnt.free [] i.toNat { SpanEnt.free with st := st } }
    let goes (i : Instr) (s : State) (r : BitVec 2) (st : SpanSt) : Bool := answersWith i s fun t =>
      t.cn.spanResult = r && (t.cn.span s.cn.spanSel.toNat).st = st
    goes (.cnSpanClaim false) (sel 3 .free) 0 .persistent ∧ goes (.cnSpanClaim false) (sel 4 .free) 3 .free ∧ goes (.cnSpanClaim false) (sel 0 .retired) 1 .retired ∧
    goes (.cnSpanClaim true) (sel 0 .candle) 2 .candle ∧ goes (.cnSpanClaim false) (sel 0 .candle) 1 .candle ∧
    goes .cnSpanRelease (sel 0 .persistent) 0 .cooling ∧ goes .cnSpanRelease (sel 0 .free) 1 .free ∧
    goes .cnSpanRetire (sel 0 .free) 0 .retired ∧ goes .cnSpanRetire (sel 0 .persistent) 0 .retired ∧ goes .cnSpanRetire (sel 0 .cooling) 1 .cooling ∧
    answersWith .coolingExpiry { pool (fun c => { c with cooling := [(2, 5)], spans := [(2, { SpanEnt.free with st := .cooling })] }) with time := 5 }
      (fun t => t.cn.cooling = [] && (t.cn.span 2).st = .free && t.recs = []) ∧
    answersWith .coolingExpiry { pool (fun c => { c with cooling := [(2, 5)], spans := [(2, { SpanEnt.free with st := .cooling, retpend := true })] }) with time := 6 }
      (fun t => (t.cn.span 2).st = .retired && t.recs.length = 1) ∧
    answers .coolingExpiry (pool fun c => { c with cooling := [(2, 5)] }) (pool fun c => { c with cooling := [(2, 5)] }) ∧
    answersWith (.allocChunkRefill 0 3) ((event .opened).modSlot 3 fun t => { t with cur := some (1, 0xFC000) }) (fun t =>
      (t.slot 3).cur = some (1, 0x100000) && (t.lan 0).cursors = [⟨3, 0x801FC000, 0x80200000⟩]) ∧
    answers (.allocChunkRefill 0 3) (event .retiring) (event .retiring) := by decide +kernel

/-- Of the entries 0 to 127 of the job table only the last is free. -/
def lastFree (s : State) : State := { s with tp := { s.tp with evacs := (List.range 127).map fun i => (i, some 0x7FFFF) } }

theorem witness_evacuations :
    let r := lastFree (event .retiring)
    let e (st : SlotSt) : State := ((pool fun c => { c with spans := [(1, { SpanEnt.free with st := .candle, slot := 3, gen := 1 })] }).modSlot 3 fun t =>
      { t with st := st, gen := 1, spans := [1] })
    let own (s : State) : State := setEvacOwner 7 (some 0x00803) s
    let none_ := setEvacOwner 127 (some 0x7FFFE) r
    answersWith (.evacJobQueue 3) r (fun t => (t.engine 0).evacQ = [127] && evacOwner t 127 = some 0x00803 && Tab.get 0 t.tp.gens 127 = 1) ∧
    answers (.evacJobQueue 3) (event .decided) (event .decided) ∧ answers (.evacJobQueue 3) none_ none_ ∧
    answers (.evacJobQueue 3) (own r) (own r) ∧
    answersWith (.evacJobStart 7) (own ((e .retiring).modEngine 7 fun g => { g with evacQ := [7] })) (fun t => (t.engine 7).evac = some 7) ∧
    answers (.evacJobStart 7) r r ∧
    answersWith (.evacJobDone 7) (own ((e .retiring).modEngine 7 fun g => { g with evac := some 7 })) (fun t =>
      (t.slot 3).st = .free && (t.slot 3).gen = 1 && t.cn.freeTail = [3] && (t.cn.span 1).st = .cooling && t.cn.cooling.map Prod.fst = [1] &&
      evacOwner t 7 = none) ∧
    answers (.evacJobDone 7) r r := by decide +kernel

theorem witness_mark_cycle :
    let ph (p : MarkPhase) (f : CnSt → CnSt := id) : State := pool fun c => f { c with phase := p }
    let phase (i : Instr) (s : State) (p : MarkPhase) : Bool := answersWith i s fun t => t.cn.phase = p
    phase .markStart (ph .idle) .grace ∧ phase .markStart (ph .trace) .trace ∧ phase .markTraceStart (ph .grace) .trace ∧
    phase .markTraceStart (ph .grace fun c => { c with slots := [(3, { CnSlot.reset with precycle := true })] }) .grace ∧
    phase .markFinish (ph .trace) .sweep ∧ phase .markFinish (ph .trace fun c => { c with mlogUsed := 1 }) .trace ∧
    phase .markFinish (ph .idle) .idle ∧ phase .markSweepDone (ph .sweep) .idle ∧ phase .markSweepDone (ph .grace) .grace ∧
    answersWith .markLogConsume (ph .trace fun c => { c with mlogUsed := 1 }) (fun t => t.cn.mlogUsed = 0 && t.tp.mstkUsed = 1) ∧
    answers .markLogConsume (ph .trace) (ph .trace) ∧ answers (.markPop 0) (ph .trace) (ph .trace) ∧
    answersWith (.markPop 0) (lastFree { ph .trace with tp := { TpSt.reset with mstkUsed := 1 } }) (fun t => t.tp.mstkUsed = 0) ∧
    markFree { ph .trace with tp := { TpSt.reset with mstkUsed := 1 } } 0 ∧
    answersWith (.markRequest (TWord.mk Ty.vec 0x100) 0) (ph .idle) (fun t => t.counter Cnt.cnMarkErr = 1 && t.cn.reqIn = 1) ∧
    answersWith (.markRequest (TWord.mk Ty.vec 0x100) 0) (ph .trace) (fun t => t.counter Cnt.tpMarkStale = 1 && t.counter Cnt.cnMarkErr = 1) := by
  decide +kernel

/-- Mark work on a pointer that an engine can translate: to a PERSISTENT span, and outside the pool. -/
theorem witness_mark_work :
    let map : Tlb := ⟨0, true, 0, 31, 0, true, true, true, true, true⟩
    let s := setHbmWord 0x10000 ⟨Ty.vec, false, false, 0x100000⟩ (setHbmWord 0x100000 ⟨Ty.hdr, false, false, 0⟩
      (((pool fun c => { c with phase := .trace, spans := [(0, { SpanEnt.free with st := .persistent })] }).modEngine 0 fun g => { g with tlb := [map] })))
    let u : State := { s with tp := { s.tp with mstkUsed := 1, mark := Rwc.reset ⟨0x10000, 12⟩ } }
    (markFree u 0 ∧ (popMark u).1 = (TWord.mk Ty.vec 0x100000, 0) ∧ (markXlate 0 0 0x100000 (popMark u).2).1 = some 0x100000) ∧
    answersWith (.markPop 0) (lastFree u) (fun t => t.tp.mstkUsed = 0 && (hbmWord t 0x100000).mark = s.cn.sense) ∧
    (let far := lastFree { u with tp := { u.tp with mark := Rwc.reset ⟨mkPa 7 0x10000, 12⟩ } }
     answersWith (.markPop 0) far (fun t => (t.engine 0).mark && t.tp.mstkUsed = 1 && t.bl.pkts.length = 1)) ∧
    answersWith (.markRequest (TWord.mk Ty.vec 0x100000) 0) u (fun t => t.tp.mstkUsed = 2 && t.cn.reqIn = 1) := by decide +kernel

theorem witness_buffers :
    let b : BarEnt := ⟨3, 1, 0x100, true⟩
    let s (l : BitVec 4) := (pool fun c => { c with pool := Rwc.reset { c.pool.lv with elogSize := l } }).modCore 0 fun k => { k with barrier := [b] }
    let m := (wiped State.reset).modCore 0 fun k => { k with merge := [⟨4, [(1, TWord.fix 9)]⟩] }
    let full := (s 0).modSlot 3 fun t => { t with elogFill := 1 }
    let r := (cached .M).modLan 0 fun l => { l with ranges := [⟨0, 0, 1, 0x100, 64, .clean⟩] }
    let w := (core0 []).modCtx 0 fun x => { x with st := .stalled, stall := .store }
    answers (.barrierBufferDrain 1) (s 4) (s 4) ∧
    answersWith (.barrierBufferDrain 0) (s 4) (fun t => (t.core 0).barrier = [] && (t.slot 3).elogFill = 1) ∧
    answersWith (.barrierBufferDrain 0) full (fun t => (t.slot 3).elogOvf && t.cn.eovf = [⟨3, 1, false⟩]) ∧
    answersWith (.storeWaitResume 0) w (fun t => (t.ctx 0).st = .runnable || (t.ctx 0).st = .running) ∧
    answers (.storeWaitResume 0) (core0 []) (core0 []) ∧ answers (.mergeBufferDrain 1 false) m m ∧
    answersWith (.mergeBufferDrain 0 false) m (fun t => (t.core 0).merge = [] && lineWord (t.l2 0 4).words 1 = (TWord.fix 9).m) ∧
    answersWith (.mergeBufferDrain 0 true) m (fun t => (lineWord (t.l2 0 4).words 1).ty = Ty.poison && t.counter Cnt.ccMbUncorr = 1) ∧
    answersWith (.rangeOpDone 0) r (fun t => (t.lan 0).ranges = []) ∧ answers (.rangeOpDone 1) r r ∧
    answers (.scrubRead 0 .none) State.reset State.reset ∧
    (let ln := lineNo (mkPa 0 (homedLine 0 0))
     let busy := { wiped State.reset with bl := { State.reset.bl with txns := [⟨9, ln, ⟨7, 0, 0, none⟩, .own, true, 0, none⟩] } }
     answersWith (.scrubRead 0 .none) busy (fun t => t.bl.homeWait = [⟨ln, ⟨0, 0, 0, none⟩, .scrub⟩] && (t.mc 0).scrubPos = 1)) ∧
    answersWith (.scrubRead 0 .homeCorr) (wiped State.reset) (fun t => (t.mc 0).scrubPos = 1 && t.counter (Cnt.mcScrubCorr 0) = 1) := by
  decide +kernel

/-! ### Taper jobs, coherence and the fabric -/

/-- An engine's view of all memory. -/
def allMap : Tlb := ⟨0, true, 0, 32, 0, true, true, true, true, true⟩

/-- Entry 0x80 holds a job on engine 0 whose record of a KIND is at 0x100; f: what becomes of the job. -/
def jobbed (kind : Nat) (f : Job → Job := id) (g : EngSt → EngSt := id) : State :=
  let rec_ : List MWord := (⟨Ty.hdr, false, false, 0xC300000C⟩ :: (TWord.fix (BitVec.ofNat 32 kind)).m :: List.replicate 11 (TWord.fix 0).m)
  let s := setHbmWords 0x100 rec_ ((wiped State.reset).modEngine 0 fun e => g { e with tlb := [allMap] })
  { s with tp := { s.tp with jobs := [(0x80, some (f ⟨1, 0x100, 0, 0, none, none, 0, 0, none, false⟩))] } }

theorem witness_jobs :
    let killedPlan : JobPlan := ⟨1, 0, 2, true, 0, 0, 0, 0, 0, 0, 0⟩
    let running (f : Job → Job) : State := jobbed 1 (fun j => f { j with plan := some killedPlan }) fun e => { e with run := some 0x80 }
    let plan (t : State) : Option (BitVec 3 × BitVec 3) := ((t.job 0x80).bind Job.plan).map fun p => (p.kind, p.status)
    ((queuedOn (jobbed 1) 0).map Prod.fst = [0x80] ∧ (readRecord 0 ⟨1, 0x100, 0, 0, none, none, 0, 0, none, false⟩ (jobbed 1)).1.isSome) ∧
    answers (.graphJobStart 1) (jobbed 1) (jobbed 1) ∧ answers (.moveJobStart 0) (jobbed 1) (jobbed 1) ∧
    answers (.graphJobStart 0) (jobbed 4) (jobbed 4) ∧
    answersWith (.graphJobStart 0) (jobbed 1) (fun t => (t.engine 0).run = some 0x80 && (plan t).map Prod.fst = some 1) ∧
    answersWith (.moveJobStart 0) (jobbed 4) (fun t => (t.engine 0).run = some 0x80 && plan t = some (4, 7)) ∧
    answersWith (.moveJobStart 0) (jobbed 0x10004) (fun t => plan t = some (4, 1)) ∧
    answersWith (.jobComplete 0) (running id) (fun t => t.job 0x80 = none && (t.engine 0).run = none && t.counter Cnt.tpJobs = 1) ∧
    answers (.jobComplete 0) (running fun j => { j with killed := true }) (running fun j => { j with killed := true }) ∧
    answers (.jobComplete 1) (running id) (running id) ∧
    answersWith (.engineKill 0) (running fun j => { j with killed := true }) (fun t => t.job 0x80 = none) ∧
    answers (.engineKill 0) (jobbed 1) (jobbed 1) := by decide +kernel

/-- A graph job of one vertex completes: its label and words 7 to 11 of its record stand in memory, and its task, which waits
for it, is ready; one whose record cannot be written counts an error. -/
theorem witness_completion :
    let plan (ok : Bool) (p : Word) : JobPlan := ⟨3, 0, 0, ok, 0x2000, 0x3000, 0x4000, 1, 0, 0, p⟩
    let task : TaskD := { TaskD.free with st := .waiting, waitKind := 3, waitId := 0x480 }
    let s (ok : Bool) (p : Word) : State :=
      let t := setHbmWords 0x2000 [⟨Ty.hdr, false, false, 0x01000001⟩, (TWord.fix 9).m] (jobbed 1 (fun j => { j with task := some 5, plan := some (plan ok p) })
        fun e => { e with run := some 0x80 })
      t.modTask 5 fun _ => task
    answersWith (.jobComplete 0) (s true 5) (fun t => t.job 0x80 = none && (t.task 5).st = .ready && (physRead 0x4004 t).1 = (TWord.fix 0).m &&
      ((List.range 5).map fun i => (physRead (0x11C + 4 * BitVec.ofNat 53 i) t).1.val) = [0, 0, 1, 0, 0] &&
      t.counter Cnt.tpJobs = 1 && t.counter Cnt.tpErr = 0) ∧
    answersWith (.jobComplete 0) (s false 5) (fun t => t.counter Cnt.tpErr = 1 && (physRead 0x4004 t).1 = (TWord.fix 0).m) ∧
    answersWith (.jobComplete 0) ((s true 5).modTask 5 fun _ => { task with waitKind := 1 }) (fun t => t.task 5 = { task with waitKind := 1, pend := true }) ∧
    answersWith (.engineKill 0) (jobbed 1 fun j => { j with killed := true }) (fun t => (physRead 0x11C t).1 = (TWord.fix 6).m &&
      t.counter Cnt.tpKilled = 1) := by decide +kernel

/-- A MOVE of a vector of one FIX from outside the pool to a PERSISTENT span: the words stand at the destination, the first source
word forwards there (R230), and the job completes OK. -/
theorem witness_move :
    let rec_ : List MWord := [⟨Ty.hdr, false, false, 0xC300000C⟩, (TWord.fix 4).m, ⟨Ty.vec, false, false, 0x2000⟩, rawM 0x100000,
      ⟨Ty.nil, false, false, 0⟩] ++ List.replicate 8 (TWord.fix 0).m
    let base := (pool fun c => { c with spans := [(0, { SpanEnt.free with st := .persistent })] }).modEngine 0 fun e => { e with tlb := [allMap] }
    let s0 := setHbmWords 0x100 rec_ (setHbmWords 0x2000 [⟨Ty.hdr, false, false, 0x01000001⟩, (TWord.fix 9).m] base)
    let s : State := { s0 with tp := { s0.tp with jobs := [(0x80, some ⟨1, 0x100, 0, 1, none, none, 0, 0, none, false⟩)] } }
    answersWith (.moveJobStart 0) s (fun t =>
      ((t.job 0x80).bind Job.plan).map (fun p => (p.kind, p.status)) = some (4, 0) && (t.engine 0).run = some 0x80 &&
      (physRead 0x100004 t).1.val = 9 && (physRead 0x2000 t).1.ty = Ty.fwd && (physRead 0x2000 t).1.val = 0x100000 &&
      answersWith (.jobComplete 0) t fun u => u.job 0x80 = none && (physRead (0x100 + 28) u).1.val = 0 && u.counter Cnt.tpJobs = 1) := by
  decide +kernel

/-- Line 4 homed here, with its holders' states in lanterns 1 and 2. -/
def line4 (a b : L2Line) (d : DirEnt) : State :=
  setDir 4 d (setL2 1 4 a (setL2 2 4 b (setHbmLine 0x100 (lineOf (TWord.fix 5).m) (wiped State.reset))))

theorem witness_requests :
    let none_ := line4 L2Line.none L2Line.none DirEnt.none
    let owned := line4 L2Line.none ⟨.M, lineOf (TWord.fix 6).m, [], .clean⟩ { DirEnt.none with owner := some ⟨0, 2⟩ }
    let shared := line4 ⟨.S, lineOf (TWord.fix 5).m, [], .clean⟩ ⟨.S, lineOf (TWord.fix 5).m, [], .clean⟩ { DirEnt.none with sharers := [⟨0, 1⟩, ⟨0, 2⟩] }
    let st (t : State) (l : Lan) : Moesi := (t.l2 l 4).st
    let val (t : State) (l : Lan) : Word := (lineWord (t.l2 l 4).words 0).val
    (lineNo 0x100 = 4 ∧ nodeOf 0x100 = none_.node ∧ localOf 0x100 < sidecarBase none_.build ∧ none_.bl.txns = [] ∧
      (none_.mc (lineAgent 4)).wipeBusy = false) ∧
    answersWith (.sharedRead 0 1 0 0x100 .none) none_ (fun t => st t 1 = .E && val t 1 = 5) ∧
    answersWith (.ownRead 0 1 0 0x100 .none) none_ (fun t => st t 1 = .M && (t.dirEnt 4).owner = some ⟨0, 1⟩) ∧
    answersWith (.sharedRead 0 1 0 0x100 .none) owned (fun t => st t 1 = .S && st t 2 = .O && val t 1 = 6) ∧
    answersWith (.ownRead 0 1 0 0x100 .none) owned (fun t => st t 1 = .M && st t 2 = .I && val t 1 = 6) ∧
    answersWith (.upgrade 0 1 0 0x100 .none) shared (fun t => st t 1 = .M && st t 2 = .I && (t.dirEnt 4).sharers = []) ∧
    answersWith (.sharedRead 7 1 9 0x100 .none) none_ (fun t => t.bl.pkts.map (fun p => (p.dest, p.txid, p.op)) = [(7, 9, 0x20)] &&
      (t.dirEnt 4).owner = some ⟨7, 1⟩) := by decide +kernel

theorem witness_writes :
    let none_ := line4 L2Line.none L2Line.none DirEnt.none
    let m := line4 ⟨.M, lineOf (TWord.fix 6).m, [], .clean⟩ L2Line.none { DirEnt.none with owner := some ⟨0, 1⟩ }
    let e := line4 ⟨.E, lineOf (TWord.fix 5).m, [], .clean⟩ L2Line.none { DirEnt.none with owner := some ⟨0, 1⟩ }
    let w := [((15 : BitVec 4), (TWord.fix 9).m)]
    let at_ (t : State) (i : Nat) : MWord := hbmWord t (0x100 + 4 * i)
    let late : State := { none_ with cn := (pool fun c => { c with spans := [(0, { SpanEnt.free with st := .retired })] }).cn }
    answers (.writeBack 0 3 0x100 []) none_ none_ ∧ answers (.evictionNotice 0 3 0x100) none_ none_ ∧
    answersWith (.writeBack 0 1 0x100 []) m (fun t => at_ t 0 = (TWord.fix 6).m && (t.dirEnt 4).owner = none) ∧
    answersWith (.evictionNotice 0 1 0x100) e (fun t => (t.l2 1 4).st = .I && (t.dirEnt 4).owner = none) ∧
    answersWith (.uncachedWrite 0 0 0x100 w) none_ (fun t => at_ t 15 = (TWord.fix 9).m && at_ t 14 = (TWord.fix 5).m) ∧
    answersWith (.hintedWrite 1 0x100 w) none_ (fun t => (t.l2 1 4).st = .M && lineWord (t.l2 1 4).words 15 = (TWord.fix 9).m) ∧
    answersWith (.exchangeAtHome 0 0 0x100 15 0x81) none_ (fun t => (at_ t 15).mark && !(at_ t 14).mark && (at_ t 15).val = 5) ∧
    (lateSpan late 0x100000 ∧ answersWith (.uncachedWrite 0 0 0x100000 w) late (fun t => t.counter Cnt.cnLateWrite = 1)) ∧
    answersWith (.forwardShared 1 0x100 9 .none) m (fun t => (t.l2 1 4).st = .O && t.bl.pkts.map Pkt.op = [0x20]) ∧
    answersWith (.forwardOwn 1 0x100 9 .none) m (fun t => (t.l2 1 4).st = .I && t.bl.pkts.map Pkt.op = [0x20]) ∧
    answersWith (.forwardShared 3 0x100 9 .none) m (fun t => t.bl.pkts.map Pkt.op = [0x22]) ∧
    answersWith (.invalidate 0x100 9) m (fun t => (t.l2 1 4).st = .M && t.bl.pkts = []) ∧
    answersWith (.invalidate 0x100 9) (line4 ⟨.S, lineOf (TWord.fix 5).m, [], .clean⟩ L2Line.none DirEnt.none) (fun t =>
      (t.l2 1 4).st = .I && t.bl.pkts = []) := by decide +kernel

def bl (f : BlSt → BlSt) (s : State) : State := { s with bl := f s.bl }

theorem witness_responses :
    let r : RemReq := ⟨9, .readShared, 1, none, 4, none⟩
    let at_ : Raised := ⟨⟨5, 0, 0, TWord.unset⟩, 0x100, 0, false, none⟩
    let x : RemReq := ⟨9, .xld, 0, some 0, 0, some ⟨.ring 3, 0x200, at_, 2, TWord.raw 7⟩⟩
    let s := bl (fun b => { b with reqs := [r] }) (wiped State.reset)
    let xs := bl (fun b => { b with reqs := [x] }) ((core0 []).modCtx 0 fun c => { c with st := .stalled, stall := .xld })
    let t (kind : HomeKind) (data : Option Line) : State := bl (fun b => { b with txns := [⟨9, 4, ⟨0, 1, 0, none⟩, kind, data.isNone, 1, data⟩] }) (wiped State.reset)
    let late := bl (fun b => { b with lateReqs := [r] }) State.reset
    let up := bl (fun b => { b with reqs := [{ r with kind := .upgrade }] }) (setL2 1 4 ⟨.O, lineOf (TWord.fix 7).m, [], .clean⟩ (wiped State.reset))
    answersWith (.dataResponse 9 0x100 .S (lineOf (TWord.fix 5).m)) s (fun t => (t.l2 1 4).st = .S && t.bl.reqs = []) ∧
    answersWith (.errResponse 9) s (fun t => t.bl.reqs = []) ∧
    answersWith (.remoteRequestTimeout 9) s (fun t => t.bl.reqs = [] && t.bl.lateReqs = [r]) ∧
    answers (.remoteRequestTimeout 8) s s ∧ answers (.ackResponse 8) s s ∧ answers (.xrep 8 (.cause 1)) s s ∧
    answersWith (.remoteRequestTimeout 9) (bl (fun b => { b with txns := [⟨9, 4, ⟨7, 1, 0, none⟩, .own, true, 0, none⟩] }) State.reset)
      (fun t => t.bl.txns = [] && t.bl.lateReqs.map RemReq.txid = [9]) ∧
    answersWith (.dataResponse 9 (mkPa 7 0) .M (lineOf (TWord.fix 5).m)) late (fun t => t.counter Cnt.blLate = 1 &&
      t.bl.pkts.map (fun p => (p.dest, p.op)) = [(7, 0x04)]) ∧
    answersWith (.dataResponse 9 (mkPa 7 0) .S (lineOf (TWord.fix 5).m)) late (fun t => t.counter Cnt.blLate = 1 && t.bl.pkts = []) ∧
    answersWith (.ackResponse 9) (bl (fun b => { b with reqs := [⟨9, .write, 0, none, 4, none⟩] }) State.reset) (fun t => t.bl.reqs = []) ∧
    answersWith (.errResponse 0) State.reset (fun t => t.counter Cnt.blTimeout = 1) ∧ answers (.errResponse 8) s s ∧
    answersWith (.dataResponse 9 0x100 .M (lineOf (TWord.fix 6).m)) up (fun t => (t.l2 1 4).st = .M && (lineWord (t.l2 1 4).words 0).val = 7) ∧
    answersWith (.dataResponse 9 0x100 .S (lineOf (TWord.fix 6).m)) (setDir 4 { DirEnt.none with owner := some ⟨0, 2⟩ } (t .shared none))
      (fun t => (t.dirEnt 4).owner = none) ∧
    answersWith (.xrep 9 (.cause Cause.bounds)) xs (fun t => ((t.ctx 0).raised.map fun r => r.trap.w1) = some (TWord.raw 7)) ∧
    answersWith (.xrep 9 (.word (TWord.fix 4))) xs (fun t => (t.ctx 0).readLoc (.ring 3) = TWord.fix 4 && (t.ctx 0).st ≠ .stalled) ∧
    answersWith (.xrep 9 (.cause Cause.rights)) xs (fun t => ((t.ctx 0).raised.map fun r => (r.trap.cause, r.trap.w0)) = some (Cause.rights, 0x200)) ∧
    answers (.ackResponse 9) late (lateResponse 9 late) ∧
    answersWith (.ackResponse 9) (t .own (some (lineOf (TWord.fix 5).m))) (fun t => t.bl.txns = [] && (t.l2 1 4).st = .M) ∧
    answersWith (.dataResponse 9 0x100 .I (lineOf (TWord.fix 6).m)) (t .own none) (fun t => t.bl.txns.map HomeTxn.waitData = [false]) ∧
    answersWith (.nodataResponse 9) (setDir 4 { DirEnt.none with owner := some ⟨7, 0⟩ } (t .own none)) (fun t => t.counter Cnt.blNocopy = 1) ∧
    answersWith (.nodataResponse 9) (t .own none) (fun t => t.counter Cnt.blNocopy = 0) ∧
    answersWith (.xldRequest 7 9 (TWord.raw 0) (TWord.raw 0) (TWord.fix 0)) State.reset (fun t => t.bl.pkts.map (fun p => (p.dest, p.op)) = [(7, 0x23)]) ∧
    answersWith (.xstRequest 7 9 (TWord.raw 0) (TWord.raw 0) (TWord.fix 0) (TWord.fix 0)) State.reset (fun t => t.counter Cnt.blXfail = 1) := by
  decide +kernel

theorem witness_controllers :
    let svc (f : McSt → McSt) : State := { (wiped State.reset).modMc 0 f with mg := { State.reset.mg with stored := { State.reset.mg.stored with lc := .service }, ready := true } }
    let t := (TWord.fix 7).m
    answersWith (.hbmWipeDone 2) State.reset (fun t => !(t.mc 2).wipeBusy && (t.mc 1).wipeBusy) ∧
    answers (.hbmWipeDone 2) (wiped State.reset) (wiped State.reset) ∧
    answersWith (.mcTestRead 0) (wiped State.reset) (fun t => (t.mc 0).cfgerr) ∧
    answersWith (.mcTestRead 0) (setHbmWord 0x104 t (svc fun m => { m with testAddr := 0x100 })) (fun t =>
      Tab.get 0 (t.mc 0).testData 1 = 7 && Tab.get 0 (t.mc 0).testTag 1 = 1 && !(t.mc 0).testBusy) ∧
    (let side := localOf (sidecarBase State.reset.build)
     let held := ([0, 1, 2, 3].foldl (fun s c => s.modMc c fun m => { m with wipeBusy := true }) (svc fun m => { m with testAddr := BitVec.ofNat 37 side, testData := [(1, 6)] }))
     sidecarBase held.build ≤ side ∧ side < hbmEnd held.build ∧
     answersWith (.mcTestWrite 0) held (fun t => (t.mc 0).testBusy && (t.mc 0).testHeld = some (true, side)) ∧
     answersWith (.mcTestWrite 0) (wiped held) (fun t => sidecarLine t side = 0 :: 6 :: List.replicate 14 0 && !(t.mc 0).testBusy) ∧
     answersWith (.mcTestRead 0) (wiped held) (fun t => Tab.get 0 (t.mc 0).testData 1 = 0)) ∧
    answersWith (.mcTestWrite 0) (svc fun m => { m with testAddr := 0x13F, testData := [(15, 8)], testTag := [(15, 0x41)] }) (fun t =>
      hbmWord t 0x13C = ⟨Ty.fix, true, false, 8⟩) ∧
    answersWith (.mcLasteLowRead 0 (.fn 31)) (svc fun m => { m with laste := 0x500000006 }) (fun t =>
      t.out = [.readValue 6] && Tab.get 0 (t.mc 0).lasteLatch 31 = 5) := by decide +kernel

set_option maxRecDepth 20000 in
/-- A HEAD flit written out from Table 14-3 with its CRC-32C: VC 2, TTL 64, DEST 0x1234, SRC 7, TXID 9, OP 0x20, FSEQ 0x104,
ACK 0x2AB, word 0 RAW 5. -/
theorem test_flit :
    readFlit ([9, 128, 52, 18, 7, 0, 9, 0, 32, 4, 177, 42, 212, 118, 218, 41, 5] ++ List.replicate 63 0 ++ [7] ++ List.replicate 15 0) =
      some ⟨.head, 2, 0, 64, 0x1234, 7, 9, 0x20, 0x104, 0x2AB, rawM 5 :: List.replicate 15 MWord.unset⟩ := by decide +kernel

/-- Port 15 in a state. -/
def port (st : PortStep) (f : PortSt → PortSt := id) (c : PortCfg := { PortCfg.reset with en := true }) : State :=
  (bl (fun b => { b with pcfg := Rwc.reset [(15, c)] }) State.reset).modPort 15 fun p => f { p with st := st }

theorem witness_port_states :
    let goes (i : Instr) (a b : PortStep) : Bool := answersWith i (port a) fun t => (t.port 15).st = b
    let q : Pkt := ⟨3, 0, 1, 0x20, 64, false, true, [], [], none, 0⟩
    let again (b : Bool) : State := port .retrain fun x => { x with same := some b }
    goes (.portPhyLock 15) .phy .align ∧ goes (.portPhyLock 15) .up .up ∧ goes (.phyLockTimeout 15) .phy .phy ∧
    goes (.portLanesAligned 15) .align .negot ∧ goes (.negotTimeout 15) .negot .phy ∧ goes (.blRetrain 15) .up .retrain ∧
    goes (.blLossOfSignal 15) .up .retrain ∧ answersWith (.retrainComplete 15 0) (again true) (fun t => (t.port 15).st = .up) ∧ answers (.retrainComplete 15 0) (port .retrain) (port .retrain) ∧
    answersWith (.retrainComplete 15 0) (again false) (fun t => (t.port 15).reason = 4) ∧ goes (.retrainFailed 15) .retrain .retrain ∧
    answersWith (.retrainFailed 15) (again false) (fun t => (t.port 15).st = .isolated) ∧
    answersWith (.capability 15 2 7 2 false []) (port .retrain fun x => { x with peerNode := 7, peerPort := 2, version := 2 }) (fun t => (t.port 15).same = some true) ∧
    answersWith (.capability 15 2 7 3 false []) (port .retrain fun x => { x with peerNode := 7, peerPort := 2, version := 2 }) (fun t => (t.port 15).same = some false) ∧
    goes (.blIsolate 15) .up .isolated ∧ goes (.powerfailNotice 15) .phy .isolated ∧
    goes (.blRelease 15) .isolated .phy ∧ goes (.blRelease 15) .up .up ∧ goes (.blIsolate 15) .off .off ∧
    goes (.capability 15 3 7 2 false []) .negot .up ∧ goes (.capability 15 0 7 2 false []) .negot .isolated ∧ goes (.capability 15 3 0 2 false []) .negot .isolated ∧
    goes (.fecLimit 15 0 16) .up .up ∧ goes (.fecLimit 15 0 17) .up .retrain ∧
    answersWith (.retrainFailed 15) (port .retrain fun p => { p with attempts := 2 }) (fun t => (t.port 15).reason = 3) ∧
    answersWith (.capabilityTimer 15) (port .negot) (fun t => t.out.length = 1) ∧
    answersWith (.blIsolate 15) (port .up fun p => { p with txq := [q] }) (fun t => t.bl.pkts = [q] && t.recs.length = 1) ∧
    answersWith .blPortCommit (bl (fun b => { b with pcfg := ⟨[(15, { PortCfg.reset with en := true })], [], false⟩ }) State.reset)
      (fun t => (t.port 15).st = .phy) ∧
    answersWith .blPortCommit (bl (fun b => { b with pcfg := ⟨[(15, { PortCfg.reset with rate := 3 })], [], false⟩ }) State.reset)
      (fun t => t.bl.cfgerr) := by decide +kernel

set_option maxRecDepth 20000 in
theorem witness_flits :
    let f (k : FlitKind) (n : BitVec 3) (seq : BitVec 12) : Flit := ⟨k, 2, n, 64, 0, 7, 9, 0x20, seq, 0, rawM 5 :: List.replicate 15 MWord.unset⟩
    let up := port .up fun p => { p with rxNext := 4, owed := [(2, 1)] }
    let full (n : Nat) : State := bl (fun b => { b with pkts := [⟨3, 0, 9, 1, 64, false, false, [], [], some ⟨15, 2, 16, n⟩, 0⟩] }) up
    let msg : Pkt := ⟨0, 7, 0, 0x40, 64, false, false, [MWord.unset, rawM 1, rawM 5, rawM 0x10005], [], none, 0⟩
    let mid := port .up fun p => { p with rxNext := 5, partials := [(2, [f .head 1 4])] }
    answersWith (.flitReceived 15 (flitBytes (f .head 0 5))) up (fun t => t.out.length = 1 && t.counter (Cnt.blCrc 15) = 1) ∧
    answers (.flitReceived 15 (flitBytes (f .idle 0 0))) up up ∧
    answersWith (.flitReceived 15 (flitBytes (f .head 0 4))) up (fun t => t.bl.pkts.map Pkt.txid = [9] && (t.port 15).rxNext = 5 &&
      t.bl.pkts.map Pkt.rx = [some ⟨15, 2, 1, 0⟩] && Tab.get 0 (t.port 15).used 2 = 1 && Tab.get 0 (t.port 15).owed 2 = 1) ∧
    answersWith (.flitReceived 15 (flitBytes (f .head 0 4))) (full 3055) (fun t => t.bl.pkts.length = 2 &&
      (t.port 15).owed = [(2, 1)]) ∧
    answersWith (.flitReceived 15 (flitBytes (f .head 0 4))) (full 3056) (fun t => t.bl.pkts.length = 1 && t.out.length = 1 &&
      t.counter (Cnt.blCrc 15) = 1) ∧
    answers (.flitReceived 15 (flitBytes (f .head 0 4))) { up with pw := { up.pw with stage := .shed } } { up with pw := { up.pw with stage := .shed } } ∧
    (takenPkt { up.port 15 with version := 1 } 8 msg = some { msg with head := [MWord.unset, rawM 1, rawM 0, rawM 0] } ∧
      takenPkt { up.port 15 with version := 1 } 6 msg = none) ∧
    answersWith (.flitReceived 15 (flitBytes (f .head 1 4))) up (fun t => t.bl.pkts = [] && Tab.get [] (t.port 15).partials 2 = [f .head 1 4]) ∧
    answersWith (.flitReceived 15 (flitBytes (f .body 0 5))) mid (fun t => t.bl.pkts.map (fun q => q.body.take 2) = [[rawM 5, MWord.unset]] && t.bl.pkts.map Pkt.rx = [some ⟨15, 2, 2, 0⟩]) ∧
    answersWith (.flitReceived 15 ((flitBytes (f .head 0 4)).set 20 1)) up (fun t => t.out.length = 1 && t.counter (Cnt.blCrc 15) = 1 && (t.port 15).rxNext = 4) ∧
    answersWith (.flitReceived 15 (flitBytes (f .head 0 4))) (up.modPort 15 fun p => { p with version := 1 }) (fun t => t.bl.pkts = [] && (t.port 15).rxNext = 5) := by
  decide +kernel

theorem witness_link :
    let f (k : FlitKind) (n : BitVec 3) (seq : BitVec 12) : Flit := ⟨k, 2, n, 64, 0, 7, 9, 0x20, seq, 0, rawM 5 :: List.replicate 15 MWord.unset⟩
    let up := port .up fun p => { p with rxNext := 4, owed := [(2, 1)] }
    let re := port .up fun p => { p with retry := [f .head 0 1, f .head 0 2], naks := 6, nakAt := 2, credits := [(2, 15)] }
    answersWith (.nak 15 2 0) re (fun t => (t.port 15).naks = 7 && t.out.length = 1 && (t.port 15).st = .up) ∧
    answersWith (.nak 15 2 0) (re.modPort 15 fun p => { p with naks := 7 }) (fun t => (t.port 15).st = .retrain) ∧
    answersWith (.linkCreditAck 15 [0, 0, 3] 1) re (fun t => Tab.get 0 (t.port 15).credits 2 = 16 && Tab.get 0 (t.port 15).credits 10 = 2 &&
      (t.port 15).retry = [f .head 0 2]) ∧
    answersWith (.ackTimer 15) up (fun t => (t.port 15).owed = [] && t.out.length = 1) ∧ answers (.ackTimer 15) (port .phy) (port .phy) := by
  decide +kernel

theorem witness_routing :
    let q (dest : BitVec 16) (src : Bool) (ttl : BitVec 7) (op : BitVec 8) : Pkt := ⟨dest, 0, 9, op, ttl, false, src, [], [], none, 0⟩
    let r (p : Pkt) (e : BitVec 16) : State := bl (fun b => { b with pkts := [p], rt := [(3, e)] }) (port .up)
    let alt (t : State) : Nat := ((t.port 15).txq.length + (t.port 15).retry.length)
    answers .packetRoute State.reset State.reset ∧ answers .packetRoute { r (q 3 true 64 1) 0 with pf := true } { r (q 3 true 64 1) 0 with pf := true } ∧
    answersWith .packetRoute (r (q 0 true 64 1) 0) (fun t => t.bl.inbox.length = 1 && t.bl.pkts = []) ∧
    answersWith .packetRoute (r (q 3 false 1 1) 0x40F) (fun t => t.counter Cnt.blTtl = 1 && t.bl.pkts = []) ∧
    answersWith .packetRoute (r (q 3 true 64 1) 0x40F) (fun t => alt t = 1) ∧
    answersWith .packetRoute (r { q 0 false 64 1 with rx := some ⟨15, 2, 1, 4⟩ } 0) (fun t =>
      t.bl.inbox.map Pkt.rx = [some ⟨15, 2, 0, 0⟩] && Tab.get 0 (t.port 15).owed 2 = 1 && Tab.get 0 (t.port 15).owed 10 = 4) ∧
    answersWith .packetRoute ({ r (q 3 false 64 1) 0x40F with pw := { State.reset.pw with stage := .shed } }) (fun t =>
      t.counter Cnt.blNoroute = 1) ∧
    answersWith .packetRoute (r (q 3 false 64 1) 0x5F0) (fun t => alt t = 1) ∧
    answersWith .packetRoute (r (q 3 false 64 1) 0x0F0) (fun t => t.counter Cnt.blNoroute = 1 && t.bl.inbox = []) ∧
    answersWith .packetRoute (r (q 3 true 64 1) 0) (fun t => t.bl.inbox.map Pkt.op = [0x24] && t.counter Cnt.blNoroute = 1) ∧
    answersWith .blRtLoad (bl (fun b => { b with rtSrc := 64 }) State.reset) (fun t => t.bl.rtLoad = some 64) ∧
    answersWith .blRtLoad (bl (fun b => { b with rtPend := true, rtLoad := some 64 }) State.reset) (fun t => t.bl.cfgerr) ∧
    (let t := loadRt 64 0 1 (setHbmWord 64 (rawM 0xFFFFFC0F) (wiped State.reset))
     Tab.get 0 t.bl.rtSh 0 = 0x40F ∧ Tab.get 0 t.bl.rtSh 1 = 0x7FF) ∧
    answersWith .blRtLoad (bl (fun b => { b with rtSrc := 32 }) State.reset) (fun t => t.bl.cfgerr) ∧
    answers .rtLoadDone State.reset State.reset ∧
    answersWith .blRtCommit (bl (fun b => { b with rtSh := [(3, 1)] }) State.reset) (fun t => t.bl.rt = [(3, 1)]) ∧
    answersWith .blRtCommit (bl (fun b => { b with rtLoad := some 64 }) State.reset) (fun t => t.bl.rtPend) := by decide +kernel

/-- Ring 1 of two slots at 0x1000, its descriptor at 0x820. -/
def ringed (flags prod cons : Word) (inbox : List Pkt) : State :=
  setHbmWords 0x820 ([flags, 0x1000, 0, 0, prod, cons, 0, 0].map rawM)
    (bl (fun b => { b with ring := Rwc.reset ⟨100, 0x800, 2⟩, inbox := inbox }) (wiped State.reset))

theorem witness_messages :
    let m (ring : Word) : Pkt := ⟨0, 7, 0, 0x40, 64, false, false,
      [⟨Ty.hdr, false, false, 0xC400000F⟩, rawM ring, rawM 0, rawM 0, rawM 0, (TWord.fix 1).m], [rawM 5], none, 0⟩
    let late (p : Nat) (o : BitVec 4) (tick : BitVec 64) : Pkt := { m 1 with txid := o.setWidth 16, rx := some ⟨p, 8, 1, 0⟩, tick := tick }
    let hosted (g : Going) : State := { (State.reset.modRing 3 fun x => { x with going := some g }) with hi :=
      { (State.reset.modRing 3 fun x => { x with going := some g }).hi with sendq := [(3, ⟨7, 1, none, 0, [rawM 5], none, 0⟩)] } }
    let sent := (State.reset.modCore 0 fun k => { k with send := [⟨7, 1, some 0x77, Ty.vec, [rawM 5], none, 0⟩] })
    answersWith (.msgSendTake (some 0)) sent (fun t => t.bl.pkts.map (fun p => (p.dest, p.op)) = [(7, 0x40)] && (t.core 0).send = []) ∧
    answersWith (.msgSendTake none) (hosted ⟨false, 0, 0, 0, [], true, []⟩) (fun t =>
      t.bl.pkts.map (fun p => (p.dest, p.op)) = [(7, 0x40)] && t.hi.sendq = [] && (t.ring 3).going = none) ∧
    answers (.msgSendTake none) State.reset State.reset ∧
    answersWith .msgDelivery (ringed 0x21 2 1 [late 3 3 7, late 2 2 7, late 1 1 8, m 1]) (fun t => t.bl.inbox.map Pkt.txid = [3, 1, 0]) ∧
    answersWith .msgDelivery (ringed 0x21 2 1 [{ m 1 with txid := 9 }, late 2 2 0]) (fun t => t.bl.inbox.map Pkt.txid = [9]) ∧
    answers (.msgSendTake (some 0)) { sent with pf := true } { sent with pf := true } ∧ answers .msgDelivery sent sent ∧
    answersWith .msgDelivery (ringed 0x21 0 0 [m 2]) (fun t => t.counter Cnt.blNoring = 1) ∧
    answersWith .msgDelivery (ringed 0x01 0 0 [m 1]) (fun t => t.counter Cnt.blNoring = 1) ∧
    answersWith .msgDelivery (ringed 0x21 3 1 [m 1]) (fun t => t.counter Cnt.blRingfull = 1) ∧
    answersWith .msgDelivery (ringed 0x21 2 1 [m 1]) (fun t => t.counter Cnt.blMsgRx = 1 && (hbmWord t 0x830).val = 3 && t.bl.inbox = []) := by
  decide +kernel

/-! ### The host interface and the recorder (16, 18) -/

/-- Ring 3: RUNNING, size 16, with what f makes of it. -/
def ring3 (f : RingSt → RingSt := id) (g : HiSt → HiSt := id) : State :=
  let s := wiped State.reset
  { s with hi := g { s.hi with rings := [(3, f { RingSt.reset with st := .running, rsb := 0x1000, rbase := 0x2000, vector := 5 })] } }

def ringOk (i : Instr) (s : State) (p : RingSt → State → Bool) : Bool := answersWith i s fun t => p (t.ring 3) t

theorem witness_doorbells :
    let code (n : BitVec 4) : RingSt → State → Bool := fun x t => x.st = .error && x.err = n && x.blocks = 1 &&
      t.out = [.hostWrite 0x1000 ([0, 0, 0, 0, 1, 0, 0, 0, 0x13] ++ List.replicate 55 0)]
    let unmasked (h : HiSt) : HiSt := { h with msix := [(5, 0)] }
    let irq (x : RingSt) : RingSt := { x with irqen := true, since := 1, armed := true }
    ringOk (.dbProd 3 16 1) (ring3) (fun x t => t.counter Cnt.hiDbdrop = 1 && x.prod = 0) ∧
    ringOk (.dbArm 3 0) (ring3 fun x => { x with st := .draining }) (fun _ t => t.counter Cnt.hiDbdrop = 1) ∧
    ringOk (.dbCons 3 16 0) (ring3) (fun _ t => t.counter Cnt.hiDbdrop = 1) ∧
    ringOk (.dbProd 3 16 0) (ring3 fun x => { x with ty := 2 }) (fun _ t => t.counter Cnt.hiDbdrop = 1) ∧
    ringOk (.dbProd 3 16 0) (ring3) (fun x t => x.prod = 16 && t.out = []) ∧
    ringOk (.dbProd 3 49 1) (ring3 fun x => { x with func := 1, cons := 2 }) (fun x _ => x.prod = 17) ∧
    ringOk (.dbProd 3 17 0) (ring3) (code 1) ∧
    ringOk (.dbCons 3 16 0) (ring3 fun x => { x with ty := 3, prod := 16 }) (fun x t => x.cons = 16 && t.out = []) ∧
    ringOk (.dbCons 3 1 0) (ring3 fun x => { x with ty := 3 }) (code 1) ∧
    ringOk (.dbArm 3 0) (ring3 irq unmasked) (fun x t => t.out = [.msix 0 5] && x.since = 0 && !x.armed && t.counter Cnt.hiIrq = 1) ∧
    ringOk (.dbArm 3 0) (ring3 irq) (fun x t => t.out = [] && t.hi.pba = [5] && x.since = 0) ∧
    ringOk (.dbArm 3 0) (ring3 fun x => { irq x with count := 2, holdoff := 9, armed := false }) (fun x t => t.out = [] && x.armed && x.since = 1) ∧
    answers (.irqHoldoffExpiry 3) (ring3) (ring3) ∧
    ringOk (.irqHoldoffExpiry 3) (ring3 (fun x => { irq x with st := .draining }) unmasked) (fun x t => t.out = [.msix 0 5] && !x.armed) ∧
    ringOk (.dbArm 3 0) ({ ring3 irq unmasked with pw := { State.reset.pw with stage := .shed } }) (fun x t => t.out = [] && x.since = 0) ∧
    ringOk (.dbProd 3 17 0) ({ ring3 with pw := { State.reset.pw with stage := .shed } }) (fun x t => x.st = .error && t.out = []) ∧
    ringOk (.irqHoldoffExpiry 3) (ring3 irq unmasked) (fun x t => t.out = [.msix 0 5] && !x.armed) ∧
    ringOk (.irqHoldoffExpiry 3) (ring3 fun x => { irq x with armed := false }) (fun x t => x.held && t.out = []) := by decide +kernel

theorem witness_ring_states :
    let cfg : Word := 0x002140C9
    let off (f : RingSt → RingSt := id) : State := ring3 fun x => f { x with st := .disabled, vector := 0 }
    let v2 (h : HiSt) : HiSt := { h with active := 2 }
    let on (f : RingSt → RingSt := id) : State := ring3 f v2
    let off2 (f : RingSt → RingSt := id) : State := ring3 (fun x => f { x with st := .disabled, vector := 0 }) v2
    let other (h : HiSt) : HiSt := { h with rings := h.rings ++ [(9, { RingSt.reset with st := .running, ty := 2 })] }
    let both (s : State) : State := { s with hi := other s.hi }
    ringOk (.ringEnable 3 1 cfg) off (fun x t => t.counter Cnt.hiDbdrop = 1 && x.st = .disabled) ∧
    ringOk (.ringEnable 3 0 cfg) off2 (fun x t =>
      x.ty = 4 && x.log2 = 12 && x.func = 0 && x.vector = 10 && x.irqen && x.st = .running && x.armed && t.out.length = 1) ∧
    ringOk (.ringEnable 3 0 0x41) off2 (fun x t => x.st = .running && x.ty = 0 && !t.hi.cfgerr) ∧
    ringOk (.ringEnable 3 0 0x31) off2 (fun x t => x.st = .disabled && x.log2 = 3 && t.hi.cfgerr) ∧
    ringOk (.ringEnable 3 0 0x4B) off2 (fun x t => x.st = .disabled && t.hi.cfgerr) ∧
    ringOk (.ringEnable 3 0 0x41) (off2 fun x => { x with rbase := 0x800 })
      (fun x t => x.st = .disabled && t.hi.cfgerr) ∧
    ringOk (.ringEnable 3 0 0x45) (both off2) (fun x t => x.st = .disabled && t.hi.cfgerr) ∧
    ringOk (.ringDisable 3 0 0x40 []) off2 (fun x t => x.st = .disabled && t.out = []) ∧
    ringOk (.ringEnable 3 0 0x00204041) on (fun x t => x.vector = 2 && x.irqen && !t.hi.cfgerr) ∧
    ringOk (.ringEnable 3 0 0x00204051) on (fun x t => x.vector = 2 && x.log2 = 4 && t.hi.cfgerr) ∧
    ringOk (.ringDisable 3 0 0x40 []) (on fun x => { x with st := .error, since := 1 })
      (fun x _ => x.st = .disabled && x.since = 0) ∧
    ringOk (.ringDisable 3 0 0x46 []) (on fun x => { x with ty := 3 }) (fun x _ => x.st = .draining) ∧
    ringOk (.ringDisable 3 0 0x40 []) (on fun x => { x with prod := 1, cons := 31 })
      (fun x t => x.st = .draining && x.cons = 1 && t.counter Cnt.hiDesc = 2 && t.counter Cnt.hiErr = 2) ∧
    answers (.ringEnable 64 0 cfg) (ring3) (ring3) ∧
    ringOk (.ringEnable 3 0 0x43) off (fun x t => t.hi.cfgerr && x.st = .disabled) ∧
    (let g : Going := ⟨false, 0, 0, 0, [], false, []⟩
     ringOk (.ringDisable 3 0 0x40 [true, false]) (on fun x => { x with prod := 3, going := some g })
       (fun x t => x.st = .draining && x.cons = 0 && (x.going.map Going.aborts) = some [true, false] && t.out = []) ∧
     answers (.ringDrainDone 3) (on fun x => { x with st := .draining, going := some g }) (on fun x => { x with st := .draining, going := some g })) ∧
    ringOk (.ringDisable 3 0 0x20A040 [true]) (ring3 (fun x => { x with prod := 1, irqen := true, armed := true }) fun h => { h with active := 2, msix := [(5, 0)] })
      (fun x t => x.cons = 1 && t.out.contains (.msix 0 5)) ∧
    ringOk (.ringEnable 3 0 0x00204041) (on fun x => { x with st := .draining }) (fun x t => x.vector = 5 && t.hi.cfgerr) ∧
    answers (.ringEnable 3 0 (0x41 + 5 * 0x2000)) (on fun x => { x with st := .error, vector := 5 }) (on fun x => { x with st := .error, vector := 5 }) ∧
    ringOk (.hostDmaTimeout 3 .fetch true) (ring3) (fun x t => x.err = 2 && t.hi.pcie.aer = [0]) ∧
    answersWith (.hiIfverWrite 1) (let o := off; { o with hi := { o.hi with pcie := { o.hi.pcie with vfEn := true } } }) (fun t => t.hi.cfgerr) ∧
    ringOk (.ringDrainDone 3) (ring3 fun x => { x with st := .draining }) (fun x t => x.st = .disabled && t.out.length = 1) ∧
    answers (.ringDrainDone 3) (ring3) (ring3) ∧ answers (.hostDmaTimeout 3 .entry false) off off ∧
    ringOk (.hostDmaTimeout 3 .entry false) (ring3) (fun x t => x.st = .error && x.err = 3 && t.counter Cnt.hiDmaerr = 1 && t.out = []) ∧
    answersWith (.hiIfverWrite 1) off (fun t => t.hi.active = 1) ∧ answersWith (.hiIfverWrite 2) off (fun t => t.hi.active = 2) ∧
    answersWith (.hiIfverWrite 2) (ring3) (fun t => t.hi.cfgerr && t.hi.active = 1) := by decide +kernel

theorem witness_function_resets :
    let s := ring3 (fun x => { x with func := 2 }) fun h => { h with pba := [0x205, 5], msix := [(0x205, 7), (5, 7)] }
    let w (a : BitVec 64) (n : Nat) : State := { core0 [] (fun x => { x with st := .stalled, stall := .window }) with out := [.readValue 1, .winRead 0 a n] }
    answersWith (.functionLevelReset 0) { s with hi := { s.hi with pcie := { s.hi.pcie with mps := 1, vfEn := true }, sendq := [(3, ⟨7, 1, none, 0, [rawM 5], none, 0⟩)] } }
      (fun t => t.hi.pcie = { PcieSt.reset with mps := 1 } && t.hi.sendq.length = 1 && t.hi.rings = []) ∧
    answersWith (.windowReadCompletion 0 none true) (w 0x100 4) (fun t => t.hi.pcie.aer = [0] && (t.ctx 0).answer = [TWord.poison 4]) ∧
    answersWith (.functionLevelReset 0) (bump Cnt.hiIrq s) (fun t => t.hi = HiSt.reset && t.counter Cnt.hiIrq = 0) ∧
    answersWith (.pcieFundamentalReset 4 16) s (fun t => t.hi.speed = 4 && t.hi.width = 16 && t.hi.rings = []) ∧
    answersWith (.functionLevelReset 2) s (fun t => (t.ring 3).st = .disabled && t.hi.pba = [5] && t.hi.msix = [(5, 7)]) ∧
    answersWith (.functionLevelReset 1) s (fun t => (t.ring 3).st = .running && t.hi.pba = [0x205, 5]) ∧
    answersWith (.bar0BadAccess true) s (fun t => t.out = [.badRead] && t.counter Cnt.hiBadacc = 1) ∧
    answersWith (.bar0BadAccess false) s (fun t => t.out = []) ∧
    answers (.windowReadCompletion 0 none false) (core0 []) (core0 []) ∧
    answersWith (.windowReadCompletion 0 none false) (w 0x100 8) (fun t => (t.ctx 0).answer = [TWord.poison 4, TWord.poison 4] && t.counter Cnt.hiWinerr = 1) ∧
    answersWith (.windowReadCompletion 0 none false) (w 0x100 4) (fun t => (t.ctx 0).answer = [TWord.poison 4]) ∧
    answersWith (.windowReadCompletion 0 (some 0x1_00000002) false) (w 0x100 8) (fun t => (t.ctx 0).answer = [TWord.raw 2, TWord.raw 1]) ∧
    answersWith (.windowReadCompletion 0 (some 0xAB) false) (w 0x102 1) (fun t => (t.ctx 0).answer = [TWord.raw 0xAB0000]) := by decide +kernel

/-- A descriptor of an opcode and flags, for a length and a local address. -/
def desc (q0 q2 q3 : BitVec 64) (q4 : BitVec 64 := 0) : Desc := ⟨q0, 0x9000, q2, q3, q4, 0⟩

/-- Ring 3 with one descriptor posted, under version 2. -/
def posted (f : RingSt → RingSt := id) (g : State → State := id) : State :=
  g (ring3 (fun x => f { x with prod := 1 }) fun h => { h with active := 2 })

/-- The command completes with this status, DETAIL and DONE. -/
def ends (i : Instr) (s : State) (status detail : BitVec 16) (done : Word) (p : State → Bool := fun _ => true) : Bool :=
  answersWith i s fun t => (t.ring 3).cons = 1 && p t && t.out.any (fun o => o =
    .hostWrite 0x2030 (halfBytes status ++ halfBytes detail ++ wordBytes done ++ wordBytes (s.time.setWidth 32) ++ wordBytes 0))

theorem witness_completions :
    let last := ring3 (fun x => { x with prod := 0, cons := 31 }) fun h => { h with active := 2 }
    ringOk (.descriptorNop 3 (desc 0 0 0)) last (fun x t => x.cons = 0 && t.out =
      [.hostWrite 0x1000 ([0, 0, 0, 0, 1, 0, 0, 0, 1] ++ List.replicate 55 0),
       .hostWrite 0x23F0 (List.replicate 16 0), .hostRead 0x23C0 64]) ∧
    ringOk (.descriptorNop 3 (desc 0 0 0)) (ring3 fun x => { x with prod := 1 }) (fun _ t => t.out.length = 3 &&
      t.out.getD 1 .badRead = .hostWrite 0x2014 [0, 0]) ∧
    answers (.descriptorNop 3 (desc 0 0 0)) (ring3) (ring3) ∧
    (pieces 128 0xF80 400 = [(0xF80, 128), (0x1000, 128), (0x1080, 128), (0x1100, 16)] ∧
      pieces 512 0xFF0 32 = [(0xFF0, 16), (0x1000, 16)]) ∧
    answers (.descriptorNop 3 (desc 0 0 0)) { posted with pw := { (posted).pw with stage := .shed } } { posted with pw := { (posted).pw with stage := .shed } } ∧
    ends (.copyIn 3 (desc 1 4 0x40) [] false) (posted fun x => { x with going := some ⟨false, 7, 1, 8, [4], false, []⟩ }) 7 1 8 ∧
    (let busy := posted (fun x => { x with going := some ⟨false, 7, 1, 8, [4], false, []⟩ }) fun s =>
       { s with bl := { s.bl with txns := [⟨9, 4, ⟨0, 0, 0, none⟩, .uncached false [], true, 0, none⟩] } }
     answers (.copyIn 3 (desc 1 4 0x40) [] false) busy busy) ∧
    answersWith (.descriptorNop 3 (desc 0 0 0)) (ring3 (fun x => { x with st := .draining, prod := 3, going := some ⟨true, 0, 0, 0, [], false, [true, false]⟩ })
      fun h => { h with active := 2 }) (fun t => (t.ring 3).going = none && (t.ring 3).cons = 3 && t.counter Cnt.hiErr = 2 && t.counter Cnt.hiDesc = 3) ∧
    ends (.descriptorNop 3 (desc 0 0 0)) posted 0 0 0 ∧ ends (.descriptorNop 3 (desc 0x20000 0 0)) posted 2 0 0 ∧
    ends (.descriptorNop 3 (desc 0 0 0)) (posted fun x => { x with ty := 1 }) 2 0 0 ∧
    ends (.descriptorNop 3 (desc 3 0 0)) posted 2 0 0 (fun t => t.counter Cnt.hiErr = 1 && t.counter Cnt.hiDesc = 1) := by decide +kernel

theorem witness_copies :
    let tag (n : BitVec 64) : BitVec 64 := 0x10000 ||| n
    let word (p : PA) (w : MWord) : State → Bool := fun t => (physRead p t).1 = w
    let one : List Byte := [0x11, 0, 0, 0x80, 2, 0, 0, 0]
    let seen (bytes : List Byte) : State → Bool := fun t => t.out.any fun o => o = .hostWrite 0x9000 bytes
    ends (.copyIn 3 (desc 1 4 0x40) [] false) (posted fun x => { x with ty := 4 }) 2 0 0 ∧
    ends (.copyOut 3 (desc 2 0x1_00000004 0x40) none) posted 2 0 0 ∧
    ends (.copyIn 3 (desc 1 0 0x40) [] false) posted 1 0 0 ∧ ends (.copyOut 3 (desc 2 0x4000004 0x40) none) posted 3 0 0 ∧
    ends (.copyIn 3 (desc (tag 1) 12 0x40) one false) posted 3 0 0 ∧ ends (.copyIn 3 (desc 1 4 0x42) one false) posted 4 0 0 ∧
    ends (.copyIn 3 (desc (tag 1) 8 0x40) one false) posted 0 0 8 (word 0x40 ⟨2, false, false, 0x80000011⟩) ∧
    ends (.copyIn 3 (desc 1 8 0x40) one false) posted 0 0 8 (fun t => word 0x40 (rawM 0x80000011) t && word 0x44 (rawM 2) t) ∧
    ends (.copyIn 3 (desc (tag 1) 16 0x40) one false) posted 6 0 8 (fun t => t.counter Cnt.hiDmaerr = 1) ∧
    ends (.copyIn 3 (desc (tag 1) 16 0x40) (one ++ [0, 0, 0, 0, 0x3F, 0, 0, 0]) false) posted 7 1 8 ∧
    ends (.copyOut 3 (desc 2 4 0x40) none) (posted id (setHbmWords 0x40 [rawM 0x01020304])) 0 0 4 (seen [4, 3, 2, 1]) ∧
    ends (.copyOut 3 (desc (tag 2) 8 0x40) none) (posted id (setHbmWords 0x40 [⟨2, false, true, 9⟩])) 0 0 8
      (seen [9, 0, 0, 0, 0x82, 0, 0, 0]) ∧
    answersWith (.copyIn 3 (desc 1 8 0x40) [0x11, 0, 0, 0x80, 2, 0, 0] true) posted (fun t => t.hi.pcie.aer = [0] &&
      t.out.any fun o => o = .hostRead 0x9000 8) ∧
    ends (.copyIn 3 (desc 1 4 0x40) [1, 0, 0, 0] false) (posted id (setHbmWords 0x40 [⟨2, true, true, 9⟩])) 0 0 4 (word 0x40 ⟨Ty.raw, true, true, 1⟩) ∧
    ends (.copyIn 3 (desc (tag 1) 8 0x40) one false) (posted id (setHbmWords 0x40 [⟨2, true, true, 9⟩])) 0 0 8 (word 0x40 ⟨2, false, true, 0x80000011⟩) ∧
    (let far := posted id fun s => { s with bl := { s.bl with txns := [⟨9, 1, ⟨7, 0, 0, none⟩, .own, true, 0, none⟩] } }
     answersWith (.copyIn 3 (desc 1 4 0x40) [1, 0, 0, 0] false) far (fun t => (t.ring 3).cons = 0 &&
       (t.ring 3).going = some ⟨false, 0, 0, 4, [1], false, []⟩ && t.bl.homeWait.length = 1)) ∧
    ends (.copyOut 3 (desc 2 4 0x40) (some 3)) (posted id (setHbmWords 0x40 [rawM 0x01020304])) 6 0 3 (seen [4, 3, 2]) := by decide +kernel

/-! ### Menu images, replays, messages of the host, records -/

/-- A format-3 or format-2 image of one section: OFF, one tagged word; SPAN and TMPLS as given (Table 16-7). -/
def image (format cbkey tmpls span off : Byte) (word : List Byte := [9, 0, 0, 0, 2, 0, 0, 0]) : List Byte :=
  [0x4D, 0x45, 0x4E, 0x55, format, 0, 7, 0, cbkey, 0, 0, 0, tmpls, 0, 1, 0, 0, 0, 0, 0, span, 0, 0, 0] ++ List.replicate 40 0 ++
    [off, 0, 0, 0, 1, 0, 0, 0] ++ word

theorem witness_menu_load :
    let tagged (n len : BitVec 64) : Desc := desc (0x10000 ||| n) len 0x40
    let good := image 3 0 0 64 4
    let inUse (s : State) : State := { s with cn := { s.cn with pool := Rwc.reset { CnPool.reset with banks := [(0, ⟨0, 1, true⟩)] } } }
    good.length = 80 ∧
    ends (.menuLoad 3 (tagged 4 80) good false) (posted fun x => { x with ty := 1 }) 2 0 0 ∧
    ends (.menuLoad 3 (tagged 4 0) good false) posted 1 0 0 ∧ ends (.menuLoad 3 (tagged 4 0x10000008) good false) posted 3 0 0 ∧
    ends (.menuLoad 3 (desc 0x10004 80 0x44) good false) posted 4 0 0 ∧ ends (.menuLoad 3 (tagged 4 80) good false) (posted id inUse) 5 0 0 ∧
    ends (.menuLoad 3 (tagged 4 88) good false) posted 6 0 80 ∧ ends (.menuLoad 3 (tagged 4 80) (image 3 0 0 32 4) false) posted 8 0xFFFF 0 ∧
    ends (.menuLoad 3 (tagged 4 80) (image 3 0 0 64 2) false) posted 8 0 0 ∧ ends (.menuLoad 3 (tagged 4 80) (image 4 0 0 64 4) false) posted 8 0xFFFF 0 ∧
    ends (.menuLoad 3 (tagged 4 80) (image 3 1 0 64 4) false) posted 9 0 0 ∧
    ends (.menuLoad 3 (tagged 4 80) (image 3 0 0 64 4 [9, 0, 0, 0, 0x3F, 0, 0, 0]) false) posted 7 0 0 ∧
    ends (.menuLoad 3 (tagged 4 80) good false) posted 0 7 80 (fun t => (physRead 0x44 t).1 = ⟨2, false, false, 9⟩ &&
      (physRead 0x40 t).1 = MWord.unset && (physRead 0x7C t).1 = MWord.unset) ∧
    (menuHeader (image 2 0 1 64 8)).format = 2 ∧ menuRegion (menuHeader (image 2 0 1 64 8)) = 80 ∧
    menuCheck posted (menuHeader (image 2 0 1 64 8)) (image 2 0 1 64 8) = .inr [(8, 72, 1)] ∧
    menuBankOk posted (menuHeader (image 2 0 1 64 8)) = true := by decide +kernel

theorem witness_replay_send :
    let on (src : Bool) (s : State) : State := { (s.modWick 1 fun w => { w with lcfg := Rwc.reset [(2, { LaneCfg.reset with src := src, fmt := false })] }) with
      wk := { (s.modWick 1 fun w => { w with lcfg := Rwc.reset [(2, { LaneCfg.reset with src := src, fmt := false })] }).wk with enable := true } }
    let rr (src : Bool) : State := posted (fun x => { x with ty := 1 }) (on src)
    let frame : List Byte := wideBytes header1 ++ wideBytes hit1 ++ wideBytes (crc1.setWidth 64)
    let rd (len q4 : BitVec 64) : Desc := desc 0x10 len 0 q4
    let sr := posted fun x => { x with ty := 4 }
    let hdr : List Byte := [1, 0, 0, 0, 0x20, 0, 0, 0]
    let fixw : List Byte := [5, 0, 0, 0, 2, 0, 0, 0]
    let sd (len : BitVec 64) (q0 : BitVec 64 := 0x10020) : Desc := desc q0 len 0 0x00070001
    ends (.replay 3 (rd 24 0x21) frame false) posted 2 0 0 ∧ ends (.replay 3 (rd 24 0x26) frame false) (rr true) 2 0 0 ∧
    ends (.replay 3 (rd 0 0x21) frame false) (rr true) 1 0 0 ∧ ends (.replay 3 (rd 20 0x21) frame false) (rr true) 3 0 0 ∧
    ends (.replay 3 (rd 24 0x21) frame false) (rr false) 5 0 0 ∧
    ends (.replay 3 (rd 24 0x21) frame false) (rr true) 0 0 24 (fun t => t.counter (Cnt.wkFrames 1 2) = 1 && t.counter (Cnt.wkHits 1 2) = 1) ∧
    ends (.replay 3 (rd 32 0x21) frame false) (rr true) 6 0 24 ∧
    ends (.send 3 (sd 16) (hdr ++ fixw) false) posted 2 0 0 ∧ ends (.send 3 (sd 0) [] false) sr 1 0 0 ∧
    ends (.send 3 (sd 16 0x20) (hdr ++ fixw) false) sr 3 0 0 ∧ ends (.send 3 (sd 520) (hdr ++ fixw) false) sr 3 0 0 ∧
    ends (.send 3 (sd 16) hdr false) sr 6 0 8 ∧ ends (.send 3 (sd 16) (fixw ++ fixw) false) sr 7 0 0 ∧
    ends (.send 3 (sd 8) hdr false) sr 3 0 0 ∧ ends (.send 3 (sd 16) (hdr ++ [5, 0, 0, 0, 0x3F, 0, 0, 0]) false) sr 7 1 0 ∧
    answersWith (.send 3 (sd 16) (hdr ++ fixw) false) sr (fun t => (t.ring 3).cons = 0 &&
      (t.ring 3).going = some ⟨false, 0, 0, 16, [], true, []⟩ && t.hi.sendq.map Prod.fst = [3] && t.bl.pkts = [] &&
      answersWith (.msgSendTake none) t fun u => (u.ring 3).cons = 1 && u.counter Cnt.blMsgTx = 1 &&
        u.bl.pkts.map (fun p => (p.dest, p.op, p.body.length)) = [(7, 0x40, 2)]) ∧
    (let full := posted (fun x => { x with ty := 4 }) fun s => { s with hi := { s.hi with sendq := List.replicate 8 (9, ⟨7, 1, none, 0, [], none, 0⟩) } }
     answersWith (.send 3 (sd 16) (hdr ++ fixw) false) full (fun t => (t.ring 3).cons = 0 && (t.ring 3).going = none && t.hi.sendq.length = 8)) := by decide +kernel

/-- A record of a severity and SOURCE, at a time. -/
def rec1 (sev : BitVec 2) (src : BitVec 8) (time : BitVec 64 := 0) : Rec := ⟨sev, src, 0x40, time, 0, 0, 2, 0, 9⟩

def recorded (recs : List Rec) (f : ErSt → ErSt := id) (g : PwSt → PwSt := id) : State :=
  { State.reset with recs := recs, er := f State.reset.er, pw := g State.reset.pw }

def erRec (seq : Nat) (r : Rec) (opened flushed : Bool) : ErRec := ⟨seq, r, 0, 1, opened, flushed, false⟩

theorem witness_records_taken :
    let e := erRec 4 (rec1 0 0x10) true true
    answers .recordHandover (recorded []) (recorded []) ∧
    answersWith .recordHandover (recorded [rec1 1 0x30, rec1 2 0x20]) (fun t => t.recs = [rec1 1 0x30] && !t.er.flushing &&
      t.er.buf = [erRec 1 (rec1 2 0x20) true false] && seqNext t = 2 && t.er.mram.hdr.map SeqHeader.valid = some false) ∧
    answersWith .recordHandover (recorded [rec1 1 0x20, rec1 2 0x30]) (fun t => t.recs = [rec1 2 0x30] && !t.er.flushing) ∧
    answersWith .recordHandover (recorded [rec1 1 0x20] id fun p => { p with stage := .standby }) (fun t => t.recs = [] && t.er = State.reset.er) ∧
    answersWith .recordHandover (recorded [{ rec1 1 0x10 with a4 := 7 }] fun r => { r with buf := [e] }) (fun t =>
      t.counter Cnt.erCoalesce = 1 && t.er.buf.map (fun x => (x.count, x.r.a4, x.flushed)) = [(2, 7, false)]) ∧
    answersWith .recordHandover (recorded [rec1 1 0x10] fun r => { r with buf := [{ e with count := 0xFFFF }] }) (fun t =>
      t.er.buf.map ErRec.count = [0xFFFF]) ∧
    answersWith .recordHandover (recorded [rec1 3 0x10] fun r => { r with buf := [e], next := some 9, mram := ⟨some ⟨4105, 0, true⟩, []⟩ }) (fun t =>
      t.er.buf.map ErRec.seq = [4, 9] && t.er.buf.map ErRec.opened = [false, false] && t.er.flushing && t.er.mram.hdr.map SeqHeader.mark = some 12297) ∧
    answers (.recordClose 3) (recorded [] fun r => { r with buf := [e] }) (recorded [] fun r => { r with buf := [e] }) ∧
    answersWith (.recordClose 4) (recorded [rec1 0 0x10 9] fun r => { r with buf := [e] }) (fun t => t.recs = [] && t.er.next = none &&
      t.er.buf.map (fun x => (x.count, x.opened)) = [(2, false)]) ∧
    answersWith (.recordClose 4) (recorded [] fun r => { r with buf := [{ e with r := rec1 2 0x10 }, erRec 5 (rec1 0 0x20) true true] }) (fun t =>
      t.er.flushing && t.er.buf.map (fun x => (x.opened, x.flushed)) = [(false, false), (false, false)]) ∧
    answersWith (.recordClose 4) (recorded [] fun r => { r with buf := [e] }) (fun t => t.er.buf = [erRec 4 (rec1 0 0x10) false false]) := by
  decide +kernel

/-- A full buffer: a closed record that a new one replaces, and one whose records are all of higher severity. -/
theorem witness_full_buffer :
    let v := erRec 4 (rec1 1 0x10) false true
    let s := recorded [rec1 1 0x20] fun r => { r with buf := v :: List.replicate 8191 (erRec 5 (rec1 2 0x10) false true) }
    (8192 ≤ s.er.buf.length ∧ s.er.buf = [] ++ v :: List.replicate 8191 (erRec 5 (rec1 2 0x10) false true) ∧
      ∀ f ∈ List.replicate 8191 (erRec 5 (rec1 2 0x10) false true), ¬ Sooner f v) ∧
    (∀ f ∈ List.replicate 8192 (erRec 5 (rec1 2 0x10) false true), f.opened = true ∨ (rec1 1 0x20).sev.toNat < f.r.sev.toNat) := by
  refine ⟨⟨?_, rfl, ?_⟩, ?_⟩
  · simp only [recorded, List.length_cons, List.length_replicate]; decide
  · intro f hf; rw [List.eq_of_mem_replicate hf]; first | decide | (unfold Sooner; decide)
  · intro f hf; rw [List.eq_of_mem_replicate hf]; decide

theorem witness_flushes :
    let e := erRec 4 (rec1 0 0x10) false false
    let f := erRec 5 (rec1 0 0x10) true true
    let m : MramSt := ⟨some ⟨8193, 0, false⟩, []⟩
    let b (l : List ErRec) (on : Bool) (g : PwSt → PwSt := id) : State :=
      recorded [] (fun r => { r with buf := l, flushing := on, next := some 6, mram := m }) g
    answers .flushAgeExpiry (b [f] false) (b [f] false) ∧
    answersWith .flushAgeExpiry (b [e, f] false) (fun t => t.er.flushing && t.er.buf.map (fun x => (x.opened, x.flushed)) = [(false, false), (false, false)]) ∧
    answersWith .flushAgeExpiry (b [e] false) (fun t => t = { b [e] false with er := { (b [e] false).er with flushing := true } }) ∧ answers .recorderFlushDone (b [e] false) (b [e] false) ∧
    answersWith .recorderFlushDone (b [e, f] true) (fun t => !t.er.flushing && t.counter Cnt.erFlush = 1 && t.er.written = 4 &&
      Tab.get none t.er.mram.slots 4 = some e && Tab.get none t.er.mram.slots 5 = none && t.er.buf.map ErRec.flushed = [true, true]) ∧
    answersWith .recorderFlushDone (b [e] true fun p => { p with stage := .shed, warned := true, issued := 3 }) (fun t =>
      t.pw.stage = .standby && t.er.mram.hdr = some ⟨8193, 6, true⟩ && seqNext t = 7 &&
      (Tab.get none t.er.mram.slots 6).map (fun x => (x.r.reason, x.r.sev, x.r.a0)) = some (4, 3, 3)) := by decide +kernel

theorem witness_record_reads :
    let e := erRec 4 (rec1 0 0x10) false false
    let b (n : BitVec 48) (l : List ErRec) (m : List (Nat × Option ErRec)) : State := recorded [] fun r =>
      { r with buf := l, next := some 5, rdSel := n, rdStat := 3, rdData := [77], mram := ⟨none, m⟩ }
    answersWith .erFetch (b 5 [e] []) (fun t => t.er.rdStat = 2 && t.er.rdData = [77]) ∧
    answersWith .erFetch (b 4 [e] []) (fun t => t.er.rdStat = 0 && t.er.rdData.length = 16 && t.er.rdData.take 6 =
      [4, 0x11000000, 0, 0, 0x10040, 0] && t.er.rdData.getD 14 0 = 9) ∧
    answersWith .erFetch (b 4 [] [(4, some e)]) (fun t => t.er.rdStat = 0 && t.er.rdData.getD 0 0 = 4) ∧
    answersWith .erFetch (b 4 [] []) (fun t => t.er.rdStat = 1 && t.er.rdData = [77]) ∧
    answersWith (.erWideLowRead 2 (.fn 3)) { b 0x700000009 [] [] with mg := { State.reset.mg with ready := true } } (fun t =>
      t.out = [.readValue 0] && t.er.latch = []) ∧
    answersWith (.erWideLowRead 2 (.fn 0)) { b 0x700000009 [] [] with mg := { State.reset.mg with ready := true } } (fun t =>
      t.out = [.readValue 9] && Tab.get 0 t.er.latch 2 = 7) ∧
    answersWith (.erWideLowRead 2 (.fn 0)) (b 0x700000009 [] []) (fun t => t.out = [.readValue 0] && t.er.latch = []) ∧
    answersWith (.erWideLowRead 0 .mgmt) (b 0 [] []) (fun t => t.out = [.readValue 5]) ∧
    answersWith (.erWideLowRead 1 (.core 3)) (b 0 [] []) (fun t => t.out = [.readValue 0] && t.er.latch = []) := by decide +kernel

/-! ### The management plane and the tag sequencer (17, 11) -/

/-- The mailbox holds a command and its arguments, in a life-cycle state. -/
def mbox (code : BitVec 8) (args : List Word) (lc : LcState) (f : MgSt → MgSt := id) : State :=
  let s := wiped State.reset
  let a : Tab Word := (List.range args.length).map fun i => (i, args.getD i 0)
  { s with mg := f { s.mg with go := true, code := code, cmd := code, ready := true, args := a, stored := { s.mg.stored with lc := lc } } }

/-- The command completes with a status. -/
def mbEnds (i : Instr) (s : State) (status : BitVec 8) (p : State → Bool := fun _ => true) : Bool :=
  answersWith i s fun t => t.mg.status = status && !t.mg.go && p t

def svec (s : State) (table : Tab (BitVec 128)) : State := { s with hi := { s.hi with svecEn := 8, svec := 0x09000000, msix := table } }

theorem witness_mailbox :
    let res (t : State) (k : Nat) : Word := Tab.get 0 t.mg.res k
    let m (args : List Word) (lc : LcState := .operational) : State := mbox 0x01 args lc
    let idle : State := { m [1] with mg := { (m [1]).mg with go := false } }
    let reset : State := mbox 0x08 [0x52545354] .service
    answers .mbTelem idle idle ∧ answers .mbReset (m [1]) (m [1]) ∧ answers .lceil { m [1] with pw := { (m [1]).pw with stage := .shed } } { m [1] with pw := { (m [1]).pw with stage := .shed } } ∧
    mbEnds .mbTelem (m [1] .retired) 2 (fun t => t.mg.stored = (m [1] .retired).mg.stored && t.recs = []) ∧
    mbEnds .ucCommit (mbox 0x21 [] .retired) 2 (fun t => t.cores = []) ∧
    (mbDone 5 3 (svec (m []) [(9, 0)])).out = [.msix 0 9] ∧ (mbDone 5 3 (svec (m []) [])).hi.pba = [9] ∧ (mbDone 5 3 (m [])).out = [] ∧
    mbEnds .mbTelem (m [50]) 12 ∧
    mbEnds .mbTelem { m [49] with mg := { (m [49]).mg with sensors := [(49, 0xFFF0)], sampled := 0x7_00000009 } } 0 (fun t =>
      res t 0 = 0xFFF0 && res t 1 = 9 && res t 2 = 7) ∧
    mbEnds .mbDebugReq (mbox 0x40 [0x3FF] .operational) 2 ∧
    mbEnds .mbDebugReq (mbox 0x40 [0x400] .service) 12 ∧
    mbEnds .mbDebugReq (mbox 0x40 [0x3FF] .service) 0 (fun t => (t.ctx 0x3FF).dbg && !(t.ctx 0).dbg) ∧
    mbEnds .lceil (mbox 0x41 [1, 7] .operational) 12 ∧ mbEnds .lceil (mbox 0x41 [1, 17] .operational) 12 ∧
    mbEnds .lceil (mbox 0x41 [0x80000001, 8] .operational) 0 (fun t => Tab.get 16 t.mg.ceil 0 = 8 && Tab.get 16 t.mg.ceil 1 = 16 &&
      Tab.get 16 t.mg.ceil 31 = 8) ∧
    (mbox 0x10 [] .operational).mg.go = true ∧
    answersWith .mbReset reset (fun t => !t.mg.ready && t.mg.stored.lc = .service && t.time = 0 && t.cores = []) ∧
    mbEnds .mbReset (mbox 0x08 [0x52545355] .service) 12 := by decide +kernel

theorem witness_life_cycle :
    let k (id : BitVec 16) (revoked : Bool := false) : KeySlot := ⟨id, [], revoked⟩
    let with_ (keys : List KeySlot) (s : State) : State := { s with mg := { s.mg with stored := { s.mg.stored with keys := keys } } }
    let lcRec (target : BitVec 64) (status : BitVec 64) (t : State) : Bool :=
      t.recs.map (fun r => (r.sev, r.src, r.reason, r.a0, r.a1)) = [(2, 0x90, 6, target, status)] && !t.mg.nonceTold
    mbEnds .lcSet (mbox 0x11 [0] .provisioned fun m => { m with nonceTold := true }) 2 (lcRec 0 2) ∧
    mbEnds .lcSet (mbox 0x11 [3] .provisioned) 2 (lcRec 3 2) ∧ mbEnds .lcSet (mbox 0x11 [2] .blank) 2 (lcRec 2 2) ∧
    mbEnds .lcSet (mbox 0x11 [2] .provisioned) 7 (lcRec 2 7) ∧
    mbEnds .lcSet (with_ [k 5 true] (mbox 0x11 [4] .operational fun m => { m with nonceTold := true })) 7 (lcRec 4 7) ∧
    mbEnds .keyEnroll (mbox 0x12 [1] .operational) 2 ∧ mbEnds .keyEnroll (mbox 0x12 [0] .provisioned) 12 ∧
    mbEnds .keyEnroll (mbox 0x12 [0x8000] .provisioned) 12 ∧ mbEnds .keyEnroll (with_ [k 5 true] (mbox 0x12 [5] .provisioned)) 12 ∧
    mbEnds .keyEnroll (with_ ((List.range 8).map fun i => k (BitVec.ofNat 16 i + 1)) (mbox 0x12 [9] .provisioned)) 13 ∧
    mbEnds .keyEnroll (with_ [k 5] (mbox 0x12 [0x7FFF] .provisioned)) 0 (fun t => t.mg.stored.keys.map KeySlot.id = [5, 0x7FFF] &&
      t.mg.stored.keys.map (fun k => k.key.length) = [0, 96] && Tab.get 0 t.mg.res 0 = 1) ∧
    answersWith .keyEnroll (mbox 0x12 [1] .blank) (fun t => t.mg.stored.lc = .provisioned && t.mg.stored.keys.length = 1 && !t.mg.ready) ∧
    mbEnds .keyRevoke (with_ [k 5, k 6] (mbox 0x13 [5] .operational)) 2 ∧ mbEnds .keyRevoke (with_ [k 5 true, k 6] (mbox 0x13 [5] .provisioned)) 12 ∧
    mbEnds .keyRevoke (with_ [k 5, k 6 true] (mbox 0x13 [5] .provisioned)) 2 ∧
    mbEnds .keyRevoke (with_ [k 5, k 6] (mbox 0x13 [5] .provisioned)) 0 (fun t => t.mg.stored.keys = [k 5 true, k 6] && Tab.get 0 t.mg.res 0 = 0) := by
  decide +kernel

/-- A number of n bytes, the most significant first. -/
def beBytes (n v : Nat) : List Byte := (List.range n).map fun i => BitVec.ofNat 8 (v >>> (8 * (n - 1 - i)))

/-- A P-384 public key, and signatures made with openssl and its private key: of "abc", of the target OPERATIONAL with the serial
number 0 to 15 and the nonce 1 to 8, and of the bytes of bank1 before its signature. -/
def key1 : List Byte := beBytes 96
  0xB3F1F88223AFB6256D80351241EC72CF5A7CA950982CBAB1A86585164540FA552E648CC1D3FC2289AB24FD79902F7DC7D06A9834B88B73B086EA1E8FA9634B9790EE7818A66AEFD03501137A32B7CC164D39D3BF344839F5D2F713201B9834F6
def sigAbc : List Byte := beBytes 96
  0x4D4DD961050930349A45A6EC8227BB3B9D1A7F8E780B1508B65712F848C5468A3F3BF2EB4B5446029A13EDE2778005A356923B104C118D334E71D7BB25ADDA5609A1EF03833CFAAD75E2F235E4FD2D73B682E1F837CE88C2214C3F7FC5A7EDEE
def sigLc : List Byte := beBytes 96
  0x08EACF95B9F24D5D7357790B26C4D4E1059D4CD09247FAB344F860EEAC7053FF7C40D75B5BF1EA50F37C35CE4FDB3AB2AAA86CEF1E61DA00913033A122F413B69DAA65E5F00777C7CC803284558E0602CF61578E277131F4ACE5778CCAE366E7
def sigBank : List Byte := beBytes 96
  0x45B6C92D8B5AA65D8378C08EEE70361554AF5C650AC8A6328468F1BBD28AE79A492155F6D3394F24AF94DB4BD9C7C2B3E776CC203B990153D84453C346FBF7475E8A8426305D5563A718BDF86124A5024E5B0D626A6FF2BB9B171BC9A17F7C0C

set_option maxRecDepth 20000 in
theorem test_signature : ecdsaVerify key1 [0x61, 0x62, 0x63] sigAbc = true := by
  decide +kernel

/-- LC_SET to OPERATIONAL waits in PROVISIONED with key 1 and a nonce, its signature in memory. -/
def lcSetting : State :=
  setHbmWords 0x1000 ((List.range 24).map fun k => rawM (wordAt (numbers sigLc) (4 * k)))
    (mbox 0x11 [2, 0x1000, 0] .provisioned fun m => { m with
      nonceTold := true, stored := { m.stored with lc := .provisioned, keys := [⟨1, key1, false⟩] } })

def hasKey1 (s : State) : Bool := s.mg.stored.keys = [⟨1, key1, false⟩] && s.mg.nonceTold && s.miss = none

/-- The module's serial number and its nonce are free: where they are 0 to 15 and 1 to 8 the signature verifies. -/
theorem witness_lc_set :
    (mbox 0x11 [2, 0x1000, 0] .provisioned).mg.go = true ∧ lcOf 2 = some .operational ∧ lcStep .provisioned .operational = true ∧
    hasKey1 lcSetting ∧ lcSetting.mg.stored.lc = .provisioned ∧ numbers (physBytes 0x1000 96 lcSetting).1 = sigLc ∧
    (physBytes 0x1000 96 lcSetting).2.miss = none := by decide +kernel

set_option maxRecDepth 20000 in
theorem witness_lc_signature (hn : nonceWords lcSetting.mg.nonce = (List.range 8).map fun i => BitVec.ofNat 32 (i + 1)) (h : Config.serial = (List.range 16).map (BitVec.ofNat 8)) :
    ecdsaVerify key1 (((2 : Word).setWidth 8 :: List.replicate 15 0) ++ Config.serial ++
      (nonceWords lcSetting.mg.nonce).flatMap wordBytes) (numbers (numbers sigLc)) = true := by
  rw [h, hn]; decide +kernel

/-- A bank image of one word, KEYID 5, VERSION 7, whose word is ENDI and whose dispatch entry 0 is word 0 (Table 11-12). -/
def bank1 : List Byte :=
  [0x55, 0x43, 0x49, 0x4D, 2, 1, 7, 0, 5, 0, 0, 0, 1, 0, 0, 0, 0x12, 2, 0, 0] ++ List.replicate 44 0 ++ [0, 4] ++ List.replicate 510 0 ++
    (wordBytes 0x600000 ++ wordBytes 0 ++ wordBytes 0 ++ wordBytes 0 ++ [0, 0]) ++ sigBank

def withKey5 (s : State) : State := { s with mg := { s.mg with stored := { s.mg.stored with keys := [⟨5, key1, false⟩] } } }

theorem witness_images :
    bank1.length = 690 ∧ imgSizeOk bank1 690 = true ∧ imgHeaderOk bank1 = true ∧ imgKind bank1 = 2 ∧ imgRomid bank1 = 0 ∧ imgKeyid bank1 = 5 ∧ badBody bank1 = none ∧
    imgVersion bank1 = 7 ∧ imgKey (withKey5 State.reset) bank1 = some key1 ∧ floorOf (withKey5 State.reset) 2 5 = 0 ∧
    imgCheck State.reset bank1 689 = some (3, 0) ∧ imgCheck State.reset (bank1.set 5 2) 690 = some (4, 0) ∧ imgCheck State.reset bank1 690 = some (6, 0) := by
  decide +kernel

set_option maxRecDepth 20000 in
theorem witness_image_passes : imgCheck (withKey5 State.reset) bank1 690 = none ∧
    imgCheck { withKey5 State.reset with mg := { (withKey5 State.reset).mg with stored := { (withKey5 State.reset).mg.stored with keys := [⟨5, [], false⟩] } } } bank1 690 = some (7, 0) := by decide +kernel

theorem witness_microcode :
    let ucRec (code : BitVec 64) (status : BitVec 64) (t : State) : Bool :=
      t.recs.map (fun r => (r.sev, r.reason, r.a0, r.a1)) = [(2, 7, code, status)]
    let at_ (n : Nat) (l : List Byte) (s : State) : State := setHbmWords n ((List.range ((l.length + 3) / 4)).map fun k => rawM (wordAt l (4 * k))) s
    let load (l : List Byte) (len : Word) (lc : LcState) : State := at_ 0x1000 l (mbox 0x20 [0x1000, 0, len, 0] lc)
    let bank (f : Uc → Uc) (s : State) : State := s.modCore 0 fun k => { k with uc := f k.uc }
    let fl (v : BitVec 16) (args : List Word) (lc : LcState := .operational) : State := bank (fun u => { u with live := ⟨[], [], v, 5, true⟩ }) (mbox 0x22 args lc)
    ucAccepted (mbox 0x20 [] .provisioned) 2 = false ∧ ucAccepted (mbox 0x20 [] .operational) 1 = false ∧ ucAccepted (mbox 0x20 [] .service) 1 = true ∧
    mbEnds .ucLoad (load [0x55, 0x43, 0x49, 0x4D, 2, 1] 6 .provisioned) 2 (ucRec 0x20 2) ∧
    mbEnds .ucLoad (load [0x55, 0x43, 0x49, 0x4D, 2, 1] 6 .operational) 3 (ucRec 0x20 3) ∧
    mbEnds .ucCommit (mbox 0x21 [] .provisioned) 2 (ucRec 0x21 2) ∧ mbEnds .ucCommit (mbox 0x21 [] .operational) 10 (ucRec 0x21 10) ∧
    answersWith .ucCommit (bank (fun u => { u with shadowLoaded := true }) (mbox 0x21 [] .service)) (fun t => t.mg.go && t.mg.ucWait &&
      (t.core 0).uc.commit && !(t.core 0).uc.shadowLoaded && (t.core 255).uc.commit) ∧
    mbEnds .ucFloor (fl 9 [2, 5, 9] .provisioned) 2 (ucRec 0x22 2) ∧ mbEnds .ucFloor (fl 9 [4, 5, 9]) 12 (ucRec 0x22 12) ∧
    mbEnds .ucFloor (fl 9 [2, 5, 9]) 6 (ucRec 0x22 6) ∧
    mbEnds .ucFloor (withKey5 (fl 9 [2, 5, 10])) 8 (ucRec 0x22 8) ∧ mbEnds .ucFloor (withKey5 (fl 9 [2, 5, 9])) 0 (fun t => t.mg.stored.floors = [(0x20005, 9)]) ∧
    mbEnds .ucFloor (fl 9 [2, 6, 0]) 6 ∧ mbEnds .ucFloor (fl 9 [3, 5, 0]) 6 ∧ mbEnds .ucFloor (fl 9 [3, 0, 0]) 0 ∧
    (let c := bank (fun u => { u with commit := true, shadow := ⟨[], [], 7, 5, true⟩ }) (mbox 0x21 [] .operational fun m => { m with ucWait := true })
     answers (.ucCoreCommit 1) c c ∧
     answersWith (.ucCoreCommit 0) c (fun t => (t.core 0).uc.live.version = 7 && t.mg.status = 0 && !t.mg.go) ∧
     answersWith (.ucCoreCommit 0) (c.modCore 2 fun k => { k with uc := { k.uc with commit := true } }) (fun t => (t.core 0).uc.live.version = 7 && t.mg.go)) := by
  decide +kernel

theorem witness_firmware_and_millisecond :
    let act : State := mbox 0x31 [] .operational fun m => { m with staged := true }
    let m (f : MgSt → MgSt := id) : State := mbox 0 [] .operational f
    let hot (n : Nat) (v : BitVec 16) : List (BitVec 16) := List.replicate n 0 ++ [v]
    (let c := (Sys2Proof.Machine.bumpBy 0x700050 5 (m fun g => g))
     ((c.cnt.map Prod.fst).Nodup ∧ countedSince c 0x700050 = 5 ∧
       countedSince (Sys2Proof.Machine.bumpBy 0x700050 7 (clearCounters 0x700040 0x700060 c)) 0x700050 = 12)) ∧
    mbEnds .fwStage (mbox 0x30 [0x1000, 0, 0x1000001] .operational) 3 ∧
    mbEnds .fwStage (mbox 0x30 [0x1000, 0, 4] .operational) 3 (fun t => t.mg.stored.images = [(1, some [0, 0, 0, 0])] && !t.mg.staged && Tab.get 0 t.mg.res 0 = 1) ∧
    mbEnds .fwActivate (mbox 0x31 [] .operational) 10 ∧
    mbEnds .fwActivate act 0 (fun t => t.mg.stored.slotB && t.mg.stored.attemptB && !t.mg.stored.attemptA && t.mg.stored.fresh = some true && !t.mg.bootB && Tab.get 0 t.mg.res 0 = 1) ∧
    answersWith (.mgMsTick (hot 0 900) true) m (fun t => t.mg.sensors = [] && t.counter Cnt.mgLate = 1) ∧
    answersWith (.mgMsTick [761, 737, 736, 760] false) (m fun g => { g with freq := [(1, 9), (2, 15), (3, 9)] }) (fun t => t.pw.stage = .run &&
      (List.range 4).map (Tab.get 16 t.mg.freq) = [15, 9, 16, 9] && Tab.get 0 t.mg.sensors 2 = 736) ∧
    answersWith (.mgMsTick [761] false) (m fun g => { g with freq := [(0, 8)], ceil := [(1, 9)] }) (fun t =>
      (List.range 2).map (Tab.get 16 t.mg.freq) = [8, 9]) ∧
    answersWith (.mgMsTick (hot 35 799) false) m (fun t => t.pw.stage = .run) ∧
    answersWith (.mgMsTick (hot 31 840) false) m (fun t => t.pw.stage = .run && t.mg.hot = [31]) ∧
    answersWith (.mgMsTick (hot 36 840) false) (m fun g => { g with hot := [36] }) (fun t => t.pw.stage = .shed && t.pw.trip && t.pf &&
      t.counter Cnt.mgTrip = 1 && t.recs.any (fun r => r.reason = 5 && r.a0 = 36)) ∧
    answersWith (.mgMsTick (hot 32 800) false) m (fun t => t.pw.stage = .shed && t.counter Cnt.mgTrip = 1) := by decide +kernel

/-! ### Allocation, table mode, customer code -/

/-- The running task's lantern has a cursor of its candle at 0x20000. -/
def alloc (a b : TWord) (f : Ctx → Ctx := id) : State :=
  (tasked [(8, a), (9, b)] f).modLan 0 fun l => { l with cursors := [⟨3, 0x20004, 0x21000⟩] }

/-- An allocation runs, its result is a pointer and its object's first words are these. -/
def allocs (i : Instr) (s : State) (p : TWord) (ws : List TWord) (align : Nat) : Bool :=
  issues s long0 .nativeZekief [10, 8, 9] 4 && okIs (allocObject 0 align ws (found s long0)) (fun va t => va = p.val &&
    answers i s (goesOnFrom s long0 4 t fun x => x.setReg 10 p) &&
    (List.range ws.length).all fun k => okIs (loadWord 0 (va + BitVec.ofNat 32 (4 * k)) t) fun w _ => w.t = ws.getD k TWord.unset)

theorem witness_allocations :
    allocs (.cons long0 10 8 9) (alloc (fix 1) TWord.nil) ⟨Ty.cons, 0x20008⟩ [fix 1, TWord.nil] 8 ∧
    okIs (valueCandle 0 0 (fix 1) (found (alloc (fix 1) TWord.nil) long0)) (fun p t => p = none && t = found (alloc (fix 1) TWord.nil) long0) ∧
    allocs (.allocv long0 10 8 9) (alloc (fix 2) (fix 0x0B)) ⟨Ty.vec, 0x20004⟩ [⟨Ty.hdr, 0x0B000002⟩, TWord.unset, TWord.unset] 4 ∧
    allocs (.allocr long0 10 8 9) (alloc (fix 0) (fix 0xFF)) ⟨Ty.rec_, 0x20004⟩ [⟨Ty.hdr, 0xFF000000⟩] 4 ∧
    allocs (.allocs long0 10 8 9) (alloc (fix 1) (fix 3)) ⟨Ty.str, 0x20004⟩ [⟨Ty.hdr, 0x03000001⟩, TWord.unset] 4 ∧
    allocs (.allocs long0 10 8 9) (alloc (fix 0) (fix 0)) ⟨Ty.str, 0x20004⟩ [⟨Ty.hdr, 0⟩] 4 := by decide +kernel

theorem witness_tags :
    let s (a b : TWord) (f : Ctx → Ctx := id) : State := core0 [(8, a), (9, b)] f
    let tag (a b : TWord) (f : Ctx → Ctx) (r : TWord) : Bool := retagOk (context (s a b f) long0).cstat.priv a.ty (b.val.setWidth 6) &&
      answers (.retag long0 10 8 9) (s a b f) (goesOn (s a b f) long0 4 fun x => x.setReg 10 r)
    answers (.tagof long0 10 8) (s (TWord.poison 4) TWord.unset) (goesOn (s (TWord.poison 4) TWord.unset) long0 4 fun x => x.setReg 10 (fix 0x3E)) ∧
    tag (fix 7) (fix 7) id (TWord.raw 7) ∧ tag (TWord.raw 7) (fix 0x11) monitor ⟨Ty.vec, 7⟩ := by decide +kernel

/-- The control store of core 0. -/
def store (u : Uc) : State := State.reset.modCore 0 fun k => { k with uc := u }

theorem witness_table_mode :
    let t := Uc.reset
    let sv : Uc := { t with mode := .service }
    let uc (s : State) : Uc := (s.core 0).uc
    let same (i : Instr) (u : Uc) : Bool := answers i (store u) (store u)
    (let shed : State := { store t with pw := { State.reset.pw with stage := .shed } }
     answers (.ucRomCheck 0 false) shed shed ∧ answers (.ucRamTest 0 false) shed shed ∧ answers (.ucBankSwap 0) shed shed) ∧
    same (.ucRomCheck 0 false) sv ∧ same (.ucRamTest 0 true) sv ∧ same (.ucWordWrite 0 (.word 0x1000 1)) sv ∧ same (.ucWordRead 0 0) sv ∧
    same (.ucBankSwap 0) sv ∧ same (.cstoreRewrite 0) sv ∧ same (.cstoreRewrite 0) t ∧ same (.ucRomCheck 0 true) t ∧
    answersWith (.ucRomCheck 0 false) (store t) (fun s => (uc s).mode = .failed && s.recs.map (fun r => (r.src, r.reason, r.a1)) = [(0xC0, 0x22, 1)]) ∧
    answersWith (.ucRamTest 0 true) (store { t with patch := [(0, some 1)], live := ⟨[(0, some 2)], [], 1, 1, true⟩ }) (fun s => uc s = t) ∧
    answersWith (.ucRamTest 0 false) (store t) (fun s => (uc s).mode = .failed && s.recs.map Rec.a1 = [2]) ∧
    same (.ucWordWrite 0 (.word 0xFFF 1)) t ∧ same (.ucWordWrite 0 (.word 0x1C00 1)) t ∧
    answersWith (.ucWordWrite 0 (.word 0x1000 5)) (store t) (fun s => (uc s).patch = [(0, some 5)]) ∧
    answersWith (.ucWordWrite 0 (.word 0x17FF 5)) (store t) (fun s => (uc s).patch = [(0x7FF, some 5)]) ∧
    answersWith (.ucWordWrite 0 (.word 0x1800 5)) (store t) (fun s => (uc s).live.words = [(0, some 5)]) ∧
    answersWith (.ucWordWrite 0 (.word 0x1BFF 5)) (store t) (fun s => (uc s).live.words = [(0x3FF, some 5)]) ∧
    answersWith (.ucWordWrite 0 (.hook 63 5)) (store t) (fun s => (uc s).hooks = [(63, some 5)]) ∧
    answersWith (.ucWordRead 0 0x17FF) (store { t with patch := [(0x7FF, some 5)] }) (fun s => s.out = [.ucWord 0 0x17FF (some 5)]) ∧
    answersWith (.ucWordRead 0 0x1800) (store { t with live := ⟨[(0, some 5)], [], 1, 1, true⟩ }) (fun s => s.out = [.ucWord 0 0x1800 (some 5)]) ∧
    answersWith (.ucWordRead 0 0x1C00) (store t) (fun s => s.out = [.ucWord 0 0x1C00 none]) ∧
    answersWith (.ucBankSwap 0) (store { t with live := ⟨[], [], 1, 1, true⟩ }) (fun s => (uc s).shadow.version = 1 && (uc s).live.version = 0) ∧
    answersWith (.cstoreRewrite 0) (store { t with rewrite := some 0x1000 }) (fun s => uc s = sv) := by decide +kernel

theorem witness_customer_instructions :
    let word (aop : BitVec 6) : BitVec 144 := (0 : BitVec 99) ++ (0x10 : BitVec 5) ++ aop ++ (0x11 : BitVec 5) ++ (0x10 : BitVec 5) ++ (3 : BitVec 3) ++ (0 : BitVec 21)
    let bank (e : BitVec 16) (aop : BitVec 6) (s : State) : State := s.modCore 0 fun k =>
      { k with uc := { k.uc with mode := .service, live := ⟨[(1, some (word aop))], [(33, some e)], 1, 1, true⟩ } }
    let s (e : BitVec 16) (aop : BitVec 6) (f : Ctx → Ctx := id) : State := bank e aop (core0 [(8, fix 5), (9, fix 7)] f)
    let i : Instr := .customerInstruction long0 1 1 10 8 9 none none
    let ok (e : BitVec 16) (aop : BitVec 6) (f : Ctx → Ctx) (r : TWord) : Bool := issues (s e aop f) long0 .nativeOnly [10, 8, 9] 4 &&
      answersWith i (s e aop f) fun t => (t.ctx 0).pc = 4 && (t.ctx 0).reg 10 = r
    let traps (e : BitVec 16) (cause : BitVec 8) : Bool := answersWith i (s e 1) fun t => ((t.ctx 0).raised.map fun r => r.trap.cause) = some cause
    ((Mword.seq (word 1), Mword.aop (word 1), Mword.adst (word 1), Mword.mem (word 1), Mword.tsrc (word 1)) = (3, 1, 0x10, 0, 0)) ∧
    ok 0x401 1 id (fix 12) ∧ ok 0x401 0x12 id ⟨Ty.bool, 1⟩ ∧ ok 0x401 0 id (fix 5) ∧ ok 0xC01 2 monitor (fix (-2)) ∧
    traps 0x001 Cause.custUndef ∧ traps 0xC01 Cause.privOp := by decide +kernel

/-! ### The board, register writes and the machine as a whole -/

/-- The module in a stage and a life-cycle state. -/
def board (stage : PwStage) (lc : LcState := .operational) (f : MgSt → MgSt := id) : State :=
  let s := wiped State.reset
  { s with pw := { s.pw with stage := stage }, mg := f { s.mg with stored := { s.mg.stored with lc := lc } } }

theorem witness_board_commands :
    let outs (i : Instr) (s : State) (bytes : List Byte) : Bool := answersWith i s fun t => t.out = [.i2c bytes]
    let rom : State := board .run .operational fun m => { m with romOnly := true }
    let warm (m : MgSt) : MgSt := { m with sensors := [(3, 100), (49, 0x1234)] }
    let strap (v : BitVec 3) (s : State) : State := { s with pw := { s.pw with straps := v } }
    let asked (n : BitVec 48) : State := { board .run .operational with
      er := { State.reset.er with buf := [erRec 4 (rec1 1 0x10) false true], next := some 5 }, mg := { (board .run).mg with i2cSeq := some n } }
    let held : State := { board .run .operational with er := { State.reset.er with buf := [erRec 4 (rec1 1 0x10) false true], next := some 5 } }
    answers (.i2cStatus 0x5B 1) (board .off) (board .off) ∧ answers (.i2cSlot 0x5B 0) (board .off) (board .off) ∧
    outs (.i2cErrsum 0x5B) (board .run .retired) [0] ∧ outs (.i2cSlot 0x5B 0) (board .standby .retired) [0] ∧ outs (.i2cTelem 0x5B 3) rom [0] ∧
    outs (.i2cSlot 0x5B 1) (board .standby) [0] ∧ outs (.i2cReset 0x5B 0x5A 0xA5) (board .standby) [0] ∧
    outs (.i2cStatus 0x5B 1) (board .run .operational warm) [9, 2, 0, 0, 0, 2, 100, 0, 0x34, 0x12] ∧
    outs (.i2cStatus 0x5B 1) (board .standby .operational warm) [9, 2, 0, 0, 0, 2, 100, 0, 0x34, 0x12] ∧
    outs (.i2cTelem 0x5B 49) (board .run .operational warm) [2, 0x34, 0x12] ∧ outs (.i2cTelem 0x5B 50) (board .run .operational warm) [0] ∧
    outs (.i2cErrsum 0x5B) (bump Cnt.mgTrip (board .run)) ([28] ++ List.replicate 24 0 ++ [1, 0, 0, 0]) ∧
    outs (.i2cStatus 0x5B 2) (board .run .operational warm) [0] ∧ outs (.i2cRecord 0x5B none) held [0] ∧
    answers (.i2cStatus 0x58 1) (board .run) (board .run) ∧ answers (.i2cTelem 0x5B 3) (board .held) (board .held) ∧
    outs (.i2cStatus 0x5A 1) (board .run .operational (fun m => { warm m with sensors := [] }) |> strap 6) [9, 2, 0, 0, 0, 2, 0, 0, 0, 0] ∧
    outs (.i2cReset 0x5B 0x5A 0xA5) (board .shed) [0] ∧ outs (.i2cTelem 0x5B 49) (board .shed .retired warm) [2, 0x34, 0x12] ∧
    ((strap 3 (board .run)).pw.laneOf 1 = 14 ∧ (board .run).pw.laneOf 1 = 1) ∧
    answersWith (.i2cRecord 0x5B (some 4)) held (fun t => t = asked 4 && t.out = []) ∧
    outs (.i2cRecord 0x5B none) (asked 5) [1, 2] ∧ answersWith (.i2cRecord 0x5B none) (asked 4) (fun t => t.mg.i2cSeq = none && (fun t : State => t.out.length = 1 && match t.out with | [.i2c b] => b.take 3 = [64, 4, 0] | _ => false) t) ∧
    answersWith (.i2cSlot 0x5B 1) (board .run) (fun t => t.mg.stored.slotB && t.out = [.i2c [0]] && !t.mg.bootB) ∧
    answersWith (.i2cSlot 0x5B 0) rom (fun t => !t.mg.stored.slotB && t.out = [.i2c [0]]) := by decide +kernel

theorem witness_test_access_port :
    let s := board .run
    let bits : List Bool := (List.range 32).map fun i => (0x102569A7 : Word).getLsbD i
    answersWith (.bypass [true, false, true]) s (fun t => t.out = [.tdo [false, true, false]] && t.tap.pins = .functional && t.tap.ir = .bypass && t.tap.ir.code = 0x3F) ∧
    answersWith (.clamp [true]) s (fun t => t.out = [.tdo [false]] && t.tap.pins = .boundary) ∧
    answersWith (.highz [true]) s (fun t => t.tap.pins = .highz) ∧
    answersWith (.idcode (List.replicate 32 true)) s (fun t => t.out = [.tdo bits]) ∧ bits.take 4 = [true, true, true, false] ∧
    answersWith (.samplePreload [true] [false]) s (fun t => t.out = [.tdo [true]] && t.tap = ⟨.sample, [false], .functional⟩) ∧
    answersWith (.extest [true] [false]) s (fun t => t.tap = ⟨.extest, [false], .boundary⟩) ∧
    answersWith (.jtagPrivate 9 [true, true]) s (fun t => t.out = [.tdo [false, true]] && t.tap.ir.code = 0x29) ∧
    (board .run .service).mg.stored.lc = .service := by decide +kernel

theorem witness_module_resets :
    let s := { board .run .operational with er := { State.reset.er with buf := [erRec 4 (rec1 1 0x10) true false], next := some 5, mram := ⟨some ⟨8193, 0, false⟩, []⟩ } }
    let trip (s : State) : State := { s with pw := { s.pw with trip := true } }
    let at_ (st : PwStage) (t : State) : Bool := t.pw.stage = st && !t.mg.ready && t.er.buf = [] && t.cores = []
    let fresh := at_ .run
    let low (s : State) : State := { s with pw := { s.pw with pin := false } }
    answersWith (.resetPin false) s (fun t => at_ .held t && !t.pw.pin && t.er.mram.hdr = some ⟨8193, 5, true⟩ && t.mg.stored = s.mg.stored &&
      (Tab.get none t.er.mram.slots 4).isSome && (Tab.get none t.er.mram.slots 5).map (fun e => e.r.reason) = some 3) ∧
    (moduleReset .retired true s).er.mram = MramSt.empty ∧ (moduleReset .operational false s).er.mram = s.er.mram ∧
    (moduleReset .operational false { s with freeCtr := 9 }).mg.nonce = 9 ∧
    answersWith (.resetPin false) (trip (board .standby)) (at_ .held) ∧ answers .standbyRelease (trip (board .standby)) (trip (board .standby)) ∧
    answersWith (.resetPin false) (trip (board .shed)) (at_ .held) ∧
    answers (.resetPin false) { trip (board .shed) with pw := { (trip (board .shed)).pw with warned := true } }
      (low { trip (board .shed) with pw := { (trip (board .shed)).pw with warned := true } }) ∧
    answersWith (.resetPin true) (low (board .held)) (fun t => t.pw.stage = .run && t.pw.pin) ∧
    answersWith (.resetPin true) (low (board .standby)) (fun t => t.pw.stage = .standby && t.pw.pin) ∧
    answersWith (.i2cReset 0x5B 0x5A 0xA5) (trip (board .standby)) fresh ∧
    answers (.resetPin false) (board .standby) (low (board .standby)) ∧ answersWith .standbyRelease (board .standby) fresh ∧
    answersWith .standbyRelease (low (board .standby)) (at_ .held) ∧
    answers (.resetPin false) (board .shed) (low (board .shed)) ∧ answers .standbyRelease (board .run) (board .run) ∧
    answersWith (.i2cReset 0x5B 0x5A 0xA5) (board .run) fresh ∧ answersWith (.i2cReset 0x5B 0x5A 0xA4) (board .run) (fun t => t.out = [.i2c [0]] && t.pw.stage = .run) ∧
    answers (.inputPowerUp 3 true) (board .run) (board .run) ∧
    answersWith (.inputPowerUp 3 true) (board .off) (fun t => fresh t && t.pw.straps = 3 && t.mg.stored.lc = .operational && pwrgd t) ∧
    answersWith (.inputPowerUp 3 false) (board .off) (fun t => at_ .held t && !t.pw.pin && pwrgd t && t.tap.ir = .idcode) ∧
    answersWith .inputDropout { board .shed with recs := [rec1 1 1] } (fun t => t.pw.stage = .off && t.recs = []) ∧
    answers .inputDropout (board .run) (board .run) := by decide +kernel

/-- A firmware image of an empty body, VERSION 9, and a vendor patch of one word, VERSION 4, signed with the private key of key1. -/
def fw1 : List Byte := [0x55, 0x43, 0x49, 0x4D, 3, 1, 9, 0] ++ List.replicate 56 0 ++ beBytes 96
  0x7178B649B9B41775C67666B885F8955A0C83831F12F45D0819FACEF8DF91EB05D26F8456FD9DBD80184735F8EDC59DC5548E25D221DD7FAEAACF55257D4793E2373BCD2C7855C09A5A677DC96815C876D13B11968E53938EC73237155ADAE50A
def patch1 : List Byte := [0x55, 0x43, 0x49, 0x4D, 1, 1, 4, 0, 0, 0, 0, 0, 1, 0, 0, 0, 18] ++ List.replicate 65 0 ++ beBytes 96
  0x5C33906EF9504C2DECC6D91C79BE460C41A505522679B0055F8AA6E13297DAFDA8D519D6BC892E2145AF1ECA64FA7E854011C1505EDB8DE637E768D6E1669D8380CDCFDA1EF80256C27A04264C025AF91CE8F0917BA521E1CC0A9EF6F0C09438

theorem witness_boots :
    let boot (fail : Option (BitVec 4)) : Instr := .bootReady fail 4 16
    let empty (m : MgSt) : MgSt := { m with stored := { m.stored with images := (List.range 4).map fun i => (i, some []) } }
    let ready := board .run .operational fun m => { empty m with ready := true }
    let rom := board .run .operational fun m => { empty m with romOnly := true }
    answers (boot none) ready ready ∧ answers (boot none) (board .shed .operational empty) (board .shed .operational empty) ∧
    answers (boot (some 7)) rom rom ∧
    answersWith (boot none) (board .run .operational empty) (fun t => t.mg.romOnly && !t.mg.ready) := by decide +kernel

set_option maxRecDepth 20000 in
/-- The vendor's key is free: where it is key1, firmware slot A and patch slot B verify. -/
theorem witness_boot_images (hk : Config.vendorKey = key1) (hr : Config.romId = 0) :
    fwCheck (board .run) fw1 fw1.length = none ∧ patchOk (board .run) patch1 = true ∧ patchOk (board .run) [] = false := by
  refine ⟨?_, ?_, by decide⟩
  · unfold fwCheck; rw [hk]; decide +kernel
  · unfold patchOk imgCheck imgKey; rw [hk, hr]; decide +kernel

/-- A module whose NOR holds firmware in slot A and a vendor patch in slot B. -/
def booting : State := board .run .operational fun m => { m with stored := { m.stored with images := [(0, some fw1), (1, some []), (2, some []), (3, some patch1)] } }

set_option maxRecDepth 20000 in
/-- With the vendor's key as before a boot ends READY, from slot A, or with BOOTERR at a step that fails. -/
theorem witness_boot_step (hk : Config.vendorKey = key1) :
    answersWith (.bootReady (some 7) 4 16) booting (fun t => t.mg.booterr && !t.mg.fallback && !t.mg.bootB && !t.mg.ready &&
      t.recs.map (fun r => (r.sev, r.reason, r.a0)) = [(3, 2, 7)]) = true ∧
    answersWith (.bootReady (some 7) 4 16) { booting with mg := { booting.mg with bootB := true } }
      (fun t => t.mg.fallback && !t.mg.bootB) = true := by
  constructor <;> (unfold answersWith exec execBootReady; unfold fwCheck; rw [hk]; decide +kernel)

/-- The slot that boots, with and without SKIP, and its results. -/
theorem witness_boot_done :
    let s := { board .run with ctxs := [(7, Ctx.reset)], lans := [(3, LanSt.reset)] }
    let skip := board .run .operational fun m => { m with skip := true, stored := { m.stored with attemptA := true } }
    let done (slot : Bool) (s : State) : State := bootDone slot (imgVersion fw1) { s with hi := { s.hi with speed := 4, width := 16 } }
    (bootSlot s true true = some false ∧ bootSlot skip true true = some true ∧ bootSlot s false true = some true ∧
      bootSlot s false false = none ∧ ((List.range 4).all fun c => !(s.mc c).wipeBusy) ∧ booting.mg.stored.region 0 = fw1 ∧
      booting.mg.stored.region 1 = []) ∧
    ((done false s).mg.ready && !(done false s).mg.fallback && !(done false s).mg.bootB && (done false s).mg.fwVersion = 9 && (done false s).hi.speed = 4 &&
      (done false s).ctxs = [] && (done false s).lans = [] &&
      (done false s).recs.map (fun r => (r.sev, r.reason, r.a0)) = [(0, 1, 9)] && ((done false s).core 0).uc.mode = .service) ∧
    ((done false (board .run .provisioned)).core 0).uc.mode = .table := by decide +kernel

theorem witness_power_fail :
    let s := { board .run with cores := [(0, { CoreSt.reset with running := some 0 })], er := { State.reset.er with buf := [erRec 4 (rec1 1 0x10) true false] } }
    answersWith .powerFailWarning s (fun t => t.pf && t.pw.stage = .shed && t.pw.warned && !t.pw.trip && t.er.flushing && (t.core 0).running = none &&
      t.er.buf.map ErRec.opened = [false] && t.recs.length = 16) ∧
    answersWith .powerFailWarning (board .held) (fun t => t.pw.stage = .shed && t.pw.warned) ∧
    (let eng : State := ({ board .run with tp := { (board .run).tp with jobs := [(0x80, some ⟨1, 0x100, 0, 1, none, none, 0, 0, some ⟨4, 0, 0, true, 0, 0, 0, 1, 0, 0, 0⟩, false⟩)] } }).modEngine 0
        fun e => { e with run := some 0x80, evac := some 0x81, mark := true }
     (engineStops 0 eng).recs.map (fun r => (r.src, r.a0, r.a1, r.a2, r.a3)) = [(0x40, 0, 1, 1, 1)]) ∧
    answersWith .powerFailWarning (board .shed) (fun t => t.pw.warned) ∧ answers .powerFailWarning (board .standby) (board .standby) := by decide +kernel

theorem witness_register_writes :
    let s := board .run
    let w (off : BitVec 25) (v : Word) : Instr := .registerWrite (.fn 0) .bar0 off (some v)
    let go (code : BitVec 8) : State := mbox code [] .operational
    let free (code : BitVec 8) (r : Bool) : State := mbox code [] .operational fun m => { m with go := false, ready := r }
    answers (w 0x010010 7) (board .shed) (board .shed) ∧
    (plainRegs.all fun r => answersWith (w (BitVec.ofNat 25 r.1) 0xFFFFFFFF) s fun t => regRead r.1 t = r.2) ∧
    (commandBits.all fun r => answers (w (BitVec.ofNat 25 r.1) 0) s s) ∧
    answersWith (w 0x204010 0x1000007) s (fun t => t.ll.menu.lv = s.ll.menu.lv && regRead 0x204010 t = 7) ∧
    answersWith (w 0x300018 9) s (fun t => t.cn.run.sh.coolExtra = 9 && t.cn.run.lv = s.cn.run.lv) ∧
    answersWith (w 0x208014 0x0102) s (fun t => t.dp.cfg.sh.lanes = 2 && t.dp.cfg.sh.pol = 1) ∧
    (let p : State := { s with ll := { s.ll with menu := { s.ll.menu with pend := true }, cfgerr := true } }
     answers (w 0x204010 7) p p ∧ answersWith (w 0x200008 1) p (fun t => !t.ll.cfgerr) ∧ answersWith (w 0x200008 0) p (fun t => t.ll.cfgerr)) ∧
    answersWith (w 0x010008 1) { s with hi := { s.hi with cfgerr := true } } (fun t => !t.hi.cfgerr) ∧
    answersWith (w 0x500008 8) { s with tb := { s.tb with refrange := true, cfgerr := true } } (fun t => !t.tb.refrange && t.tb.cfgerr) ∧
    answersWith (w 0x900010 0x31) (go 1) (fun t => t.mg.code = 0x31 && t.mg.cmd = 1 && t.mg.go) ∧
    answersWith (w 0x900010 0x80000031) (go 1) (fun t => t.mg.status = 1 && t.mg.code = 0x31 && t.mg.cmd = 1 && t.mg.go) ∧
    answersWith (w 0x900010 0x31) (free 1 true) (fun t => t.mg.code = 0x31 && !t.mg.go) ∧
    answersWith (w 0x900010 0x80000031) (free 1 false) (fun t => t.mg.status = 1 && !t.mg.go) ∧
    answersWith (w 0x900010 0x80000031) (free 1 true) (fun t => t.mg.go && t.mg.code = 0x31) ∧
    answersWith (w 0x900010 0x80000002) (free 1 true) (fun t => t.mg.status = 11 && !t.mg.go) ∧
    answers (.registerWrite (.fn 1) .bar0 0x10010 (some 7)) s s ∧ answers (.registerWrite (.fn 31) .bar0 0x1FFF (some 7)) s s ∧
    answersWith (.registerWrite .mgmt .bar0 0x010010 (some 7)) s (fun t => regRead 0x010010 t = 7) ∧
    answersWith (.registerWrite (.core 3) .bar0 0x010010 (some 7)) s (fun t => regRead 0x010010 t = 7) := by decide +kernel

theorem witness_doorbell_pages :
    let s (f : PcieSt → PcieSt := id) : State :=
      let u := { board .run with hi := { (ring3).hi with pcie := f PcieSt.reset } }
      u.modRing 4 fun x => { x with func := 2, st := .running }
    let page (fn : BitVec 5) (size : Nat) (off : BitVec 25) (v : Option Word) : Instr := .registerWrite (.fn fn) (.bar2 size) off v
    let cfg (fn : BitVec 5) (n : BitVec 25) (v : Option Word) : Instr := .registerWrite (.fn fn) .config n v
    answersWith (page 0 4 0x3000 none) s (fun t => t.out = [.readValue 0]) ∧
    answersWith (page 0 8 0x3000 (some 5)) s (fun t => t.counter Cnt.hiDbdrop = 1 && (t.ring 3).prod = 0) ∧
    answersWith (page 0 4 0x300C (some 5)) s (fun t => t.counter Cnt.hiDbdrop = 1) ∧
    answersWith (page 0 4 0x3000 (some 5)) s (fun t => (t.ring 3).prod = 5 && t.counter Cnt.hiDbdrop = 0) ∧
    answersWith (page 0 4 0x3004 (some 5)) s (fun t => t.counter Cnt.hiDbdrop = 1) ∧
    answersWith (page 0 4 0x3008 (some 5)) s (fun t => (t.ring 3).armed) ∧
    answersWith (page 2 4 0x3000 (some 5)) s (fun t => t.counter Cnt.hiDbdrop = 1) ∧
    answersWith (cfg 0 0 (some 2)) s (fun t => t.hi.pcie.mps = 2) ∧ answersWith (cfg 0 0 (some 3)) s (fun t => t.hi.pcie = PcieSt.reset) ∧
    answersWith (cfg 0 1 (some 5)) s (fun t => t.hi.pcie.mrrs = 5) ∧ answersWith (cfg 0 1 (some 6)) s (fun t => t.hi.pcie = PcieSt.reset) ∧
    answersWith (cfg 0 2 (some 1)) s (fun t => t.hi.pcie.vfEn && (t.ring 4).st = .running) ∧
    answersWith (cfg 0 2 (some 0)) (s fun p => { p with vfEn := true }) (fun t => !t.hi.pcie.vfEn && (t.ring 4).st = .disabled && (t.ring 3).st = .running) ∧
    answersWith (cfg 3 3 (some 0x1000)) (s fun p => { p with aer := [3, 0] }) (fun t => t.hi.pcie.aer = [0]) ∧
    answersWith (cfg 3 3 none) (s fun p => { p with aer := [3, 0] }) (fun t => t.out = [.readValue 0x1000]) ∧
    answersWith (cfg 4 3 none) (s fun p => { p with aer := [3, 0] }) (fun t => t.out = [.readValue 0]) := by decide +kernel

theorem witness_queue : step { State.reset with pending := [.tbSnap, .markerIdle 0] } = exec .tbSnap { State.reset with pending := [.markerIdle 0] } := rfl

/-- Steps whose states meet the premises of the invariants, among them one that changes what fuses hold. -/
theorem witness_invariants :
    let s : State := (mbox 0x12 [1] .blank)
    (EventsHeld State.reset ∧ Memory.wf State.reset.hbm = true) ∧
    (match step { s with pending := [.keyEnroll] } with | .next t => decide (t.mg.stored.lc = .provisioned) | _ => false) = true ∧
    (match step { core0 [(8, fix 1)] with pending := [.markerIdle 0] } with | .next t => Memory.wf t.hbm | _ => false) = true := by
  refine ⟨⟨?_, rfl⟩, ?_, ?_⟩
  · intro h; exact absurd h (by decide)
  · decide +kernel
  · decide +kernel

theorem witness_tag_sidecar :
    let top := sidecarBase Build.h64 - 4
    top % 4 = 0 ∧ top < sidecarBase State.reset.build ∧
    Memory.read (setHbmWord top ⟨5, true, true, 7⟩ State.reset).hbm (sidecarBase .h64 + ((top >>> 6) >>> 2) * 64 + ((top >>> 6) &&& 3) * 16 + 15) = 0xC5 ∧
    Memory.read (setHbmWord 0x40 ⟨5, false, false, 7⟩ State.reset).hbm (sidecarBase .h64 + 16) = 5 ∧
    hbmWord (setHbmWord 0x40 ⟨5, false, false, 7⟩ State.reset) 0x40 = ⟨5, false, false, 7⟩ ∧
    hbmWord (setHbmWord 0x40 ⟨5, false, false, 7⟩ State.reset) 0x44 = hbmWord State.reset 0x44 := by decide +kernel

theorem witness_unpopulated :
    let s := { wiped State.reset with build := .h32 }
    nodeOf 0x0800000000 = s.node ∧ localOf 0x0800000000 = 0x0800000000 ∧ localOf 0x0FFFFFFFFC ≤ 0x0FFFFFFFFF ∧
    (physRead 0x0800000000 s).1.ty = Ty.poison ∧ (physRead 0x0FFFFFFFFC s).2.recs.map (fun r => (r.sev, r.reason, r.a0)) = [(1, 0x61, 0x0FFFFFFFFC)] ∧
    okIs (loadAt 0 4 0 0x0800000000 s) (fun w t => w.ty = Ty.poison && t.counter (Cnt.mcUnpop (homeAgent 0x0800000000)) = 1) ∧
    okIs (storeDo 0 (fix 1) ⟨0, 0x0800000000, MWord.unset, none⟩ s) (fun _ t => t.recs.length = 1 && t.cores = []) ∧
    okIs (escapeEntry 0 none 0x0800000000 true s) (fun _ t => t = s) ∧
    (physRead (BitVec.ofNat 53 (sidecarBase .h32 - 4)) s).2.recs = [] := by decide +kernel

theorem witness_time_snapshot :
    let s : State := { board .run with time := 0x7_00000009, tb := { TbSt.reset with bx := 5, orbit := 6 } }
    answersWith (.registerWrite (.fn 0) .bar0 0x500030 (some 0xFFFFFFFF)) s (fun t => regRead 0x500034 t = 9 && regRead 0x500038 t = 7 && regRead 0x50003C t = 5 &&
      regRead 0x500040 t = 6) := by decide +kernel

/-- A store into tagged memory with no snapshot barrier, seen by the core at its address alone. -/
theorem witness_store_frame :
    let s := core0 []
    snapshotLogs 0 0x104 TWord.unset (fix 9) s = [] ∧ okIs (performStore 0 0x104 (fix 9) MWord.unset none s) (fun _ t =>
      lineWord (overlay (t.core 0).merge 4 (List.replicate 16 MWord.unset)) 1 = (fix 9).m &&
      lineWord (overlay (t.core 0).merge 4 (List.replicate 16 MWord.unset)) 2 = MWord.unset) := by decide +kernel

theorem witness_register_frame :
    let s := core0 [(8, fix 1)] fun x => { x with cstat := { x.cstat with gcnt := 3 } }
    let t := goesOn s long0 4 fun c => c.setReg 10 (fix 9)
    (t.ctx 0).pc = 4 ∧ (t.ctx 0).cstat.gcnt = 2 ∧ (t.ctx 0).reg 10 = fix 9 ∧ (t.ctx 0).reg 8 = fix 1 := by decide +kernel

/-! ### Ill-formed commands, each refused by its check -/

theorem ill_formed_short_form_with_guard : (Instr.add ⟨0, true, 1, false, .none⟩ 1 2 3).wf = false := by decide
theorem ill_formed_seventh_wick : (Instr.openNotification 6).wf = false := by decide
theorem ill_formed_flit_of_95_bytes : (Instr.flitReceived 0 (List.replicate 95 0)).wf = false := by decide +kernel
theorem ill_formed_line_of_15_words : (Instr.dataResponse 0 0 .I (List.replicate 15 MWord.unset)).wf = false := by decide
theorem ill_formed_partial_write_twice_one_word : (Instr.hintedWrite 0 0 [(3, MWord.unset), (3, MWord.unset)]).wf = false := by decide
theorem ill_formed_credits_of_10_channels : (Instr.linkCreditAck 0 (List.replicate 10 1) 0).wf = false := by decide
theorem ill_formed_link_width : (Instr.pcieFundamentalReset 3 2).wf = false := by decide
theorem ill_formed_boundary_bits : (Instr.extest [true] []).wf = false := by decide
theorem ill_formed_fourth_wide_register : (Instr.erWideLowRead 3 (.core 0)).wf = false := by decide
theorem ill_formed_unaligned_register : (Instr.registerWrite (.fn 0) .bar0 2 (some 0)).wf = false := by decide
theorem ill_formed_return_stack_entry : (Instr.machineCheck 0 (.rs 16)).wf = false := by decide

theorem well_formed_at_the_limits :
    (Instr.openNotification 5).wf = true ∧ (Instr.flitReceived 0 (List.replicate 96 0)).wf = true ∧
    (Instr.dataResponse 0 0 .I (List.replicate 16 MWord.unset)).wf = true ∧ (Instr.pcieFundamentalReset 5 16).wf = true ∧
    (Instr.machineCheck 0 (.rs 15)).wf = true ∧ (Instr.add ⟨0, true, 0, false, .none⟩ 1 2 3).wf = true := by decide +kernel

/-! ### Encodings -/

/-- The words that the spec's examples give (08 Table 08-10, 09 Table 09-16). -/
theorem test_spec_words :
    decodeWord 0 false 0x0A608583 = some (.vref long0 8 16 9) ∧ decodeWord 0 false 0x00929103 = some (.addi long0 9 9 2) ∧
    decodeWord 0 false 0x4A908583 = some (.retag long0 8 8 10) ∧ decodeWord 0 false 0x04108183 = some (.shi long0 8 8 0 16) ∧
    decodeWord 0 false 0x0C108183 = some (.shi long0 8 8 1 16) ∧ decodeWord 0 false 0x000042C4 = some (.add short0 11 11 8) ∧
    decodeWord 0 false 0xFFEAC6C3 = some (.dbnz long0 12 0x7FF5) ∧ decodeWord 0 false 0x00000105 = some (.ldB short0 8 1 4) ∧
    decodeWord 0 false 0x000004BC = some (.guard short0 2 false 1) := by decide +kernel

/-- Words that name no instruction: halfword 0, SOP 0xE, a reserved opcode, a guard of p0 inverted, a field that must be 0. -/
theorem test_illegal_words :
    [0x00000000, 0x00000038, 0x00000C03, 0x00000023, 0x000042EC].all (fun w => (decodeWord 0 false w).isNone) := by decide +kernel

end Sys2Proof.Tests
end

section
namespace Sys2Proof.Machine

/-! ### What reset leaves -/

/-- Each register that the tables list reads its Reset column's value. -/
theorem resetRegs_read : ∀ r ∈ resetRegs, regRead r.1 State.reset = r.2 := by decide +kernel

/-- Settles O2: the listed registers are read one by one; the rest holds by the definition of the state after reset. -/
theorem resetValues : Obligations.ResetValues :=
  ⟨resetRegs_read, rfl, rfl, rfl, rfl, rfl, rfl, fun _ => rfl, fun _ => rfl, fun _ => rfl, fun _ => rfl, reset_memory_wf,
    fun h => absurd h (by decide)⟩

/-! ### Unpopulated memory -/

/-- The addresses of R2: beyond the sidecar's base on H32, and below the device region. -/
theorem regionOf_unpopulated {s : State} {pa : PA} (hb : s.build = .h32) (hn : nodeOf pa = s.node)
    (hlo : 0x0800000000 ≤ localOf pa) (hhi : localOf pa ≤ 0x0FFFFFFFFF) :
    inData s (localOf pa) = false ∧ inDevice (localOf pa) = false ∧ regionOf s pa = .unpopulated := by
  have hd : inData s (localOf pa) = false := by simp [inData, hb, sidecarBase]; omega
  have hv : inDevice (localOf pa) = false := by simp [inDevice]; omega
  refine ⟨hd, hv, ?_⟩
  have : localOf pa < 0x1000000000 := by omega
  simp [regionOf, hn, hd, this]

/-- What an access that reaches no memory leaves: its count and its record (R2, Table 18-3). -/
theorem unpopulated_eq (pa : PA) (s : State) : unpopulated pa s = { bump (Cnt.mcUnpop (homeAgent pa.toNat)) s with
    recs := s.recs ++ [⟨1, 0x80 + BitVec.ofNat 8 (homeAgent pa.toNat), 0x61, s.time, pa.setWidth 64, 0, 0, 0, 0⟩] } := rfl

/-- Settles O9: on H32 the addresses lie in the unpopulated region, for which each access answers its own constant and acts as
unpopulated does. -/
theorem unpopulatedAccess : Obligations.UnpopulatedAccess := by
  intro s c va pa bytes v g k hb hn hlo hhi hg hk counted hcounted
  obtain ⟨hdata, hdev, hregion⟩ := regionOf_unpopulated hb hn hlo hhi
  have hun : ∀ u, unpopulated pa u = counted u := by
    intro u
    rw [unpopulated_eq, hcounted, hk]
  subst hg
  refine ⟨⟨MWord.poison 4, ?_, rfl⟩, ?_, ?_, ⟨MWord.poison 4, ?_, rfl⟩⟩
  · simp [loadAt, hregion, hun]
  · intro hdst
    simp [storeDo, hregion, hdst, escapeEntry, hun]
  · intro u hu
    simp [storeDo, hregion, hu, hun]
  · simp [physRead, hdev, hn, hdata, hun]

/-! ### The mailbox without power -/

/-- The module without power, the MBOX vector enabled and unmasked. -/
def poweredOffMbox : State :=
  { State.reset with
    pw := { State.reset.pw with stage := .off }
    hi := { State.reset.hi with svecEn := 8, msix := [(0, 0)] } }

/-- Without power no vector leaves the module (R510). -/
theorem mbDone_poweredOff_sends_nothing : (mbDone 0 0 poweredOffMbox).out = [] := by decide +kernel

/-- Refutes O54: the clause on completion says of every state that the enabled, unmasked MBOX vector is sent, but the model
sends none while PCIe is down (R510). -/
theorem not_mailbox : ¬ Obligations.Mailbox := by
  rintro ⟨⟨-, hdone, -⟩, -⟩
  obtain ⟨-, -, -, hvector⟩ := hdone 0 0 poweredOffMbox _ rfl
  have hsent := ((hvector (by decide)).1 (by decide)).1
  rw [mbDone_poweredOff_sends_nothing] at hsent
  exact absurd hsent (List.cons_ne_nil _ _).symm

end Sys2Proof.Machine
end

section
namespace Sys2Proof.Machine

/-! ### The menu group over a line that cannot be read -/

/-- A menu group with one template, at LOCAL address 0, while bank 0 of the span pool begins there and the code of the line
finds an uncorrectable error. -/
def menuOverBadLine : State :=
  { State.reset with
    mcs := [(0, { McSt.reset with wipeBusy := false, cells := [(0, .uncorr)] })]
    cn := { CnSt.reset with pool := { CnSt.reset.pool with lv := { CnPool.reset with banks := [(0, ⟨0, 1, true⟩)] } } }
    ll := { LlSt.reset with menu := { LlSt.reset.menu with sh := { LlMenu.reset with tmpls := 1 } } } }

/-- The same as the commit begins to load the table. -/
def menuLoadingBadLine : State :=
  { menuOverBadLine with
    miss := none
    ll := { menuOverBadLine.ll with
      menu := ⟨menuOverBadLine.ll.menu.sh, menuOverBadLine.ll.menu.lv, true⟩, menuLoaded := false, templSh := [] } }

/-- No commit waits, and every value of the menu group is in its range (R179). -/
theorem menuOverBadLine_in_range :
    let m := menuOverBadLine.ll.menu
    m.pend = false ∧ 8000 ≤ m.sh.deadline.toNat ∧ m.sh.deadline.toNat ≤ 12800000 ∧ m.sh.warn < m.sh.deadline ∧
      m.sh.policy ≠ 3 ∧ m.sh.prescale ≠ 0 ∧ m.sh.tmpls.toNat ≤ 256 ∧ m.sh.tmplBase.toNat % 32 = 0 := by decide +kernel

/-- The table is read at once, and the span of the bad line is reported to the candle manager (R97, R426). -/
theorem menuLoad_reports_span :
    (menuLoad menuLoadingBadLine).miss = none ∧ ((menuLoad menuLoadingBadLine).cn.span 0).retpend = true ∧
      (menuOverBadLine.cn.span 0).retpend = false := by decide +kernel

/-- Refutes O31: MenuCommits says that LL_MENU_COMMIT leaves the candle manager as it is, but a table line with an
uncorrectable error has its span marked for retirement as it is read. -/
theorem not_tableCommits : ¬ Obligations.TableCommits := by
  rintro ⟨-, -, hmenu⟩
  obtain ⟨hmiss, hafter, hbefore⟩ := menuLoad_reports_span
  obtain ⟨hpend, hshort, hlong, hwarn, hpolicy, hprescale, hcount, hbase⟩ := menuOverBadLine_in_range
  obtain ⟨-, hcommit, -⟩ := hmenu menuOverBadLine _ rfl
  obtain ⟨-, hloads⟩ := (hcommit hpend).2 hshort hlong hwarn hpolicy hprescale
  obtain ⟨t, -, ht, -, -, -, -, -, hcn, -⟩ := hloads hcount hbase menuLoadingBadLine rfl hmiss
  rw [← ht, hcn, hbefore] at hafter
  exact Bool.false_ne_true hafter

end Sys2Proof.Machine
end

section
namespace Sys2Proof.Machine

/-! ### Which I2C commands are answered, and how -/

theorem onAddr_elsewhere {s : State} {addr : BitVec 7} {f : State → State}
    (h : s.pw.stage = .off ∨ s.pw.stage = .held ∨ addr ≠ s.pw.i2cAddress) : onAddr addr f s = .next s := by
  simp [onAddr, h]

section
variable {s : State} {addr : BitVec 7} (hoff : s.pw.stage ≠ .off) (hheld : s.pw.stage ≠ .held) (haddr : addr = s.pw.i2cAddress)
include hoff hheld haddr

theorem onAddr_answers (f : State → State) : onAddr addr f s = .next (f s) := by
  simp [onAddr, hoff, hheld, haddr]

theorem onI2c_served {c : I2cCmd} (f : State → State) (h : i2cServes s c = true) : onI2c addr c f s = .next (f s) := by
  simp [onI2c, onAddr_answers hoff hheld haddr, h]

theorem onI2c_unserved {c : I2cCmd} (f : State → State) (h : i2cServes s c = false) :
    onI2c addr c f s = .next (i2cAnswer [] s) := by
  simp only [onI2c, onAddr_answers hoff hheld haddr, h]
  rfl

end

/-- A module that runs its firmware outside RETIRED serves every command (R519, R523). -/
theorem i2cServes_open {s : State} (h : Open2c s) (c : I2cCmd) : i2cServes s c = true := by
  obtain ⟨hrun, hrom, hlc⟩ := h
  simp [i2cServes, hrun, hrom, hlc]

/-- While the module sheds and in standby the four commands of R555 are served outside RETIRED. -/
theorem i2cServes_sheds {s : State} (h : Sheds2c s) {c : I2cCmd} (hslot : c ≠ .slot) (hreset : c ≠ .reset) :
    i2cServes s c = true := by
  obtain ⟨hst | hst, hlc⟩ := h <;> simp [i2cServes, hst, hlc, hslot, hreset]

theorem i2cServes_reader {s : State} (h : Open2c s ∨ Sheds2c s) {c : I2cCmd} (hslot : c ≠ .slot) (hreset : c ≠ .reset) :
    i2cServes s c = true :=
  h.elim (fun h => i2cServes_open h c) fun h => i2cServes_sheds h hslot hreset

/-- RETIRED serves STATUS and TELEM alone (R519). -/
theorem i2cServes_retired {s : State} (hlc : s.mg.stored.lc = .retired) (hrom : s.mg.romOnly = false) {c : I2cCmd}
    (hstatus : c ≠ .status) (htelem : c ≠ .telem) : i2cServes s c = false := by
  cases hst : s.pw.stage <;> simp [i2cServes, hst, hlc, hrom, hstatus, htelem]

/-- The boot ROM serves STATUS and SLOT alone (R523). -/
theorem i2cServes_rom {s : State} (hrun : s.pw.stage = .run) (hrom : s.mg.romOnly = true) (c : I2cCmd) :
    i2cServes s c = (decide (c = .status) || decide (c = .slot)) := by
  simp [i2cServes, hrun, hrom]

/-- While the module sheds and in standby SLOT is not served, nor, without a thermal trip, RESET (R555). -/
theorem i2cServes_shed_slot {s : State} (h : s.pw.stage = .shed ∨ s.pw.stage = .standby) : i2cServes s .slot = false := by
  rcases h with h | h <;> simp [i2cServes, h]

theorem i2cServes_shed_reset {s : State} (h : s.pw.stage = .shed ∨ s.pw.stage = .standby) (htrip : s.pw.trip = false) :
    i2cServes s .reset = false := by
  rcases h with h | h <;> simp [i2cServes, h, htrip]

/-! ### The highest temperature -/

/-- A fold that keeps the greater value ends with the greatest of those it has met. -/
theorem foldl_greatest {α : Type} (key : α → Int) (v : Nat → α) (l : List Nat) (b : α) :
    let m := l.foldl (fun b n => if key b < key (v n) then v n else b) b
    key b ≤ key m ∧ (∀ n ∈ l, key (v n) ≤ key m) ∧ (m = b ∨ ∃ n ∈ l, m = v n) := by
  induction l generalizing b with
  | nil => simp
  | cons n r ih =>
    obtain ⟨hinit, hall, hmem⟩ := ih (if key b < key (v n) then v n else b)
    simp only [List.foldl_cons, List.mem_cons, forall_eq_or_imp, exists_eq_or_imp]
    by_cases hlt : key b < key (v n)
    · simp only [if_pos hlt] at hinit hall hmem ⊢
      exact ⟨by omega, ⟨hinit, hall⟩, .inr (by tauto)⟩
    · simp only [if_neg hlt] at hinit hall hmem ⊢
      exact ⟨hinit, ⟨by omega, hall⟩, by tauto⟩

/-- The highest temperature is that of a sensor of a lantern, a stack, the HUB, the HOST or the optics, and none is higher. -/
theorem hottest_greatest (s : State) :
    (∀ k, k < 41 → (Tab.get 0 s.mg.sensors k).toInt ≤ (hottest s).toInt) ∧
      ∃ k, k < 41 ∧ hottest s = Tab.get 0 s.mg.sensors k := by
  obtain ⟨-, hall, hmem⟩ := foldl_greatest BitVec.toInt (sensor s) (List.range 41) (sensor s 0)
  simp only [List.mem_range] at hall hmem
  exact ⟨hall, hmem.elim (fun h => ⟨0, by omega, h⟩) id⟩

/-! ### Records over I2C -/

theorem erRead_future {s : State} {n : Nat} (h : seqNext s ≤ n) : erRead n s = (2, none) := by simp [erRead, h]

/-- A record of the volatile buffer is read from there (R541). -/
theorem erRead_buffered {s : State} {n : Nat} {pre post : List ErRec} {e : ErRec} (h : n < seqNext s)
    (hbuf : s.er.buf = pre ++ e :: post) (he : e.seq = n) (hpre : ∀ f ∈ pre, f.seq ≠ n) : erRead n s = (0, some e) := by
  have hfind : s.er.buf.find? (fun e => decide (e.seq = n)) = some e := by
    rw [hbuf, List.find?_append, List.find?_eq_none.mpr (by simpa using hpre)]
    simp [he]
  simp [erRead, Nat.not_le.mpr h, hfind]

/-! ### What each row of Table 17-8 does -/

theorem exec_i2cTelem (addr : BitVec 7) (n : Byte) (s : State) : exec (.i2cTelem addr n) s = onI2c addr .telem
    (fun s => if n.toNat < 50 then i2cResult (halfBytes (sensor s n.toNat)) s else i2cResult [] s) s := rfl

theorem exec_i2cErrsum (addr : BitVec 7) (s : State) : exec (.i2cErrsum addr) s = onI2c addr .errsum
    (fun s => i2cResult ((List.range 7).flatMap fun i => wordBytes (s.counter (Cnt.mgSumMemcorr + 4 * i))) s) s := rfl

theorem exec_i2cRecord_write (addr : BitVec 7) (q : BitVec 48) (s : State) : exec (.i2cRecord addr (some q)) s =
    onAddr addr (fun s => { s with mg := { s.mg with i2cSeq := some q } }) s := rfl

/-- The read of a RECORD command. -/
def i2cRecordRead (s : State) : State :=
  match s.mg.i2cSeq with
  | some q => i2cRecord q { s with mg := { s.mg with i2cSeq := none } }
  | none => i2cResult [] s

theorem exec_i2cRecord_read (addr : BitVec 7) (s : State) :
    exec (.i2cRecord addr none) s = onI2c addr .record i2cRecordRead s := rfl

theorem exec_i2cReset (addr : BitVec 7) (a b : Byte) (s : State) : exec (.i2cReset addr a b) s = onI2c addr .reset
    (fun s => if a = 0x5A ∧ b = 0xA5 then commandReset (i2cResult [] s) else i2cResult [] s) s := rfl

/-- SLOT with its argument byte. -/
def i2cSlotChoice (a : Byte) (s : State) : State :=
  i2cResult [] (if a = 0 ∨ a = 1 then
    { s with mg := { s.mg with stored := { s.mg.stored with slotB := decide (a = 1) } } } else s)

theorem exec_i2cSlot (addr : BitVec 7) (a : Byte) (s : State) :
    exec (.i2cSlot addr a) s = onI2c addr .slot (i2cSlotChoice a) s := rfl

theorem exec_i2cStatus (addr : BitVec 7) (s : State) : exec (.i2cStatus addr 1) s = onI2c addr .status i2cStatus s := rfl

theorem exec_i2cStatus_unknown {addr : BitVec 7} {byte : Byte} (s : State) (h : byte ≠ 1) :
    exec (.i2cStatus addr byte) s = onAddr addr (i2cResult []) s := if_neg h

/-- No row answers at another address, without power or in reset. -/
theorem i2c_elsewhere {s : State} {addr : BitVec 7} (h : s.pw.stage = .off ∨ s.pw.stage = .held ∨ addr ≠ s.pw.i2cAddress)
    (byte n a b : Byte) (seq : BitVec 48) :
    ∀ i ∈ [Instr.i2cStatus addr byte, .i2cTelem addr n, .i2cErrsum addr, .i2cRecord addr (some seq), .i2cRecord addr none,
      .i2cReset addr a b, .i2cSlot addr a], exec i s = .next s := by
  have silent (f : State → State) : onAddr addr f s = .next s := onAddr_elsewhere h
  have hstatus : exec (.i2cStatus addr byte) s = .next s := by
    by_cases hbyte : byte = 1
    · rw [hbyte, exec_i2cStatus, onI2c, silent]
    · rw [exec_i2cStatus_unknown s hbyte, silent]
  simp only [List.forall_mem_cons, List.not_mem_nil, IsEmpty.forall_iff, implies_true, and_true, exec_i2cTelem,
    exec_i2cErrsum, exec_i2cRecord_write, exec_i2cRecord_read, exec_i2cReset, exec_i2cSlot, onI2c, silent, hstatus]

/-! ### The clauses of the board's ports -/

/-- A read of a RECORD command that names none, or that is not served, answers length 0. -/
theorem i2cRecord_unnamed {s : State} {addr : BitVec 7} (hoff : s.pw.stage ≠ .off) (hheld : s.pw.stage ≠ .held)
    (haddr : addr = s.pw.i2cAddress) (hseq : s.mg.i2cSeq = none) :
    exec (.i2cRecord addr none) s = .next (i2cAnswer [] s) := by
  rw [exec_i2cRecord_read]
  cases h : i2cServes s .record with
  | false => exact onI2c_unserved hoff hheld haddr _ h
  | true =>
    rw [onI2c_served hoff hheld haddr _ h, i2cRecordRead, hseq]
    rfl

/-- The clause of the I2C target. -/
theorem boardCommands : Sys2Proof.Clause.BoardCommands := by
  intro s addr byte n a b seq pos
  refine ⟨?_, ⟨?_, ?_⟩, fun h => i2c_elsewhere h byte n a b seq, ?_⟩
  · simp only [PwSt.i2cAddress]
    bv_omega
  · intro h
    simp [PwSt.laneOf, h]
  · intro h
    simp only [PwSt.laneOf, h, Bool.false_eq_true, if_false]
    bv_omega
  · intro hoff hheld haddr
    have served {c} (f) := onI2c_served (c := c) hoff hheld haddr f
    have unserved {c} (f) := onI2c_unserved (c := c) hoff hheld haddr f
    refine ⟨?_, ?_, i2cRecord_unnamed hoff hheld haddr, ?_, ?_, ?_, ?_, ?_⟩
    · intro hbyte
      rw [exec_i2cStatus_unknown s hbyte, onAddr_answers hoff hheld haddr]
      rfl
    · rw [exec_i2cRecord_write, onAddr_answers hoff hheld haddr]
    · intro hlc hrom
      have no {c} := i2cServes_retired (c := c) hlc hrom
      simp [exec_i2cErrsum, exec_i2cRecord_read, exec_i2cReset, exec_i2cSlot, unserved, no]
    · intro hrun hrom
      simp [exec_i2cTelem, exec_i2cErrsum, exec_i2cRecord_read, exec_i2cReset, unserved, i2cServes_rom hrun hrom]
    · intro hst
      rw [exec_i2cSlot, unserved _ (i2cServes_shed_slot hst)]
      refine ⟨rfl, fun htrip => ?_⟩
      rw [exec_i2cReset, unserved _ (i2cServes_shed_reset hst htrip)]
    · intro hserve
      have yes {c} := i2cServes_reader (c := c) hserve
      refine ⟨⟨hottest s, ?_, hottest_greatest s⟩, ?_, ?_, ?_, ?_⟩
      · rw [exec_i2cStatus, served _ (yes (by decide) (by decide))]
        rfl
      · intro hn
        rw [exec_i2cTelem, served _ (yes (by decide) (by decide)), if_pos hn]
        rfl
      · intro hn
        rw [exec_i2cTelem, served _ (yes (by decide) (by decide)), if_neg (by omega)]
        rfl
      · rw [exec_i2cErrsum, served _ (yes (by decide) (by decide))]
        rfl
      · intro u hseq hu
        have hread : exec (.i2cRecord addr none) s = .next (i2cRecord seq u) := by
          rw [exec_i2cRecord_read, served _ (yes (by decide) (by decide)), i2cRecordRead, hseq, hu]
        rw [hread, i2cRecord]
        refine ⟨fun hfuture => ?_, fun hpast pre e post hbuf he hpre => ?_⟩
        · rw [erRead_future (by rwa [hu])]
          rfl
        · rw [erRead_buffered (by rwa [hu]) (by rwa [hu]) he hpre]
          rfl
    · intro hserve v ha
      have hslot : i2cServes s .slot = true :=
        hserve.elim (fun h => i2cServes_open h _) fun h => i2cServes_rom h.1 h.2 _
      rw [exec_i2cSlot, served _ hslot]
      rcases ha with ⟨rfl, rfl⟩ | ⟨rfl, rfl⟩ <;> exact ⟨_, rfl, rfl, rfl, rfl⟩

/-- The clause of the TAP. -/
theorem testAccessPort : Sys2Proof.Clause.TestAccessPort := by
  intro s tdi pins preload code drives hdrives
  obtain rfl : drives = fun i p => { s with tap := { s.tap with ir := i, pins := p } } := by
    funext i p
    exact hdrives i p
  refine ⟨rfl, rfl, rfl, fun hlen => ?_, rfl, rfl, ?_, fun hlc => ?_, fun hlc => ?_⟩
  · have hbits : shiftBits (lowBits 32 0x102569A7) tdi = (List.range 32).map fun i => (0x102569A7 : Word).getLsbD i := by
      rw [shiftBits, hlen, List.take_append_of_le_length (by simp [lowBits])]
      simp [lowBits]
    show execIdcode tdi s = _
    rw [execIdcode, hbits]
    rfl
  · simp only [TapIr.code, BitVec.toNat_append]
    exact (Nat.shiftLeft_add_eq_or_of_lt code.isLt 2).symm
  · show execJtagPrivate code tdi s = _
    rw [execJtagPrivate, if_neg hlc]
    rfl
  · show execJtagPrivate code tdi s = _
    rw [execJtagPrivate, if_pos hlc]

/-- Settles O58: by which stage, state and command i2cServes decides, and by the TAP's own definitions. -/
theorem boardPorts : Obligations.BoardPorts := ⟨boardCommands, testAccessPort⟩

end Sys2Proof.Machine
end

section
namespace Sys2Proof.Tab

/-- An entry that a table reads other than by default stands in it. -/
theorem mem_of_get_ne {α : Type} {d : α} {t : Tab α} {k : Nat} (h : Tab.get d t k ≠ d) :
    (k, Tab.get d t k) ∈ t := by
  induction t with
  | nil => exact absurd rfl h
  | cons e r ih =>
    obtain ⟨a, w⟩ := e
    simp only [Tab.get] at h ⊢
    split
    · subst_vars
      exact List.mem_cons_self
    · rename_i hne
      rw [if_neg hne] at h
      exact List.mem_cons_of_mem _ (ih h)

end Sys2Proof.Tab

namespace Sys2Proof.Machine

/-! ### Fields of a register word -/

/-- The low bits of a word as a field at bit 0. -/
theorem fld_extract_low (n : Nat) (v : Word) :
    fld 0 (v.extractLsb' 0 n) = v &&& (BitVec.allOnes n).setWidth 32 := by
  apply BitVec.eq_of_getLsbD_eq
  intro i hi
  by_cases hn : i < n <;> simp [fld, hi, hn]

/-- Those with the next bit as a field of its own. -/
theorem fld_extract_bit (n : Nat) (v : Word) (h : n < 32) :
    fld 0 (v.extractLsb' 0 n) ||| fldB n (v.getLsbD n) = fld 0 (v.extractLsb' 0 (n + 1)) := by
  apply BitVec.eq_of_getLsbD_eq
  intro i hi
  rcases Nat.lt_trichotomy i n with hin | rfl | hin
  · simp [fld, fldB, bit, hi, hin, Nat.lt_succ_of_lt hin]
  · cases hv : v.getLsbD i <;> simpa [fld, fldB, bit, hi] using hv
  · cases hv : v.getLsbD n <;> simp [fld, fldB, bit, hi, Nat.not_lt.mpr hin, Nat.not_lt.mpr hin.le, show i - n ≠ 0 by omega]

theorem loHalf_setLo {w : Nat} (p : BitVec w) (v : Word) (h : 32 ≤ w) : loHalf (setLo p v) = v := by
  apply BitVec.eq_of_getLsbD_eq
  intro i hi
  have : i < w := by omega
  simp [loHalf, setLo, hi, this]

theorem State.wick_modWick (s : State) (n : Nat) (f : WkSt → WkSt) : (s.modWick n f).wick n = f (s.wick n) :=
  Tab.get_set_self _ _ _ _

/-! ### Plain fields and command bits -/

/-- A software field without effects: it reads back what is written in the bits that it has, and nothing is counted, recorded or
sent. -/
def WritesPlain (off : Nat) (mask : Word) : Prop :=
  ∀ (v : Word) (s : State), regRead off (devWrite off v s) = v &&& mask ∧ (devWrite off v s).cnt = s.cnt ∧
    (devWrite off v s).recs = s.recs ∧ (devWrite off v s).out = s.out

theorem writesPlain_low {off : Nat} (n : Nat) (hread : ∀ v s, regRead off (devWrite off v s) = fld 0 (v.extractLsb' 0 n))
    (hframe : ∀ v s, (devWrite off v s).cnt = s.cnt ∧ (devWrite off v s).recs = s.recs ∧ (devWrite off v s).out = s.out) :
    WritesPlain off ((BitVec.allOnes n).setWidth 32) :=
  fun v s => ⟨(hread v s).trans (fld_extract_low n v), hframe v s⟩

theorem plainRegs_write : ∀ r ∈ plainRegs, WritesPlain r.1 r.2 := by
  have all (v : Word) : v = v &&& 0xFFFFFFFF := (BitVec.and_allOnes (x := v)).symm
  simp only [plainRegs, List.forall_mem_cons, List.not_mem_nil, IsEmpty.forall_iff, implies_true, and_true]
  refine ⟨?_, ?_, ?_, ?_, ?_, ?_, ?_, ?_, ?_, ?_, ?_, ?_, ?_⟩
  · exact fun v s => ⟨all v, rfl, rfl, rfl⟩
  · exact writesPlain_low 4 (fun _ _ => rfl) fun _ _ => ⟨rfl, rfl, rfl⟩
  · exact fun v s => ⟨all v, rfl, rfl, rfl⟩
  · exact writesPlain_low 9 (fun v _ => fld_extract_bit 8 v (by decide)) fun _ _ => ⟨rfl, rfl, rfl⟩
  · exact fun v s => ⟨all v, rfl, rfl, rfl⟩
  · exact writesPlain_low 12 (fun _ _ => rfl) fun _ _ => ⟨rfl, rfl, rfl⟩
  · exact writesPlain_low 16 (fun _ _ => rfl) fun _ _ => ⟨rfl, rfl, rfl⟩
  · exact writesPlain_low 11 (fun _ _ => rfl) fun _ _ => ⟨rfl, rfl, rfl⟩
  · exact writesPlain_low 16 (fun _ _ => rfl) fun _ _ => ⟨rfl, rfl, rfl⟩
  · exact fun v s => ⟨(Tab.get_set_self 0 s.mg.args 0 v).trans (all v), rfl, rfl, rfl⟩
  · exact fun v s => ⟨(Tab.get_set_self 0 s.mg.args 7 v).trans (all v), rfl, rfl, rfl⟩
  · exact fun v s => ⟨(loHalf_setLo s.er.rdSel v (by decide)).trans (all v), rfl, rfl, rfl⟩
  · refine writesPlain_low 16 (fun v s => ?_) fun _ _ => ⟨rfl, rfl, rfl⟩
    show fld 0 ((s.modWick 0 fun w => { w with mapSel := v.extractLsb' 0 16 }).wick 0).mapSel = _
    rw [State.wick_modWick]

/-- A bit of a command register that, written 1 alone, has the effect of a command, and a write of 0 has none. -/
def AsksFor (off bit : Nat) (i : Instr) : Prop :=
  ∀ s : State, .next (devWrite off (1 <<< bit) s) = exec i s ∧ devWrite off 0 s = s

theorem commandBits_ask : ∀ r ∈ commandBits, AsksFor r.1 r.2.1 r.2.2 := by
  simp only [commandBits, List.forall_mem_cons, List.not_mem_nil, IsEmpty.forall_iff, implies_true, and_true]
  refine ⟨?_, ?_, ?_, ?_, ?_, ?_, ?_, ?_, ?_, ?_, ?_, ?_, ?_, ?_, ?_, ?_, ?_, ?_, ?_, ?_, ?_, ?_⟩ <;>
    exact fun s => ⟨rfl, rfl⟩

/-! ### REGISTER_WRITE by who writes and where -/

theorem exec_registerWrite_idle {s : State} (h : s.pw.stage ≠ .run) (who : Reader) (space : RegSpace) (off : BitVec 25)
    (w : Option Word) : exec (.registerWrite who space off w) s = .next s := by
  show execRegisterWrite who space off w s = _
  rw [execRegisterWrite, if_neg h]

theorem exec_registerWrite_run {s : State} (h : s.pw.stage = .run) (who : Reader) (space : RegSpace) (off : BitVec 25)
    (w : Option Word) : exec (.registerWrite who space off w) s = .next (spaceAccess who space off.toNat w s) := by
  show execRegisterWrite who space off w s = _
  rw [execRegisterWrite, if_pos h]

/-- The PF, the management processor and the cores write the same registers. -/
theorem exec_registerWrite_device {s : State} (h : s.pw.stage = .run) {who : Reader} (hwho : ∀ n, who = .fn n → n = 0)
    (off : BitVec 25) (v : Word) :
    exec (.registerWrite who .bar0 off (some v)) s = .next (devWrite (off.toNat / 4 * 4) v s) := by
  rw [exec_registerWrite_run h]
  cases who with
  | fn n => rw [hwho n rfl]; rfl
  | core k => rfl
  | mgmt => rfl

/-- A VF's write outside its MSI-X table and the rings does nothing (R483). -/
theorem exec_registerWrite_vf {s : State} (h : s.pw.stage = .run) {fn : BitVec 5} (hfn : fn ≠ 0) {off : BitVec 25} (v : Word)
    (hoff : off.toNat < 0x2000 ∨ (0x3000 ≤ off.toNat ∧ off.toNat < 0x8000) ∨ 0x10000 ≤ off.toNat) :
    exec (.registerWrite (.fn fn) .bar0 off (some v)) s = .next s := by
  have hspace : spaceAccess (.fn fn) .bar0 off.toNat (some v) s = vfWrite fn (off.toNat / 4 * 4) v s := if_neg hfn
  rw [exec_registerWrite_run h, hspace, vfWrite, if_neg (by omega), if_neg (by omega)]

/-! ### The mailbox register -/

theorem sendMsix_mg (fn : Nat) (vec : BitVec 8) (s : State) : (sendMsix fn vec s).mg = s.mg := by
  simp only [sendMsix]
  split
  · rfl
  · split <;> rfl

theorem serviceIrq_mg (n : Nat) (s : State) : (serviceIrq n s).mg = s.mg := by
  simp only [serviceIrq]
  split
  · exact sendMsix_mg _ _ _
  · rfl

theorem mbDone_mg (status : BitVec 8) (detail : BitVec 16) (s : State) :
    (mbDone status detail s).mg = { s.mg with go := false, ucWait := false, status := status, detail := detail } :=
  serviceIrq_mg _ _

theorem mbBusy_mg (code : BitVec 8) (s : State) : (mbBusy code s).mg = { s.mg with status := 1, detail := 0 } := by
  simp only [mbBusy, serviceIrq_mg]
  split <;> rfl

/-- The codes of Table 17-7. -/
theorem mbKnown_iff (code : BitVec 8) : mbKnown code = true ↔
    code ∈ [(0x01 : BitVec 8), 0x08, 0x10, 0x11, 0x12, 0x13, 0x20, 0x21, 0x22, 0x30, 0x31, 0x40, 0x41] :=
  List.contains_iff_mem

section
variable (v : Word) (s : State)

theorem mbCommand_code (h : v.getLsbD 31 = false) :
    mbCommand v s = { s with mg := { s.mg with code := v.extractLsb' 0 8 } } := by
  simp only [mbCommand, h, Bool.not_false, if_true]

theorem mbCommand_busy (h : v.getLsbD 31 = true) (hbusy : s.mg.go = true ∨ s.mg.ready = false) :
    (mbCommand v s).mg = { s.mg with code := v.extractLsb' 0 8, status := 1, detail := 0 } := by
  have : mbCommand v s = mbBusy (v.extractLsb' 0 8) { s with mg := { s.mg with code := v.extractLsb' 0 8 } } := by
    have hb : s.mg.go = true ∨ (!s.mg.ready) = true := by simpa using hbusy
    simp only [mbCommand, h, Bool.not_true, Bool.false_eq_true, if_false, if_pos hb]
  rw [this, mbBusy_mg]

theorem mbCommand_starts (h : v.getLsbD 31 = true) (hgo : s.mg.go = false) (hready : s.mg.ready = true)
    (hcode : mbKnown (v.extractLsb' 0 8) = true) :
    mbCommand v s = { s with mg := { s.mg with code := v.extractLsb' 0 8, go := true, cmd := v.extractLsb' 0 8 } } := by
  simp only [mbCommand, h, hgo, hready, hcode, Bool.not_true, Bool.false_eq_true, or_self, if_false]

theorem mbCommand_unknown (h : v.getLsbD 31 = true) (hgo : s.mg.go = false) (hready : s.mg.ready = true)
    (hcode : mbKnown (v.extractLsb' 0 8) = false) :
    (mbCommand v s).mg = { s.mg with code := v.extractLsb' 0 8, ucWait := false, status := 11, detail := 0 } := by
  have : mbCommand v s = mbDone 11 0 { s with mg := { s.mg with code := v.extractLsb' 0 8 } } := by
    simp only [mbCommand, h, hgo, hready, hcode, Bool.not_true, Bool.not_false, Bool.false_eq_true, or_self, if_false, if_true]
  rw [this, mbDone_mg, ← hgo]

end

/-! ### Shadow copies -/

theorem Rwc.write_pend {α : Type} (f : α → α) {r : Rwc α} (h : r.pend = true) : r.write f = r := if_pos h
theorem Rwc.write_free {α : Type} (f : α → α) {r : Rwc α} (h : r.pend = false) : r.write f = { r with sh := f r.sh } := by
  simp [Rwc.write, h]

/-- The clause of BAR0. -/
theorem registers : Sys2Proof.Clause.Registers := by
  intro s fn off v put hput
  refine ⟨fun hidle who space w => exec_registerWrite_idle hidle who space off w, fun hrun => ?_⟩
  have hdev (w : Word) : put w = .next (devWrite (off.toNat / 4 * 4) w s) :=
    (hput w).trans (exec_registerWrite_device hrun (fun n h => (Reader.fn.inj h).symm) off w)
  have hat (n : Nat) (w : Word) (hn : off.toNat / 4 * 4 = n) : put w = .next (devWrite n w s) := hn ▸ hdev w
  refine ⟨?_, ?_, ?_, ?_, ?_, ?_, ?_, ?_, ?_, ?_, fun hfn hoff => exec_registerWrite_vf hrun hfn v hoff⟩
  · exact fun k => ⟨(hdev v).trans (exec_registerWrite_device hrun (by simp) off v).symm,
      (hdev v).trans (exec_registerWrite_device hrun (by simp) off v).symm⟩
  · intro r hr hoff
    have haligned : ∀ r ∈ plainRegs, r.1 / 4 * 4 = r.1 := by decide
    rw [hat r.1 v (hoff ▸ haligned r hr), ← hoff]
    exact ⟨_, rfl, plainRegs_write r hr v s⟩
  · intro r hr hoff
    have haligned : ∀ r ∈ commandBits, r.1 / 4 * 4 = r.1 := by decide
    rw [hat r.1 _ (hoff ▸ haligned r hr), hat r.1 _ (hoff ▸ haligned r hr)]
    obtain ⟨hone, hzero⟩ := commandBits_ask r hr s
    exact ⟨hone, congrArg _ hzero⟩
  · rintro rfl
    have hw : put v = .next (modLlMenu (fun g => { g with deadline := v.extractLsb' 0 24 }) s) := hat 0x204010 v rfl
    rw [hw, modLlMenu]
    refine ⟨fun hpend => ?_, fun hfree => ⟨_, rfl, ?_⟩⟩
    · rw [Rwc.write_pend _ hpend]
    · rw [Rwc.write_free _ hfree]
      exact ⟨rfl, rfl, fld_extract_low 24 v⟩
  · rintro rfl
    have hw : put v = .next (modCnRun (fun g => { g with coolExtra := v }) s) := hat 0x300018 v rfl
    rw [hw, modCnRun]
    refine ⟨fun hpend => ?_, fun hfree => ⟨_, rfl, ?_⟩⟩
    · rw [Rwc.write_pend _ hpend]
    · rw [Rwc.write_free _ hfree]
      exact ⟨rfl, rfl⟩
  · rintro rfl
    have hw : put v = .next (modDpCfg (fun g => { g with lanes := v.extractLsb' 0 8, pol := v.extractLsb' 8 8 }) s) :=
      hat 0x208014 v rfl
    rw [hw, modDpCfg]
    refine ⟨fun hpend => ?_, fun hfree => ⟨_, rfl, ?_⟩⟩
    · rw [Rwc.write_pend _ hpend]
    · rw [Rwc.write_free _ hfree]
      exact ⟨rfl, rfl⟩
  · rintro rfl
    exact hat 0x200008 v rfl
  · rintro rfl
    exact hat 0x010008 v rfl
  · rintro rfl
    exact hat 0x500008 v rfl
  · rintro rfl code rfl
    have hw : put v = .next (mbCommand v s) := hat 0x900010 v rfl
    rw [hw]
    refine ⟨fun h => congrArg _ (mbCommand_code v s h), fun h =>
      ⟨fun hbusy => ⟨_, rfl, mbCommand_busy v s h hbusy⟩, fun hgo hready => ?_⟩⟩
    rw [← mbKnown_iff]
    exact ⟨fun hk => congrArg _ (mbCommand_starts v s h hgo hready hk),
      fun hk => ⟨_, rfl, mbCommand_unknown v s h hgo hready (Bool.eq_false_iff.mpr hk)⟩⟩

/-! ### Rings switched off -/

theorem ringOff_ring_self (r : Nat) (s : State) : ((ringOff r s).ring r).st = .disabled :=
  congrArg RingSt.st (Tab.get_set_self _ _ _ _)

theorem ringOff_ring_ne {r k : Nat} (s : State) (h : k ≠ r) : (ringOff r s).ring k = s.ring k :=
  Tab.get_set_ne _ _ _ h

/-- Rings that are switched off one after the other are DISABLED, as are those that were. -/
theorem ringOff_foldl_disabled (rs : List Nat) (s : State) (k : Nat) (h : k ∈ rs ∨ (s.ring k).st = .disabled) :
    ((rs.foldl (fun s r => ringOff r s) s).ring k).st = .disabled := by
  induction rs generalizing s with
  | nil => exact h.resolve_left List.not_mem_nil
  | cons r rs ih =>
    refine ih (ringOff r s) ?_
    by_cases hk : k = r
    · exact .inr (hk ▸ ringOff_ring_self r s)
    · rw [ringOff_ring_ne s hk]
      exact h.imp_left fun hmem => (List.mem_cons.mp hmem).resolve_left hk

/-- A reset of functions leaves every ring of theirs DISABLED (R485). -/
theorem resetFunctions_disabled (of : Nat → Bool) (s : State) (k : Nat) (hof : of (s.ring k).func.toNat = true) :
    ((resetFunctions of s).ring k).st = .disabled := by
  refine ringOff_foldl_disabled _ s k ?_
  by_cases hreset : s.ring k = RingSt.reset
  · exact .inr (by rw [hreset]; rfl)
  · exact .inl (List.mem_filterMap.mpr ⟨_, Tab.mem_of_get_ne hreset, if_pos hof⟩)

/-- Doorbell pages and configuration space, by what they access. -/
theorem exec_registerWrite_bell {s : State} (h : s.pw.stage = .run) (fn : BitVec 5) (size : Nat) (off : BitVec 25) (v : Word) :
    exec (.registerWrite (.fn fn) (.bar2 size) off (some v)) s = .next (bellWrite fn size off.toNat v s) :=
  exec_registerWrite_run h _ _ off _

theorem exec_registerWrite_config {s : State} (h : s.pw.stage = .run) (fn : BitVec 5) (item : BitVec 25) (v : Word) :
    exec (.registerWrite (.fn fn) .config item (some v)) s = .next (configWrite fn item.toNat v s) :=
  exec_registerWrite_run h _ _ item _

/-- Any other offset or size of a doorbell page counts (R491). -/
theorem bellWrite_drops {fn : BitVec 5} {size off : Nat} {v : Word} {s : State} (h : size ≠ 4 ∨ off % 0x1000 ∉ [0, 4, 8]) :
    bellWrite fn size off v s = bump Cnt.hiDbdrop s := by
  rw [bellWrite]
  split
  · rfl
  · rename_i hsize
    have hoff := h.resolve_left hsize
    simp only [List.mem_cons, List.not_mem_nil, or_false, not_or] at hoff
    split <;> simp_all [dropBell]

/-- The PF takes a maximum payload of up to 512 B (Table 16-1). -/
theorem configWrite_mps (v : Word) (s : State) : configWrite 0 0 v s =
    if v.toNat ≤ 2 then { s with hi := { s.hi with pcie := { s.hi.pcie with mps := v.setWidth 3 } } } else s :=
  if_congr (by simp) rfl rfl

/-- The PF takes a maximum read request of up to 4096 B (Table 16-1). -/
theorem configWrite_mrrs (v : Word) (s : State) : configWrite 0 1 v s =
    if v.toNat ≤ 5 then { s with hi := { s.hi with pcie := { s.hi.pcie with mrrs := v.setWidth 3 } } } else s :=
  if_congr (by simp) rfl rfl

/-- VF Enable cleared resets the VFs (R480). -/
theorem configWrite_vfEn (v : Word) (s : State) : configWrite 0 2 v s =
    let t := if s.hi.pcie.vfEn = true ∧ (!v.getLsbD 0) = true then resetFunctions (· ≠ 0) s else s
    { t with hi := { t.hi with pcie := { t.hi.pcie with vfEn := v.getLsbD 0 } } } := rfl

/-- The clause of BAR2 and of configuration space. -/
theorem doorbellPages : Sys2Proof.Clause.DoorbellPages := by
  intro s fn off v size r p hrun hr hp
  subst hr hp
  have bell := exec_registerWrite_bell hrun fn
  have config := exec_registerWrite_config hrun
  refine ⟨exec_registerWrite_run hrun _ _ off none, ?_, ?_, (config 0 0 v).trans (congrArg _ (configWrite_mps v s)),
    (config 0 1 v).trans (congrArg _ (configWrite_mrrs v s)), ?_, ?_, ?_, ?_⟩
  · intro h
    rw [bell, bellWrite_drops h]
  · rintro rfl
    refine ⟨fun h => ?_, fun h => ?_, fun h => ?_⟩ <;>
    · rw [bell, bellWrite, if_neg (by simp), h]
      rfl
  · intro hv
    rw [config, show (2 : BitVec 25).toNat = 2 from rfl, configWrite_vfEn]
    simp only [hv, Bool.not_true, Bool.false_eq_true, and_false, if_false]
  · intro hv
    rw [config, show (2 : BitVec 25).toNat = 2 from rfl, configWrite_vfEn]
    refine ⟨_, rfl, hv, fun hen k hfunc _ => ?_⟩
    simp only [hen, hv, Bool.not_false, and_self, if_true]
    exact resetFunctions_disabled (· ≠ 0) s k (by simpa using fun h => hfunc (BitVec.eq_of_toNat_eq h))
  · intro hv
    have hw : configWrite fn 3 v s =
        { s with hi := { s.hi with pcie := { s.hi.pcie with aer := s.hi.pcie.aer.filter (· ≠ fn.toNat) } } } := if_pos hv
    rw [config, show (3 : BitVec 25).toNat = 3 from rfl, hw]
    refine ⟨_, rfl, by simp, fun g hg => by simp [hg]⟩
  · have hread : configRead fn 3 s = if fn.toNat ∈ s.hi.pcie.aer then 0x1000 else 0 := by
      show fldB 12 (s.hi.pcie.aer.contains fn.toNat) = _
      by_cases h : fn.toNat ∈ s.hi.pcie.aer <;> simp [h] <;> rfl
    rw [← hread]
    exact exec_registerWrite_run hrun _ _ 3 none

/-- Settles O60: by what a write at each offset does, register by register for the plain fields and the command bits. -/
theorem registerWrites : Obligations.RegisterWrites := ⟨registers, doorbellPages⟩

end Sys2Proof.Machine
end

section
namespace Sys2Proof.Machine

/-! ### Routing of packets -/

theorem portUp_iff (s : State) (p : Nat) : portUp s p = true ↔ LinkUp s p := by
  simp [portUp, opticsOn, LinkUp]

theorem port_modPort_self (s : State) (p : Nat) (f : PortSt → PortSt) : (s.modPort p f).port p = f (s.port p) :=
  Tab.get_set_self _ _ _ _

theorem port_modPort_ne {p k : Nat} (s : State) (f : PortSt → PortSt) (h : k ≠ p) : (s.modPort p f).port k = s.port k :=
  Tab.get_set_ne _ _ _ h

/-- What routing reads of the state. -/
structure SameRoute (s u : State) : Prop where
  node : u.node = s.node
  time : u.time = s.time
  rt : u.bl.rt = s.bl.rt
  inbox : u.bl.inbox = s.bl.inbox
  ttl : u.bl.ttl = s.bl.ttl
  cnt : u.cnt = s.cnt
  up : ∀ p, portUp u p = portUp s p
  version : ∀ p, (u.port p).version = (s.port p).version

/-- What routing reads of the packet; the rest of it goes along unchanged. -/
structure SameTrip (q r : Pkt) : Prop where
  dest : r.dest = q.dest
  txid : r.txid = q.txid
  op : r.op = q.op
  ttl : r.ttl = q.ttl
  atSource : r.atSource = q.atSource

/-- Freeing the buffer of a port leaves all that routing reads. -/
theorem leaveRx_same (s : State) (q : Pkt) (x : List Pkt) :
    SameTrip q (leaveRx q { s with bl := { s.bl with pkts := x } }).1 ∧
      SameRoute s (leaveRx q { s with bl := { s.bl with pkts := x } }).2 := by
  rw [leaveRx]
  split
  · rename_i r _
    have hport (p : Nat) : (({ s with bl := { s.bl with pkts := x } } : State).modPort r.port (freeFlits r)).port p =
        if p = r.port then freeFlits r (s.port p) else s.port p := by
      split
      · subst_vars
        exact port_modPort_self _ _ _
      · exact port_modPort_ne _ _ ‹_›
    refine ⟨⟨rfl, rfl, rfl, rfl, rfl⟩, ⟨rfl, rfl, rfl, rfl, rfl, rfl, fun p => ?_, fun p => ?_⟩⟩
    · show (decide (PortSt.st _ = .up) && _) = _
      rw [hport]
      split <;> rfl
    · rw [hport]
      split <;> rfl
  · exact ⟨⟨rfl, rfl, rfl, rfl, rfl⟩, ⟨rfl, rfl, rfl, rfl, rfl, rfl, fun _ => rfl, fun _ => rfl⟩⟩

/-- The packet taken, and the state in which its port owes its credits. -/
theorem leaveRx_eq {s u : State} {q r : Pkt}
    (h : (q.rx = none → u = s ∧ r = q) ∧
      (∀ x, q.rx = some x → r = { q with rx := some { x with own := 0, shared := 0 } } ∧ u = s.modPort x.port (fun y =>
        { y with owed := Tab.set 0 (Tab.set 0 y.owed x.vc (Tab.get 0 y.owed x.vc + x.own)) 10
                           (Tab.get 0 y.owed 10 + x.shared) }))) : leaveRx q s = (r, u) := by
  obtain ⟨hnone, hsome⟩ := h
  rw [leaveRx]
  split
  · rename_i x hx
    obtain ⟨rfl, rfl⟩ := hsome x hx
    rfl
  · rename_i hx
    obtain ⟨rfl, rfl⟩ := hnone hx
    rfl

theorem dropPkt_silent {q : Pkt} (c : Nat) (s : State) (h : q.atSource = false ∨ isRequest q = false) :
    dropPkt c q s = bump c s := by
  rw [dropPkt, if_neg (by rcases h with h | h <;> simp [h])]

/-- A request without a route is answered at its source (R444). -/
theorem dropPkt_answers {q : Pkt} (c : Nat) (s : State) (ha : q.atSource = true) (hr : isRequest q = true) : ∃ w,
    (dropPkt c q s).bl.inbox = s.bl.inbox ++ [⟨s.node, s.node, q.txid, 0x24, s.bl.ttl, false, true, [rawM w], [], none, s.time⟩] ∧
      (dropPkt c q s).cnt = (bump c s).cnt := by
  rw [dropPkt, if_pos ⟨ha, hr⟩]
  exact ⟨_, rfl, rfl⟩

section
variable {q : Pkt} {s : State}

theorem routePkt_home (h : q.dest = s.node) :
    routePkt q s = { s with bl := { s.bl with inbox := s.bl.inbox ++ [{ q with tick := s.time }] } } := if_pos h

/-- A packet of transit with its last hop used up (R444). -/
theorem routePkt_ttl (h : q.dest ≠ s.node) (hs : q.atSource = false) (ht : q.ttl = 1) :
    routePkt q s = bump Cnt.blTtl s := by
  rw [routePkt, if_neg h, if_pos (by simp [hs, ht]), dropPkt_silent _ _ (.inl hs)]

variable (h : q.dest ≠ s.node) (ht : q.atSource = true ∨ q.ttl ≠ 1)
include h ht

/-- A packet with a hop left, by the entry of its destination. -/
theorem routePkt_forwards {e : BitVec 16} {q' : Pkt} (he : e = Tab.get 0 s.bl.rt q.dest.toNat)
    (hq' : q' = if q.atSource then q else { q with ttl := q.ttl - 1 }) : routePkt q s =
    if !e.getLsbD 10 then dropPkt Cnt.blNoroute q' s
    else if portUp s (e.extractLsb' 0 4).toNat then sendTo (e.extractLsb' 0 4).toNat (e.getLsbD 9) q' s
    else if e.getLsbD 8 && portUp s (e.extractLsb' 4 4).toNat then sendTo (e.extractLsb' 4 4).toNat (e.getLsbD 9) q' s
    else dropPkt Cnt.blNoroute q' s := by
  have hlast : ¬ ((!q.atSource) = true ∧ q.ttl - 1 = 0) := by
    rintro ⟨hs, hz⟩
    rcases ht with ht | ht
    · simp [ht] at hs
    · exact ht (by bv_omega)
  subst he hq'
  rw [routePkt, if_neg h, if_neg hlast]

end

theorem exec_packetRoute {s u : State} {q r : Pkt} (hq : (s.bl.pkts.find? fun y => !(s.pf && y.atSource)) = some q)
    (hl : leaveRx q { s with bl := { s.bl with pkts := s.bl.pkts.erase q } } = (r, u)) :
    exec .packetRoute s = .next (routePkt r u) := by
  show execPacketRoute s = _
  simp only [execPacketRoute, hq, takeRoute, hl]

theorem exec_packetRoute_none {s : State} (h : (s.bl.pkts.find? fun y => !(s.pf && y.atSource)) = none) :
    exec .packetRoute s = .next s := by
  show execPacketRoute s = _
  simp only [execPacketRoute, h]

/-- On a version-2 link the packet joins the queue of its port (R441). -/
theorem sendTo_queues {s : State} {n : Nat} (dl : Bool) (q : Pkt) (h : (s.port n).version ≠ 1) : sendTo n dl q s =
    servePort n (s.modPort n fun y => { y with txq := y.txq ++ [{ q with laneB := q.laneB || dl }] }) := by
  rw [sendTo, if_pos h]

end Sys2Proof.Machine
end

section
namespace Sys2Proof.Machine

/-! ### What the memory system leaves alone -/

/-- What no read or write of memory changes, as messages and routing need it: tasks and listeners, contexts, the routing tables,
the rings and the count of full rings. -/
structure Kept where
  ll : LlSt
  ctxs : Tab Ctx
  rt : Tab (BitVec 16)
  rtSh : Tab (BitVec 16)
  rtPend : Bool
  ring : Rwc BlRing
  full : Word

/-- That part of a state. -/
def kept (s : State) : Kept := ⟨s.ll, s.ctxs, s.bl.rt, s.bl.rtSh, s.bl.rtPend, s.bl.ring, s.counter Cnt.blRingfull⟩

/-! Writing one component of the memory system. -/

@[simp] theorem kept_record (sev src reason a0 a1 a2 a3 a4) (s : State) : kept (record sev src reason a0 a1 a2 a3 a4 s) = kept s := rfl
@[simp] theorem kept_modMc (s : State) (c : Nat) (f : McSt → McSt) : kept (s.modMc c f) = kept s := rfl
@[simp] theorem kept_setMc (s : State) (c : Nat) (x : McSt) : kept (s.setMc c x) = kept s := rfl
@[simp] theorem kept_modLan (s : State) (l : Lan) (f : LanSt → LanSt) : kept (s.modLan l f) = kept s := rfl
@[simp] theorem kept_modCore (s : State) (k : CoreId) (f : CoreSt → CoreSt) : kept (s.modCore k f) = kept s := rfl
@[simp] theorem kept_setL2 (l : Lan) (ln : Nat) (x : L2Line) (s : State) : kept (setL2 l ln x s) = kept s := rfl
@[simp] theorem kept_touchL2 (l : Lan) (ln : Nat) (s : State) : kept (touchL2 l ln s) = kept s := rfl
@[simp] theorem kept_setDir (ln : Nat) (e : DirEnt) (s : State) : kept (setDir ln e s) = kept s := rfl
@[simp] theorem kept_setSpan (i : Nat) (e : SpanEnt) (s : State) : kept (setSpan i e s) = kept s := rfl
@[simp] theorem kept_post (dest txid op head body) (s : State) : kept (post dest txid op head body s) = kept s := rfl
@[simp] theorem kept_requestWrite (ln dest op head body) (s : State) : kept (requestWrite ln dest op head body s) = kept s := rfl
@[simp] theorem kept_missed (s : State) (m : Option (Nat × Bool)) : kept { s with miss := m } = kept s := rfl

/-- What a counter other than that of full rings counts. -/
theorem kept_bumpBy {k : Nat} (h : k ≠ Cnt.blRingfull) (n : Nat) (s : State) : kept (bumpBy k n s) = kept s := by
  have : (bumpBy k n s).counter Cnt.blRingfull = s.counter Cnt.blRingfull := Tab.get_set_ne _ _ _ h.symm
  rw [kept, this]
  rfl

theorem kept_bump {k : Nat} (h : k ≠ Cnt.blRingfull) (s : State) : kept (bump k s) = kept s := kept_bumpBy h 1 s

@[simp] theorem kept_bump_mc (c i : Nat) (s : State) : kept (bump (0x800000 + 0x10000 * c + i) s) = kept s :=
  kept_bump (show 0x800000 + 0x10000 * c + i ≠ 0x600060 by omega) s

@[simp] theorem kept_foldl {α : Type} {f : State → α → State} (h : ∀ s a, kept (f s a) = kept s) (l : List α)
    (s : State) : kept (l.foldl f s) = kept s := by
  induction l generalizing s with
  | nil => rfl
  | cons a r ih => rw [List.foldl_cons, ih, h]

/-! A lantern's caches. -/

@[simp] theorem kept_dropL1d (l : Lan) (ln : Nat) (s : State) : kept (dropL1d l ln s) = kept s :=
  kept_foldl (fun s k => by split <;> simp) _ s

@[simp] theorem kept_writeL2 (l : Lan) (ln : Nat) (st : Moesi) (ws : Tab (Option MWord)) (s : State) :
    kept (writeL2 l ln st ws s) = kept s := by
  rw [writeL2, kept_foldl (fun s k => by split <;> simp)]
  simp

@[simp] theorem kept_invalidate (l : Lan) (ln : Nat) (s : State) : kept (invalidate l ln s) = kept s := by
  simp [invalidate]

@[simp] theorem kept_supply (l : Lan) (ln : Nat) (own : Bool) (s : State) : kept (supply l ln own s).2 = kept s := by
  rw [supply]
  split <;> cases own <;> simp

/-! A home agent's stack and directory. -/

@[simp] theorem kept_setHbmWords (loc : Nat) (l : Line) (s : State) : kept (setHbmWords loc l s) = kept s := by
  induction l generalizing loc s with
  | nil => rfl
  | cons w r ih => rw [setHbmWords, ih]; rfl

@[simp] theorem kept_setHbmLine (loc : Nat) (l : Line) (s : State) : kept (setHbmLine loc l s) = kept s := by
  simp [setHbmLine]

@[simp] theorem kept_touchTag (c loc : Nat) (s : State) : kept (touchTag c loc s) = kept s := by
  rw [touchTag]
  split <;> simp [Cnt.mcTagcHit, Cnt.mcTagcMiss]

@[simp] theorem kept_homeWrite (loc : Nat) (l : Line) (s : State) : kept (homeWrite loc l s) = kept s := by
  simp [homeWrite]

@[simp] theorem kept_shareDir (h : Holder) (ln : Nat) (e : DirEnt) (s : State) : kept (shareDir h ln e s) = kept s := by
  rw [shareDir, kept_setDir]
  split
  · exact kept_bump (by decide) s
  · rfl

@[simp] theorem kept_homeWriteBack (l : Holder) (ln : Nat) (d : Line) (k : Moesi) (s : State) :
    kept (homeWriteBack l ln d k s) = kept s := by
  rw [homeWriteBack]
  split
  · cases k <;> simp
  · rfl

@[simp] theorem kept_homeNotice (l : Holder) (ln : Nat) (s : State) : kept (homeNotice l ln s) = kept s := rfl

@[simp] theorem kept_pick (s : State) (n : Nat) : kept (s.pick n).2 = kept s := by
  rw [State.pick]
  split <;> rfl

@[simp] theorem kept_leaveL2 (l : Lan) (ln : Nat) (s : State) : kept (leaveL2 l ln s) = kept s := by
  rw [leaveL2]
  cases (s.l2 l ln).st <;> dsimp only
  case S =>
    split
    · simp
    · split <;> simp
  all_goals split <;> simp

@[simp] theorem kept_reportSpan (pa : PA) (s : State) : kept (reportSpan pa s) = kept s := by
  rw [reportSpan]
  split <;> simp

@[simp] theorem kept_unpopulated (pa : PA) (s : State) : kept (unpopulated pa s) = kept s := by
  simp [unpopulated, Cnt.mcUnpop]

@[simp] theorem kept_homeUncorrectable (ln : Nat) (src : BitVec 3) (s : State) :
    kept (homeUncorrectable ln src s) = kept s := by
  simp [homeUncorrectable, Cnt.mcUncorr]

theorem kept_meetHome (src : BitVec 3) (c loc : Nat) (s : State) :
    kept (meetHome src (some (Cnt.mcCorr c)) none loc s) = kept s := by
  rw [meetHome]
  dsimp only
  split
  · simp [Cnt.mcCorr]
  · simp
  · split <;> simp [Cnt.mcCorr]

@[simp] theorem kept_homeRead (loc : Nat) (s : State) : kept (homeRead loc s).2 = kept s := by
  simp [homeRead, kept_meetHome]

/-! Copies that answer. -/

@[simp] theorem kept_meetL2 (l : Lan) (ln : Nat) (s : State) : kept (meetL2 l ln s) = kept s := by
  have hu (u : State) : kept (bump Cnt.ccL2Uncorr u) = kept u := kept_bump (by decide) u
  have hc (n : Nat) (u : State) : kept (bumpBy Cnt.ccL2Corr n u) = kept u := kept_bumpBy (by decide) n u
  rw [meetL2]
  split
  · rfl
  split
  · split <;> simp [hu]
  split
  · split <;> simp [hu]
  · simp [hc]

@[simp] theorem kept_takeLocal (req : Option Holder) (shared : Bool) (ln : Nat) (s : State) :
    kept (takeLocal req shared ln s).2 = kept s := by
  unfold takeLocal
  extract_lets t e data mine lost v v'
  have hmet : kept t = kept s := by
    unfold t
    split
    · split <;> simp
    · rfl
  have hall : kept v' = kept t := by
    unfold v' v
    split <;> simp
  rw [← hmet]
  split
  · split
    · rename_i o _
      split
      · have hsup := kept_supply o.lan ln false t
        split <;> rename_i hs <;> rw [hs] at hsup <;> dsimp only at hsup ⊢
        · split <;> simp [hsup]
        · simp [hsup]
      · rfl
    · rfl
  · exact hall

end Sys2Proof.Machine
end

section
namespace Sys2Proof.Machine

/-! ### Reads by the agents of the HUB and of the fabric -/

@[simp] theorem kept_failed (s : State) (l : List Nat) : kept { s with bl := { s.bl with failed := l } } = kept s := rfl

@[simp] theorem kept_snoopLine (ln : Nat) (s : State) : kept (snoopLine ln s).2 = kept s := by
  rw [snoopLine]
  split
  · rfl
  split
  · dsimp only
    split <;> simp
  split
  · rfl
  · have h := kept_takeLocal (some ⟨s.node, 0⟩) true ln s
    split <;> rename_i hl <;> rw [hl] at h <;> dsimp only at h
    · exact h
    · rw [kept_homeRead, h]

@[simp] theorem kept_physRead (pa : PA) (s : State) : kept (physRead pa s).2 = kept s := by
  rw [physRead]
  split
  · rfl
  split
  · exact kept_unpopulated pa s
  · exact kept_snoopLine (lineNo pa) s

theorem kept_ringEntry (r : Nat) (s : State) : kept (ringEntry r s).2 = kept s := by
  have h (l : List Nat) (p : List MWord × State) : kept (l.foldl (fun (p : List MWord × State) i =>
      let (w, s) := physRead (s.bl.ring.lv.base + BitVec.ofNat 53 (32 * r + 4 * i)) p.2
      (p.1 ++ [w], s)) p).2 = kept p.2 := by
    induction l generalizing p with
    | nil => rfl
    | cons i l ih => rw [List.foldl_cons, ih]; exact kept_physRead _ _
  exact h _ _

/-! ### Writes by the fabric agent -/

@[simp] theorem kept_homeQueue (r : HomeReq) (s : State) : kept (homeQueue r s) = kept s := by
  rw [homeQueue]
  split <;> rfl

@[simp] theorem kept_lostOwner (r : Requester) (k : HomeKind) (ln : Nat) (s : State) : kept (lostOwner r k ln s) = kept s := by
  rw [lostOwner]
  split <;> simp

@[simp] theorem kept_ackTo (r : Requester) (ln : Nat) (s : State) : kept (ackTo r ln s) = kept s := by
  rw [ackTo]
  split <;> simp

@[simp] theorem kept_txnData (t : HomeTxn) (s : State) : kept (txnData t s).2 = kept s := by
  rw [txnData]
  split <;> simp

@[simp] theorem kept_wholeLine (t : HomeTxn) (s : State) : kept (wholeLine t s).2 = kept s := by
  simp [wholeLine]

@[simp] theorem kept_gatheredWrite (t : HomeTxn) (d : Line) (s : State) : kept (gatheredWrite t d s) = kept s := by
  rw [gatheredWrite]
  split <;> simp

/-- An uncached write completes at home. -/
theorem kept_homeFinish_uncached {t : HomeTxn} {keep : Bool} {ws : Tab (Option MWord)} (h : t.kind = .uncached keep ws)
    (s : State) : kept (homeFinish t s) = kept s := by
  unfold homeFinish
  rw [h]
  dsimp only
  split <;> simp

@[simp] theorem kept_txns (s : State) (x : List HomeTxn) (id : BitVec 16) :
    kept { s with bl := { s.bl with txns := x, txNext := id } } = kept s := rfl

/-- An uncached write is served, or waits for copies on other nodes. -/
theorem kept_homeServe_uncached (r : Requester) (keep : Bool) (ws : Tab (Option MWord)) (ln : Nat) (s : State) :
    kept (homeServe r (.uncached keep ws) ln s) = kept s := by
  unfold homeServe
  extract_lets u e shared me
  have hcopies : kept (takeLocal me shared ln u).2 = kept s := by simp [u]
  rw [if_neg (by simp)]
  split
  rename_i data v hv
  rw [hv] at hcopies
  extract_lets e id fwd invs txn x y
  clear_value fwd
  have hx : kept x = kept v := by cases fwd <;> rfl
  have hy : kept y = kept x := kept_foldl (fun _ _ => kept_post ..) invs x
  split
  · exact (kept_homeFinish_uncached (t := txn) rfl v).trans hcopies
  · exact hy.trans (hx.trans hcopies)

theorem dirVictim_uncached (s : State) (keep : Bool) (ws : Tab (Option MWord)) (ln : Nat) :
    dirVictim s (.uncached keep ws) ln = none := by
  simp [dirVictim]

@[simp] theorem kept_agentWriteLine (ln : Nat) (ws : Tab (Option MWord)) (s : State) :
    kept (agentWriteLine false none ln ws s) = kept s := by
  have hlate : kept (bump Cnt.cnLateWrite s) = kept s := kept_bump (by decide) s
  rw [agentWriteLine]
  split
  · exact hlate
  simp only [physWriteKeep]
  split
  · exact kept_requestWrite ..
  split
  · rfl
  split
  · exact kept_unpopulated _ s
  · rw [homeRequest, dirVictim_uncached]
    split
    · exact kept_homeQueue _ s
    · exact kept_homeServe_uncached _ _ _ _ _

@[simp] theorem kept_agentWrite (pa : PA) (w : MWord) (s : State) : kept (agentWrite pa w s) = kept s :=
  kept_agentWriteLine _ _ s

end Sys2Proof.Machine
end

section
namespace Sys2Proof.Machine

/-! ### Routing tables -/

/-- A table whose entry k has its reserved bits 0. -/
def MaskedAt (t : Tab (BitVec 16)) (k : Nat) : Prop := Tab.get 0 t k &&& 0xF800 = 0

theorem rtEntry_masked (v : BitVec 16) : rtEntry v &&& 0xF800 = 0 := by
  rw [rtEntry, BitVec.and_assoc]
  simp

/-- A loaded entry is masked, and no other changes. -/
theorem MaskedAt.set {t : Tab (BitVec 16)} {k j : Nat} (v : BitVec 16) (h : k = j ∨ MaskedAt t k) :
    MaskedAt (Tab.set 0 t j (rtEntry v)) k := by
  by_cases hk : k = j
  · subst hk
    rw [MaskedAt, Tab.get_set_self]
    exact rtEntry_masked v
  · rw [MaskedAt, Tab.get_set_ne _ _ _ hk]
    exact h.resolve_left hk

/-- A LOAD of n words leaves the live table and a waiting exchange. -/
theorem loadRt_live (src : PA) (k n : Nat) (s : State) :
    (loadRt src k n s).bl.rt = s.bl.rt ∧ (loadRt src k n s).bl.rtPend = s.bl.rtPend := by
  induction n generalizing k s with
  | zero => exact ⟨rfl, rfl⟩
  | succ n ih =>
    have hread := kept_physRead (src + BitVec.ofNat 53 (4 * k)) s
    obtain ⟨hrt, hpend⟩ := ih (k + 1) _
    rw [loadRt, hrt, hpend]
    exact ⟨congrArg Kept.rt hread, congrArg Kept.rtPend hread⟩

/-- A LOAD masks the entries that it fills (R19, Table 14-6). -/
theorem loadRt_masked (src : PA) (k n : Nat) (s : State) (j : Nat)
    (h : (2 * k ≤ j ∧ j < 2 * (k + n)) ∨ MaskedAt s.bl.rtSh j) : MaskedAt (loadRt src k n s).bl.rtSh j := by
  induction n generalizing k s with
  | zero => exact h.resolve_left (by omega)
  | succ n ih =>
    have hsh : (physRead (src + BitVec.ofNat 53 (4 * k)) s).2.bl.rtSh = s.bl.rtSh := congrArg Kept.rtSh (kept_physRead _ s)
    rw [loadRt]
    generalize physRead (src + BitVec.ofNat 53 (4 * k)) s = p at hsh ⊢
    obtain ⟨w, u⟩ := p
    refine ih _ _ ?_
    by_cases hj : 2 * (k + 1) ≤ j ∧ j < 2 * (k + 1 + n)
    · exact .inl hj
    · refine .inr (MaskedAt.set _ ?_)
      by_cases hodd : j = 2 * k + 1
      · exact .inl hodd
      · refine .inr (MaskedAt.set _ ?_)
        rw [show u.bl.rtSh = s.bl.rtSh from hsh]
        exact h.imp_left fun h => by omega

theorem withLines_reads {f : State → State} {s : State} (h : Reads f s) : withLines f s = f { s with miss := none } := by
  rw [withLines, show (f { s with miss := none }).miss = none from h]

end Sys2Proof.Machine
end

section
namespace Sys2Proof.Machine
theorem exec_rtLoadDone {s : State} {src : PA} (h : s.bl.rtLoad = some src) (hr : Reads (rtLoaded src) s) :
    exec .rtLoadDone s = .next (rtLoaded src { s with miss := none }) := by
  show execRtLoadDone s = _
  rw [execRtLoadDone, h]
  exact congrArg _ (withLines_reads hr)

/-- The end of a LOAD by what it has loaded. -/
theorem rtLoaded_of_loadRt {src : PA} {s v : State} (h : loadRt src 0 32768 s = v) : rtLoaded src s =
    if v.bl.rtPend then swapRt { v with bl := { v.bl with rtLoad := none } }
    else { v with bl := { v.bl with rtLoad := none } } := by
  unfold rtLoaded
  rw [h]

theorem swapRt_loaded {v : State} {t : Tab (BitVec 16)} (h : v.bl.rt = t) :
    swapRt { v with bl := { v.bl with rtLoad := none } } =
      { v with bl := { v.bl with rtLoad := none, rt := v.bl.rtSh, rtSh := t, rtPend := false } } := by
  subst h
  rfl

/-- What a LOAD that ends leaves (R445). -/
theorem rtLoaded_clause (s : State) (src : PA) (h : s.bl.rtLoad = some src) (hr : Reads (rtLoaded src) s) :
    ∃ v, v = loadRt src 0 32768 { s with miss := none } ∧ v.bl.rt = s.bl.rt ∧
      (∀ k, k < 65536 → Tab.get 0 v.bl.rtSh k &&& 0xF800 = 0) ∧
      (s.bl.rtPend = false → exec .rtLoadDone s = .next { v with bl := { v.bl with rtLoad := none } }) ∧
      (s.bl.rtPend = true → exec .rtLoadDone s = .next { v with bl := { v.bl with
        rtLoad := none, rt := v.bl.rtSh, rtSh := s.bl.rt, rtPend := false } }) := by
  have hlive := loadRt_live src 0 32768 { s with miss := none }
  have hmask := loadRt_masked src 0 32768 { s with miss := none }
  have hexec := exec_rtLoadDone h hr
  generalize hv : loadRt src 0 32768 { s with miss := none } = v at hlive hmask
  obtain ⟨hrt, hpend⟩ := hlive
  rw [rtLoaded_of_loadRt hv] at hexec
  refine ⟨v, rfl, hrt, fun k hk => hmask k (.inl (by omega)), fun hp => ?_, fun hp => ?_⟩
  · have hf : v.bl.rtPend = false := hpend.trans hp
    rw [hexec, hf]
    exact congrArg _ (if_neg Bool.false_ne_true)
  · have ht : v.bl.rtPend = true := hpend.trans hp
    rw [hexec, ht]
    exact congrArg _ ((if_pos rfl).trans (swapRt_loaded hrt))

end Sys2Proof.Machine
end

section
namespace Sys2Proof.Machine

section
variable {s u : State} {q r : Pkt} (hq : (s.bl.pkts.find? fun y => !(s.pf && y.atSource)) = some q)
  (hl : leaveRx q { s with bl := { s.bl with pkts := s.bl.pkts.erase q } } = (r, u))

include hl in
theorem sameTrip_of_leaveRx : SameTrip q r ∧ SameRoute s u := by
  have hsame := leaveRx_same s q (s.bl.pkts.erase q)
  rwa [hl] at hsame

include hq hl

theorem packetRoute_home (h : q.dest = s.node) : exec .packetRoute s =
    .next { u with bl := { u.bl with inbox := s.bl.inbox ++ [{ r with tick := s.time }] } } := by
  obtain ⟨htrip, hroute⟩ := sameTrip_of_leaveRx hl
  rw [exec_packetRoute hq hl, routePkt_home (by rw [htrip.dest, hroute.node, h]), hroute.inbox, hroute.time]

theorem packetRoute_ttl (h : q.dest ≠ s.node) (hs : q.atSource = false) (ht : q.ttl = 1) :
    exec .packetRoute s = .next (bump Cnt.blTtl u) := by
  obtain ⟨htrip, hroute⟩ := sameTrip_of_leaveRx hl
  rw [exec_packetRoute hq hl, routePkt_ttl (by rwa [htrip.dest, hroute.node]) (htrip.atSource.trans hs) (htrip.ttl.trans ht)]

/-- A packet with a hop left goes by the entry of its destination in the live table (R444). -/
theorem packetRoute_forwards (h : q.dest ≠ s.node) (ht : q.atSource = true ∨ q.ttl ≠ 1) {e : BitVec 16} {q' : Pkt}
    (he : e = Tab.get 0 s.bl.rt q.dest.toNat) (hq' : q' = if q.atSource then r else { r with ttl := q.ttl - 1 }) :
    exec .packetRoute s = .next (
      if !e.getLsbD 10 then dropPkt Cnt.blNoroute q' u
      else if portUp s (e.extractLsb' 0 4).toNat then sendTo (e.extractLsb' 0 4).toNat (e.getLsbD 9) q' u
      else if e.getLsbD 8 && portUp s (e.extractLsb' 4 4).toNat then sendTo (e.extractLsb' 4 4).toNat (e.getLsbD 9) q' u
      else dropPkt Cnt.blNoroute q' u) := by
  obtain ⟨htrip, hroute⟩ := sameTrip_of_leaveRx hl
  rw [exec_packetRoute hq hl, routePkt_forwards (by rwa [htrip.dest, hroute.node]) (by rwa [htrip.atSource, htrip.ttl])
    (he.trans (by rw [hroute.rt, htrip.dest])) (hq'.trans (by simp only [htrip.atSource, htrip.ttl])), hroute.up, hroute.up]

end

/-- A packet with one hop less is dropped as the packet taken. -/
theorem hop_same {q r q' : Pkt} (h : SameTrip q r) (hq' : q' = if q.atSource then r else { r with ttl := q.ttl - 1 }) :
    q'.atSource = q.atSource ∧ isRequest q' = isRequest q ∧ q'.txid = q.txid := by
  have hreq : isRequest r = isRequest q := by simp only [isRequest, h.op]
  rw [hq']
  split <;> exact ⟨h.atSource, hreq, h.txid⟩

theorem exec_blRtLoad {s : State} : exec .blRtLoad s = .next (
    if s.bl.rtPend then { s with bl := { s.bl with cfgerr := true } }
    else if s.bl.rtLoad.isSome then s
    else if s.bl.rtSrc.toNat % 64 ≠ 0 then { s with bl := { s.bl with cfgerr := true } }
    else { s with bl := { s.bl with rtLoad := some s.bl.rtSrc } }) := rfl

theorem exec_blRtCommit {s : State} : exec .blRtCommit s =
    .next (if s.bl.rtLoad.isSome then { s with bl := { s.bl with rtPend := true } } else swapRt s) := rfl

/-- The clause of routing and of the routing tables. -/
theorem routing : Sys2Proof.Clause.Routing := by
  intro s u q r q' e
  refine ⟨portUp_iff s, fun h => ?_, fun hpf h => ?_, fun hq hl he hq' => ?_, fun hp => ?_, fun hl => ⟨fun hp => ?_, ?_⟩,
    fun hl => ⟨?_, ?_, fun hsrc => ?_, fun hp hsrc => ?_⟩, rtLoaded_clause s⟩
  · exact exec_packetRoute_none (by rw [h]; rfl)
  · refine exec_packetRoute_none (List.find?_eq_none.mpr fun y hy => ?_)
    simp [hpf, h y hy]
  · have hleave := leaveRx_eq (hl _ rfl)
    obtain ⟨htrip, hsame⟩ := sameTrip_of_leaveRx hleave
    obtain ⟨hsource, hrequest, htxid⟩ := hop_same htrip hq'
    refine ⟨packetRoute_home hq hleave, fun haway => ⟨packetRoute_ttl hq hleave haway, fun hlast => ?_⟩,
      fun n dl hv => sendTo_queues dl q' (hsame.version n ▸ hv)⟩
    rw [packetRoute_forwards hq hleave haway hlast he hq']
    refine ⟨fun hv hp => ?_, fun hv hp => ⟨fun ha hpa => ?_, fun hno hs => ?_⟩, fun hv => ⟨fun hs => ?_, fun hs hr => ?_⟩⟩
    · simp only [hv, hp, Bool.not_true, Bool.false_eq_true, if_false, if_true]
    · simp only [hv, hp, ha, hpa, Bool.not_true, Bool.false_eq_true, if_false, Bool.and_true, if_true]
    · have halt : (e.getLsbD 8 && portUp s (e.extractLsb' 4 4).toNat) = false := Bool.and_eq_false_iff.mpr hno
      simp only [hv, hp, halt, Bool.not_true, Bool.false_eq_true, if_false]
      rw [dropPkt_silent _ _ (.inl (hsource.trans hs))]
    · simp only [hv, Bool.not_false, if_true]
      rw [dropPkt_silent _ _ (by rwa [hsource, hrequest])]
    · simp only [hv, Bool.not_false, if_true]
      obtain ⟨w, hin, hc⟩ := dropPkt_answers Cnt.blNoroute u (hsource.trans hs) (hrequest.trans hr)
      refine ⟨_, w, rfl, ?_, ?_⟩
      · rw [hin, hsame.inbox, hsame.node, htxid, hsame.ttl, hsame.time]
      · rw [Counts, State.counter, hc, bump, bumpBy, State.counter, hsame.cnt]
        rfl
  · rw [exec_blRtLoad, if_pos hp]
  · rw [exec_blRtLoad, if_neg (by simp [hp]), if_pos hl]
  · rw [exec_blRtCommit, if_pos hl]
  · show execRtLoadDone s = _
    rw [execRtLoadDone, hl]
  · rw [exec_blRtCommit, if_neg (by simp [hl]), swapRt]
  · rw [exec_blRtLoad]
    by_cases hp : s.bl.rtPend = true
    · rw [if_pos hp]
    · rw [if_neg hp, if_neg (by simp [hl]), if_pos hsrc]
  · rw [exec_blRtLoad, if_neg (by simp [hp]), if_neg (by simp [hl]), if_neg (by simp [hsrc])]

end Sys2Proof.Machine
end

section
namespace Sys2Proof.Machine

/-! ### Messages that leave -/

/-- The envelope of a message (Table 14-8). -/
theorem msgHead_eq (s : State) (m : SendMsg) (x : BitVec 48) (h : x = m.crossing.getD 0) : msgHead s m =
    [⟨Ty.hdr, false, false, 0xC400000F⟩, rawM (s.node ++ (0 : BitVec 6) ++ m.ring), rawM (x.setWidth 32),
      rawM ((0 : BitVec 15) ++ bit m.crossing.isSome ++ x.extractLsb' 32 16), rawM (m.ctx.setWidth 32),
      (TWord.fix (BitVec.ofNat 32 m.words.length)).m] := by
  subst h
  rw [msgHead, ← BitVec.setWidth_eq_extractLsb' (by decide)]
  rfl

theorem sendMsg_eq (s : State) (m : SendMsg) : sendMsg m s =
    bump Cnt.blMsgTx { s with bl := { s.bl with pkts := s.bl.pkts ++ [packet s m.node 0 0x40 (msgHead s m) m.words] } } := rfl

theorem exec_msgSendTake_core_idle {s : State} {k : CoreId} (h : (s.core k).send = [] ∨ s.pf = true) :
    exec (.msgSendTake (some k)) s = .next s := by
  show execMsgSendTake (some k) s = _
  cases hpf : s.pf <;> simp only [execMsgSendTake, hpf, Bool.false_eq_true, if_false, if_true]
  rw [h.resolve_right (by simp [hpf])]

theorem exec_msgSendTake_host_idle {s : State} (h : s.hi.sendq = [] ∨ s.pf = true) :
    exec (.msgSendTake none) s = .next s := by
  show execMsgSendTake none s = _
  cases hpf : s.pf <;> simp only [execMsgSendTake, hpf, Bool.false_eq_true, if_false, if_true]
  rw [h.resolve_right (by simp [hpf])]

theorem exec_msgSendTake_core {s : State} {k : CoreId} {m : SendMsg} {ms : List SendMsg} (hpf : s.pf = false)
    (h : (s.core k).send = m :: ms) :
    exec (.msgSendTake (some k)) s = .next (sendMsg m (s.modCore k fun c => { c with send := ms })) := by
  show execMsgSendTake (some k) s = _
  simp only [execMsgSendTake, hpf, h, Bool.false_eq_true, if_false]

/-- The SEND that has waited for its message to be taken completes (R500). -/
def sendTaken (n : Nat) (s : State) : State :=
  match (s.ring n).going with
  | some g => if g.msg then endGoing n { g with msg := false } s else s
  | none => s

theorem sendTaken_idle {n : Nat} {s : State} (h : (s.ring n).going = none) : sendTaken n s = s := by
  rw [sendTaken, h]

theorem sendTaken_waits {n : Nat} {s : State} {g : Going} (h : (s.ring n).going = some g) (hm : g.msg = true) :
    sendTaken n s = endGoing n { g with msg := false } s := by
  rw [sendTaken, h]
  exact if_pos hm

theorem exec_msgSendTake_host {s : State} {n : Nat} {m : SendMsg} {hs : List (Nat × SendMsg)} (hpf : s.pf = false)
    (h : s.hi.sendq = (n, m) :: hs) :
    exec (.msgSendTake none) s = .next (sendTaken n (sendMsg m { s with hi := { s.hi with sendq := hs } })) := by
  show execMsgSendTake none s = _
  unfold execMsgSendTake
  rw [if_neg (by simp [hpf])]
  dsimp only
  rw [h]
  rfl

/-! ### Messages that arrive -/

/-- The one of several messages of a tick that R457 puts first. -/
theorem firstByPort_eq {q : Pkt} (a : Pkt) (l : List Pkt) (hmin : ∀ z ∈ a :: l, msgPort q ≤ msgPort z)
    (hfirst : ((a :: l).filter fun z => msgPort z = msgPort q).head? = some q) : firstByPort a l = q := by
  induction l generalizing a with
  | nil =>
    exact (List.mem_singleton.mp (List.mem_of_mem_filter (List.mem_of_mem_head? hfirst))).symm
  | cons p r ih =>
    have ha := hmin a List.mem_cons_self
    have hp := hmin p (List.mem_cons_of_mem _ List.mem_cons_self)
    rw [firstByPort]
    split
    · rename_i hlt
      refine ih p (fun z hz => hmin z (List.mem_cons_of_mem _ hz)) ?_
      rwa [List.filter_cons_of_neg (by simp; omega)] at hfirst
    · rename_i hge
      refine ih a (fun z hz => hmin z ?_) ?_
      · rcases List.mem_cons.mp hz with rfl | hz
        · exact List.mem_cons_self
        · exact List.mem_cons_of_mem _ (List.mem_cons_of_mem _ hz)
      · by_cases heq : msgPort a = msgPort q
        · rw [List.filter_cons_of_pos (by simpa using heq)] at hfirst ⊢
          exact hfirst
        · rwa [List.filter_cons_of_neg (by simpa using heq), List.filter_cons_of_neg (by simp; omega),
            ← List.filter_cons_of_neg (a := a) (by simpa using heq)] at hfirst

/-- The oldest of some packets with a property stands first among them. -/
theorem filter_eq_cons_of_find? {l : List Pkt} {p f : Pkt → Bool} {y : Pkt} (h : l.find? p = some y) (hy : f y = true)
    (hf : ∀ z, f z = true → p z = true) : ∃ r, l.filter f = y :: r := by
  obtain ⟨-, as, bs, rfl, has⟩ := List.find?_eq_some_iff_append.mp h
  refine ⟨bs.filter f, ?_⟩
  rw [List.filter_append, List.filter_cons_of_pos hy, List.filter_eq_nil_iff.mpr, List.nil_append]
  intro z hz hfz
  simpa [hf z hfz] using has z hz

theorem exec_msgDelivery_none {s : State} (h : ∀ y ∈ s.bl.inbox, y.op ≠ 0x40) : exec .msgDelivery s = .next s := by
  show execMsgDelivery s = _
  rw [execMsgDelivery, List.find?_eq_none.mpr fun y hy => by simpa using h y hy]

theorem exec_msgDelivery {s : State} {y q : Pkt} {same : List Pkt} (hy : (s.bl.inbox.find? fun y => y.op = 0x40) = some y)
    (hsame : same = s.bl.inbox.filter (fun z => decide (z.op = 0x40 ∧ msgRing z = msgRing y ∧ z.tick = y.tick)))
    (hmin : ∀ z ∈ same, msgPort q ≤ msgPort z) (hfirst : (same.filter fun z => msgPort z = msgPort q).head? = some q)
    (hr : Reads (takeMsg q) s) : exec .msgDelivery s = .next (takeMsg q { s with miss := none }) := by
  have hop : y.op = 0x40 := by simpa using List.find?_some hy
  obtain ⟨r, hcons⟩ := filter_eq_cons_of_find? (f := fun z => decide (z.op = 0x40 ∧ msgRing z = msgRing y ∧ z.tick = y.tick)) hy
    (by simpa using hop) (fun z hz => by simp only [decide_eq_true_eq] at hz ⊢; exact hz.1)
  have hlist : same = y :: r := hsame.trans hcons
  have hq : firstByPort y same = q := by
    rw [hlist] at hmin hfirst ⊢
    rw [firstByPort, if_neg (Nat.lt_irrefl _)]
    exact firstByPort_eq y r hmin hfirst
  show execMsgDelivery s = _
  simp only [execMsgDelivery, hy]
  rw [← hsame, hq, withLines_reads hr]

end Sys2Proof.Machine
end

section
namespace Sys2Proof.Machine

/-! ### Delivery into a ring -/

/-- A message for a ring that does not exist (R452). -/
theorem deliver_no_ring {q : Pkt} {s : State} {r : Nat} (hr : r = ((q.head.getD 1 MWord.unset).val.setWidth 10).toNat)
    (h : s.bl.ring.lv.cnt.toNat ≤ r) : deliver q s = bump Cnt.blNoring s := by
  subst hr
  rw [BitVec.setWidth_eq_extractLsb' (by decide)] at h
  exact if_pos h

/-- The lantern into whose L2 a message goes: the home of its event, else that of the ring (R453). -/
def slotLan (e : List MWord) (bind : Option (BitVec 19)) (s : State) : Lan :=
  match bind with
  | some b => (s.event (hSlot b)).home
  | none => (e.getD 0 MWord.unset).val.extractLsb' 7 5

section
variable {q : Pkt} {s v : State} {r : Nat} {e : List MWord}
  (hr : r = ((q.head.getD 1 MWord.unset).val.setWidth 10).toNat) (hlt : r < s.bl.ring.lv.cnt.toNat)
  (he : ringEntry r s = (e, v))
include hr hlt he

/-- A ring whose entry is not RAW or not enabled (R452). -/
theorem deliver_disabled (h : (∃ y ∈ e, y.ty ≠ Ty.raw) ∨ (e.getD 0 MWord.unset).val.getLsbD 5 = false) :
    deliver q s = bump Cnt.blNoring v := by
  rw [BitVec.setWidth_eq_extractLsb' (by decide)] at hr
  have hbad : (!(e.all fun x => x.ty = Ty.raw)) = true ∨ (!(e.getD 0 MWord.unset).val.getLsbD 5) = true := by
    simpa using h
  unfold deliver
  dsimp only
  rw [← hr, if_neg (Nat.not_le.mpr hlt), he]
  exact if_pos hbad

section
variable (hraw : ∀ y ∈ e, y.ty = Ty.raw) (hon : (e.getD 0 MWord.unset).val.getLsbD 5 = true) {n prod cons : Nat}
  (hn : n = 2 ^ ((e.getD 0 MWord.unset).val.setWidth 5).toNat) (hprod : prod = ((e.getD 4 MWord.unset).val.setWidth 14).toNat)
  (hcons : cons = ((e.getD 5 MWord.unset).val.setWidth 14).toNat) (hc : cons < 2 * n)
include hraw hon hn hprod hcons hc

/-- A full ring is marked, and counts in its own word and in the node's counter (R453). -/
theorem deliver_full (hfull : (prod + 2 * n - cons) % (2 * n) = n) : ∃ a b x y,
    deliver q s = bump Cnt.blRingfull (agentWrite a x (agentWrite b y v)) := by
  rw [BitVec.setWidth_eq_extractLsb' (by decide)] at hr hn hprod hcons
  have hgood : ¬ ((!(e.all fun x => x.ty = Ty.raw)) = true ∨ (!(e.getD 0 MWord.unset).val.getLsbD 5) = true) := by
    have hall : (e.all fun x => x.ty = Ty.raw) = true := by simpa using hraw
    rw [hall, hon]
    decide
  unfold deliver
  dsimp only
  rw [← hr, if_neg (Nat.not_le.mpr hlt), he]
  dsimp only
  rw [if_neg hgood, ← hn, ← hprod, ← hcons, Nat.mod_eq_of_lt hc, if_pos hfull]
  exact ⟨_, _, _, _, rfl⟩

/-- A message is written into its slot, and PROD moves on (R453). -/
theorem deliver_slot (hroom : (prod + 2 * n - cons) % (2 * n) ≠ n) {bind : Option (BitVec 19)} {w : State}
    (hbind : bind = msgBinding v ((q.head.getD 3 MWord.unset).val.getLsbD 16)
      ((q.head.getD 3 MWord.unset).val.setWidth 16 ++ (q.head.getD 2 MWord.unset).val))
    (hw : w = agentRun false (some (slotLan e bind v)) (((e.getD 2 MWord.unset).val.setWidth 21 ++ (e.getD 1 MWord.unset).val) +
      BitVec.ofNat 53 (320 * (prod % n))) [] (slotWords v q bind) v) :
    deliver q s = bump Cnt.blMsgRx (wakeMsg r ((e.getD 0 MWord.unset).val.extractLsb' 12 8) bind
      (agentWrite (v.bl.ring.lv.base + BitVec.ofNat 53 (32 * r + 16)) (rawM (BitVec.ofNat 32 ((prod + 1) % (2 * n)))) w)) := by
  rw [BitVec.setWidth_eq_extractLsb' (by decide)] at hr hn hprod hcons hbind
  have hgood : ¬ ((!(e.all fun x => x.ty = Ty.raw)) = true ∨ (!(e.getD 0 MWord.unset).val.getLsbD 5) = true) := by
    have hall : (e.all fun x => x.ty = Ty.raw) = true := by simpa using hraw
    rw [hall, hon]
    decide
  have hbase : (e.getD 2 MWord.unset).val.setWidth 21 = (e.getD 2 MWord.unset).val.extractLsb' 0 21 :=
    BitVec.setWidth_eq_extractLsb' (by decide)
  unfold deliver
  dsimp only
  rw [← hr, if_neg (Nat.not_le.mpr hlt), he]
  dsimp only
  rw [if_neg hgood, ← hn, ← hprod, ← hcons, Nat.mod_eq_of_lt hc, if_neg hroom]
  rw [← hbind, ← hbase, hw]
  rfl
end
end

end Sys2Proof.Machine
end

section
namespace Sys2Proof.Machine

/-- The entry of a full ring is marked without a wake-up (R453). -/
theorem deliver_full_clause {s v : State} {q : Pkt} {a b : PA} {x y : MWord} {r : Nat} {e : List MWord}
    (he : ringEntry r s = (e, v)) (hd : deliver q s = bump Cnt.blRingfull (agentWrite a x (agentWrite b y v))) :
    Counts v (deliver q s) Cnt.blRingfull 1 ∧ (deliver q s).ll = s.ll ∧ (deliver q s).ctxs = s.ctxs := by
  have hentry := kept_ringEntry r s
  rw [he] at hentry
  have hwrite : kept (agentWrite a x (agentWrite b y v)) = kept v := by simp
  rw [hd]
  refine ⟨?_, congrArg Kept.ll (hwrite.trans hentry), congrArg Kept.ctxs (hwrite.trans hentry)⟩
  have hfull : (agentWrite a x (agentWrite b y v)).counter Cnt.blRingfull = v.counter Cnt.blRingfull := congrArg Kept.full hwrite
  have hself (u : State) : (bumpBy Cnt.blRingfull 1 u).counter Cnt.blRingfull =
      BitVec.ofNat 32 (min 0xFFFFFFFF ((u.counter Cnt.blRingfull).toNat + 1)) := Tab.get_set_self _ _ _ _
  rw [Counts, bump, hself, hself, hfull]

/-- The clause of messages. -/
theorem messages : Sys2Proof.Clause.Messages := by
  intro s u k m ms q r e
  refine ⟨exec_msgSendTake_core_idle, exec_msgSendTake_host_idle, ?_, exec_msgDelivery_none, ?_⟩
  · rintro hpf x p hx rfl
    refine ⟨?_, ?_⟩
    · rintro hsend v rfl
      rw [exec_msgSendTake_core hpf hsend, sendMsg_eq, msgHead_eq _ _ x hx]
      rfl
    · rintro n hs v hsend hv
      have hsent : sendMsg m { s with hi := { s.hi with sendq := hs } } = v := by
        rw [hv, sendMsg_eq, msgHead_eq _ _ x hx]
        rfl
      have hring : v.ring n = s.ring n := hv ▸ rfl
      rw [exec_msgSendTake_host hpf hsend, hsent]
      exact ⟨fun hg => by rw [sendTaken_idle (hring ▸ hg)], fun g hg hm => by rw [sendTaken_waits (hring ▸ hg) hm]⟩
  · intro y same hy hsame hmin hfirst hreads hu hr
    have hexec : exec .msgDelivery s = .next (deliver q u) := hu ▸ exec_msgDelivery hy hsame hmin hfirst hreads
    have hcnt : u.bl.ring = s.bl.ring := hu ▸ rfl
    rw [hexec]
    refine ⟨fun hno => by rw [deliver_no_ring hr (hcnt ▸ hno)], fun hlt v w he => ?_⟩
    rw [← hcnt] at hlt
    refine ⟨fun hbad => by rw [deliver_disabled hr hlt he hbad], fun hraw hon n prod cons hn hprod hcons hc _ => ?_⟩
    refine ⟨fun hfull => ?_, fun hroom bind hbind hw => ?_⟩
    · obtain ⟨a, b, x, y, hd⟩ := deliver_full hr hlt he hraw hon hn hprod hcons hc hfull
      obtain ⟨hcount, hll, hctxs⟩ := deliver_full_clause he hd
      exact ⟨_, rfl, hcount, hll.trans (hu ▸ rfl), hctxs.trans (hu ▸ rfl)⟩
    · have hbase : v.bl.ring = s.bl.ring := by
        have hentry := kept_ringEntry r u
        rw [he] at hentry
        exact (congrArg Kept.ring hentry).trans hcnt
      have hlan : w = agentRun false (some (slotLan e bind v)) (((e.getD 2 MWord.unset).val.setWidth 21 ++
          (e.getD 1 MWord.unset).val) + BitVec.ofNat 53 (320 * (prod % n))) [] (slotWords v q bind) v := by
        rw [hw]
        cases bind <;> rfl
      rw [deliver_slot hr hlt he hraw hon hn hprod hcons hc hroom hbind hlan, hbase]

/-- Settles O50: routing goes by the live entry of a packet's destination, which leaving its buffer does not change; a LOAD
masks each entry that it fills; and what delivery reads and writes of memory leaves tasks, contexts and ring counts. -/
theorem routingMessages : Obligations.RoutingMessages := ⟨routing, messages⟩

end Sys2Proof.Machine
end

section
namespace Sys2Proof.Machine

/-! ### The lock states of the time base -/

theorem exec_refAcquired (khz : BitVec 16) (s : State) : exec (.refAcquired khz) s =
    .next (if s.tb.lock = .noref then acquireAt khz (s.modTb fun t => { t with aligned := true }) else s) := rfl

theorem exec_pllLocked_idle {s : State} (h : s.tb.lock ≠ .acquire) : exec .pllLocked s = .next s :=
  congrArg Host.Outcome.next (if_pos h)

/-- The first lock since reset starts the counters; a later one leaves them. -/
theorem exec_pllLocked {s : State} (h : s.tb.lock = .acquire) : exec .pllLocked s = .next
    ((if s.tb.counting then s
      else { s with time := 0 }.modTb fun t => { t with counting := true, bx := 0, orbit := 0 }).modTb
      fun t => { t with lock := .locked, lockKhz := t.khz }) :=
  congrArg Host.Outcome.next (if_neg (not_not.mpr h))

theorem exec_refLoss (s : State) : exec .refLoss s = execRefLoss s := rfl

theorem exec_refReturn (khz : BitVec 16) (s : State) : exec (.refReturn khz) s = .next (
    if s.tb.lock ≠ .holdover then s
    else acquireAt khz (if nearKhz khz s.tb.lockKhz then s else s.modTb fun t => { t with refrange := true })) := rfl

/-- A reference is acquired within 25 to 50 MHz, and out of it is none and says so. -/
theorem acquireAt_eq {khz : BitVec 16} {ok : Bool} (h : ok = decide (25000 ≤ khz.toNat ∧ khz.toNat ≤ 50000)) (s : State) :
    acquireAt khz s = { s with tb := { s.tb with
      khz := khz, lock := if ok then .acquire else .noref, refrange := s.tb.refrange || !ok } } := by
  have hok : (decide (25000 ≤ khz.toNat) && decide (khz.toNat ≤ 50000)) = ok := by rw [h, Bool.decide_and]
  rw [acquireAt, hok]
  cases ok <;> simp [State.modTb]

theorem nearKhz_eq (a b : BitVec 16) :
    nearKhz a b = !decide (200 * b.toNat < ((a.toNat : Int) - b.toNat).natAbs * 1000000) := by
  simp [nearKhz, ← decide_not]

/-- The clause of the lock states: Table 15-3 row by row. -/
theorem lockStates : Sys2Proof.Clause.LockStates := by
  intro s khz inRange hr
  refine ⟨fun h => ?_, fun h => ?_, fun h hc => ⟨?_, ?_⟩, fun h hc => ⟨?_, ?_⟩, exec_pllLocked_idle, fun h => ?_,
    fun h => ?_, fun h => ?_, fun h => ?_⟩
  · rw [exec_refAcquired, if_pos h, acquireAt_eq hr]
    rfl
  · rw [exec_refAcquired, if_neg h]
  · rw [exec_pllLocked h, hc]
    rfl
  · simp [exec_refLoss, execRefLoss, h, hc, State.modTb]
  · rw [exec_pllLocked h, hc]
    rfl
  · simp [exec_refLoss, execRefLoss, h, hc, State.modTb]
  · rw [exec_refLoss, execRefLoss, h]
    rfl
  · rw [exec_refLoss, execRefLoss]
    rcases h with h | h <;> rw [h]
  · rw [exec_refReturn, if_neg (not_not.mpr h), nearKhz_eq, acquireAt_eq hr]
    split <;> simp_all [State.modTb]
  · rw [exec_refReturn, if_pos h]

end Sys2Proof.Machine
end

section
namespace Sys2Proof.Machine

/-! ### Marker words -/

/-- Every row of a marker word is the arrival of that word. -/
theorem exec_markerRow {w : BitVec 40} {c : Instr} (h : MarkerRow w c) (s : State) : exec c s = .next (rxMarker w s) := by
  rcases h with rfl | rfl | rfl | rfl | rfl | rfl <;> rfl

theorem exec_alignLoss (ws : List (BitVec 40)) (s : State) :
    exec (.alignLoss ws) s = .next (ws.foldl (fun s w => rxMarker w s) s) := rfl

/-- The state when a word has been sent back and its characters read, with so many words without a K28.5 before the next. -/
def heardWord (w : BitVec 40) (miss : Nat) (s : State) : State :=
  { s with out := .timing w :: s.out, tb := { s.tb with rd := (timingChars s w).2, miss := miss } }

/-- What the characters of a word do that has no code error. -/
def wordActs (s : State) : List Char8 → State
  | [.comma, .data ty, .data lo, .data hi] => markerActs ty (hi ++ lo) s
  | .comma :: _ => bump Cnt.tbUnknown s
  | _ => s

/-- What an aligned receiver makes of the characters of a word. -/
def charsAct (cs : List Char8) (s : State) : State :=
  if cs.contains .bad ∨ cs.head? = some .control then bump Cnt.tbCodeErr s else wordActs s cs

theorem rxMarker_unaligned {w : BitVec 40} {s : State} (h : s.tb.aligned = false) : rxMarker w s =
    { s with out := .timing w :: s.out, tb := { s.tb with rd := (timingChars s w).2 } } :=
  if_pos (by simp [h, State.modTb])

/-- An aligned receiver counts the words without a K28.5 and loses its alignment with the fourth. -/
theorem rxMarker_aligned {w : BitVec 40} {s : State} (h : s.tb.aligned = true) {miss : Nat}
    (hm : miss = if (timingChars s w).1.head? = some .comma then 0 else s.tb.miss + 1) : rxMarker w s =
    charsAct (timingChars s w).1 (if 4 ≤ miss then
      bump Cnt.tbAlignLoss ((heardWord w miss s).modTb fun t => { t with aligned := false, miss := 0 })
      else heardWord w miss s) := by
  subst hm
  exact if_neg (by simp [h, State.modTb])

theorem rxMarker_comma {w : BitVec 40} {s : State} (h : s.tb.aligned = true) (hc : (timingChars s w).1.head? = some .comma) :
    rxMarker w s = charsAct (timingChars s w).1 (heardWord w 0 s) := by
  rw [rxMarker_aligned h rfl, if_pos hc]
  rfl

theorem rxMarker_miss {w : BitVec 40} {s : State} (h : s.tb.aligned = true) (hc : (timingChars s w).1.head? ≠ some .comma)
    (hm : s.tb.miss < 3) : rxMarker w s = charsAct (timingChars s w).1 (heardWord w (s.tb.miss + 1) s) := by
  rw [rxMarker_aligned h rfl, if_neg hc, if_neg (by omega)]

theorem rxMarker_lost {w : BitVec 40} {s : State} (h : s.tb.aligned = true) (hc : (timingChars s w).1.head? ≠ some .comma)
    (hm : 3 ≤ s.tb.miss) : rxMarker w s = charsAct (timingChars s w).1
      (bump Cnt.tbAlignLoss ((heardWord w 0 s).modTb fun t => { t with aligned := false })) := by
  rw [rxMarker_aligned h rfl, if_neg hc, if_pos (by omega)]
  rfl

variable {cs : List Char8} {s : State}

theorem charsAct_bad (h : Char8.bad ∈ cs) : charsAct cs s = bump Cnt.tbCodeErr s :=
  if_pos (.inl (List.contains_iff_mem.mpr h))

/-- A word without a K28.5 in character 0 counts an error or does nothing. -/
theorem charsAct_of_head_ne (h : cs.head? ≠ some .comma) : charsAct cs s =
    if Char8.bad ∈ cs ∨ cs.head? = some .control then bump Cnt.tbCodeErr s else s := by
  simp only [charsAct, List.contains_iff_mem]
  congr 1
  obtain _ | ⟨c, r⟩ := cs
  · rfl
  · cases c
    case comma => exact absurd rfl h
    all_goals rfl

/-- A K character in place of TYPE or ARG makes a TYPE that is not listed. -/
theorem charsAct_unknown (hc : cs.head? = some .comma) (hb : Char8.bad ∉ cs)
    (h : Char8.comma ∈ cs.tail ∨ Char8.control ∈ cs.tail) : charsAct cs s = bump Cnt.tbUnknown s := by
  obtain ⟨r, rfl⟩ : ∃ r, cs = .comma :: r := ⟨cs.tail, (List.cons_head?_tail hc).symm⟩
  have hne : ∀ ty lo hi, r = [.data ty, .data lo, .data hi] → False := by
    rintro ty lo hi rfl
    simp at h
  rw [charsAct, if_neg (by simpa using hb), wordActs.eq_2 s r hne]

theorem charsAct_marker (ty lo hi : Byte) :
    charsAct [.comma, .data ty, .data lo, .data hi] s = markerActs ty (hi ++ lo) s :=
  if_neg (by simp)

/-! What each TYPE does (Table 15-2). -/

variable {arg : BitVec 16}

theorem markerActs_unlisted {ty : Byte} (h : 5 ≤ ty.toNat) : markerActs ty arg s = bump Cnt.tbUnknown s := by
  have hne (n : Byte) (hn : n.toNat < 5) : ty ≠ n := fun e => by rw [e] at h; omega
  rw [markerActs, if_neg (hne 0 (by decide)), if_neg (hne 1 (by decide)), if_neg (hne 2 (by decide)),
    if_neg (hne 3 (by decide)), if_neg (hne 4 (by decide))]

theorem edgeMarker_idle (m : EdgeMark) (h : s.tb.counting = false) : edgeMarker m s = s := if_neg (by simp [h])

theorem edgeMarker_counting (m : EdgeMark) (h : s.tb.counting = true) :
    edgeMarker m s = { s with tb := { s.tb with mark := some m } } := if_pos h

theorem acceptMarker_off (h : s.tb.cfg.lv.acceptEn = false) : acceptMarker arg s = s := if_pos (by simp [h])

theorem acceptMarker_beyond (h : s.tb.cfg.lv.acceptEn = true) (hl : s.tb.cfg.lv.len.toNat ≤ arg.toNat) :
    acceptMarker arg s = bump Cnt.tbUnknown s := by
  rw [acceptMarker, if_neg (by simp [h]), if_pos (BitVec.le_def.mpr hl)]

/-- An ACCEPT in range is counted, and what it does beside goes by the warning, the counters and the mode. -/
theorem acceptMarker_counts (h : s.tb.cfg.lv.acceptEn = true) (hl : arg.toNat < s.tb.cfg.lv.len.toNat) :
    acceptMarker arg s =
      let t := bump Cnt.tbAccepts s
      if s.pw.warned then { t with hub := { s.hub with pfAccepts := s.hub.pfAccepts + 1 } }
      else if s.tb.counting = false ∨ s.pf = true then t
      else if s.wk.event.lv.mode then t
      else { t with hub := { s.hub with openReqs := s.hub.openReqs ++ [⟨extendBx s arg, true⟩] } } := by
  rw [acceptMarker, if_neg (by simp [h]), if_neg (by simpa [BitVec.le_def] using hl)]
  simp only [Bool.not_eq_eq_eq_not, Bool.not_true]
  rfl

theorem resetMarker_off (h : s.tb.cfg.lv.resetEn = false) : resetMarker s = s := if_pos (by simp [h])

/-- The first n wicks change alike. -/
def modWicks (n : Nat) (f : WkSt → WkSt) (s : State) : State := (List.range n).foldl (fun s i => s.modWick i f) s

theorem modWicks_succ (n : Nat) (f : WkSt → WkSt) (s : State) :
    modWicks (n + 1) f s = (modWicks n f s).modWick n f := by
  rw [modWicks, List.range_succ, List.foldl_append]
  rfl

/-- No more of the module changes with them. -/
theorem modWicks_eq (n : Nat) (f : WkSt → WkSt) (s : State) : modWicks n f s = { s with wk := (modWicks n f s).wk } ∧
    { (modWicks n f s).wk with wicks := s.wk.wicks } = s.wk := by
  induction n with
  | zero => exact ⟨rfl, rfl⟩
  | succ n ih =>
    rw [modWicks_succ]
    generalize modWicks n f s = t at ih
    obtain ⟨hs, hwk⟩ := ih
    exact ⟨by rw [hs]; rfl, hwk⟩

theorem wick_modWick (s : State) (n m : Nat) (f : WkSt → WkSt) :
    (s.modWick n f).wick m = if m = n then f (s.wick m) else s.wick m := by
  refine (Tab.get_set _ _ _ _ _).trans ?_
  split
  · subst_vars
    rfl
  · rfl

theorem wick_modWicks (n m : Nat) (f : WkSt → WkSt) (s : State) :
    (modWicks n f s).wick m = if m < n then f (s.wick m) else s.wick m := by
  induction n with
  | zero => rfl
  | succ n ih =>
    rw [modWicks_succ, wick_modWick, ih]
    rcases Nat.lt_trichotomy m n with h | rfl | h
    · rw [if_neg h.ne, if_pos h, if_pos (by omega)]
    · rw [if_pos rfl, if_neg (Nat.lt_irrefl m), if_pos (Nat.lt_succ_self m)]
    · rw [if_neg h.ne', if_neg (by omega), if_neg (by omega)]


/-- The wicks when none has been told of a crossing. -/
@[irreducible] def untold (s : State) : WksSt := (modWicks 6 (fun w => { w with told := none }) s).wk

theorem untold_rest (s : State) : { untold s with wicks := s.wk.wicks } = s.wk := by
  rw [untold]
  exact (modWicks_eq ..).2

theorem wick_untold (s : State) (n : Nat) : Tab.get WkSt.reset (untold s).wicks n =
    if n < 6 then { s.wick n with told := none } else s.wick n := by
  rw [untold]
  exact wick_modWicks 6 n (fun w => { w with told := none }) s

/-- What a RESET does once the wicks have been told. -/
def resetActs (s : State) : State :=
  let t := { s with hub := { s.hub with highest := none } }
  if t.tb.counting then edgeMarker .reset t else bump Cnt.tbResets t

theorem resetMarker_on (h : s.tb.cfg.lv.resetEn = true) : resetMarker s = resetActs { s with wk := untold s } := by
  have hs : modWicks 6 (fun w => { w with told := none }) s = { s with wk := untold s } := by
    rw [untold]
    exact (modWicks_eq ..).1
  rw [← hs]
  exact if_neg (by simp [h])

/-- A RESET clears the record of the highest crossing, and what the wicks have been told of it, and acts at the next edge. -/
theorem resetMarker_counting (h : s.tb.cfg.lv.resetEn = true) (hc : s.tb.counting = true) : resetMarker s =
    { s with wk := untold s, hub := { s.hub with highest := none }, tb := { s.tb with mark := some .reset } } := by
  rw [resetMarker_on h]
  generalize untold s = wk
  exact (if_pos hc).trans (if_pos hc)

/-- Before the time base counts there is no edge for it: it is counted at once. -/
theorem resetMarker_idle (h : s.tb.cfg.lv.resetEn = true) (hc : s.tb.counting = false) : resetMarker s =
    bump Cnt.tbResets { s with wk := untold s, hub := { s.hub with highest := none } } := by
  rw [resetMarker_on h]
  generalize untold s = wk
  exact if_neg (by simp [hc])

/-- The clause of marker words: the characters of the word say what happens, and its TYPE what a whole marker does. -/
theorem markerWords : Sys2Proof.Clause.MarkerWords := by
  intro s u w hu
  have hheard : heardWord w 0 s = u := hu.symm
  refine ⟨fun c hc => ?_, rfl, fun ws t ht => ?_, fun ha hm hne => ?_, fun g hg => ⟨fun hidle => ?_, fun ha hcomma => ?_⟩⟩
  · rw [exec_markerRow hc]
    refine ⟨fun ha => congrArg _ (rxMarker_unaligned ha), fun ha hcomma => ?_, fun ha hm hne => ?_, ?_⟩
    · rw [rxMarker_comma ha hcomma, hheard]
      exact ⟨fun hbad => congrArg _ (charsAct_bad hbad), fun hbad h => congrArg _ (charsAct_unknown hcomma hbad h)⟩
    · rw [rxMarker_miss ha hne hm, charsAct_of_head_ne hne, hu]
      rfl
    · intro ty lo hi arg harg ha hcs
      rw [rxMarker_comma ha (by rw [hcs]; rfl), hcs, charsAct_marker, ← harg, hheard]
      refine ⟨?_, fun h => congrArg _ (markerActs_unlisted h), ?_, fun hct => ⟨?_, ?_⟩, ?_, ?_⟩
      · rintro rfl
        rfl
      · rintro hct (rfl | rfl)
        · exact congrArg _ (edgeMarker_idle _ (hu ▸ hct))
        · exact congrArg _ (edgeMarker_idle _ (hu ▸ hct))
      · rintro rfl
        exact congrArg _ (edgeMarker_counting _ (hu ▸ hct))
      · rintro rfl
        exact congrArg _ (edgeMarker_counting _ (hu ▸ hct))
      · rintro rfl
        have hmark : markerActs 3 arg u = acceptMarker arg u := rfl
        rw [hmark]
        refine ⟨fun hoff => congrArg _ (acceptMarker_off (hu ▸ hoff)), fun hon => ⟨fun hl => ?_, fun hl => ?_⟩⟩
        · exact congrArg _ (acceptMarker_beyond (hu ▸ hon) (hu ▸ hl))
        · rw [acceptMarker_counts (hu ▸ hon) (hu ▸ hl), hu]
          refine ⟨fun hw h => ?_, fun hw hct hpf => ⟨fun hm => ?_, fun hm => ?_⟩, fun hw => ?_⟩
          · exact congrArg _ ((if_neg (by simp [hw])).trans (if_pos h))
          · exact congrArg _ ((if_neg (by simp [hw])).trans ((if_neg (by simp [hct, hpf])).trans (if_pos hm)))
          · exact congrArg _ ((if_neg (by simp [hw])).trans ((if_neg (by simp [hct, hpf])).trans (if_neg (by simp [hm]))))
          · exact congrArg _ (if_pos hw)
      · rintro rfl
        have hmark : markerActs 4 arg u = resetMarker u := rfl
        rw [hmark]
        have hwk : u.wk = s.wk := hu ▸ rfl
        have hwick (n : Nat) : u.wick n = s.wick n := hu ▸ rfl
        have hhub : u.hub = s.hub := hu ▸ rfl
        refine ⟨fun hoff => congrArg _ (resetMarker_off (hu ▸ hoff)), fun hon => ⟨untold u, fun n hn => ?_, fun n hn => ?_,
          hwk ▸ untold_rest u, fun hct => ?_, fun hct => ?_⟩⟩
        · rw [wick_untold, if_pos hn, hwick]
        · rw [wick_untold, if_neg (by omega), hwick]
        · rw [resetMarker_counting (hu ▸ hon) (hu ▸ hct), hhub]
        · rw [resetMarker_idle (hu ▸ hon) (hu ▸ hct), hhub]
  · rw [exec_alignLoss, exec_alignLoss, List.foldl_cons, Host.Outcome.next.inj ht]
  · rw [exec_alignLoss, List.foldl_cons, List.foldl_nil, rxMarker_lost ha hne hm, charsAct_of_head_ne hne, hheard]
    rfl
  · exact congrArg _ (if_pos (hidle.imp_right fun h => by simp [markerGroups, ← hg, h]))
  · have hg' : (markerGroups (if s.tb.cfg.lv.pol = true then ~~~w else w)).headD 0 = g := hg.symm
    exact congrArg _ ((if_neg (by rw [hg']; simp [ha, hcomma])).trans (by rw [hg']; rfl))

/-- Settles O26: a word acts by its characters and its TYPE, and the lock by the rows of Table 15-3. -/
theorem markersLocks : Obligations.MarkersLocks := ⟨markerWords, lockStates⟩

end Sys2Proof.Machine
end

section
namespace Sys2Proof.Machine

/-! ### Latched reads of TB_TIME -/

/-- The latch of a reader's read of the low half: TB_TIME's high half. -/
theorem exec_tbTimeLowRead {r : Reader} {s : State} {n : Nat} (hl : hostLatch r s = some n)
    (hv : hostValue r (s.time.setWidth 32) s = s.time.setWidth 32) : exec (.tbTimeLowRead r) s =
      .next { s with out := .readValue (s.time.setWidth 32) :: s.out, tb := { s.tb with
        latch := Tab.set 0 s.tb.latch n (s.time.extractLsb' 32 32) } } := by
  have hread : tbLowRead r s = (s.time.setWidth 32, s.modTb fun t => { t with
      latch := Tab.set 0 t.latch n (s.time.extractLsb' 32 32) }) := by rw [tbLowRead, hv, hl]
  exact congrArg (fun p : Word × State => Host.Outcome.next (emit (.readValue p.1) p.2)) hread

/-- That read, with what each reader's latch holds after it. -/
theorem tbTimeLowRead_clause {r : Reader} {s : State} {k : Nat} (hl : hostLatch r s = some k)
    (hv : hostValue r (s.time.setWidth 32) s = s.time.setWidth 32) (n : Nat) : ∃ l, exec (.tbTimeLowRead r) s =
        .next { s with out := .readValue (s.time.setWidth 32) :: s.out, tb := { s.tb with latch := l } } ∧
      Tab.get 0 l k = (s.time >>> 32).setWidth 32 ∧ (n ≠ k → Tab.get 0 l n = Tab.get 0 s.tb.latch n) := by
  refine ⟨_, exec_tbTimeLowRead hl hv, ?_, fun h => Tab.get_set_ne _ _ _ h⟩
  rw [Tab.get_set_self]
  rfl

/-- A reader with a latch reads it in place of the high half (R469). -/
theorem busRead_timeHigh {r : Reader} {s : State} {n : Nat} (hl : hostLatch r s = some n) :
    busRead r 0x500014 s = (Tab.get 0 s.tb.latch n, s) := by
  have hread : busRead r 0x500014 s = (latched (Tab.get 0 s.tb.latch) 0x500014 r s, s) := rfl
  rw [hread, latched, hl]

/-- The clause of the reads of time. -/
theorem timeReads : Sys2Proof.Clause.TimeReads := by
  intro s f n
  have hfn (h : s.mg.ready = true) : hostLatch (.fn f) s = some f.toNat := if_pos h
  refine ⟨rfl, fun h => tbTimeLowRead_clause (hfn h) (if_pos h) n, tbTimeLowRead_clause rfl rfl n, fun h => ?_,
    busRead_timeHigh rfl⟩
  rw [hostRead, if_pos (.inl h), busRead_timeHigh (hfn h)]

/-! ### The compare channels -/

variable {s : State} {n : Nat}

theorem hubHolds_iff : hubHolds s n = true ↔ s.cn.enable = true ∧ 61 ≤ n := by
  rw [hubHolds, Bool.and_eq_true, decide_eq_true_eq, and_comm]

theorem not_hubHolds (h : s.cn.enable = false ∨ n < 61) : hubHolds s n = false := by
  rw [← Bool.not_eq_true, hubHolds_iff]
  rintro ⟨he, hn⟩
  rcases h with h | h
  · simp [h] at he
  · omega

theorem fireChannel_held (h : hubHolds s n = true) : fireChannel s n = match hubLoaded s n with
    | some x => if x.time ≤ s.time then setFired n s else s
    | none => s := if_pos h

/-- A channel that has not reached its value does nothing. -/
theorem fireChannel_idle (h : hubHolds s n = false) (hdue : (cmpCh s n).due = none) : fireChannel s n = s :=
  (if_neg (by simp [h])).trans (by rw [hdue])

/-- A channel of software that has reached its value. -/
theorem fireChannel_due {wk irq : Bool} (h : hubHolds s n = false) (hdue : (cmpCh s n).due = some (wk, irq)) {t : State}
    (ht : t = setFired n (modCh n (fun c => { c with due := none }) s)) : fireChannel s n =
      if 61 ≤ n then t
      else (if irq then serviceIrq 0 else id) ((if wk then wake 5 (fun x => x.sel.toNat = n) none
        (TWord.fix (BitVec.ofNat 32 n)) else id) t) := by
  refine (if_neg (by simp [h])).trans ?_
  rw [hdue, ht]
  cases wk <;> cases irq <;> rfl

theorem exec_tbCmpCommit (n : BitVec 6) (s : State) : exec (.tbCmpCommit n) s =
    .next (if hubHolds s n.toNat then s else modCh n.toNat (fun c => { c with cfg := c.cfg.request }) s) := rfl

/-- The channels below n act before channel n. -/
theorem exec_compareFire (n : BitVec 6) (s : State) : exec (.compareFire n) s =
    .next (fireChannel ((List.range n.toNat).foldl fireChannel s) n.toNat) := by
  change Host.Outcome.next ((List.range (n.toNat + 1)).foldl fireChannel s) = _
  rw [List.range_succ, List.foldl_append]
  rfl

/-- Where no channel below n has reached its value, none of them acts. -/
theorem firesBelow_idle (h : ∀ m, m < n → hubHolds s m = false ∧ (cmpCh s m).due = none) :
    (List.range n).foldl fireChannel s = s := by
  induction n with
  | zero => rfl
  | succ n ih =>
    obtain ⟨hheld, hdue⟩ := h n (Nat.lt_succ_self n)
    rw [List.range_succ, List.foldl_append, ih fun m hm => h m (Nat.lt_succ_of_lt hm)]
    exact fireChannel_idle hheld hdue

/-- The clause of the compare channels. -/
theorem compareChannels : Sys2Proof.Clause.CompareChannels := by
  intro s n
  refine ⟨fun he hn => ?_, fun hn => ?_, fun h => ⟨?_, fun hbelow => ⟨fun hdue => ?_, fun wk irq hdue => ?_⟩⟩⟩
  · have hheld : hubHolds s n.toNat = true := hubHolds_iff.mpr ⟨he, hn⟩
    refine ⟨by rw [exec_tbCmpCommit, if_pos hheld], fun hx => ?_, fun x hx => ⟨fun ht => ?_, fun ht => ?_⟩⟩
    · rw [fireChannel_held hheld, hx]
    · rw [fireChannel_held hheld, hx]
      exact if_neg (by simpa [BitVec.lt_def, BitVec.le_def] using ht)
    · rw [fireChannel_held hheld, hx]
      exact if_pos ht
  · have hpos : n.toNat ≠ 0 := fun e => hn (BitVec.eq_of_toNat_eq e)
    have hpred : (n - 1).toNat + 1 = n.toNat := by bv_omega
    refine ⟨_, rfl, ?_⟩
    rw [exec_compareFire, hpred]
  · refine ⟨_, (exec_tbCmpCommit n s).trans (congrArg _ (if_neg (by rw [not_hubHolds h]; exact Bool.false_ne_true))), fun m hm => ?_, ?_⟩
    · exact Tab.get_set_ne _ _ _ hm
    · rw [Tab.get_set_self]
      rfl
  all_goals
    have hfree (m : Nat) (hm : m ≤ n.toNat) : hubHolds s m = false := not_hubHolds (h.imp_right fun h => by omega)
    have hexec : exec (.compareFire n) s = .next (fireChannel s n.toNat) := by
      rw [exec_compareFire, firesBelow_idle fun m hm => ⟨hfree m hm.le, hbelow m hm⟩]
    rw [hexec]
  · rw [fireChannel_idle (hfree _ le_rfl) hdue]
  · refine ⟨_, Tab.get_set_self _ _ _ _, fun m hm => Tab.get_set_ne _ _ _ hm, fun t ht => ?_⟩
    rw [fireChannel_due (hfree _ le_rfl) hdue ht]
    exact ⟨fun h61 => congrArg _ (if_pos h61), fun h61 => congrArg _ (if_neg (by omega))⟩

/-- Settles O28: a reader with a latch reads it in place of the high half, and the channels act one by one from the lowest. -/
theorem timeAndChannels : Obligations.TimeAndChannels := ⟨timeReads, compareChannels⟩

end Sys2Proof.Machine
end

section
namespace Sys2Proof.Machine

/-! ### Handles and decisions -/

theorem undecided_iff (s : State) (h : BitVec 19) : undecided s h = true ↔
    s.stale h = false ∧ ((s.slot (hSlot h)).st = .opened ∨ (s.slot (hSlot h)).st = .closed) := by
  rw [undecided, Bool.and_eq_true, Bool.not_eq_true']
  refine and_congr_right fun _ => ?_
  cases (s.slot (hSlot h)).st <;> simp

theorem undecided_eq_false {s : State} {h : BitVec 19} (hn : s.stale h = true ∨
    ((s.slot (hSlot h)).st ≠ .opened ∧ (s.slot (hSlot h)).st ≠ .closed)) : undecided s h = false := by
  rw [← Bool.not_eq_true, undecided_iff]
  rintro ⟨hs, ho⟩
  rcases hn with hn | ⟨h1, h2⟩
  · simp [hs] at hn
  · exact ho.elim h1 h2

/-! ### The limits of an event -/

/-- A channel of the HUB acts for the head of its list, once its time has come (R32). -/
def limitHeadActs (n : Nat) (l : List Limit) (f : List Limit → HubSt → HubSt) (act : BitVec 19 → State → State) (s : State) :
    State :=
  match dueLimit s.time l with
  | none => s
  | some (x, r) => limitActs x.handle (act x.handle) (headTaken n s (f r))

theorem dueLimit_none {now : BitVec 64} {l : List Limit} (h : ∀ y, l.head? = some y → now < y.time) :
    dueLimit now l = none := by
  cases l with
  | nil => rfl
  | cons y r => exact if_neg (by simpa [BitVec.lt_def, BitVec.le_def] using h y rfl)

theorem dueLimit_head {s : State} {l : List Limit} {x : Limit} {r : List Limit} (h : headDue s l x r) :
    dueLimit s.time l = some (x, r) := by
  obtain ⟨rfl, ht⟩ := h
  exact if_pos ht

variable {s u : State} {n : Nat} {l r : List Limit} {x : Limit} {f : List Limit → HubSt → HubSt}
  {act : BitVec 19 → State → State}

theorem limitHeadActs_idle (h : ∀ y, l.head? = some y → s.time < y.time) : limitHeadActs n l f act s = s := by
  rw [limitHeadActs, dueLimit_none h]

/-- A stale limit is counted (log entry 23). -/
theorem limitHeadActs_stale (h : headDue s l x r) (hu : u = headTaken n s (f r)) (hs : s.stale x.handle = true) :
    limitHeadActs n l f act s = bump Cnt.llWakeLate u := by
  rw [limitHeadActs, dueLimit_head h, hu]
  exact if_pos hs

theorem limitHeadActs_due (h : headDue s l x r) (hu : u = headTaken n s (f r)) (hs : s.stale x.handle = false) :
    limitHeadActs n l f act s = act x.handle u := by
  rw [limitHeadActs, dueLimit_head h, hu]
  exact if_neg (by rw [show (headTaken n s (f r)).stale x.handle = false from hs]; exact Bool.false_ne_true)

/-- A window closes by timeout, and its OPEN slot with it. -/
def timeoutActs (h : BitVec 19) (s : State) : State :=
  if (s.event (hSlot h)).window then
    tellWicks (.timeout h) ((s.modEvent (hSlot h) fun e => { e with window := false, winto := true }).modSlot (hSlot h)
      fun t => { t with st := if t.st = .opened then .closed else t.st })
  else s

/-- An undecided event is warned, and its deadline warning issued. -/
def warningActs (h : BitVec 19) (s : State) : State :=
  if undecided s h then
    let s := bump Cnt.snWarn (s.modEvent (hSlot h) fun e => { e with warned := true })
    wake 6 (fun _ => true) (some h) (TWord.fix ((s.hard (hSlot h) - s.time).setWidth 32)) s
  else s

/-- An undecided event is decided DEADLINE, and the tasks of a decided one are killed. -/
def deadlineActs (h : BitVec 19) (s : State) : State :=
  if undecided s h then fallback h 2 s else if (s.slot (hSlot h)).st = .decided then killEvent h s else s

theorem exec_windowTimeout (s : State) : exec .windowTimeout s =
    .next (limitHeadActs 61 s.hub.windows (fun r b => { b with windows := r }) timeoutActs s) := rfl

theorem exec_deadlineWarning (s : State) : exec .deadlineWarning s =
    .next (limitHeadActs 62 s.hub.warnings (fun r b => { b with warnings := r }) warningActs s) := rfl

theorem exec_hardDeadline (s : State) : exec .hardDeadline s =
    .next (limitHeadActs 63 s.hub.hards (fun r b => { b with hards := r }) deadlineActs s) := rfl

/-- The clause of the limits. -/
theorem eventLimits : Sys2Proof.Clause.EventLimits := by
  intro s x r
  refine ⟨fun h => ?_, fun h u hu => ⟨fun hs => ?_, fun hs hw => ?_, fun hs hw => ?_⟩,
    fun h => ?_, fun h u hu => ⟨fun hs => ?_, fun hs ho => ?_, fun hs h1 h2 => ?_⟩,
    fun h => ?_, fun h u hu => ⟨fun hs => ?_, fun hs ho => ?_, fun hs hd => ?_, fun hs hd => ?_⟩⟩
  · rw [exec_windowTimeout, limitHeadActs_idle h]
  · rw [exec_windowTimeout, limitHeadActs_stale h hu hs]
  · rw [exec_windowTimeout, limitHeadActs_due h hu hs, timeoutActs, if_pos (by rw [hu]; exact hw)]
  · rw [exec_windowTimeout, limitHeadActs_due h hu hs, timeoutActs, if_neg (by rw [hu]; exact ne_true_of_eq_false hw)]
  · rw [exec_deadlineWarning, limitHeadActs_idle h]
  · rw [exec_deadlineWarning, limitHeadActs_stale h hu hs]
  · have hund : undecided u x.handle = true := hu ▸ (undecided_iff s x.handle).mpr ⟨hs, ho⟩
    have hleft : (bump Cnt.snWarn (u.modEvent (hSlot x.handle) fun e => { e with warned := true })).hard (hSlot x.handle) -
        u.time = s.hard (hSlot x.handle) - s.time := by
      rw [State.hard, bump_get_event, State.event_modEvent, hu]
      rfl
    rw [exec_deadlineWarning, limitHeadActs_due h hu hs, warningActs, if_pos hund, ← hleft]
    rfl
  · have hund : undecided u x.handle = false := hu ▸ undecided_eq_false (s := s) (.inr ⟨h1, h2⟩)
    rw [exec_deadlineWarning, limitHeadActs_due h hu hs, warningActs, if_neg (ne_true_of_eq_false hund)]
  · rw [exec_hardDeadline, limitHeadActs_idle h]
  · rw [exec_hardDeadline, limitHeadActs_stale h hu hs]
  · have hund : undecided u x.handle = true := hu ▸ (undecided_iff s x.handle).mpr ⟨hs, ho⟩
    rw [exec_hardDeadline, limitHeadActs_due h hu hs, deadlineActs, if_pos hund]
  · have hund : undecided u x.handle = false := hu ▸ undecided_eq_false (s := s) (.inr (by simp [hd]))
    rw [exec_hardDeadline, limitHeadActs_due h hu hs, deadlineActs, if_neg (ne_true_of_eq_false hund),
      if_pos (by rw [hu]; exact hd)]
  · have hund : undecided u x.handle = false := hu ▸ undecided_eq_false (s := s) (.inr (by rcases hd with h | h <;> simp [h]))
    have hnot : (u.slot (hSlot x.handle)).st ≠ .decided := by
      rw [show u.slot = s.slot from hu ▸ rfl]
      rcases hd with h | h <;> simp [h]
    rw [exec_hardDeadline, limitHeadActs_due h hu hs, deadlineActs, if_neg (ne_true_of_eq_false hund), if_neg hnot]

end Sys2Proof.Machine
end

section
namespace Sys2Proof.Machine

/-! ### Decision records -/

/-- Records take their places in the decision port alone. -/
theorem pullRob_rest (n : Nat) (s : State) : pullRob n s = { s with dp := (pullRob n s).dp } := by
  induction n generalizing s with
  | zero => rfl
  | succ n ih =>
    rw [pullRob]
    split
    · rw [ih]
    · split
      · rw [ih]
        rfl
      · rfl

theorem skipSeq_rest (q : Nat) (s : State) : skipSeq q s = { s with dp := (skipSeq q s).dp } := by
  rw [skipSeq]
  split
  · rfl
  · rw [pullRob_rest]

/-- Ordering a record counts one sent out of order, and nothing else. -/
theorem orderRec_rest (r : DRec) (s : State) :
    orderRec r s = { s with dp := (orderRec r s).dp, cnt := (orderRec r s).cnt } ∧
      ∀ k, k ≠ Cnt.dpOoo → (orderRec r s).counter k = s.counter k := by
  rw [orderRec]
  split
  · exact ⟨rfl, fun _ _ => rfl⟩
  split
  · exact ⟨rfl, fun _ _ => rfl⟩
  split
  · rw [pullRob_rest]
    exact ⟨rfl, fun _ _ => rfl⟩
  split
  · dsimp only
    split
    · exact ⟨rfl, fun _ _ => rfl⟩
    · exact ⟨rfl, fun _ _ => rfl⟩
  · exact ⟨rfl, fun k hk => Tab.get_set_ne _ _ _ hk⟩

/-- What the forming of a record leaves as it is. -/
theorem sendRec_rest (r : DRec) (s : State) :
    sendRec r s = { s with dp := (sendRec r s).dp, ms := (sendRec r s).ms, cnt := (sendRec r s).cnt } ∧
      ∀ k, k ≠ Cnt.dpOoo → k ≠ Cnt.dpNodest → (sendRec r s).counter k = s.counter k := by
  rw [sendRec]
  split
  · dsimp only
    split
    · exact ⟨rfl, fun k _ hk => Tab.get_set_ne _ _ _ hk⟩
    · rw [skipSeq_rest]
      exact ⟨rfl, fun k _ hk => Tab.get_set_ne _ _ _ hk⟩
  · obtain ⟨hs, hc⟩ := orderRec_rest r s
    rw [hs]
    exact ⟨rfl, fun k hk _ => hc k hk⟩

/-- A record outside the order is queued, or counted where no destination is committed. -/
theorem sendRec_unordered {r : DRec} (h : r.seq = none) (s : State) : sendRec r s =
    if noDest s then bump Cnt.dpNodest { s with ms := { s.ms with nodest := s.ms.nodest + 1 } }
    else { s with dp := { s.dp with queue := s.dp.queue ++ [r] } } := by
  rw [sendRec, h, orderRec, h]
  rfl

theorem tellWicks_eq (x : WkNote) (s : State) :
    tellWicks x s = modWicks 6 (fun w => { w with notes := w.notes ++ [x] }) s := rfl

theorem tellWicks_rest (x : WkNote) (s : State) : tellWicks x s = { s with wk := (tellWicks x s).wk } :=
  (modWicks_eq 6 _ s).1

theorem wick_tellWicks {n : Nat} (h : n < 6) (x : WkNote) (s : State) :
    (tellWicks x s).wick n = { s.wick n with notes := (s.wick n).notes ++ [x] } :=
  (wick_modWicks 6 n _ s).trans (if_pos h)

/-- The HUB when an event's limits but the hard deadline have left their lists. -/
def limitsLeft (h : BitVec 19) (s : State) : HubSt :=
  { (keepLoaded s).hub with windows := dropLimit h s.hub.windows, warnings := dropLimit h s.hub.warnings }

/-- The events when the record of one has been fixed. -/
def eventDecided (h : BitVec 19) (s : State) : Tab EvSt :=
  Tab.set EvSt.none s.ev (hSlot h) { s.event (hSlot h) with decided := true, window := false }

/-- The state in which an event's record is formed. -/
@[irreducible] def decidedWith (h : BitVec 19) (reason : BitVec 4) (s : State) : State :=
  let s := { s with hub := limitsLeft h s, ev := eventDecided h s }
  bump (reasonCnt reason) (if (s.slot (hSlot h)).st = .opened then tellWicks (.decided h) s else s)

theorem fixRecord_eq (h : BitVec 19) (outcome reason : BitVec 4) (trigger : BitVec 64) (s : State) :
    fixRecord h outcome reason trigger s = sendRec (recordOf s h outcome reason trigger) (decidedWith h reason s) := by
  rw [decidedWith]
  rfl

theorem decidedWith_rest (h : BitVec 19) (reason : BitVec 4) (s : State) :
    decidedWith h reason s = { s with
      hub := limitsLeft h s, ev := eventDecided h s, cnt := (bump (reasonCnt reason) s).cnt,
      wk := (decidedWith h reason s).wk } := by
  rw [decidedWith]
  split
  · rw [tellWicks_rest]
    rfl
  · rfl

variable {s t : State} {h : BitVec 19} {outcome reason : BitVec 4} {trigger : BitVec 64}

theorem noDest_decidedWith : noDest (decidedWith h reason s) = noDest s := by
  rw [decidedWith_rest]
  rfl

/-- What the fixing of a record leaves as it is, and what becomes of the event and the lists of limits. -/
theorem fixRecord_rest (ht : t = fixRecord h outcome reason trigger s) :
    t = { s with hub := limitsLeft h s, ev := eventDecided h s, dp := t.dp, ms := t.ms, cnt := t.cnt, wk := t.wk } := by
  have hsent := (sendRec_rest (recordOf s h outcome reason trigger) (decidedWith h reason s)).1
  rw [← fixRecord_eq, ← ht] at hsent
  have hwk : t.wk = (decidedWith h reason s).wk := by rw [hsent]
  rw [hwk]
  refine hsent.trans ?_
  rw [decidedWith_rest]

theorem counter_decidedWith (k : Nat) : (decidedWith h reason s).counter k = (bump (reasonCnt reason) s).counter k := by
  rw [decidedWith_rest]
  rfl

/-- It counts its reason, and beside that only a record out of order or without a destination. -/
theorem counter_fixRecord {k : Nat} (h1 : k ≠ Cnt.dpOoo) (h2 : k ≠ Cnt.dpNodest) :
    (fixRecord h outcome reason trigger s).counter k = (bump (reasonCnt reason) s).counter k := by
  rw [fixRecord_eq, (sendRec_rest _ _).2 k h1 h2, counter_decidedWith]

theorem reasonCnt_ne_dp (reason : BitVec 4) : reasonCnt reason ≠ Cnt.dpOoo ∧ reasonCnt reason ≠ Cnt.dpNodest := by
  revert reason
  decide

/-- The record of an event outside the order is queued where a destination is committed. -/
theorem dp_fixRecord (hseq : (s.event (hSlot h)).seq = none) (hd : noDest s = false) :
    (fixRecord h outcome reason trigger s).dp =
      { s.dp with queue := s.dp.queue ++ [recordOf s h outcome reason trigger] } := by
  rw [fixRecord_eq, sendRec_unordered hseq, noDest_decidedWith, hd, decidedWith_rest]
  rfl

/-- It is counted where none is. -/
theorem dp_fixRecord_nodest (hseq : (s.event (hSlot h)).seq = none) (hd : noDest s = true) :
    (fixRecord h outcome reason trigger s).dp = s.dp ∧
      (fixRecord h outcome reason trigger s).counter Cnt.dpNodest = (bump Cnt.dpNodest s).counter Cnt.dpNodest := by
  have hself (u : State) : (bump Cnt.dpNodest u).counter Cnt.dpNodest =
      BitVec.ofNat 32 (min 0xFFFFFFFF ((u.counter Cnt.dpNodest).toNat + 1)) := counter_bumpBy u _ 1
  have hcount : (decidedWith h reason s).counter Cnt.dpNodest = s.counter Cnt.dpNodest :=
    (counter_decidedWith _).trans (counter_bumpBy_ne s 1 (reasonCnt_ne_dp reason).2.symm)
  rw [fixRecord_eq, sendRec_unordered hseq, noDest_decidedWith, if_pos hd]
  refine ⟨by rw [decidedWith_rest]; rfl, ?_⟩
  rw [hself, hself]
  exact congrArg (fun v : Word => BitVec.ofNat 32 (min 0xFFFFFFFF (v.toNat + 1))) hcount

theorem slot_fixRecord (i : Nat) : (fixRecord h outcome reason trigger s).slot i = s.slot i := by
  rw [fixRecord_rest rfl]
  rfl

theorem event_fixRecord : (fixRecord h outcome reason trigger s).event (hSlot h) =
    { s.event (hSlot h) with decided := true, window := false } := by
  rw [fixRecord_rest rfl]
  exact Tab.get_set_self _ _ _ _

theorem event_fixRecord_ne {i : Nat} (hi : i ≠ hSlot h) : (fixRecord h outcome reason trigger s).event i = s.event i := by
  rw [fixRecord_rest rfl]
  exact Tab.get_set_ne _ _ _ hi

theorem hards_fixRecord : (fixRecord h outcome reason trigger s).hub.hards = s.hub.hards := by
  rw [fixRecord_rest rfl]
  rfl

theorem limits_fixRecord : ∀ y ∈ (fixRecord h outcome reason trigger s).hub.windows ++
    (fixRecord h outcome reason trigger s).hub.warnings, y.handle ≠ h := by
  rw [fixRecord_rest rfl]
  intro y hy
  rcases List.mem_append.mp hy with hy | hy <;> exact of_decide_eq_true (List.mem_filter.mp hy).2

/-! ### Decisions by a task -/

theorem exec_decideRequest (cs : List CtxId) (s : State) : exec (.decideRequest cs) s =
    .next ((cs.insertionSort (· ≤ ·)).foldl (fun s c => arriveDecide c s) s) := rfl

theorem exec_decideRequest_one (c : CtxId) (s : State) : exec (.decideRequest [c]) s = .next (arriveDecide c s) := rfl

variable {c : CtxId} {q : DecideReq}

theorem ctx_of_find (hq : (s.ll.decides.find? fun b => b.ctx = c) = some q) : q.ctx = c := by
  simpa using List.find?_some hq

theorem arriveDecide_none (hn : ∀ b ∈ s.ll.decides, b.ctx ≠ c) : arriveDecide c s = s := by
  have hq : (s.ll.decides.find? fun b => b.ctx = c) = none := List.find?_eq_none.mpr fun b hb => by simpa using hn b hb
  rw [arriveDecide, hq]

/-- A DECIDE of an event that is decided or gone is late. -/
theorem arriveDecide_late (hq : (s.ll.decides.find? fun b => b.ctx = c) = some q) (hu : undecided s q.handle = false) :
    arriveDecide c s = bump Cnt.snLateDecide { s with ll := { s.ll with
      decides := s.ll.decides.erase q, answers := s.ll.answers ++ [⟨c, q.task, q.pd, false, q.live⟩] } } := by
  have hu' (d : List DecideReq) : undecided { s with ll := { s.ll with decides := d } } q.handle = false := hu
  rw [arriveDecide, hq, ← ctx_of_find hq]
  dsimp only
  rw [takeDecide, hu']
  rfl

/-- The first DECIDE of an event fixes its record. -/
theorem arriveDecide_first {u : State} (hq : (s.ll.decides.find? fun b => b.ctx = c) = some q)
    (hu : undecided s q.handle = true) (hdec : u = { s with ll := { s.ll with decides := s.ll.decides.erase q } }) :
    arriveDecide c s = { decideEvent q u with ll := { s.ll with
      decides := s.ll.decides.erase q, answers := s.ll.answers ++ [⟨c, q.task, q.pd, true, q.live⟩] } } := by
  have hu' : undecided u q.handle = true := hdec ▸ hu
  have hll : (decideEvent q u).ll = u.ll := by
    rw [decideEvent, State.modSlot_ll, fixRecord_rest rfl]
  rw [arriveDecide, hq, ← ctx_of_find hq]
  dsimp only
  rw [← hdec, takeDecide, hu', if_pos rfl, hll, hdec]

/-- What that leaves of the module: its record, its event and its limits as Table 05-6 and R199 have them. -/
theorem arriveDecide_first_clause (hq : (s.ll.decides.find? fun b => b.ctx = c) = some q)
    (hu : undecided s q.handle = true) (ht : t = arriveDecide c s) :
    (t.slot (hSlot q.handle)).st = .decided ∧
      (t.event (hSlot q.handle)).decided = true ∧ (t.event (hSlot q.handle)).window = false ∧
      (∀ i, i ≠ hSlot q.handle → t.slot i = s.slot i ∧ t.event i = s.event i) ∧
      t.ll = { s.ll with decides := s.ll.decides.erase q, answers := s.ll.answers ++ [⟨c, q.task, q.pd, true, q.live⟩] } ∧
      t.ctxs = s.ctxs ∧ t.hbm = s.hbm ∧ t.counter Cnt.snMenu = (bump Cnt.snMenu s).counter Cnt.snMenu ∧
      t.hub.hards = s.hub.hards ∧ (∀ y ∈ t.hub.windows ++ t.hub.warnings, y.handle ≠ q.handle) ∧
      ((s.event (hSlot q.handle)).seq = none →
        (noDest s = false → t.dp = { s.dp with queue := s.dp.queue ++ [recordOf s q.handle q.outcome 0 q.trigger] }) ∧
        (noDest s = true → t.dp = s.dp ∧ t.counter Cnt.dpNodest = (bump Cnt.dpNodest s).counter Cnt.dpNodest)) := by
  obtain ⟨u, hdec⟩ : ∃ u : State, u = { s with ll := { s.ll with decides := s.ll.decides.erase q } } := ⟨_, rfl⟩
  rw [arriveDecide_first hq hu hdec] at ht
  obtain ⟨v, hv⟩ : ∃ v : State, v = fixRecord q.handle q.outcome 0 q.trigger u := ⟨_, rfl⟩
  have htv : t = { v.modSlot (hSlot q.handle) fun t => { t with st := .decided } with ll := { s.ll with
      decides := s.ll.decides.erase q, answers := s.ll.answers ++ [⟨c, q.task, q.pd, true, q.live⟩] } } := by
    rw [ht, decideEvent, hv]
  have hslot (i : Nat) : t.slot i = (v.modSlot (hSlot q.handle) fun t => { t with st := .decided }).slot i := htv ▸ rfl
  have hevent (i : Nat) : t.event i = v.event i := htv ▸ rfl
  have hmine : v.event (hSlot q.handle) = { s.event (hSlot q.handle) with decided := true, window := false } := by
    rw [hv, event_fixRecord, hdec]
    rfl
  refine ⟨by rw [hslot, State.slot_modSlot], by rw [hevent, hmine], by rw [hevent, hmine], fun i hi => ⟨?_, ?_⟩, by rw [htv], ?_, ?_, ?_, ?_, ?_,
    fun hseq => ⟨fun hd => ?_, fun hd => ?_⟩⟩
  · rw [hslot, State.slot_modSlot_ne _ _ hi, hv, slot_fixRecord, hdec]
    rfl
  · rw [hevent, hv, event_fixRecord_ne hi, hdec]
    rfl
  · rw [htv, State.modSlot_ctxs, fixRecord_rest hv, hdec]
  · rw [htv, State.modSlot_hbm, fixRecord_rest hv, hdec]
  · have hcount : t.counter Cnt.snMenu = v.counter Cnt.snMenu := htv ▸ rfl
    rw [hcount, hv, counter_fixRecord (by decide) (by decide), hdec]
    rfl
  · rw [htv, State.modSlot_hub, hv, hards_fixRecord, hdec]
  · rw [htv, State.modSlot_hub, hv]
    exact limits_fixRecord
  · rw [htv, State.modSlot_dp, hv, dp_fixRecord (by rw [hdec]; exact hseq) (by rw [hdec]; exact hd), hdec]
    rfl
  · obtain ⟨hdp, hcount⟩ := dp_fixRecord_nodest (s := u) (h := q.handle) (outcome := q.outcome) (reason := 0)
      (trigger := q.trigger) (by rw [hdec]; exact hseq) (by rw [hdec]; exact hd)
    refine ⟨by rw [htv, State.modSlot_dp, hv, hdp, hdec], ?_⟩
    have hsame : t.counter Cnt.dpNodest = v.counter Cnt.dpNodest := htv ▸ rfl
    rw [hsame, hv, hcount, hdec]
    rfl

/-! The answer on its way back (R196). -/

theorem exec_decideAnswer (c : CtxId) (s : State) : exec (.decideAnswer c) s =
    .next (match s.ll.answers.find? fun a => a.ctx = c with
      | none => s
      | some a =>
        let s := { s with ll := { s.ll with answers := s.ll.answers.erase a } }
        if !awaits a s then s
        else
          wakeCtx c (match a.pd with
            | some p => s.modCtx c fun x => x.setPred p a.won
            | none => s)) := rfl

theorem exec_decideAnswer_some {a : DecideAns} {u : State} (ha : (s.ll.answers.find? fun b => b.ctx = c) = some a)
    (hu : u = { s with ll := { s.ll with answers := s.ll.answers.erase a } }) : exec (.decideAnswer c) s =
    .next (if a.live = true ∧ (s.ctx c).st = .stalled ∧ (s.ctx c).stall = .decide ∧ (s.ctx c).task = some a.task then
      wakeCtx c (match a.pd with
        | some p => u.modCtx c fun x => x.setPred p a.won
        | none => u) else u) := by
  have hc : a.ctx = c := by simpa using List.find?_some ha
  have haw : awaits a u = decide (a.live = true ∧ (s.ctx c).st = .stalled ∧ (s.ctx c).stall = .decide ∧
      (s.ctx c).task = some a.task) := by
    have hctx : u.ctx c = s.ctx c := hu ▸ rfl
    simp only [awaits, hc, hctx, Bool.decide_and, Bool.decide_eq_true, Bool.and_assoc]
  rw [exec_decideAnswer, ha]
  dsimp only
  rw [← hu, haw]
  by_cases h : a.live = true ∧ (s.ctx c).st = .stalled ∧ (s.ctx c).stall = .decide ∧ (s.ctx c).task = some a.task
  · rw [if_pos h, if_neg (by simp [h])]
  · rw [if_neg h, if_pos (by simp only [h]; rfl)]

/-- The clause of the decisions by a task. -/
theorem decisionsByTask : Sys2Proof.Clause.DecisionsByTask := by
  intro s cs ds q c a
  refine ⟨fun hp => ?_, fun hc => ⟨_, rfl, ?_⟩, rfl, fun hn => ?_, fun hq => ⟨fun hl => ?_, fun hs ho => ⟨_, rfl, ?_⟩⟩,
    fun hn => ?_, fun ha u hu => ⟨fun h1 h2 h3 h4 => ?_, fun h => ?_⟩⟩
  · rw [exec_decideRequest, exec_decideRequest]
    have hsort : cs.insertionSort (· ≤ ·) = ds.insertionSort (· ≤ ·) :=
      (((cs.perm_insertionSort _).trans hp).trans (ds.perm_insertionSort _).symm).eq_of_pairwise
        (fun a b _ _ => BitVec.le_antisymm) (List.pairwise_insertionSort _ _) (List.pairwise_insertionSort _ _)
    rw [hsort]
  · rw [exec_decideRequest, exec_decideRequest, List.insertionSort_cons_of_forall_rel _ hc]
    rfl
  · rw [exec_decideRequest_one, arriveDecide_none hn]
  · rw [exec_decideRequest_one, arriveDecide_late hq (undecided_eq_false hl)]
  · exact arriveDecide_first_clause hq ((undecided_iff s q.handle).mpr ⟨hs, ho⟩) rfl
  · have ha : (s.ll.answers.find? fun a => a.ctx = c) = none := List.find?_eq_none.mpr fun b hb => by simpa using hn b hb
    rw [exec_decideAnswer, ha]
  · rw [exec_decideAnswer_some ha hu, if_pos ⟨h1, h2, h3, h4⟩] <;> rfl
  · rw [exec_decideAnswer_some ha hu, if_neg h]

end Sys2Proof.Machine
end

section
namespace Sys2Proof.Machine

/-! ### What an uncached access of memory leaves as it is -/

/-- Counters of the Lamplighter, the Snuffer and the decision port, which no access of memory counts in. -/
def hubCounter (k : Nat) : Bool := k / 0x10000 = 0x20

/-- Reasons of the records that an access of memory leaves, and instances that are dropped. -/
def memReason (n : BitVec 16) : Bool := n = 0x60 || n = 0x61 || n = 0x62 || n = 0x11

/-- A state without what an access of memory by a block of the HUB or by Taper can change: copies and stacks, the fabric, the
translations, the marks of spans, its own records and what counts it. -/
def aside (s : State) :
    State × (Nat → Word) × (CoreId → Option (BitVec 2)) × (CoreId → Uc) × (Nat → EngSt) :=
  ({ s with
      cnt := [], cores := [], lans := [], hbm := [], mcs := [], mm := MmSt.reset, cn := { s.cn with spans := [] },
      bl := BlSt.reset, tp := { s.tp with engines := [] }, recs := s.recs.filter fun r => !memReason r.reason,
      miss := none, freeCtr := 0 },
    fun k => if hubCounter k then s.counter k else 0, fun k => (s.core k).running, fun k => (s.core k).uc,
    fun e => { s.engine e with tlb := [] })

/-! What that says of the parts of a state. -/

section
variable {s t : State} (h : aside t = aside s)
include h

theorem ll_of_aside : t.ll = s.ll := congrArg (fun p => p.1.ll) h
theorem ctxs_of_aside : t.ctxs = s.ctxs := congrArg (fun p => p.1.ctxs) h
theorem ev_of_aside : t.ev = s.ev := congrArg (fun p => p.1.ev) h
theorem slots_of_aside : t.cn.slots = s.cn.slots := congrArg (fun p => p.1.cn.slots) h
theorem jobs_of_aside : t.tp.jobs = s.tp.jobs := congrArg (fun p => p.1.tp.jobs) h

theorem counter_of_aside {k : Nat} (hk : hubCounter k = true) : t.counter k = s.counter k := by
  have hcount : (if hubCounter k then t.counter k else 0) = if hubCounter k then s.counter k else 0 :=
    congrFun (congrArg (fun p => p.2.1) h) k
  simpa only [hk, if_true] using hcount

theorem running_of_aside (k : CoreId) : (t.core k).running = (s.core k).running := congrFun (congrArg (fun p => p.2.2.1) h) k
theorem uc_of_aside (k : CoreId) : (t.core k).uc = (s.core k).uc := congrFun (congrArg (fun p => p.2.2.2.1) h) k
theorem engine_of_aside (e : Nat) : { t.engine e with tlb := [] } = { s.engine e with tlb := [] } :=
  congrFun (congrArg (fun p => p.2.2.2.2) h) e

/-- It leaves every record but those of memory. -/
theorem mem_recs_of_aside {r : Rec} (hr : memReason r.reason = false) : r ∈ t.recs ↔ r ∈ s.recs := by
  have hrecs : t.recs.filter (fun r => !memReason r.reason) = s.recs.filter fun r => !memReason r.reason :=
    congrArg (fun p => p.1.recs) h
  have hmem (l : List Rec) : r ∈ l ↔ r ∈ l.filter fun r => !memReason r.reason := by
    simp [List.mem_filter, hr]
  rw [hmem t.recs, hmem s.recs, hrecs]

end

/-! Writing one component. -/

@[simp] theorem aside_modMc (s : State) (c : Nat) (f : McSt → McSt) : aside (s.modMc c f) = aside s := rfl
@[simp] theorem aside_setMc (s : State) (c : Nat) (x : McSt) : aside (s.setMc c x) = aside s := rfl
@[simp] theorem aside_modLan (s : State) (l : Lan) (f : LanSt → LanSt) : aside (s.modLan l f) = aside s := rfl
@[simp] theorem aside_setL2 (l : Lan) (ln : Nat) (x : L2Line) (s : State) : aside (setL2 l ln x s) = aside s := rfl
@[simp] theorem aside_touchL2 (l : Lan) (ln : Nat) (s : State) : aside (touchL2 l ln s) = aside s := rfl
@[simp] theorem aside_setDir (ln : Nat) (e : DirEnt) (s : State) : aside (setDir ln e s) = aside s := rfl
@[simp] theorem aside_setSpan (i : Nat) (e : SpanEnt) (s : State) : aside (setSpan i e s) = aside s := rfl
@[simp] theorem aside_post (dest txid op head body) (s : State) : aside (post dest txid op head body s) = aside s := rfl
@[simp] theorem aside_requestWrite (ln dest op head body) (s : State) : aside (requestWrite ln dest op head body s) = aside s := rfl
@[simp] theorem aside_missed (s : State) (m : Option (Nat × Bool)) : aside { s with miss := m } = aside s := rfl
@[simp] theorem aside_fabric (s : State) (b : BlSt) : aside { s with bl := b } = aside s := rfl
@[simp] theorem aside_homeNotice (l : Holder) (ln : Nat) (s : State) : aside (homeNotice l ln s) = aside s := rfl

@[simp] theorem aside_pick (s : State) (n : Nat) : aside (s.pick n).2 = aside s := by
  rw [State.pick]
  split <;> rfl

theorem aside_record {sev src reason a0 a1 a2 a3 a4} (h : memReason reason = true) (s : State) :
    aside (record sev src reason a0 a1 a2 a3 a4 s) = aside s := by
  have hrecs : (s.recs ++ [(⟨sev, src, reason, s.time, a0, a1, a2, a3, a4⟩ : Rec)]).filter (fun r => !memReason r.reason) =
      s.recs.filter fun r => !memReason r.reason := by
    simp [List.filter_append, h]
  exact Prod.ext (congrArg (fun l => { (aside s).1 with recs := l }) hrecs) rfl

/-- A core's caches are written, not what it runs. -/
theorem aside_modCore (s : State) (k : CoreId) {f : CoreSt → CoreSt} (hr : ∀ c, (f c).running = c.running)
    (hu : ∀ c, (f c).uc = c.uc) : aside (s.modCore k f) = aside s := by
  have hcore (j : CoreId) : ((s.modCore k f).core j).running = (s.core j).running ∧
      ((s.modCore k f).core j).uc = (s.core j).uc := by
    by_cases h : j = k
    · rw [h, State.core_modCore]
      exact ⟨hr _, hu _⟩
    · rw [State.core_modCore_ne s f h]
      exact ⟨rfl, rfl⟩
  exact Prod.ext rfl (Prod.ext rfl (Prod.ext (funext fun j => (hcore j).1) (Prod.ext (funext fun j => (hcore j).2) rfl)))

theorem aside_bumpBy {k : Nat} (h : hubCounter k = false) (n : Nat) (s : State) : aside (bumpBy k n s) = aside s := by
  refine Prod.ext rfl (Prod.ext (funext fun j => ?_) rfl)
  show (if hubCounter j then (bumpBy k n s).counter j else 0) = if hubCounter j then s.counter j else 0
  split
  · next hj =>
    have hne : j ≠ k := fun hjk => by rw [hjk, h] at hj; cases hj
    exact counter_bumpBy_ne s n hne
  · rfl

theorem aside_bump {k : Nat} (h : hubCounter k = false) (s : State) : aside (bump k s) = aside s := aside_bumpBy h 1 s

@[simp] theorem aside_bump_mc (c i : Nat) (s : State) : aside (bump (0x800000 + 0x10000 * c + i) s) = aside s :=
  aside_bump (decide_eq_false (by omega)) s

@[simp] theorem aside_foldl {α : Type} {f : State → α → State} (h : ∀ s a, aside (f s a) = aside s) (l : List α)
    (s : State) : aside (l.foldl f s) = aside s := by
  induction l generalizing s with
  | nil => rfl
  | cons a r ih => rw [List.foldl_cons, ih, h]

/-! A lantern's caches and a home agent's stack and directory. -/

@[simp] theorem aside_dropL1d (l : Lan) (ln : Nat) (s : State) : aside (dropL1d l ln s) = aside s :=
  aside_foldl (fun s k => by split <;> simp [aside_modCore]) _ s

@[simp] theorem aside_writeL2 (l : Lan) (ln : Nat) (st : Moesi) (ws : Tab (Option MWord)) (s : State) :
    aside (writeL2 l ln st ws s) = aside s := by
  rw [writeL2, aside_foldl (fun s k => by split <;> simp [aside_modCore])]
  simp

@[simp] theorem aside_invalidate (l : Lan) (ln : Nat) (s : State) : aside (invalidate l ln s) = aside s := by
  simp [invalidate]

@[simp] theorem aside_supply (l : Lan) (ln : Nat) (own : Bool) (s : State) : aside (supply l ln own s).2 = aside s := by
  rw [supply]
  split <;> cases own <;> simp

@[simp] theorem aside_setHbmWords (loc : Nat) (l : Line) (s : State) : aside (setHbmWords loc l s) = aside s := by
  induction l generalizing loc s with
  | nil => rfl
  | cons w r ih => rw [setHbmWords, ih]; rfl

@[simp] theorem aside_setHbmLine (loc : Nat) (l : Line) (s : State) : aside (setHbmLine loc l s) = aside s := by
  simp [setHbmLine]

@[simp] theorem aside_touchTag (c loc : Nat) (s : State) : aside (touchTag c loc s) = aside s := by
  rw [touchTag]
  split <;> simp [Cnt.mcTagcHit, Cnt.mcTagcMiss]

@[simp] theorem aside_homeWrite (loc : Nat) (l : Line) (s : State) : aside (homeWrite loc l s) = aside s := by
  simp [homeWrite]

@[simp] theorem aside_shareDir (h : Holder) (ln : Nat) (e : DirEnt) (s : State) : aside (shareDir h ln e s) = aside s := by
  rw [shareDir, aside_setDir]
  split
  · exact aside_bump rfl s
  · rfl

@[simp] theorem aside_homeWriteBack (l : Holder) (ln : Nat) (d : Line) (k : Moesi) (s : State) :
    aside (homeWriteBack l ln d k s) = aside s := by
  rw [homeWriteBack]
  split
  · cases k <;> simp
  · rfl

@[simp] theorem aside_leaveL2 (l : Lan) (ln : Nat) (s : State) : aside (leaveL2 l ln s) = aside s := by
  rw [leaveL2]
  cases (s.l2 l ln).st <;> dsimp only
  case S =>
    split
    · simp
    · split <;> simp
  all_goals split <;> simp

@[simp] theorem aside_reportSpan (pa : PA) (s : State) : aside (reportSpan pa s) = aside s := by
  rw [reportSpan]
  split <;> simp

@[simp] theorem aside_unpopulated (pa : PA) (s : State) : aside (unpopulated pa s) = aside s :=
  (aside_record rfl _).trans (aside_bump_mc _ _ s)

@[simp] theorem aside_homeUncorrectable (ln : Nat) (src : BitVec 3) (s : State) :
    aside (homeUncorrectable ln src s) = aside s := by
  rw [homeUncorrectable, aside_reportSpan, aside_record rfl, aside_modMc, aside_setHbmLine]
  exact aside_bump_mc _ _ s

@[simp] theorem aside_homeRead (loc : Nat) (s : State) : aside (homeRead loc s).2 = aside s := by
  have hmeet (u : State) : aside (meetHome 1 (some (Cnt.mcCorr (homeAgent loc))) none loc u) = aside u := by
    rw [meetHome]
    dsimp only
    split
    · simp [Cnt.mcCorr]
    · simp
    · split <;> simp [Cnt.mcCorr]
  rw [homeRead, hmeet, aside_touchTag]

@[simp] theorem aside_meetL2 (l : Lan) (ln : Nat) (s : State) : aside (meetL2 l ln s) = aside s := by
  have hu (u : State) : aside (bump Cnt.ccL2Uncorr u) = aside u := aside_bump rfl u
  have hc (n : Nat) (u : State) : aside (bumpBy Cnt.ccL2Corr n u) = aside u := aside_bumpBy rfl n u
  rw [meetL2]
  split
  · rfl
  split
  · split <;> simp [aside_record, memReason, hu]
  split
  · split <;> simp [aside_record, memReason, hu]
  · simp [hc]

@[simp] theorem aside_takeLocal (req : Option Holder) (shared : Bool) (ln : Nat) (s : State) :
    aside (takeLocal req shared ln s).2 = aside s := by
  unfold takeLocal
  extract_lets t e data mine lost v v'
  have hmet : aside t = aside s := by
    unfold t
    split
    · split <;> simp
    · rfl
  have hall : aside v' = aside t := by
    unfold v' v
    split
    · rw [aside_homeWrite, aside_foldl fun s l => aside_invalidate l ln s]
    · rw [aside_foldl fun s l => aside_invalidate l ln s]
  rw [← hmet]
  split
  · split
    · rename_i o _
      split
      · have hsup := aside_supply o.lan ln false t
        split <;> rename_i hs <;> rw [hs] at hsup <;> dsimp only at hsup ⊢
        · split
          · rw [aside_shareDir, hsup]
          · exact hsup
        · rw [aside_setDir, aside_homeWrite, hsup]
      · rfl
    · rfl
  · exact hall

/-! Reads and uncached writes by physical address. -/

@[simp] theorem aside_snoopLine (ln : Nat) (s : State) : aside (snoopLine ln s).2 = aside s := by
  rw [snoopLine]
  split
  · rfl
  split
  · dsimp only
    split <;> simp
  split
  · rfl
  · have h := aside_takeLocal (some ⟨s.node, 0⟩) true ln s
    split <;> rename_i hl <;> rw [hl] at h <;> dsimp only at h
    · exact h
    · rw [aside_homeRead, h]

@[simp] theorem aside_physRead (pa : PA) (s : State) : aside (physRead pa s).2 = aside s := by
  rw [physRead]
  split
  · rfl
  split
  · exact aside_unpopulated pa s
  · exact aside_snoopLine (lineNo pa) s

@[simp] theorem aside_homeQueue (r : HomeReq) (s : State) : aside (homeQueue r s) = aside s := by
  rw [homeQueue]
  split <;> rfl

@[simp] theorem aside_lostOwner (r : Requester) (k : HomeKind) (ln : Nat) (s : State) : aside (lostOwner r k ln s) = aside s := by
  rw [lostOwner]
  split
  · rw [aside_setDir, aside_homeWrite]
  · rfl

@[simp] theorem aside_ackTo (r : Requester) (ln : Nat) (s : State) : aside (ackTo r ln s) = aside s := by
  rw [ackTo]
  split <;> simp

@[simp] theorem aside_txnData (t : HomeTxn) (s : State) : aside (txnData t s).2 = aside s := by
  rw [txnData]
  split <;> simp

@[simp] theorem aside_wholeLine (t : HomeTxn) (s : State) : aside (wholeLine t s).2 = aside s := by
  simp [wholeLine]

@[simp] theorem aside_gatheredWrite (t : HomeTxn) (d : Line) (s : State) : aside (gatheredWrite t d s) = aside s := by
  rw [gatheredWrite]
  split <;> simp

theorem aside_homeFinish_uncached {t : HomeTxn} {keep : Bool} {ws : Tab (Option MWord)} (h : t.kind = .uncached keep ws)
    (s : State) : aside (homeFinish t s) = aside s := by
  unfold homeFinish
  rw [h]
  dsimp only
  split
  · rw [aside_ackTo, aside_setDir, aside_setHbmLine, aside_wholeLine]
  · rw [aside_ackTo, aside_setDir, aside_gatheredWrite, aside_txnData]

/-- An uncached write is served, or waits for copies on other nodes. -/
theorem aside_homeServe_uncached (r : Requester) (keep : Bool) (ws : Tab (Option MWord)) (ln : Nat) (s : State) :
    aside (homeServe r (.uncached keep ws) ln s) = aside s := by
  unfold homeServe
  extract_lets u e shared me
  have hcopies : aside (takeLocal me shared ln u).2 = aside s := by simp [u]
  rw [if_neg (by simp)]
  split
  rename_i data v hv
  rw [hv] at hcopies
  extract_lets e id fwd invs txn x y
  clear_value fwd
  have hx : aside x = aside v := by cases fwd <;> rfl
  have hy : aside y = aside x := aside_foldl (fun _ _ => aside_post ..) invs x
  split
  · exact (aside_homeFinish_uncached (t := txn) rfl v).trans hcopies
  · exact (aside_fabric y _).trans (hy.trans (hx.trans hcopies))

@[simp] theorem aside_physWriteLine (ln : Nat) (ws : Tab (Option MWord)) (s : State) :
    aside (physWriteLine none ln ws s) = aside s := by
  simp only [physWriteLine, physWriteKeep]
  split
  · exact aside_requestWrite ..
  split
  · rfl
  split
  · exact aside_unpopulated _ s
  · rw [homeRequest, dirVictim_uncached]
    split
    · exact aside_homeQueue _ s
    · exact aside_homeServe_uncached _ _ _ _ _

@[simp] theorem aside_physWrite (pa : PA) (w : MWord) (s : State) : aside (physWrite none pa w s) = aside s :=
  aside_physWriteLine _ _ s

@[simp] theorem aside_physWrites (pa : PA) (ws : List MWord) (s : State) : aside (physWrites none pa ws s) = aside s := by
  induction ws generalizing pa s with
  | nil => rfl
  | cons w r ih => rw [physWrites, ih, aside_physWrite]

end Sys2Proof.Machine
end

section
namespace Sys2Proof.Machine

/-! ### What making and ending tasks leaves as it is -/

/-- Counters of the Snuffer and the decision port. -/
def decisionCounter (k : Nat) : Bool := k / 0x4000 = 0x81 || k / 0x4000 = 0x82

/-- A state without what the making, waking and ending of tasks changes: beside what an access of memory can change, tasks and
contexts, the jobs of Taper, which stores wait for a log, and whether dropped instances of an event have been recorded. -/
def beyond (s : State) : State × (Nat → Word) × (Nat → SlotSt × BitVec 8) × (Nat → EvSt) :=
  ({ (aside s).1 with
      ll := LlSt.reset, ctxs := [], ms := MsSt.reset, ev := [], cn := { s.cn with spans := [], slots := [] },
      tp := { s.tp with engines := [], jobs := [] } },
    fun k => if decisionCounter k then s.counter k else 0, fun i => ((s.slot i).st, (s.slot i).gen),
    fun i => { s.event i with l1Logged := false })

theorem hubCounter_of_decisionCounter {k : Nat} (h : decisionCounter k = true) : hubCounter k = true := by
  simp only [decisionCounter, Bool.or_eq_true, decide_eq_true_eq] at h
  simp only [hubCounter, decide_eq_true_eq]
  omega

theorem beyond_of_aside {s t : State} (h : aside t = aside s) : beyond t = beyond s := by
  have hcount (k : Nat) : (if decisionCounter k then t.counter k else 0) = if decisionCounter k then s.counter k else 0 := by
    split
    · next hk => exact counter_of_aside h (hubCounter_of_decisionCounter hk)
    · rfl
  refine Prod.ext ?_ (Prod.ext (funext hcount) (Prod.ext (funext fun i => ?_) (funext fun i => ?_)))
  · exact congrArg (fun p => { p.1 with
      ll := LlSt.reset, ctxs := [], ms := MsSt.reset, ev := [], cn := { p.1.cn with slots := [] },
      tp := { p.1.tp with jobs := [] } }) h
  · show ((t.slot i).st, (t.slot i).gen) = ((s.slot i).st, (s.slot i).gen)
    rw [State.slot, slots_of_aside h]
    rfl
  · show { t.event i with l1Logged := false } = { s.event i with l1Logged := false }
    rw [State.event, ev_of_aside h]
    rfl

/-! What it says of the parts of a state. -/

section
variable {s t : State} (h : beyond t = beyond s)
include h

theorem slot_of_beyond (i : Nat) : (t.slot i).st = (s.slot i).st ∧ (t.slot i).gen = (s.slot i).gen :=
  Prod.ext_iff.mp (congrFun (congrArg (fun p => p.2.2.1) h) i)

theorem event_of_beyond (i : Nat) : { t.event i with l1Logged := false } = { s.event i with l1Logged := false } :=
  congrFun (congrArg (fun p => p.2.2.2) h) i

theorem hub_of_beyond : t.hub = s.hub := congrArg (fun p => p.1.hub) h
theorem dp_of_beyond : t.dp = s.dp := congrArg (fun p => p.1.dp) h
theorem wk_of_beyond : t.wk = s.wk := congrArg (fun p => p.1.wk) h

theorem decisions_of_beyond {k : Nat} (hk : decisionCounter k = true) : t.counter k = s.counter k := by
  have hcount : (if decisionCounter k then t.counter k else 0) = if decisionCounter k then s.counter k else 0 :=
    congrFun (congrArg (fun p => p.2.1) h) k
  simpa only [hk, if_true] using hcount

theorem mem_recs_of_beyond {r : Rec} (hr : memReason r.reason = false) : r ∈ t.recs ↔ r ∈ s.recs := by
  have hrecs : t.recs.filter (fun r => !memReason r.reason) = s.recs.filter fun r => !memReason r.reason :=
    congrArg (fun p => p.1.recs) h
  have hmem (l : List Rec) : r ∈ l ↔ r ∈ l.filter fun r => !memReason r.reason := by
    simp [List.mem_filter, hr]
  rw [hmem t.recs, hmem s.recs, hrecs]

end

/-! Instances (R181–R189). -/

@[simp] theorem beyond_ll (s : State) (x : LlSt) : beyond { s with ll := x } = beyond s := rfl
@[simp] theorem beyond_ms (s : State) (x : MsSt) : beyond { s with ms := x } = beyond s := rfl
@[simp] theorem beyond_modTask (s : State) (i : Nat) (f : TaskD → TaskD) : beyond (s.modTask i f) = beyond s := rfl
@[simp] theorem beyond_modCtx (s : State) (c : CtxId) (f : Ctx → Ctx) : beyond (s.modCtx c f) = beyond s := rfl
@[simp] theorem beyond_cores (s : State) (x : Tab CoreSt) : beyond { s with cores := x } = beyond s := rfl
@[simp] theorem beyond_modCore (s : State) (k : CoreId) (f : CoreSt → CoreSt) : beyond (s.modCore k f) = beyond s := rfl
@[simp] theorem beyond_bl (s : State) (x : BlSt) : beyond { s with bl := x } = beyond s := rfl

@[simp] theorem beyond_physWrites (pa : PA) (ws : List MWord) (s : State) : beyond (physWrites none pa ws s) = beyond s :=
  beyond_of_aside (aside_physWrites pa ws s)

theorem beyond_bumpBy {k : Nat} (h : decisionCounter k = false) (n : Nat) (s : State) : beyond (bumpBy k n s) = beyond s := by
  have hcount (j : Nat) : (if decisionCounter j then (bumpBy k n s).counter j else 0) =
      if decisionCounter j then s.counter j else 0 := by
    split
    · next hj => exact counter_bumpBy_ne s n fun hjk => by rw [hjk, h] at hj; cases hj
    · rfl
  exact Prod.ext rfl (Prod.ext (funext hcount) rfl)

theorem beyond_bump {k : Nat} (h : decisionCounter k = false) (s : State) : beyond (bump k s) = beyond s := beyond_bumpBy h 1 s

@[simp] theorem beyond_foldl {α : Type} {f : State → α → State} (h : ∀ s a, beyond (f s a) = beyond s) (l : List α)
    (s : State) : beyond (l.foldl f s) = beyond s := by
  induction l generalizing s with
  | nil => rfl
  | cons a r ih => rw [List.foldl_cons, ih, h]

@[simp] theorem beyond_putTask (i : Nat) (f : TaskD → TaskD) (s : State) : beyond (putTask i f s) = beyond s :=
  (beyond_of_aside (aside_physWriteLine _ _ _)).trans (beyond_modTask s i f)

@[simp] theorem beyond_makeTask (i : Inst) (n : Nat) (rsv : Bool) (cls : ReadyClass) (s : State) :
    beyond (makeTask i n rsv cls s) = beyond s := by
  rw [makeTask, beyond_bump rfl, beyond_physWrites, beyond_putTask]

theorem beyond_tryMake {i : Inst} {s t : State} (h : tryMake i s = some t) : beyond t = beyond s := by
  rw [tryMake] at h
  split at h
  · cases h
    exact beyond_makeTask _ _ _ _ s
  · cases h

@[simp] theorem beyond_freeRaws (n : Nat) (s : State) : beyond (freeRaws n s).2 = beyond s := by
  induction n generalizing s with
  | zero => rfl
  | succ n ih => exact (ih s.draw.2).trans rfl

@[simp] theorem beyond_deferInst (i : Inst) (s : State) : beyond (deferInst i s) = beyond s := by
  rw [deferInst]
  split
  · exact beyond_bump rfl _
  · rw [beyond_bump rfl, beyond_ll, beyond_physWrites, beyond_freeRaws]

theorem beyond_l1Logged (s : State) (n : Nat) : beyond (s.modEvent n fun e => { e with l1Logged := true }) = beyond s := by
  refine Prod.ext rfl (Prod.ext rfl (Prod.ext rfl (funext fun i => ?_)))
  show { (s.modEvent n fun e => { e with l1Logged := true }).event i with l1Logged := false } = { s.event i with l1Logged := false }
  by_cases h : i = n
  · rw [h, State.event_modEvent]
  · rw [State.event_modEvent_ne s _ h]

@[simp] theorem beyond_dropL1 (h : BitVec 19) (s : State) : beyond (dropL1 h s) = beyond s := by
  have hbump : beyond (bump Cnt.llL1Drop s) = beyond s := beyond_bump rfl s
  rw [dropL1]
  split
  · exact hbump
  · exact (beyond_l1Logged _ _).trans ((beyond_of_aside (aside_record rfl _)).trans hbump)

@[simp] theorem beyond_instantiate (i : Inst) (s : State) : beyond (instantiate i s) = beyond s := by
  rw [instantiate]
  split
  · split
    · exact beyond_dropL1 _ s
    · rfl
  split
  · next h => exact beyond_tryMake h
  · split
    · rfl
    · exact beyond_deferInst i s

@[simp] theorem beyond_instTemplate (n : Nat) (t : Templ) (close : Bool) (handle : Option (BitVec 19)) (deadline : BitVec 64)
    (w1 : TWord) (count : Nat) (s : State) : beyond (instTemplate n t close handle deadline w1 count s) = beyond s :=
  beyond_foldl (fun s _ => by split <;> simp [beyond_bump (show decisionCounter Cnt.llTmplErr = false from rfl)]) _ s

/-- A wake-up makes instances of templates, or counts that it comes late. -/
@[simp] theorem beyond_wake (kind : BitVec 3) (sel : Templ → Bool) (handle : Option (BitVec 19)) (w1 : TWord) (s : State) :
    beyond (wake kind sel handle w1 s) = beyond s := by
  unfold wake
  extract_lets late
  split
  · rfl
  split
  · exact beyond_bump rfl s
  · exact beyond_foldl (fun s e => beyond_instTemplate ..) _ s

/-! The end of tasks and the kill (R203). -/

/-- A table whose values are changed by a function that keeps the default. -/
theorem get_map {α : Type} (d : α) (t : Tab α) (g : α → α) (h : g d = d) (k : Nat) :
    Tab.get d (t.map fun e => (e.1, g e.2)) k = g (Tab.get d t k) := by
  induction t with
  | nil => exact h.symm
  | cons e r ih =>
    simp only [List.map_cons, Tab.get]
    split
    · rfl
    · exact ih

@[simp] theorem beyond_dropStall (c : CtxId) (s : State) : beyond (dropStall c s) = beyond s := by
  refine Prod.ext rfl (Prod.ext rfl (Prod.ext (funext fun i => ?_) rfl))
  have hslot : (dropStall c s).slot i = { s.slot i with stall := (s.slot i).stall.filter (· ≠ c) } :=
    get_map CnSlot.reset s.cn.slots (fun x => { x with stall := x.stall.filter (· ≠ c) }) rfl i
  show (((dropStall c s).slot i).st, ((dropStall c s).slot i).gen) = ((s.slot i).st, (s.slot i).gen)
  rw [hslot]

@[simp] theorem beyond_runCtx (c : CtxId) (s : State) : beyond (runCtx c s) = beyond s := by
  rw [runCtx, beyond_modCore, beyond_modCtx]

@[simp] theorem beyond_resched (k : CoreId) (s : State) : beyond (resched k s) = beyond s := by
  rw [resched]
  split
  · rfl
  split
  · rfl
  split
  · exact beyond_runCtx _ s
  · split <;> simp

/-- What a context that becomes EMPTY had asked for answers nobody. -/
theorem beyond_unanswered (s : State) (b : BlSt) (x : LlSt) : beyond { s with bl := b, ll := x } = beyond s := rfl

@[simp] theorem beyond_emptyCtx (c : CtxId) (s : State) : beyond (emptyCtx c s) = beyond s := by
  rw [emptyCtx, beyond_resched, beyond_modCtx, beyond_unanswered, beyond_modCore, dropFp, beyond_modCore, beyond_dropStall]

@[simp] theorem beyond_abandonStore (c : CtxId) (s : State) : beyond (abandonStore c s) = beyond s := by
  rw [abandonStore]
  split
  · rw [beyond_bump rfl, beyond_dropStall]
  · rw [beyond_bump rfl, beyond_dropStall]
  · rfl

@[simp] theorem beyond_dropMessages (h : BitVec 19) (s : State) : beyond (dropMessages h s) = beyond s := by
  rw [dropMessages, beyond_bumpBy rfl, beyond_cores]

@[simp] theorem beyond_jobs (s : State) (x : Tab (Option Job)) :
    beyond { s with tp := { s.tp with jobs := x } } = beyond s := rfl

theorem beyond_freed (s : State) (x : LlSt) (j : Tab (Option Job)) :
    beyond { s with ll := x, tp := { s.tp with jobs := j } } = beyond s := rfl

@[simp] theorem beyond_freeDesc (i : Nat) (s : State) : beyond (freeDesc i s) = beyond s := by
  rw [freeDesc, beyond_freed, putDesc, beyond_of_aside (aside_physWriteLine _ _ _), beyond_modTask]

@[simp] theorem beyond_killTask (i : Nat) (s : State) : beyond (killTask i s) = beyond s := by
  rw [killTask, beyond_bump rfl, beyond_freeDesc]
  cases (s.task i).ctx <;> simp

@[simp] theorem beyond_makePending (l : List Inst) (s : State) : beyond (makePending l s) = beyond s := by
  induction l generalizing s with
  | nil => rfl
  | cons i r ih =>
    rw [makePending]
    split
    · next h => rw [ih, beyond_tryMake h]
    · rw [ih, beyond_ll]

@[simp] theorem beyond_servePending (s : State) : beyond (servePending s) = beyond s := by
  rw [servePending]
  split <;> simp

theorem beyond_modEvent {s t : State} (h : beyond t = beyond s) (n : Nat) {f : EvSt → EvSt}
    (hf : ∀ e b, f { e with l1Logged := b } = { f e with l1Logged := b }) :
    beyond (t.modEvent n f) = beyond (s.modEvent n f) := by
  have hev (i : Nat) : { (t.modEvent n f).event i with l1Logged := false } =
      { (s.modEvent n f).event i with l1Logged := false } := by
    by_cases hi : i = n
    · rw [hi, State.event_modEvent, State.event_modEvent, ← hf, ← hf, event_of_beyond h]
    · rw [State.event_modEvent_ne t f hi, State.event_modEvent_ne s f hi, event_of_beyond h]
  exact Prod.ext (congrArg (fun p => p.1) h) (Prod.ext (congrArg (fun p => p.2.1) h)
    (Prod.ext (congrArg (fun p => p.2.2.1) h) (funext hev)))

/-- A kill leaves the mark of its event. -/
theorem beyond_killEvent (h : BitVec 19) (s : State) :
    beyond (killEvent h s) = beyond (s.modEvent (hSlot h) fun e => { e with killed := true }) := by
  rw [killEvent, beyond_servePending]
  refine beyond_modEvent ?_ _ fun _ _ => rfl
  rw [beyond_jobs, beyond_foldl fun s i => beyond_killTask i s, beyond_dropMessages, beyond_ll]

end Sys2Proof.Machine
end

section
namespace Sys2Proof.Machine

/-! ### Close reports and drop notices -/

theorem exec_closeReport (n : BitVec 3) (s : State) : exec (.closeReport n) s = execCloseReport n s := rfl
theorem exec_dropNotice (n : BitVec 3) (s : State) : exec (.dropNotice n) s = execDropNotice n s := rfl

/-- The event of a report that has been taken. -/
def reported (n : Nat) (p : WkReport) (s : State) : EvSt :=
  { s.event (hSlot p.handle) with
    trunc := (s.event (hSlot p.handle)).trunc || (p.drop && undecided s p.handle),
    reports := ((s.event (hSlot p.handle)).reports.filter fun x => x.1 ≠ n) ++ [(n, p.hits)] }

theorem markTrunc_stale {s : State} {h : BitVec 19} (hs : s.stale h = true) : markTrunc h s = bump Cnt.cnStaleHandle s := by
  rw [markTrunc, if_pos hs]

theorem markTrunc_current {s : State} {h : BitVec 19} (hs : s.stale h = false) : markTrunc h s =
    if undecided s h then s.modEvent (hSlot h) fun e => { e with trunc := true } else s := by
  rw [markTrunc, if_neg (by simp [hs])]

/-- A wick's oldest report is taken into its event (R161). -/
theorem exec_closeReport_current {s u : State} {n : BitVec 3} {p : WkReport} {rs : List WkReport} (hn : n.toNat < 6)
    (hp : (s.wick n.toNat).reports = p :: rs) (hs : s.stale p.handle = false)
    (hu : u = (s.modWick n.toNat fun w => { w with reports := rs }).setEvent (hSlot p.handle) (reported n.toNat p s)) :
    exec (.closeReport n) s =
      .next (if (reported n.toNat p s).reports.length = 6 then windowReported p.handle u else u) := by
  obtain ⟨v, hv⟩ : ∃ v, v = s.modWick n.toNat fun w => { w with reports := rs } := ⟨_, rfl⟩
  have hdrop : (s.modWick n.toNat fun w => { w with reports := w.reports.drop 1 }) = v := by
    rw [hv, State.modWick, State.modWick, hp]
    rfl
  have hsv : v.stale p.handle = false := hv ▸ hs
  have hund : undecided v p.handle = undecided s p.handle := hv ▸ rfl
  have hev : v.event (hSlot p.handle) = s.event (hSlot p.handle) := hv ▸ rfl
  have htaken : ((if p.drop then markTrunc p.handle v else v).modEvent (hSlot p.handle) fun e =>
      { e with reports := e.reports.filter (fun x => x.1 ≠ n.toNat) ++ [(n.toNat, p.hits)] }) = u := by
    rw [hu, ← hv, reported, ← hund, ← hev, markTrunc_current hsv]
    cases p.drop <;> cases undecided v p.handle <;>
      simp [State.modEvent]
  have hthen : reported n.toNat p s = u.event (hSlot p.handle) := hu ▸ (State.event_setEvent _ _ _).symm
  show execCloseReport n s = _
  rw [execCloseReport, onWick, if_pos hn, hp]
  dsimp only
  rw [hdrop, if_neg (by simp [hsv]), htaken, hthen]

/-- The limits and the slot of an event whose window has been reported by every wick. -/
def reportedState (h : BitVec 19) (s : State) : State :=
  { s with hub := { (keepLoaded s).hub with windows := dropLimit h s.hub.windows } }.modEvent (hSlot h)
    fun e => { e with window := false }

/-- The window closes, with its OPEN slot, and the CLOSE wake-up is issued unless a decision had closed it (R34, R35). -/
theorem windowReported_eq (h : BitVec 19) (s : State) : windowReported h s =
    if (s.event (hSlot h)).window ∨ (s.event (hSlot h)).winto then
      wake 1 (fun _ => true) (some h) (TWord.fix (BitVec.ofNat 32 ((s.event (hSlot h)).reports.map Prod.snd).sum))
        ((reportedState h s).modSlot (hSlot h) fun t => { t with st := if t.st = .opened then .closed else t.st })
    else reportedState h s := rfl

/-- A wake-up for an event that is decided comes late (R183). -/
theorem wake_late {s : State} {h : BitVec 19} (hpf : s.pf = false) (hu : undecided s h = false) (kind : BitVec 3)
    (sel : Templ → Bool) (w1 : TWord) : wake kind sel (some h) w1 s = bump Cnt.llWakeLate s := by
  have hlate : (!s.ll.enable || !wakeable s h) = true := by
    rw [show wakeable s h = false from hu]
    simp
  unfold wake
  dsimp only
  rw [if_neg (by simp [hpf]), if_pos hlate]

section
variable {s u t v : State} {h : BitVec 19}

/-- The parts of an event, of its slot and of the lists that the making of tasks does not change. -/
theorem event_slot_of_beyond (hb : beyond t = beyond s) (i : Nat) :
    (t.event i).window = (s.event i).window ∧ (t.event i).trunc = (s.event i).trunc ∧ (t.slot i).st = (s.slot i).st := by
  have hwindow := congrArg EvSt.window (event_of_beyond hb i)
  have htrunc := congrArg EvSt.trunc (event_of_beyond hb i)
  exact ⟨hwindow, htrunc, (slot_of_beyond hb i).1⟩

theorem reportedState_event : (reportedState h u).event (hSlot h) = { u.event (hSlot h) with window := false } := by
  rw [reportedState, State.event_modEvent]
  rfl

theorem reportedState_rest (h : BitVec 19) (u : State) : (reportedState h u).cn = u.cn ∧ (reportedState h u).ll = u.ll :=
  ⟨rfl, rfl⟩

theorem reportedState_windows : ∀ y ∈ (reportedState h u).hub.windows, y.handle ≠ h :=
  fun _ hy => of_decide_eq_true (List.mem_filter.mp hy).2

/-- The window of an event that is open, or has timed out, closes with its OPEN slot, and the CLOSE wake-up is issued. -/
theorem windowReported_wakes (hopen : (u.event (hSlot h)).window = true ∨ (u.event (hSlot h)).winto = true)
    (ht : t = windowReported h u) : ∃ v,
      t = wake 1 (fun _ => true) (some h) (TWord.fix (BitVec.ofNat 32 ((u.event (hSlot h)).reports.map Prod.snd).sum)) v ∧
      (t.event (hSlot h)).window = false ∧ (t.event (hSlot h)).trunc = (u.event (hSlot h)).trunc ∧
      (∀ y ∈ t.hub.windows, y.handle ≠ h) ∧ (v.event (hSlot h)).window = false ∧
      (t.slot (hSlot h)).st = (if (u.slot (hSlot h)).st = .opened then .closed else (u.slot (hSlot h)).st) ∧
      v = { u with hub := v.hub, ev := v.ev, cn := v.cn } ∧ undecided v h = undecided u h := by
  obtain ⟨v, hv⟩ : ∃ v, v = (reportedState h u).modSlot (hSlot h)
    fun t => { t with st := if t.st = .opened then .closed else t.st } := ⟨_, rfl⟩
  rw [windowReported_eq, if_pos hopen, ← hv] at ht
  have hb : beyond t = beyond v := ht ▸ beyond_wake ..
  obtain ⟨hwin, htrunc, hst⟩ := event_slot_of_beyond hb (hSlot h)
  have hev : v.event (hSlot h) = { u.event (hSlot h) with window := false } := by
    rw [hv, State.modSlot_get_event, reportedState_event]
  have hslot : v.slot (hSlot h) = { u.slot (hSlot h) with
      st := if (u.slot (hSlot h)).st = .opened then .closed else (u.slot (hSlot h)).st } := by
    rw [hv, State.slot_modSlot]
    rfl
  refine ⟨v, ht, by rw [hwin, hev], by rw [htrunc, hev], ?_, by rw [hev], by rw [hst, hslot], by rw [hv]; rfl, ?_⟩
  · rw [hub_of_beyond hb, hv]
    exact reportedState_windows
  · rw [undecided, undecided, State.stale, State.stale, hslot]
    cases (u.slot (hSlot h)).st <;> rfl

end

theorem exec_dropNotice_cons {s u : State} {n : BitVec 3} {h : BitVec 19} {r : List (BitVec 19)} (hn : n.toNat < 6)
    (hr : (s.wick n.toNat).notices = h :: r) (hu : u = s.modWick n.toNat fun w => { w with notices := r }) :
    exec (.dropNotice n) s = .next (markTrunc h u) := by
  have hdrop : (s.modWick n.toNat fun w => { w with notices := w.notices.drop 1 }) = u := by
    rw [hu, State.modWick, State.modWick, hr]
    rfl
  show execDropNotice n s = _
  rw [execDropNotice, onWick, if_pos hn, hr]
  dsimp only
  rw [hdrop]

/-! ### Retirement and SPAWN requests -/

theorem canRetire_iff (i : Nat) (s : State) : canRetire i s = true ↔
    ((s.slot i).st = .decided ∨ (s.slot i).st = .snuffed) ∧ (s.event i).window = false ∧
      (∀ e ∈ s.ll.tasks, e.2.st ≠ .free → e.2.handle ≠ some (mkHandle i (s.slot i).gen)) ∧
      ∀ j ∈ allJobs s, j.2.owner ≠ some (mkHandle i (s.slot i).gen) := by
  simp [canRetire, liveTasks, and_assoc]

theorem exec_retireStart (i : BitVec 11) (s : State) : exec (.retireStart i) s = .next (
    if canRetire i.toNat s then
      { keepLoaded s with hub := { (keepLoaded s).hub with
        hards := dropLimit (mkHandle i.toNat (s.slot i.toNat).gen) s.hub.hards } }.modSlot i.toNat fun t => { t with st := .retiring }
    else s) := rfl

/-- A SPAWN request makes one of the instances of its template, if that is enabled and its event can still be given tasks (R182). -/
def takeSpawn (q : SpawnReq) (s : State) : State :=
  if s.pf then s
  else if !s.ll.enable then bump Cnt.llWakeLate s
  else if (Tab.get Templ.off s.ll.templ q.tmpl).en && spawnable q.handle s then
    instTemplate q.tmpl (Tab.get Templ.off s.ll.templ q.tmpl) false q.handle q.deadline q.arg 1 s
  else s

theorem exec_spawnRequest_none {s : State} (h : s.ll.spawns = []) : exec .spawnRequest s = .next s := by
  show execSpawnRequest s = _
  rw [execSpawnRequest, h]

theorem exec_spawnRequest {s u : State} {q : SpawnReq} {r : List SpawnReq} (hq : s.ll.spawns = q :: r)
    (hu : u = { s with ll := { s.ll with spawns := r } }) : exec .spawnRequest s = .next (takeSpawn q u) := by
  show execSpawnRequest s = _
  rw [execSpawnRequest, hq, hu]
  rfl

/-- The clause of a wick's sixth report. -/
theorem sixthReport {s : State} {n : BitVec 3} {p : WkReport} {rs : List WkReport} (hn : n.toNat < 6)
    (hp : (s.wick n.toNat).reports = p :: rs) (hs : s.stale p.handle = false) {e : EvSt} (he : e = reported n.toNat p s)
    (hlen : e.reports.length = 6) : ∃ v t, exec (.closeReport n) s = .next t ∧
      (t.event (hSlot p.handle)).window = false ∧ (t.event (hSlot p.handle)).trunc = e.trunc ∧
      (∀ y ∈ t.hub.windows, y.handle ≠ p.handle) ∧
      (e.window = true ∨ e.winto = true →
        t = wake 1 (fun _ => true) (some p.handle) (TWord.fix (BitVec.ofNat 32 (e.reports.map Prod.snd).sum)) v ∧
        (v.event (hSlot p.handle)).window = false ∧ v.ll = s.ll ∧ v.pf = s.pf ∧
        ((s.slot (hSlot p.handle)).st = .opened → (t.slot (hSlot p.handle)).st = .closed) ∧
        ((s.slot (hSlot p.handle)).st ≠ .opened → (t.slot (hSlot p.handle)).st = (s.slot (hSlot p.handle)).st) ∧
        (undecided s p.handle = false → s.pf = false →
          t.counter Cnt.llWakeLate = (bump Cnt.llWakeLate s).counter Cnt.llWakeLate ∧ t.ll = s.ll)) ∧
      (e.window = false → e.winto = false → t.cn = s.cn ∧ t.ll = s.ll) := by
  obtain ⟨u, hu⟩ : ∃ u, u = (s.modWick n.toNat fun w => { w with reports := rs }).setEvent (hSlot p.handle) e := ⟨_, rfl⟩
  have hue : u.event (hSlot p.handle) = e := by rw [hu, State.event_setEvent]
  have hexec : exec (.closeReport n) s = .next (windowReported p.handle u) := by
    rw [exec_closeReport_current hn hp hs (he ▸ hu), ← he, if_pos hlen]
  rw [hexec]
  by_cases hopen : e.window = true ∨ e.winto = true
  · obtain ⟨v, ht, hwindow, htrunc, hlimits, hv, hst, hrest, hund⟩ :=
      windowReported_wakes (u := u) (h := p.handle) (by rwa [hue]) rfl
    rw [hue] at ht htrunc
    have hslot : u.slot (hSlot p.handle) = s.slot (hSlot p.handle) := hu ▸ rfl
    have hll : v.ll = s.ll := by rw [hrest, hu]; rfl
    have hpf : v.pf = s.pf := by rw [hrest, hu]; rfl
    rw [hslot] at hst
    refine ⟨v, _, rfl, hwindow, htrunc, hlimits, fun _ => ⟨ht, hv, hll, hpf, fun ho => ?_, fun ho => ?_, fun hd hp0 => ?_⟩,
      fun h1 h2 => ?_⟩
    · rw [hst, if_pos ho]
    · rw [hst, if_neg ho]
    · have hlate := wake_late (hpf.trans hp0) (hund.trans (by rw [hu]; exact hd)) 1 (fun _ => true)
        (TWord.fix (BitVec.ofNat 32 (e.reports.map Prod.snd).sum))
      have hcnt : v.cnt = s.cnt := by rw [hrest, hu]; rfl
      rw [ht, hlate]
      have hbump : (bump Cnt.llWakeLate v).cnt = (bump Cnt.llWakeLate s).cnt := by
        rw [bump, bump, bumpBy, bumpBy, State.counter, hcnt]
        rfl
      exact ⟨congrArg (fun t => Tab.get 0 t Cnt.llWakeLate) hbump, hll⟩
    · simp [h1, h2] at hopen
  · have hclosed : windowReported p.handle u = reportedState p.handle u := by
      rw [windowReported_eq, if_neg (by rwa [hue])]
    have hcn : (reportedState p.handle u).cn = s.cn := (reportedState_rest p.handle u).1.trans (by rw [hu]; rfl)
    have hll : (reportedState p.handle u).ll = s.ll := (reportedState_rest p.handle u).2.trans (by rw [hu]; rfl)
    rw [hclosed]
    exact ⟨u, _, rfl, by rw [reportedState_event], by rw [reportedState_event, hue], reportedState_windows,
      fun h => absurd h hopen, fun _ _ => ⟨hcn, hll⟩⟩

/-- Settles O34: a report is taken into its event, and the sixth closes the window with its OPEN slot; the CLOSE wake-up makes
tasks alone, so what the close has left of the event stands. -/
theorem closesAndRetirement : Obligations.ClosesAndRetirement := by
  intro s n h
  refine ⟨fun hn p rs hp hh => ⟨fun hs => ?_, fun hs e he => ⟨fun hlen => ?_, fun hlen => ?_⟩⟩, fun hn => ?_,
    fun hn r hr u hu => ⟨fun hd => ?_, fun hs => ?_, fun hs hd => ?_⟩, fun i hi => ⟨fun hst hw ht hj => ?_, fun hno => ?_⟩,
    fun hq => ?_, fun q r u hq hu => ⟨fun hp => ?_, fun hp he => ?_, fun hp he => ⟨fun ht hs => ?_, fun hno => ?_⟩⟩⟩
  · subst hh
    show execCloseReport n s = _
    rw [execCloseReport, onWick, if_pos hn, hp]
    exact congrArg Host.Outcome.next ((if_pos hs).trans (by rw [State.modWick, State.modWick, hp]; rfl))
  · subst hh
    rw [exec_closeReport_current hn hp hs rfl, if_neg (by rwa [← show e = reported n.toNat p s from he]), he, reported]
  · subst hh
    exact sixthReport hn hp hs he hlen
  · exact ⟨congrArg Host.Outcome.next (if_neg (Nat.not_lt.mpr hn)), congrArg Host.Outcome.next (if_neg (Nat.not_lt.mpr hn))⟩
  · rw [exec_dropNotice_cons hn hr hu, markTrunc_current (hu ▸ ((undecided_iff s h).mp hd).1), if_pos (hu ▸ hd)]
  · rw [exec_dropNotice_cons hn hr hu, markTrunc_stale (hu ▸ hs)]
  · rw [exec_dropNotice_cons hn hr hu, markTrunc_current (hu ▸ hs), if_neg (hu ▸ ne_true_of_eq_false hd)]
  · subst hi
    rw [exec_retireStart, if_pos ((canRetire_iff _ s).mpr ⟨hst, hw, ht, hj⟩)]
    exact ⟨_, rfl⟩
  · subst hi
    rw [exec_retireStart, if_neg]
    rw [canRetire_iff]
    rintro ⟨hst, hw, ht, hj⟩
    rcases hno with ⟨h1, h2⟩ | h1 | ⟨e, he, h1, h2⟩ | ⟨j, hm, h1⟩
    · exact hst.elim h1 h2
    · simp [hw] at h1
    · exact ht e he h1 h2
    · exact hj j hm h1
  · exact exec_spawnRequest_none hq
  · rw [exec_spawnRequest hq hu, takeSpawn, if_pos (hu ▸ hp)]
  · rw [exec_spawnRequest hq hu, takeSpawn, if_neg (hu ▸ ne_true_of_eq_false hp), if_pos (by rw [hu]; simp [he])]
  · rw [exec_spawnRequest hq hu, takeSpawn, if_neg (hu ▸ ne_true_of_eq_false hp), if_neg (by rw [hu]; simp [he]),
      if_pos (by rw [hu]; exact Bool.and_eq_true_iff.mpr ⟨ht, hs⟩), hu]
  · rw [exec_spawnRequest hq hu, takeSpawn, if_neg (hu ▸ ne_true_of_eq_false hp), if_neg (by rw [hu]; simp [he]),
      if_neg (by rw [hu]; exact fun h => hno (Bool.and_eq_true_iff.mp h))]

end Sys2Proof.Machine
end

section
namespace Sys2Proof.Machine

/-! ### The grant of a slot -/

/-- What a grant of spans leaves: it changes the candle manager, its records and the free choices, and of a slot neither state nor
generation. -/
def SpansAlone (s t : State) : Prop :=
  t = { s with cn := t.cn, recs := t.recs, freeCtr := t.freeCtr } ∧
    ∀ i, (t.slot i).st = (s.slot i).st ∧ (t.slot i).gen = (s.slot i).gen

theorem SpansAlone.refl (s : State) : SpansAlone s s := ⟨rfl, fun _ => ⟨rfl, rfl⟩⟩

theorem SpansAlone.trans {s t u : State} (h : SpansAlone s t) (g : SpansAlone t u) : SpansAlone s u := by
  obtain ⟨hrest, hslot⟩ := h
  obtain ⟨grest, gslot⟩ := g
  refine ⟨?_, fun i => ⟨(gslot i).1.trans (hslot i).1, (gslot i).2.trans (hslot i).2⟩⟩
  rw [hrest] at grest
  exact grest

theorem SpansAlone.expireDue (n : Nat) (s : State) : SpansAlone s (expireDue n s) := by
  have hspan (i : Nat) (s : State) : SpansAlone s (expireSpan i s) := by
    unfold expireSpan
    dsimp only
    split <;> exact ⟨rfl, fun _ => ⟨rfl, rfl⟩⟩
  induction n generalizing s with
  | zero => exact .refl s
  | succ n ih =>
    rw [Machine.expireDue]
    split
    · exact .refl s
    split
    · exact .refl s
    · next i t r _ _ =>
      have hlist : SpansAlone s { s with cn := { s.cn with cooling := r } } := ⟨rfl, fun _ => ⟨rfl, rfl⟩⟩
      exact (hlist.trans (hspan i _)).trans (ih _)

theorem SpansAlone.modSlot (s : State) (i : Nat) {f : CnSlot → CnSlot} (hst : ∀ x, (f x).st = x.st)
    (hgen : ∀ x, (f x).gen = x.gen) : SpansAlone s (s.modSlot i f) := by
  refine ⟨rfl, fun j => ?_⟩
  by_cases h : j = i
  · rw [h, State.slot_modSlot]
    exact ⟨hst _, hgen _⟩
  · rw [State.slot_modSlot_ne s f h]
    exact ⟨rfl, rfl⟩

theorem SpansAlone.noteFree (s : State) : SpansAlone s (noteFree s) := by
  unfold Machine.noteFree
  generalize freeSpans s.cn = n
  dsimp only
  split <;> exact ⟨rfl, fun _ => ⟨rfl, rfl⟩⟩

theorem SpansAlone.setSpan (i : Nat) (e : SpanEnt) (s : State) : SpansAlone s (setSpan i e s) := ⟨rfl, fun _ => ⟨rfl, rfl⟩⟩

theorem SpansAlone.takeSpan (slot idx : Nat) (s : State) : SpansAlone s (takeSpan slot idx s) := by
  unfold Machine.takeSpan
  extract_lets e
  refine .trans ?_ (.noteFree _)
  exact (SpansAlone.setSpan idx e s).trans (.modSlot _ slot (fun _ => rfl) fun _ => rfl)

theorem SpansAlone.takeSpans (slot : Nat) (fresh : Bool) (n : Nat) (s : State) : SpansAlone s (takeSpans slot fresh n s) := by
  induction n generalizing s with
  | zero => exact .refl s
  | succ n ih =>
    have hpick : SpansAlone s (s.pick (freeOf s.cn (s.slot slot).bank.toNat).length).2 := by
      rw [State.pick]
      split <;> exact ⟨rfl, fun _ => ⟨rfl, rfl⟩⟩
    rw [Machine.takeSpans]
    generalize s.pick (freeOf s.cn (s.slot slot).bank.toNat).length = p at hpick ⊢
    obtain ⟨k, u⟩ := p
    dsimp only at hpick ⊢
    split
    · exact hpick
    · next idx _ =>
      refine (hpick.trans (.takeSpan slot idx u)).trans (.trans ?_ (ih _))
      cases fresh
      · exact .refl _
      · exact .modSlot _ slot (f := fun t => { t with fresh := t.fresh ++ [idx] }) (fun _ => rfl) fun _ => rfl

/-- A slot that is granted is OPEN under its next generation (R92, R100). -/
theorem grantSlot_some {s v : State} {i : Nat} (h : grantSlot s = some (i, v)) :
    v = { s with cn := v.cn, recs := v.recs, freeCtr := v.freeCtr } ∧ (v.slot i).st = .opened ∧
      (v.slot i).gen = (s.slot i).gen + 1 ∧
      ∀ j, j ≠ i → (v.slot j).st = (s.slot j).st ∧ (v.slot j).gen = (s.slot j).gen := by
  obtain ⟨u, hu⟩ : ∃ u, u = coolDue s := ⟨_, rfl⟩
  have hcool : SpansAlone s u := hu ▸ .expireDue _ s
  have htake {w : State} (hw : takeSlot u = some (i, w)) : SpansAlone u w := by
    unfold takeSlot at hw
    split at hw
    · cases hw
      exact ⟨rfl, fun _ => ⟨rfl, rfl⟩⟩
    · split at hw
      · cases hw
        exact ⟨rfl, fun _ => ⟨rfl, rfl⟩⟩
      · cases hw
  unfold grantSlot at h
  rw [← hu] at h
  dsimp only at h
  split at h
  · cases h
  · split at h
    · cases h
    · next j w hw =>
      cases h
      obtain ⟨w', hw'⟩ : ∃ w', w' = w.modSlot i fun t =>
        { CnSlot.reset with st := .opened, gen := t.gen + 1, bank := BitVec.ofNat 5 (bestBank u.cn 23) } := ⟨_, rfl⟩
      obtain ⟨hrest, hslots⟩ := hcool.trans (htake hw)
      obtain ⟨hrest', hslots'⟩ := SpansAlone.takeSpans i true u.cn.run.lv.initSpans.toNat w'
      rw [← hw']
      have hmine : w'.slot i = { CnSlot.reset with
          st := .opened, gen := (w.slot i).gen + 1, bank := BitVec.ofNat 5 (bestBank u.cn 23) } := by
        rw [hw', State.slot_modSlot]
      have hbase : w' = { s with cn := w'.cn, recs := w'.recs, freeCtr := w'.freeCtr } := by
        rw [hw', hrest]
        rfl
      generalize takeSpans i true u.cn.run.lv.initSpans.toNat w' = v at hrest' hslots' ⊢
      refine ⟨?_, by rw [(hslots' i).1, hmine], by rw [(hslots' i).2, hmine, (hslots i).2], fun j hj => ?_⟩
      · rw [hbase] at hrest'
        exact hrest'
      · rw [(hslots' j).1, (hslots' j).2, hw', State.slot_modSlot_ne _ _ hj]
        exact hslots j

/-! ### Open requests -/

theorem hSlot_mkHandle {i : Nat} (h : i < 2048) (g : BitVec 8) : hSlot (mkHandle i g) = i := by
  have hlow : (mkHandle i g).extractLsb' 0 11 = BitVec.ofNat 11 i := by
    ext j hj
    rw [BitVec.getElem_extractLsb', Nat.zero_add, ← BitVec.getLsbD_eq_getElem]
    exact (BitVec.getLsbD_append (x := g)).trans (if_pos hj)
  rw [hSlot, hlow, BitVec.toNat_ofNat, Nat.mod_eq_of_lt h]

theorem mem_insertLimit (x : Limit) (l : List Limit) : x ∈ insertLimit x l := by
  induction l with
  | nil => exact List.mem_singleton_self x
  | cons y r ih =>
    rw [insertLimit]
    split
    · exact List.mem_cons_of_mem _ ih
    · exact List.mem_cons_self

theorem exec_openRequest_idle {s : State} (h : s.hub.openReqs = [] ∨ s.pf = true ∨ s.tb.counting = false) :
    exec .openRequest s = .next s := by
  show execOpenRequest s = _
  rw [execOpenRequest]
  split
  · rfl
  · next hq =>
    have hno : (s.pf || !s.tb.counting) = true := by
      rcases h with h | h | h
      · simp [h] at hq
      · simp [h]
      · simp [h]
    rw [if_pos hno]

section
variable {s u : State} {q : OpenReq} {r : List OpenReq} (hq : s.hub.openReqs = q :: r) (hpf : s.pf = false)
  (hc : s.tb.counting = true)
include hq hpf hc

/-- A request that is not above the highest crossing opens nothing; a second ACCEPT is counted (R28, log entry 44). -/
theorem exec_openRequest_old {x : BitVec 48} (hx : s.hub.highest = some x) (hle : q.crossing ≤ x) :
    exec .openRequest s = .next { s with hub := { s.hub with
      openReqs := r, dupAccept := if q.accept then s.hub.dupAccept + 1 else s.hub.dupAccept } } := by
  have hnot : ¬ x < q.crossing := by simpa [BitVec.lt_def, BitVec.le_def] using hle
  show execOpenRequest s = _
  rw [execOpenRequest, hq]
  simp only [hpf, hc, hx, hnot, decide_false, Bool.not_true, Bool.or_false, Bool.false_eq_true, if_false]
  cases q.accept <;> rfl

/-- One that is above it is taken (R28). -/
theorem exec_openRequest_new (hnew : s.hub.highest = none ∨ ∃ x, s.hub.highest = some x ∧ x < q.crossing) :
    exec .openRequest s = .next (openTaken q.crossing { s with hub := { s.hub with openReqs := r } }) := by
  show execOpenRequest s = _
  rw [execOpenRequest, hq]
  rcases hnew with h | ⟨x, h, hlt⟩
  · simp only [hpf, hc, h, Bool.not_true, Bool.or_false, Bool.false_eq_true, if_false, if_true]
  · simp only [hpf, hc, h, hlt, decide_true, Bool.not_true, Bool.or_false, Bool.false_eq_true, if_false, if_true]

end

section
variable {s u v : State} {x : BitVec 48} {i : Nat} (hu : u = { s with hub := { s.hub with highest := some x } })
include hu

theorem openTaken_granted (h : grantSlot u = some (i, v)) : openTaken x s = nextSeq (openEvent i x v) := by
  unfold openTaken
  dsimp only
  rw [← hu, h]

theorem openTaken_none (h : grantSlot u = none) : openTaken x s = nextSeq (openNoCandle x u) := by
  unfold openTaken
  dsimp only
  rw [← hu, h]

end

theorem nextSeq_rest (s : State) : nextSeq s = { s with hub := { s.hub with openSeq := (nextSeq s).hub.openSeq } } := by
  rw [nextSeq]
  split <;> rfl

/-- A new event with its candle, before its limits are armed. -/
def candleOpened (i : Nat) (x : BitVec 48) (s : State) : State :=
  let u := { s.setEvent i (newEvent s x (nameHome s)) with ll := { s.ll with prevHome := nameHome s } }
  let root := (s.slot i).spans.headD 0
  bump Cnt.cnOpen (physWrites none (mkPa s.node (spanLocal s root)) (rootRecord x s.time (mkHandle i (s.slot i).gen))
    (u.modSlot i fun t =>
      { t with cur := some (root, extentEnd (newEvent s x (nameHome s)).extUnits), fresh := t.fresh.drop 1 }))

section
variable {v w : State} {i : Nat} {x : BitVec 48} {h : BitVec 19} {root : Nat}

theorem openEvent_eq (hw : w = candleOpened i x v) (hh : h = mkHandle i (v.slot i).gen)
    (hroot : root = (v.slot i).spans.headD 0) : openEvent i x v =
      wake 0 (fun _ => true) (some h) (TWord.fix 0)
        (tellWicks (.opened x h (nameHome v) root (spanVirt root)) (armLimits h w)) := by
  subst hw hh hroot
  rfl

theorem beyond_modSlot_ll (s : State) (l : LlSt) (i : Nat) (f : CnSlot → CnSlot) :
    beyond ({ s with ll := l }.modSlot i f) = beyond (s.modSlot i f) := rfl

theorem beyond_candleOpened (hw : w = candleOpened i x v) :
    beyond w = beyond ((v.setEvent i (newEvent v x (nameHome v))).modSlot i fun t =>
      { t with
        cur := some ((v.slot i).spans.headD 0, extentEnd (newEvent v x (nameHome v)).extUnits), fresh := t.fresh.drop 1 }) := by
  rw [hw, candleOpened, beyond_bump rfl, beyond_physWrites, beyond_modSlot_ll]

/-- The event, the slots, the lists and the wicks of a candle that has been opened. -/
theorem candleOpened_parts (hw : w = candleOpened i x v) :
    { w.event i with l1Logged := false } = newEvent v x (nameHome v) ∧
      (∀ j, (w.slot j).st = (v.slot j).st ∧ (w.slot j).gen = (v.slot j).gen) ∧ w.hub = v.hub ∧ w.wk = v.wk ∧ w.dp = v.dp := by
  have hb := beyond_candleOpened hw
  refine ⟨?_, fun j => ?_, (hub_of_beyond hb).trans rfl, (wk_of_beyond hb).trans rfl,
    (dp_of_beyond hb).trans rfl⟩
  · rw [event_of_beyond hb, State.modSlot_get_event, State.event_setEvent]
    rfl
  · rw [(slot_of_beyond hb j).1, (slot_of_beyond hb j).2]
    by_cases hj : j = i
    · rw [hj, State.slot_modSlot]
      exact ⟨rfl, rfl⟩
    · rw [State.slot_modSlot_ne _ _ hj]
      exact ⟨rfl, rfl⟩

/-- What a granted request leaves: its event, its slot, the notes to the wicks and its limits (R31). -/
theorem openEvent_clause {t : State} (hi : i < 2048) (hh : h = mkHandle i (v.slot i).gen)
    (hroot : root = (v.slot i).spans.headD 0) (ht : t = nextSeq (openEvent i x v)) :
    { t.event i with l1Logged := false } = newEvent v x (nameHome v) ∧
      (∀ j, (t.slot j).st = (v.slot j).st ∧ (t.slot j).gen = (v.slot j).gen) ∧
      (∀ n, n < 6 → (t.wick n).notes = (v.wick n).notes ++ [.opened x h (nameHome v) root (spanVirt root)]) ∧
      ⟨v.time + v.wk.event.lv.winto.setWidth 64, h⟩ ∈ t.hub.windows ∧
      ⟨v.time + v.ll.menu.lv.deadline.setWidth 64, h⟩ ∈ t.hub.hards ∧
      t.hub.openReqs = v.hub.openReqs ∧ t.hub.highest = v.hub.highest ∧ t.dp = v.dp := by
  obtain ⟨w, hw⟩ : ∃ w, w = candleOpened i x v := ⟨_, rfl⟩
  obtain ⟨z, hz⟩ : ∃ z, z = armLimits h w := ⟨_, rfl⟩
  obtain ⟨y, hy⟩ : ∃ y, y = tellWicks (.opened x h (nameHome v) root (spanVirt root)) z := ⟨_, rfl⟩
  obtain ⟨e, he⟩ : ∃ e, e = openEvent i x v := ⟨_, rfl⟩
  have hb : beyond e = beyond y := by
    rw [he, openEvent_eq hw hh hroot, ← hz, ← hy, beyond_wake]
  obtain ⟨hevent, hslots, hhub, hwk, hdp⟩ := candleOpened_parts hw
  have hrest : y = { z with wk := y.wk } := hy ▸ tellWicks_rest _ _
  have hzw : z = { w with hub := z.hub } := hz ▸ rfl
  have hye : y.event i = w.event i := by rw [hrest, hzw]; rfl
  have hys (j : Nat) : y.slot j = w.slot j := by rw [hrest, hzw]; rfl
  have hyh : y.hub = (armLimits h w).hub := by rw [hrest, hz]
  have hzn (n : Nat) : z.wick n = v.wick n := by rw [hzw]; exact congrArg (fun k => Tab.get WkSt.reset k.wicks n) hwk
  have hte : t = { e with hub := { e.hub with openSeq := t.hub.openSeq } } := by
    rw [ht, ← he]
    exact nextSeq_rest e
  have hth : t.hub = { (armLimits h w).hub with openSeq := t.hub.openSeq } := by
    rw [← hyh, ← hub_of_beyond hb]
    exact congrArg State.hub hte
  have hat : hSlot h = i := hh ▸ hSlot_mkHandle hi _
  have ht0 : (w.event i).t0 = v.time := by
    have h0 := congrArg EvSt.t0 hevent
    exact h0
  have hdl : (w.event i).deadline = v.ll.menu.lv.deadline := by
    have h0 := congrArg EvSt.deadline hevent
    exact h0
  refine ⟨?_, fun j => ?_, fun n hn => ?_, ?_, ?_, ?_, ?_, ?_⟩
  · have htev : t.event i = e.event i := by rw [hte]; rfl
    rw [htev, event_of_beyond hb, hye, hevent]
  · have hts : t.slot j = e.slot j := by rw [hte]; rfl
    rw [hts, (slot_of_beyond hb j).1, (slot_of_beyond hb j).2, hys]
    exact hslots j
  · have htw : t.wick n = y.wick n := by
      rw [hte]
      exact congrArg (fun k => Tab.get WkSt.reset k.wicks n) (wk_of_beyond hb)
    rw [htw, hy, wick_tellWicks hn, hzn]
  · rw [hth, ← ht0, ← hat, ← hwk]
    exact mem_insertLimit _ _
  · rw [hth, ← ht0, ← hdl, ← hat]
    exact mem_insertLimit _ _
  · rw [hth, ← hhub]
    rfl
  · rw [hth, ← hhub]
    rfl
  · have htd : t.dp = e.dp := by rw [hte]
    rw [htd, dp_of_beyond hb, hrest, hzw]
    exact hdp

end

/-- The record of a crossing that no slot or span is free for (R30). -/
def noCandleRecord (x : BitVec 48) (s : State) : DRec :=
  { crossing := x, outcome := (fallbackOutcome s.ll.menu.lv.policy s.ll.menu.lv.prescale s).1, reason := 1,
    winto := false, trunc := false, warned := false, ooo := false, openwin := false, trigger := 0, latency := 0,
    menu := s.ll.menu.lv.version, handle := 0, seq := if s.dp.cfg.lv.order then some s.hub.openSeq else none }

/-- A fallback outcome counts for the prescale alone (R201). -/
theorem fallbackOutcome_rest (p : BitVec 2) (n : BitVec 16) (s : State) :
    (fallbackOutcome p n s).2 = { s with sn := (fallbackOutcome p n s).2.sn } ∧
      (fallbackOutcome p n s).1 = if p = 0 then 0 else if p = 1 then 1 else if s.sn.prescaleCnt + 1 = n then 2 else 3 := by
  unfold fallbackOutcome
  split
  · exact ⟨rfl, rfl⟩
  split
  · exact ⟨rfl, rfl⟩
  split
  · exact ⟨rfl, rfl⟩
  · exact ⟨rfl, rfl⟩

section
variable {s t u : State} {x : BitVec 48}

/-- The state in which that record is formed. -/
@[irreducible] def noCandleCounted (s : State) : State :=
  bump Cnt.snNocandle (bump Cnt.cnNocandle (fallbackOutcome s.ll.menu.lv.policy s.ll.menu.lv.prescale s).2)

theorem noCandleCounted_rest (s : State) : noCandleCounted s =
    { s with sn := (noCandleCounted s).sn, cnt := (noCandleCounted s).cnt } := by
  rw [noCandleCounted, (fallbackOutcome_rest _ _ s).1]
  rfl

theorem openNoCandle_eq (x : BitVec 48) (s : State) : openNoCandle x s =
    fallbackRec x none (noCandleRecord x s).outcome 1 (sendRec (noCandleRecord x s) (noCandleCounted s)) := by
  obtain ⟨hrest, -⟩ := fallbackOutcome_rest s.ll.menu.lv.policy s.ll.menu.lv.prescale s
  unfold openNoCandle noCandleRecord noCandleCounted
  have hdp := congrArg State.dp hrest
  have hhub := congrArg State.hub hrest
  dsimp only at hdp hhub ⊢
  rw [hdp, hhub]

/-- A crossing that no slot or span is free for is decided at once (R30). -/
theorem openNoCandle_clause (ht : t = nextSeq (openNoCandle x s)) : t.cn = s.cn ∧ t.ev = s.ev ∧ t.wk = s.wk ∧ t.ll = s.ll ∧
    t.hub = { s.hub with openSeq := t.hub.openSeq } ∧
    (s.dp.cfg.lv.order = false → noDest s = false →
      t.dp = { s.dp with queue := s.dp.queue ++ [{ noCandleRecord x s with seq := none }] }) ∧
    ∃ e, t.recs = s.recs ++ [e] ∧ e.src = 0x21 ∧ e.reason = 0x10 := by
  obtain ⟨v, hv⟩ : ∃ v, v = sendRec (noCandleRecord x s) (noCandleCounted s) := ⟨_, rfl⟩
  have hrest : v = { s with sn := v.sn, dp := v.dp, ms := v.ms, cnt := v.cnt } := by
    have hsent := (sendRec_rest (noCandleRecord x s) (noCandleCounted s)).1
    rw [← hv] at hsent
    have hsn : v.sn = (noCandleCounted s).sn := by rw [hsent]
    rw [hsn]
    refine hsent.trans ?_
    rw [noCandleCounted_rest]
  obtain ⟨w, hw⟩ : ∃ w, w = fallbackRec x none (noCandleRecord x s).outcome 1 v := ⟨_, rfl⟩
  rw [openNoCandle_eq, ← hv, ← hw] at ht
  have htw := nextSeq_rest w
  rw [← ht] at htw
  have hwv : w = { v with recs := w.recs } := hw ▸ rfl
  have hdp : t.dp = v.dp := by rw [htw, hwv]
  have hrecs : t.recs = v.recs ++ [⟨1, 0x21, 0x10, v.time, x.setWidth 64, handleArg none,
      ((noCandleRecord x s).outcome ++ (1 : BitVec 4)).setWidth 64, 0, x.setWidth 32⟩] := by rw [htw, hw]; rfl
  refine ⟨?_, ?_, ?_, ?_, ?_, fun ho hd => ?_, ?_⟩
  · rw [htw, hwv, hrest]
  · rw [htw, hwv, hrest]
  · rw [htw, hwv, hrest]
  · rw [htw, hwv, hrest]
  · have hh := congrArg State.hub htw
    rw [hh, hwv, hrest]
  · have hseq : (noCandleRecord x s).seq = none := if_neg (ne_true_of_eq_false ho)
    have hno : noDest (noCandleCounted s) = false := by rw [noCandleCounted_rest]; exact hd
    rw [hdp, hv, sendRec_unordered hseq, hno, ← hseq, noCandleCounted_rest]
    rfl
  · rw [hrecs, hrest]
    exact ⟨_, rfl, rfl, rfl⟩

end

/-- The clause of open requests. -/
theorem openRequests : Sys2Proof.Clause.OpenRequests := by
  intro s q r
  refine ⟨exec_openRequest_idle, fun hq hpf hc => ⟨fun x => exec_openRequest_old hq hpf hc, fun hnew u hu =>
    ⟨fun i v h hi hg hh => ?_, fun hg => ?_⟩⟩⟩
  · rw [exec_openRequest_new hq hpf hc hnew, openTaken_granted hu hg]
    obtain ⟨hrest, hst, hgen, hothers⟩ := grantSlot_some hg
    have hus (j : Nat) : u.slot j = s.slot j := hu ▸ rfl
    have hvh : h = mkHandle i (v.slot i).gen := by rw [hh, hgen, hus]
    have hvu : v = { s with hub := u.hub, cn := v.cn, recs := v.recs, freeCtr := v.freeCtr } := by
      rw [hu] at hrest ⊢
      exact hrest
    have htime : v.time = s.time := by rw [hvu]
    have hwk : v.wk = s.wk := by rw [hvu]
    have hll : v.ll = s.ll := by rw [hvu]
    have hhub : v.hub = u.hub := by rw [hvu]
    have hvdp : v.dp = s.dp := by rw [hvu]
    obtain ⟨hev, hslots, hnotes, hwin, hhard, hreqs, hhigh, hdp⟩ :=
      openEvent_clause (t := nextSeq (openEvent i q.crossing v)) hi hvh rfl rfl
    have hcrossing := congrArg EvSt.crossing hev
    have ht0 := congrArg EvSt.t0 hev
    have hwindow := congrArg EvSt.window hev
    have hdecided := congrArg EvSt.decided hev
    have hdeadline := congrArg EvSt.deadline hev
    have hhome := congrArg EvSt.home hev
    refine ⟨_, rfl, (hslots i).1.trans hst, ?_, hcrossing, ht0.trans htime, hwindow, hdecided, ?_, hhome, fun j hj => ?_,
      fun n hn => ?_, ?_, ?_, ?_, ?_, hdp.trans hvdp⟩
    · rw [(hslots i).2, hgen, hus]
    · exact hdeadline.trans (congrArg (fun l => l.menu.lv.deadline) hll)
    · rw [(hslots j).1, (hslots j).2, ← hus]
      exact hothers j hj
    · rw [hnotes n hn]
      exact congrArg (fun k => (Tab.get WkSt.reset k.wicks n).notes ++ _) hwk
    · rw [← htime, ← hwk]
      exact hwin
    · rw [← htime, ← hll]
      exact hhard
    · rw [hreqs, hhub, hu]
    · rw [hhigh, hhub, hu]
  · rw [exec_openRequest_new hq hpf hc hnew, openTaken_none hu hg]
    obtain ⟨hcn, hev, hwk, hll, hhub, hdp, e, hrecs, he⟩ :=
      openNoCandle_clause (t := nextSeq (openNoCandle q.crossing u)) (x := q.crossing) rfl
    have huh : u = { s with hub := u.hub } := hu ▸ rfl
    have hlists : u.hub = { s.hub with openReqs := r, highest := some q.crossing } := hu ▸ rfl
    refine ⟨_, rfl, ?_, ?_, ?_, ?_, ?_, ?_, ?_, fun ho hd => ?_, e, ?_, he⟩
    · rw [hcn, huh]
    · rw [hev, huh]
    · rw [hwk, huh]
    · rw [hll, huh]
    · rw [hhub, hlists]
    · rw [hhub, hlists]
    · rw [hhub, hlists]
      exact ⟨rfl, rfl, rfl⟩
    · rw [hdp (by rw [huh]; exact ho) (by rw [huh]; exact hd), noCandleRecord, (fallbackOutcome_rest _ _ u).2,
        (fallbackOutcome_rest _ _ s).2, huh]
    · rw [hrecs, huh]

/-- Settles O32: a grant makes the new event and arms its limits, and the OPEN wake-up makes tasks alone; the limits act at the
head of their lists. -/
theorem requestsLimits : Obligations.RequestsLimits := ⟨openRequests, eventLimits⟩

end Sys2Proof.Machine
end

section
namespace Sys2Proof.Machine

/-! ### Contexts that become EMPTY -/

theorem ctxOf_toNat (k : CoreId) (r : BitVec 2) : (ctxOf k r).toNat = 4 * k.toNat + r.toNat := by
  show (k ++ r).toNat = _
  rw [BitVec.toNat_append, Nat.shiftLeft_eq, Nat.mul_comm, ← Nat.two_pow_add_eq_or_of_lt r.isLt]

theorem coreOf_ctxOf (k : CoreId) (r : BitVec 2) : coreOf (ctxOf k r) = k ∧ (ctxOf k r).extractLsb' 0 2 = r := by
  have hr := r.isLt
  have hk := k.isLt
  constructor
  · apply BitVec.eq_of_toNat_eq
    rw [coreOf, BitVec.extractLsb'_toNat, ctxOf_toNat, Nat.shiftRight_eq_div_pow]
    omega
  · apply BitVec.eq_of_toNat_eq
    rw [BitVec.extractLsb'_toNat, ctxOf_toNat, Nat.shiftRight_zero]
    omega

theorem ctx_ext {c d : CtxId} (hcore : coreOf d = coreOf c) (hlow : d.extractLsb' 0 2 = c.extractLsb' 0 2) : d = c := by
  have hhigh := congrArg BitVec.toNat hcore
  have hrest := congrArg BitVec.toNat hlow
  rw [coreOf, coreOf, BitVec.extractLsb'_toNat, BitVec.extractLsb'_toNat, Nat.shiftRight_eq_div_pow,
    Nat.shiftRight_eq_div_pow] at hhigh
  rw [BitVec.extractLsb'_toNat, BitVec.extractLsb'_toNat, Nat.shiftRight_zero, Nat.shiftRight_zero] at hrest
  apply BitVec.eq_of_toNat_eq
  omega

/-- A context is EMPTY, holds no task, and its core does not name it as the running one. -/
def Emptied (c : CtxId) (s : State) : Prop :=
  (s.ctx c).st = .empty ∧ (s.ctx c).task = none ∧ (s.core (coreOf c)).running ≠ some (c.extractLsb' 0 2)

variable {c d : CtxId} {s t : State}

theorem Emptied.of_eq (h : Emptied c s) (hctx : t.ctx c = s.ctx c)
    (hrun : (t.core (coreOf c)).running = (s.core (coreOf c)).running) : Emptied c t := by
  rw [Emptied, hctx, hrun]
  exact h

theorem Emptied.of_aside (h : Emptied c s) (ha : aside t = aside s) : Emptied c t :=
  h.of_eq (congrArg (fun x => Tab.get Ctx.reset x c.toNat) (ctxs_of_aside ha)) (running_of_aside ha _)

theorem Emptied.runCtx (h : Emptied c s) (hd : d ≠ c) : Emptied c (runCtx d s) := by
  obtain ⟨hst, htask, hrun⟩ := h
  have hctx : (Machine.runCtx d s).ctx c = s.ctx c := by
    rw [Machine.runCtx, State.modCore_get_ctx, State.ctx_modCtx_ne s _ hd.symm]
  refine ⟨by rw [hctx]; exact hst, by rw [hctx]; exact htask, ?_⟩
  rw [Machine.runCtx]
  by_cases hc : coreOf c = coreOf d
  · rw [hc, State.core_modCore]
    exact fun hl => hd (ctx_ext hc.symm (Option.some.inj hl))
  · rw [State.core_modCore_ne _ _ hc]
    exact hrun

theorem mem_of_bestCtx {l : List CtxId} {e : CtxId} (he : bestCtx s l = some e) : e ∈ l := by
  induction l generalizing e with
  | nil => cases he
  | cons a r ih =>
    rw [bestCtx] at he
    split at he
    · cases he
      exact List.mem_cons_self
    · next d hd =>
      split at he
      · cases he
        exact List.mem_cons_of_mem _ (ih hd)
      · cases he
        exact List.mem_cons_self

/-- A core that chooses again leaves a context that is EMPTY (R251). -/
theorem Emptied.resched (h : Emptied c s) (k : CoreId) : Emptied c (resched k s) := by
  have hbest {l : List CtxId} (hl : ∀ e ∈ l, (s.ctx e).st = .runnable) {e : CtxId} (he : bestCtx s l = some e) :
      (s.ctx e).st = .runnable := hl e (mem_of_bestCtx he)
  have hrunnable : ∀ e ∈ runnables s k, (s.ctx e).st = .runnable := fun e he => by
    simpa using (List.mem_filter.mp he).2
  rw [Machine.resched]
  split
  · exact h
  split
  · exact h
  · next e he =>
    have hne : e ≠ c := fun hec => by
      have hst := hbest hrunnable he
      rw [hec, h.1] at hst
      cases hst
    split
    · exact h.runCtx hne
    · next r hr =>
      split
      · refine Emptied.runCtx ?_ hne
        have hother : c ≠ ctxOf k r := fun hcr => h.2.2 (by
          rw [hcr, (coreOf_ctxOf k r).1, (coreOf_ctxOf k r).2, hr])
        exact h.of_eq (State.ctx_modCtx_ne s _ hother) rfl
      · exact h

theorem Emptied.dropStall (h : Emptied c s) (d : CtxId) : Emptied c (dropStall d s) := h

/-- What a context that becomes EMPTY leaves before its core chooses again. -/
structure EmptyingOf (c : CtxId) (s u : State) : Prop where
  st : (u.ctx c).st = .empty
  task : (u.ctx c).task = none
  others : ∀ d, d ≠ c → u.ctx d = s.ctx d
  run : (u.core (coreOf c)).running ≠ some (c.extractLsb' 0 2)
  runs : ∀ k r, (u.core k).running = some r → (s.core k).running = some r
  tasks : u.ll.tasks = s.ll.tasks
  pending : u.ll.pendL1 = s.ll.pendL1

theorem emptyCtx_eq (c : CtxId) (s : State) : ∃ u, emptyCtx c s = resched (coreOf c) u ∧ EmptyingOf c s u := by
  obtain ⟨v, hv⟩ : ∃ v, v = dropFp c (dropStall c s) := ⟨_, rfl⟩
  have hfp (k : CoreId) : (v.core k).running = (s.core k).running := by
    by_cases hk : k = coreOf c
    · rw [hv, dropFp, hk, State.core_modCore]
      split <;> rfl
    · rw [hv, dropFp, State.core_modCore_ne _ _ hk]
      rfl
  obtain ⟨w, hw⟩ : ∃ w, w = v.modCore (coreOf c) fun k =>
    if k.running = some (c.extractLsb' 0 2) then { k with running := none } else k := ⟨_, rfl⟩
  have hwrun : (w.core (coreOf c)).running ≠ some (c.extractLsb' 0 2) := by
    rw [hw, State.core_modCore]
    split
    · exact nofun
    · assumption
  have hwruns (k : CoreId) (r : BitVec 2) (h : (w.core k).running = some r) : (s.core k).running = some r := by
    rw [← hfp]
    by_cases hk : k = coreOf c
    · rw [hw, hk, State.core_modCore] at h
      rw [hk]
      split at h
      · cases h
      · exact h
    · rwa [hw, State.core_modCore_ne _ _ hk] at h
  have hws : w.ctxs = s.ctxs ∧ w.ll = s.ll := hw ▸ hv ▸ ⟨rfl, rfl⟩
  have htasks := congrArg LlSt.tasks hws.2
  have hpending := congrArg LlSt.pendL1 hws.2
  unfold emptyCtx
  rw [← hv]
  dsimp only
  rw [← hw]
  refine ⟨_, rfl, ?_, ?_, fun d hd => ?_, hwrun, hwruns, htasks, hpending⟩
  · rw [State.ctx_modCtx]
  · rw [State.ctx_modCtx]
  · rw [State.ctx_modCtx_ne _ _ hd]
    exact congrArg (fun x => Tab.get Ctx.reset x d.toNat) hws.1

theorem Emptied.emptyCtx_self (c : CtxId) (s : State) : Emptied c (emptyCtx c s) := by
  obtain ⟨u, heq, hu⟩ := emptyCtx_eq c s
  rw [heq]
  exact Emptied.resched ⟨hu.st, hu.task, hu.run⟩ _

theorem Emptied.emptyCtx (h : Emptied c s) (d : CtxId) : Emptied c (emptyCtx d s) := by
  by_cases hd : c = d
  · rw [hd]
    exact .emptyCtx_self d s
  · obtain ⟨u, heq, hu⟩ := emptyCtx_eq d s
    rw [heq]
    refine Emptied.resched ⟨?_, ?_, fun hr => h.2.2 (hu.runs _ _ hr)⟩ _
    · rw [hu.others c hd, h.1]
    · rw [hu.others c hd, h.2.1]

theorem resched_ll (k : CoreId) (s : State) : (resched k s).ll = s.ll := by
  rw [resched]
  split
  · rfl
  split
  · rfl
  split
  · rfl
  · split <;> rfl

theorem emptyCtx_tasks (c : CtxId) (s : State) :
    (emptyCtx c s).ll.tasks = s.ll.tasks ∧ (emptyCtx c s).ll.pendL1 = s.ll.pendL1 := by
  obtain ⟨u, heq, hu⟩ := emptyCtx_eq c s
  rw [heq, resched_ll]
  exact ⟨hu.tasks, hu.pending⟩

/-! ### The end of an event's tasks -/

theorem abandonStore_rest (c : CtxId) (s : State) : (abandonStore c s).ll = s.ll ∧ (abandonStore c s).ctxs = s.ctxs ∧
    (abandonStore c s).cores = s.cores := by
  rw [abandonStore]
  split <;> exact ⟨rfl, rfl, rfl⟩

theorem freeDesc_eq (i : Nat) (s : State) : ∃ v l j, aside v = aside (s.modTask i fun _ => TaskD.free) ∧
    freeDesc i s = { v with ll := { v.ll with listeners := l }, tp := { v.tp with jobs := j } } :=
  ⟨_, _, _, aside_physWriteLine _ _ _, rfl⟩

/-- A descriptor becomes FREE; the others and the pending instances stand. -/
theorem freeDesc_tasks (i : Nat) (s : State) : (∀ j, (freeDesc i s).task j = if j = i then TaskD.free else s.task j) ∧
    (freeDesc i s).ll.pendL1 = s.ll.pendL1 := by
  obtain ⟨v, l, js, ha, heq⟩ := freeDesc_eq i s
  have hll := ll_of_aside ha
  have hpend := congrArg LlSt.pendL1 hll
  rw [heq]
  refine ⟨fun j => ?_, hpend⟩
  have htask : Tab.get TaskD.free v.ll.tasks j = (s.modTask i fun _ => TaskD.free).task j := by rw [hll]; rfl
  refine htask.trans ?_
  split
  · next h => rw [h, State.task_modTask]
  · next h => rw [State.task_modTask_ne _ _ h]

theorem Emptied.freeDesc (h : Emptied c s) (i : Nat) : Emptied c (freeDesc i s) := by
  obtain ⟨v, l, js, ha, heq⟩ := freeDesc_eq i s
  have hv : Emptied c v := Emptied.of_aside (s := s.modTask i fun _ => TaskD.free) h ha
  rw [heq]
  exact hv

/-- What the killing of a task leaves of the others, and of the context that it held. -/
theorem killTask_leaves (i : Nat) (s : State) :
    (∀ j, (killTask i s).task j = if j = i then TaskD.free else s.task j) ∧ (killTask i s).ll.pendL1 = s.ll.pendL1 ∧
      (∀ c, Emptied c s → Emptied c (killTask i s)) ∧ ∀ c, (s.task i).ctx = some c → Emptied c (killTask i s) := by
  obtain ⟨u, hu⟩ : ∃ u, u = (match (s.task i).ctx with | some c => abandonStore c s | none => s) := ⟨_, rfl⟩
  obtain ⟨v, hv⟩ : ∃ v, v = (match (s.task i).ctx with | some c => emptyCtx c u | none => u) := ⟨_, rfl⟩
  have hkill : killTask i s = bump Cnt.llKill (freeDesc i v) := by
    rw [hv, hu]
    rfl
  have hsame : v.ll.tasks = s.ll.tasks ∧ v.ll.pendL1 = s.ll.pendL1 ∧ (∀ c, Emptied c s → Emptied c v) ∧
      ∀ c, (s.task i).ctx = some c → Emptied c v := by
    cases hc : (s.task i).ctx with
    | none =>
      rw [hc] at hu hv
      rw [hv, hu]
      exact ⟨rfl, rfl, fun _ h => h, nofun⟩
    | some d =>
      rw [hc] at hu hv
      obtain ⟨hll, hctxs, hcores⟩ := abandonStore_rest d s
      rw [hv, hu, (emptyCtx_tasks d _).1, (emptyCtx_tasks d _).2, hll]
      refine ⟨rfl, rfl, fun c h => Emptied.emptyCtx (h.of_eq ?_ ?_) d, fun c hdc => ?_⟩
      · exact congrArg (fun x => Tab.get Ctx.reset x c.toNat) hctxs
      · exact congrArg (fun x => (Tab.get CoreSt.reset x (coreOf c).toNat).running) hcores
      · cases hdc
        exact .emptyCtx_self d _
  obtain ⟨htasks, hpend, hkeep, hself⟩ := hsame
  obtain ⟨hfree, hfpend⟩ := freeDesc_tasks i v
  rw [hkill]
  refine ⟨fun j => ?_, hfpend.trans hpend, fun c h => (hkeep c h).freeDesc i, fun c h => (hself c h).freeDesc i⟩
  exact (hfree j).trans (congrArg (fun x => if j = i then TaskD.free else Tab.get TaskD.free x j) htasks)

theorem killTasks_leave (l : List Nat) (s : State) :
    (∀ j, (l.foldl (fun s i => killTask i s) s).task j = if j ∈ l then TaskD.free else s.task j) ∧
      (l.foldl (fun s i => killTask i s) s).ll.pendL1 = s.ll.pendL1 ∧
      (∀ c, Emptied c s → Emptied c (l.foldl (fun s i => killTask i s) s)) ∧
      ∀ i ∈ l, ∀ c, (s.task i).ctx = some c → Emptied c (l.foldl (fun s i => killTask i s) s) := by
  induction l generalizing s with
  | nil => exact ⟨fun _ => rfl, rfl, fun _ h => h, nofun⟩
  | cons a r ih =>
    obtain ⟨htask, hpend, hkeep, hself⟩ := killTask_leaves a s
    obtain ⟨rtask, rpend, rkeep, rself⟩ := ih (killTask a s)
    rw [List.foldl_cons]
    refine ⟨fun j => ?_, rpend.trans hpend, fun c h => rkeep c (hkeep c h), fun i hi c hc => ?_⟩
    · rw [rtask, htask]
      by_cases hj : j = a
      · simp [hj]
      · simp [hj]
    · by_cases hia : i = a
      · exact rkeep c (hself c (hia ▸ hc))
      · refine rself i ((List.mem_cons.mp hi).resolve_left hia) c ?_
        rw [htask, if_neg hia]
        exact hc

/-! Pending instances that are made (R188). -/

/-- No descriptor holds an event. -/
def NoTask (h : BitVec 19) (s : State) : Prop := ∀ i, (s.task i).handle ≠ some h

variable {h : BitVec 19}

theorem makeTask_eq (i : Inst) (n : Nat) (rsv : Bool) (cls : ReadyClass) (s : State) : ∃ (d : TaskD) (v : State),
    d.handle = i.handle ∧ aside v = aside (s.modTask n fun _ => d) ∧ makeTask i n rsv cls s = bump Cnt.llTasks v :=
  ⟨_, _, rfl, (aside_physWrites _ _ _).trans (aside_physWriteLine _ _ _), rfl⟩

/-- Instances that are made hold their own event; the pending ones, the jobs and an EMPTY context stand. -/
theorem tryMake_leaves {i : Inst} (hi : i.handle ≠ some h) (ht : tryMake i s = some t) :
    (NoTask h s → NoTask h t) ∧ t.ll.pendL1 = s.ll.pendL1 ∧ t.tp.jobs = s.tp.jobs ∧ ∀ c, Emptied c s → Emptied c t := by
  rw [tryMake] at ht
  split at ht
  · next cls n rsv _ _ =>
    cases ht
    obtain ⟨d, v, hd, ha, heq⟩ := makeTask_eq i n rsv cls s
    have hll := ll_of_aside ha
    have hpend := congrArg LlSt.pendL1 hll
    have hjobs := jobs_of_aside ha
    rw [heq]
    refine ⟨fun hno j => ?_, hpend, hjobs, fun c hc => ?_⟩
    · have htask : (bump Cnt.llTasks v).task j = (s.modTask n fun _ => d).task j :=
        congrArg (fun l : LlSt => Tab.get TaskD.free l.tasks j) hll
      rw [htask]
      by_cases hj : j = n
      · rw [hj, State.task_modTask, hd]
        exact hi
      · rw [State.task_modTask_ne _ _ hj]
        exact hno j
    · have hv : Emptied c v := Emptied.of_aside (s := s.modTask n fun _ => d) hc ha
      exact hv
  · cases ht

theorem makePending_leaves (l : List Inst) (s : State) (hl : ∀ i ∈ l, i.handle ≠ some h) :
    (NoTask h s → NoTask h (makePending l s)) ∧
      ((∀ p ∈ s.ll.pendL1, p.handle ≠ some h) → ∀ p ∈ (makePending l s).ll.pendL1, p.handle ≠ some h) ∧
      (makePending l s).tp.jobs = s.tp.jobs ∧ ∀ c, Emptied c s → Emptied c (makePending l s) := by
  induction l generalizing s with
  | nil => exact ⟨fun h => h, fun h => h, rfl, fun _ h => h⟩
  | cons a r ih =>
    have ha := hl a List.mem_cons_self
    have hr : ∀ i ∈ r, i.handle ≠ some h := fun i hi => hl i (List.mem_cons_of_mem _ hi)
    rw [makePending]
    split
    · next u hu =>
      obtain ⟨htask, hpend, hjobs, hctx⟩ := tryMake_leaves ha hu
      obtain ⟨rtask, rpend, rjobs, rctx⟩ := ih u hr
      exact ⟨fun hno => rtask (htask hno), fun hp => rpend (by rwa [hpend]), rjobs.trans hjobs, fun c hc => rctx c (hctx c hc)⟩
    · obtain ⟨rtask, rpend, rjobs, rctx⟩ := ih { s with ll := { s.ll with pendL1 := s.ll.pendL1 ++ [a] } } hr
      refine ⟨rtask, fun hp => rpend fun p hm => ?_, rjobs, rctx⟩
      rcases List.mem_append.mp hm with hm | hm
      · exact hp p hm
      · rwa [List.mem_singleton.mp hm]

theorem servePending_leaves (hl : ∀ p ∈ s.ll.pendL1, p.handle ≠ some h) :
    (NoTask h s → NoTask h (servePending s)) ∧ (∀ p ∈ (servePending s).ll.pendL1, p.handle ≠ some h) ∧
      (servePending s).tp.jobs = s.tp.jobs ∧ ∀ c, Emptied c s → Emptied c (servePending s) := by
  rw [servePending]
  split
  · obtain ⟨htask, hpend, hjobs, hctx⟩ := makePending_leaves s.ll.pendL1 { s with ll := { s.ll with pendL1 := [] } } hl
    exact ⟨htask, hpend nofun, hjobs, hctx⟩
  · exact ⟨fun h => h, hl, rfl, fun _ h => h⟩

/-! ### The kill of an event (R203) -/

theorem mem_of_get {α : Type} {d v : α} {t : Tab α} {k : Nat} (h : Tab.get d t k = v) (hv : v ≠ d) : (k, v) ∈ t := by
  induction t with
  | nil => exact absurd h.symm hv
  | cons e r ih =>
    obtain ⟨j, w⟩ := e
    rw [Tab.get] at h
    split at h
    · next hj => exact hj ▸ h ▸ List.mem_cons_self
    · exact List.mem_cons_of_mem _ (ih h)

/-- The kill of an event ends its tasks: neither a descriptor nor any of the pending instances holds it, its contexts are EMPTY, and its jobs are told
to stop. -/
theorem killEvent_leaves (h : BitVec 19) (s : State) : NoTask h (killEvent h s) ∧
    (∀ i c, (s.task i).handle = some h → (s.task i).ctx = some c →
      ((killEvent h s).ctx c).st = .empty ∧ ((killEvent h s).ctx c).task = none) ∧
    (∀ p ∈ (killEvent h s).ll.pendL1, p.handle ≠ some h) ∧
    ∀ (i : Nat) (j : Job), (killEvent h s).job i = some j → j.owner = some h → j.killed = true := by
  obtain ⟨l, hl⟩ : ∃ l, l = (s.ll.tasks.filter fun e => e.2.handle = some h).map Prod.fst := ⟨_, rfl⟩
  obtain ⟨u, hu⟩ : ∃ u, u = dropMessages h
    { s with ll := { s.ll with pendL1 := s.ll.pendL1.filter fun p => p.handle ≠ some h } } := ⟨_, rfl⟩
  obtain ⟨v, hv⟩ : ∃ v, v = l.foldl (fun s i => killTask i s) u := ⟨_, rfl⟩
  obtain ⟨w, hw⟩ : ∃ w, w = { v with tp := { v.tp with jobs := v.tp.jobs.map fun (e : Nat × Option Job) =>
    (e.1, e.2.map fun (j : Job) => if j.owner = some h then { j with killed := true } else j) } }.modEvent (hSlot h)
      fun e => { e with killed := true } := ⟨_, rfl⟩
  have hkill : killEvent h s = servePending w := by
    rw [hw, hv, hu, hl]
    rfl
  have hut : ∀ i, u.task i = s.task i := fun i => hu ▸ rfl
  have hup : u.ll.pendL1 = s.ll.pendL1.filter fun p => p.handle ≠ some h := hu ▸ rfl
  obtain ⟨ktask, kpend, -, kself⟩ := killTasks_leave l u
  rw [← hv] at ktask kpend kself
  have hmem (i : Nat) (hi : (s.task i).handle = some h) : i ∈ l := by
    have hentry := mem_of_get (d := TaskD.free) (t := s.ll.tasks) (k := i) rfl fun hf => by
      have : (s.task i).handle = none := congrArg TaskD.handle hf
      rw [hi] at this
      cases this
    rw [hl]
    exact List.mem_map.mpr ⟨_, List.mem_filter.mpr ⟨hentry, decide_eq_true hi⟩, rfl⟩
  have hwt : NoTask h w := fun i hi => by
    have hwi : w.task i = if i ∈ l then TaskD.free else u.task i := by
      rw [hw, ← ktask]
      rfl
    rw [hwi] at hi
    split at hi
    · cases hi
    · next hno => exact hno (hmem i (by rw [← hut]; exact hi))
  have hwp : ∀ p ∈ w.ll.pendL1, p.handle ≠ some h := by
    have hpend : w.ll.pendL1 = s.ll.pendL1.filter fun p => p.handle ≠ some h := by
      rw [← hup, ← kpend, hw]
      rfl
    rw [hpend]
    exact fun p hp => of_decide_eq_true (List.mem_filter.mp hp).2
  obtain ⟨stask, spend, sjobs, sctx⟩ := servePending_leaves hwp
  rw [hkill]
  refine ⟨stask hwt, fun i c hi hc => ?_, spend, fun i j hj ho => ?_⟩
  · have hv : Emptied c v := kself i (hmem i hi) c (by rw [hut]; exact hc)
    have hwc : Emptied c w := by
      rw [hw]
      exact hv
    exact ⟨(sctx c hwc).1, (sctx c hwc).2.1⟩
  · have hjob : (servePending w).job i = (v.job i).map fun (j : Job) => if j.owner = some h then { j with killed := true } else j := by
      have hget := get_map none v.tp.jobs
        (fun o => o.map fun (j : Job) => if j.owner = some h then { j with killed := true } else j) rfl i
      rw [State.job, sjobs, hw]
      exact hget
    rw [hjob] at hj
    obtain ⟨j', -, rfl⟩ := Option.map_eq_some_iff.mp hj
    by_cases hk : j'.owner = some h
    · rw [if_pos hk]
    · rw [if_neg hk] at ho
      exact absurd ho hk

end Sys2Proof.Machine
end

section
namespace Sys2Proof.Machine

/-! ### Fallback decisions -/

/-- The state in which the tasks of an event that a fallback has decided are killed. -/
def snuffedWith (h : BitVec 19) (reason : BitVec 4) (s : State) : State :=
  let e := s.event (hSlot h)
  (fixRecord h (fallbackOutcome e.policy e.prescale s).1 reason 0 (fallbackOutcome e.policy e.prescale s).2).modSlot (hSlot h)
    fun t => { t with st := .snuffed }

theorem fallback_eq (h : BitVec 19) (reason : BitVec 4) (s : State) : fallback h reason s =
    fallbackRec (s.event (hSlot h)).crossing (some h) (fallbackOutcome (s.event (hSlot h)).policy (s.event (hSlot h)).prescale s).1
      reason (killEvent h (snuffedWith h reason s)) := by
  have hev := congrArg State.ev (fallbackOutcome_rest (s.event (hSlot h)).policy (s.event (hSlot h)).prescale s).1
  have hcrossing : ((fallbackOutcome (s.event (hSlot h)).policy (s.event (hSlot h)).prescale s).2.event (hSlot h)).crossing =
      (s.event (hSlot h)).crossing := congrArg (fun t => (Tab.get EvSt.none t (hSlot h)).crossing) hev
  rw [← hcrossing]
  rfl

section
variable {s t u : State} {h : BitVec 19} {o reason : BitVec 4}

theorem countOfReason_eq (hr : reason.toNat ≤ 5) : countOfReason reason = reasonCnt reason := by
  revert hr reason
  decide

theorem reasonCnt_decision (reason : BitVec 4) : decisionCounter (reasonCnt reason) = true := by
  revert reason
  decide

/-- The record of a fallback, its event, its slot and its limits. -/
theorem snuffedWith_parts (hu : u = snuffedWith h reason s)
    (ho : o = (fallbackOutcome (s.event (hSlot h)).policy (s.event (hSlot h)).prescale s).1) :
    (u.slot (hSlot h)).st = .snuffed ∧ (u.slot (hSlot h)).gen = (s.slot (hSlot h)).gen ∧
      u.event (hSlot h) = { s.event (hSlot h) with decided := true, window := false } ∧
      (∀ y ∈ u.hub.windows ++ u.hub.warnings, y.handle ≠ h) ∧ u.hub.hards = s.hub.hards ∧
      ((s.event (hSlot h)).seq = none →
        (noDest s = false → u.dp = { s.dp with queue := s.dp.queue ++ [recordOf s h o reason 0] }) ∧
        (noDest s = true → u.dp = s.dp ∧ u.counter Cnt.dpNodest = (bump Cnt.dpNodest s).counter Cnt.dpNodest)) ∧
      u.ll = s.ll ∧
      ∀ k, k ≠ Cnt.dpOoo → k ≠ Cnt.dpNodest → u.counter k = (bump (reasonCnt reason) s).counter k := by
  obtain ⟨v, hv⟩ : ∃ v, v = (fallbackOutcome (s.event (hSlot h)).policy (s.event (hSlot h)).prescale s).2 := ⟨_, rfl⟩
  have hvs : v = { s with sn := v.sn } := by
    rw [hv]
    exact (fallbackOutcome_rest _ _ s).1
  obtain ⟨w, hw⟩ : ∃ w, w = fixRecord h o reason 0 v := ⟨_, rfl⟩
  have huw : u = w.modSlot (hSlot h) fun t => { t with st := .snuffed } := by
    rw [hu, hw, hv, ho]
    rfl
  have hslot : w.slot (hSlot h) = s.slot (hSlot h) := by rw [hw, slot_fixRecord, hvs]; rfl
  have hev : w.event (hSlot h) = { s.event (hSlot h) with decided := true, window := false } := by
    rw [hw, event_fixRecord, hvs]
    rfl
  have hll : w.ll = v.ll := by rw [fixRecord_rest hw]
  refine ⟨?_, ?_, ?_, ?_, ?_, fun hseq => ⟨fun hd => ?_, fun hd => ?_⟩, ?_, fun k h1 h2 => ?_⟩
  · rw [huw, State.slot_modSlot]
  · rw [huw, State.slot_modSlot, hslot]
  · rw [huw, State.modSlot_get_event, hev]
  · rw [huw, State.modSlot_hub, hw]
    exact limits_fixRecord
  · rw [huw, State.modSlot_hub, hw, hards_fixRecord, hvs]
  · rw [huw, State.modSlot_dp, hw, dp_fixRecord (by rw [hvs]; exact hseq) (by rw [hvs]; exact hd), hvs]
    rfl
  · obtain ⟨hdp, hcount⟩ := dp_fixRecord_nodest (s := v) (h := h) (outcome := o) (reason := reason) (trigger := 0)
      (by rw [hvs]; exact hseq) (by rw [hvs]; exact hd)
    rw [huw, State.modSlot_dp, State.modSlot_get_counter, hw, hdp, hcount, hvs]
    exact ⟨rfl, rfl⟩
  · rw [huw, State.modSlot_ll, hll, hvs]
  · rw [huw, State.modSlot_get_counter, hw, counter_fixRecord h1 h2, hvs]
    rfl

/-- What a fallback decision leaves of its event (R39, R203). -/
theorem fallback_clause (ht : t = fallback h reason s)
    (ho : o = (fallbackOutcome (s.event (hSlot h)).policy (s.event (hSlot h)).prescale s).1) :
    (t.slot (hSlot h)).st = .snuffed ∧ (t.slot (hSlot h)).gen = (s.slot (hSlot h)).gen ∧ (t.event (hSlot h)).decided = true ∧
      (t.event (hSlot h)).window = false ∧ (t.event (hSlot h)).killed = true ∧
      (∀ y ∈ t.hub.windows ++ t.hub.warnings, y.handle ≠ h) ∧ t.hub.hards = s.hub.hards ∧
      ((s.event (hSlot h)).seq = none →
        (noDest s = false → t.dp = { s.dp with queue := s.dp.queue ++ [recordOf s h o reason 0] }) ∧
        (noDest s = true → t.dp = s.dp ∧ t.counter Cnt.dpNodest = (bump Cnt.dpNodest s).counter Cnt.dpNodest)) ∧
      (∃ x ∈ t.recs, x.src = 0x21 ∧ x.reason = 0x10 ∧ x.a1 = handleArg (some h)) ∧
      (∀ i, (t.task i).handle ≠ some h) ∧
      (∀ i c, (s.task i).handle = some h → (s.task i).ctx = some c → (t.ctx c).st = .empty ∧ (t.ctx c).task = none) ∧
      (∀ p ∈ t.ll.pendL1, p.handle ≠ some h) ∧
      (∀ (i : Nat) (j : Job), t.job i = some j → j.owner = some h → j.killed = true) ∧
      (reason.toNat ≤ 5 → t.counter (countOfReason reason) = (bump (countOfReason reason) s).counter (countOfReason reason)) := by
  obtain ⟨u, hu⟩ : ∃ u, u = snuffedWith h reason s := ⟨_, rfl⟩
  obtain ⟨v, hv⟩ : ∃ v, v = killEvent h u := ⟨_, rfl⟩
  rw [fallback_eq, ← hu, ← hv] at ht
  obtain ⟨ust, ugen, uev, ulimits, uhards, udp, ull, ucount⟩ := snuffedWith_parts hu ho
  obtain ⟨vtask, vctx, vpend, vjobs⟩ := killEvent_leaves h u
  rw [← hv] at vtask vctx vpend vjobs
  have hb : beyond v = beyond (u.modEvent (hSlot h) fun e => { e with killed := true }) := hv ▸ beyond_killEvent h u
  obtain ⟨hst, hgen⟩ := slot_of_beyond hb (hSlot h)
  have hev := event_of_beyond hb (hSlot h)
  rw [State.event_modEvent, uev] at hev
  have hdecided := congrArg EvSt.decided hev
  have hwindow := congrArg EvSt.window hev
  have hkilled := congrArg EvSt.killed hev
  have hhub : v.hub = u.hub := (hub_of_beyond hb).trans rfl
  have hdp : v.dp = u.dp := (dp_of_beyond hb).trans rfl
  have hcount {k : Nat} (hk : decisionCounter k = true) : v.counter k = u.counter k := (decisions_of_beyond hb hk).trans rfl
  have htv : t = { v with recs := t.recs } := ht ▸ rfl
  have htrecs : ∃ x ∈ t.recs, x.src = 0x21 ∧ x.reason = 0x10 ∧ x.a1 = handleArg (some h) :=
    ht ▸ ⟨_, List.mem_append_right _ (List.mem_singleton_self _), rfl, rfl, rfl⟩
  rw [htv]
  refine ⟨hst.trans ust, hgen.trans ugen, hdecided, hwindow, hkilled, ?_, ?_, fun hseq => ⟨fun hd => ?_, fun hd => ?_⟩, htrecs,
    vtask, fun i c hi hc => vctx i c ?_ ?_, vpend, vjobs, fun hr => ?_⟩
  · rw [hhub]
    exact ulimits
  · rw [hhub, uhards]
  · exact hdp.trans ((udp hseq).1 hd)
  · exact ⟨hdp.trans ((udp hseq).2 hd).1, (hcount rfl).trans ((udp hseq).2 hd).2⟩
  · rw [State.task, ull]
    exact hi
  · rw [State.task, ull]
    exact hc
  · obtain ⟨h1, h2⟩ := reasonCnt_ne_dp reason
    rw [countOfReason_eq hr]
    exact (hcount (reasonCnt_decision reason)).trans (ucount _ h1 h2)

end

/-! ### Fault reports -/

theorem exec_faultReport (n : Nat) (s : State) : exec (.faultReport n) s = .next
    (((s.ll.faults.take n).filter (fun f => f.poison) ++ (s.ll.faults.take n).filter fun f => !f.poison).foldl
      (fun s f => takeFault f s) { s with ll := { s.ll with faults := s.ll.faults.drop n } }) := rfl

/-- One report decides an event that has no decision (R348, Table 05-10). -/
theorem takeFault_undecided {s u : State} {f : FaultRep} (hu : ∃ l, u = { s with ll := { s.ll with faults := l } })
    (hund : undecided s f.handle = true) : takeFault f u = fallback f.handle
      (if (s.event (hSlot f.handle)).t0 + (s.event (hSlot f.handle)).deadline.setWidth 64 ≤ s.time then 2
        else if f.poison then 3 else 4) u := by
  obtain ⟨l, rfl⟩ := hu
  exact if_pos hund

theorem takeFault_decided {s u : State} {f : FaultRep} (hu : ∃ l, u = { s with ll := { s.ll with faults := l } })
    (hund : undecided s f.handle = false) : takeFault f u = u := by
  obtain ⟨l, rfl⟩ := hu
  exact if_neg (ne_true_of_eq_false hund)

theorem exec_faultReport_one {s u : State} {f : FaultRep} {r : List FaultRep} (hf : s.ll.faults = f :: r)
    (hu : u = { s with ll := { s.ll with faults := r } }) : exec (.faultReport 1) s = .next (takeFault f u) := by
  rw [exec_faultReport, hf, hu]
  cases hp : f.poison <;> simp [hp]

/-- The clause of fallback decisions and fault reports. -/
theorem fallbackDecisions : Sys2Proof.Clause.FallbackDecisions := by
  intro s h reason
  refine ⟨?_, fun hf n => ?_, fun f r u hf hu => ⟨fun hs ho => ?_, fun hn => ?_⟩, fun n now hnow => ?_, fun f g r hf => ?_⟩
  · obtain ⟨hst, hgen, hdec, hwin, hkill, hrest⟩ := fallback_clause (s := s) (h := h) (reason := reason) rfl rfl
    exact ⟨_, _, rfl, hst, hgen, hdec, hwin, hkill, (fallbackOutcome_rest _ _ s).2, hrest⟩
  · have hnone : { s with ll := { s.ll with faults := [] } } = s := by rw [← hf]
    rw [exec_faultReport, hf, List.take_nil, List.drop_nil, hnone]
    rfl
  · rw [exec_faultReport_one hf hu, takeFault_undecided ⟨r, hu⟩ ((undecided_iff s _).mpr ⟨hs, ho⟩)]
  · rw [exec_faultReport_one hf hu, takeFault_decided ⟨r, hu⟩ (undecided_eq_false hn)]
  · rw [exec_faultReport, ← hnow]
  · rw [exec_faultReport, hf]
    cases hp : f.poison <;> cases hq : g.poison <;> simp [hp, hq]

/-- Settles O33: the first decision alone fixes a record; a fallback fixes it too, and its kill runs through the event's
descriptors, after which none holds the event and no later instances are of it. -/
theorem decisions : Obligations.Decisions := ⟨decisionsByTask, fallbackDecisions⟩

end Sys2Proof.Machine
end

section
namespace Sys2Proof.Machine

/-! ### What the recorder leaves as it is -/

/-- A step of the recorder: the records that it holds, what it counts, and what it tells the host. -/
def LogsAlone (s t : State) : Prop := t = { s with cnt := t.cnt, hi := t.hi, er := t.er, out := t.out }

variable {s t u : State}

theorem LogsAlone.refl (s : State) : LogsAlone s s := rfl

theorem LogsAlone.trans (h : LogsAlone s t) (g : LogsAlone t u) : LogsAlone s u := by
  rw [LogsAlone] at h g ⊢
  rw [h] at g
  exact g

/-- A step that leaves the recorder too. -/
def HostAlone (s t : State) : Prop := LogsAlone s t ∧ t.er = s.er

theorem HostAlone.refl (s : State) : HostAlone s s := ⟨rfl, rfl⟩

theorem HostAlone.trans (h : HostAlone s t) (g : HostAlone t u) : HostAlone s u := ⟨h.1.trans g.1, g.2.trans h.2⟩

theorem HostAlone.hostWrite (a : BitVec 64) (l : List Byte) (s : State) : HostAlone s (hostWrite a l s) := by
  rw [Machine.hostWrite]
  split <;> exact ⟨rfl, rfl⟩

theorem HostAlone.modRing (s : State) (r : Nat) (f : RingSt → RingSt) : HostAlone s (s.modRing r f) := ⟨rfl, rfl⟩

theorem HostAlone.bump (k : Nat) (s : State) : HostAlone s (bump k s) := ⟨rfl, rfl⟩

theorem HostAlone.sendMsix (fn : Nat) (v : BitVec 8) (s : State) : HostAlone s (sendMsix fn v s) := by
  rw [Machine.sendMsix]
  split
  · exact ⟨rfl, rfl⟩
  · split <;> exact ⟨rfl, rfl⟩

theorem HostAlone.serviceIrq (n : Nat) (s : State) : HostAlone s (serviceIrq n s) := by
  rw [Machine.serviceIrq]
  split
  · exact .sendMsix _ _ s
  · exact .refl s

theorem HostAlone.ringEvent (r : Nat) (flag : Bool) (s : State) : HostAlone s (ringEvent r flag s) := by
  have hirq (u : State) : HostAlone u (ringIrq r flag u) := by
    unfold ringIrq
    dsimp only
    split
    · exact (HostAlone.modRing u r _).trans (.sendMsix _ _ _)
    · exact .refl u
  have hblock (u : State) : HostAlone u (statusBlock r u) := (HostAlone.modRing u r _).trans (.hostWrite _ _ _)
  exact ((hblock s).trans (.modRing _ r _)).trans (hirq _)

theorem HostAlone.pushEntry (r : Nat) (l : List Byte) (lost : Nat) (s : State) : HostAlone s (pushEntry r l lost s) := by
  unfold Machine.pushEntry
  dsimp only
  split
  · exact .refl s
  split
  · exact .bump lost s
  · exact ((HostAlone.hostWrite _ _ s).trans (.modRing _ r _)).trans (.ringEvent r false _)

theorem HostAlone.foldl {α : Type} {f : State → α → State} (h : ∀ s a, HostAlone s (f s a)) (l : List α) (s : State) :
    HostAlone s (l.foldl f s) := by
  induction l generalizing s with
  | nil => exact .refl s
  | cons a r ih => exact (h s a).trans (ih _)

/-! The buffer of the recorder. -/

/-- A record with another content of its OPEN, flushed and reported marks, none of which is set anew but the last. -/
def MarksOf (f : ErRec → ErRec) : Prop :=
  ∀ e, (f e).seq = e.seq ∧ (f e).r = e.r ∧ ((f e).opened = true → e.opened = true) ∧ ((f e).flushed = true → e.flushed = true)

/-- A step of the recorder that takes and writes no record. -/
def MarksAlone (s t : State) : Prop :=
  LogsAlone s t ∧ t.er.mram = s.er.mram ∧ t.er.next = s.er.next ∧ ∃ f, MarksOf f ∧ t.er.buf = s.er.buf.map f

theorem MarksAlone.of_same (h : LogsAlone s t) (hm : t.er.mram = s.er.mram) (hn : t.er.next = s.er.next)
    (hb : t.er.buf = s.er.buf) : MarksAlone s t :=
  ⟨h, hm, hn, id, fun _ => ⟨rfl, rfl, fun h => h, fun h => h⟩, by rw [hb, List.map_id]⟩

theorem MarksAlone.refl (s : State) : MarksAlone s s := .of_same (.refl s) rfl rfl rfl

theorem MarksAlone.trans (h : MarksAlone s t) (g : MarksAlone t u) : MarksAlone s u := by
  obtain ⟨hl, hm, hn, f, hf, hb⟩ := h
  obtain ⟨gl, gm, gn, f', gf, gb⟩ := g
  refine ⟨hl.trans gl, gm.trans hm, gn.trans hn, f' ∘ f, fun e => ?_, by rw [gb, hb, List.map_map]⟩
  obtain ⟨h1, h2, h3, h4⟩ := hf e
  obtain ⟨g1, g2, g3, g4⟩ := gf (f e)
  exact ⟨g1.trans h1, g2.trans h2, fun h => h3 (g3 h), fun h => h4 (g4 h)⟩

theorem MarksAlone.of_host (h : HostAlone s t) : MarksAlone s t :=
  .of_same h.1 (congrArg ErSt.mram h.2) (congrArg ErSt.next h.2) (congrArg ErSt.buf h.2)

/-- The marks of the buffered records change. -/
theorem MarksAlone.marks (s : State) {f : ErRec → ErRec} (hf : MarksOf f) (b : Bool) :
    MarksAlone s { s with er := { s.er with irqSent := b, buf := s.er.buf.map f } } := ⟨rfl, rfl, rfl, f, hf, rfl⟩

theorem MarksAlone.feedLogs (s : State) : MarksAlone s (feedLogs s) := by
  unfold Machine.feedLogs
  dsimp only
  refine .trans (.of_host (.foldl (fun u e => ?_) _ s)) (.of_same rfl rfl rfl rfl)
  split
  · exact .refl u
  · exact .foldl (fun u r => .pushEntry r _ _ u) _ u

theorem MarksAlone.erVector (s : State) : MarksAlone s (erVector s) := by
  unfold Machine.erVector
  dsimp only
  split
  · refine .trans (.marks s (fun e => ?_) true) (.of_host (.serviceIrq _ _))
    split <;> exact ⟨rfl, rfl, fun h => h, fun h => h⟩
  · exact .refl s

theorem MarksAlone.afterClose (s : State) : MarksAlone s (afterClose s) := (MarksAlone.feedLogs s).trans (.erVector _)

/-- The mark that closing leaves. -/
def closedRec (e : ErRec) : ErRec := if e.opened then { e with opened := false, flushed := false } else e

theorem closedRec_opened (e : ErRec) : (closedRec e).opened = false := by
  unfold closedRec
  split
  · rfl
  · exact eq_false_of_ne_true ‹_›

theorem closedRec_marks : MarksOf closedRec := fun e => by
  unfold closedRec
  split
  · exact ⟨rfl, rfl, nofun, nofun⟩
  · exact ⟨rfl, rfl, fun h => h, fun h => h⟩

theorem closeAll_eq (s : State) : closeAll s = if s.er.buf.any (fun e => e.opened) then
    afterClose { s with er := { s.er with buf := s.er.buf.map closedRec } } else s := rfl

theorem MarksAlone.closeAll (s : State) : MarksAlone s (closeAll s) := by
  rw [closeAll_eq]
  split
  · exact .trans (.marks s closedRec_marks s.er.irqSent) (.afterClose _)
  · exact .refl s

/-- After that no record is OPEN. -/
theorem closeAll_closed (s : State) : ∀ e ∈ (closeAll s).er.buf, e.opened = false := by
  rw [closeAll_eq]
  split
  · obtain ⟨-, -, -, f, hf, hb⟩ := MarksAlone.afterClose { s with er := { s.er with buf := s.er.buf.map closedRec } }
    rw [hb]
    intro e he
    obtain ⟨a, ha, rfl⟩ := List.mem_map.mp he
    obtain ⟨b, -, rfl⟩ := List.mem_map.mp ha
    refine eq_false_of_ne_true fun ho => ?_
    have hopen := (hf _).2.2.1 ho
    rw [closedRec_opened] at hopen
    cases hopen
  · next h => exact fun e he => eq_false_of_ne_true fun ho => h (List.any_eq_true.mpr ⟨e, he, ho⟩)

theorem MarksAlone.startFlush (s : State) : MarksAlone s (startFlush s) :=
  (MarksAlone.closeAll s).trans (.of_same rfl rfl rfl rfl)

theorem MarksAlone.fullFlush (s : State) : MarksAlone s (fullFlush s) := by
  rw [Machine.fullFlush]
  split
  · exact .startFlush s
  · exact .refl s

/-! ### The flush at a reset (R516, R538) -/

/-- A step that may take records too. -/
def TakesAlone (s t : State) : Prop := t = { s with cnt := t.cnt, hi := t.hi, er := t.er, out := t.out, recs := t.recs }

theorem TakesAlone.trans (h : TakesAlone s t) (g : TakesAlone t u) : TakesAlone s u := by
  rw [TakesAlone] at h g ⊢
  rw [h] at g
  exact g

theorem LogsAlone.takes (h : LogsAlone s t) : TakesAlone s t := by
  rw [LogsAlone] at h
  rw [TakesAlone, h]

theorem LogsAlone.takeRec (r : Rec) (s : State) : LogsAlone s (takeRec r s) := by
  have hseq (u : State) : LogsAlone u (takeSeq u).2 := by
    have hboot : LogsAlone u (seqBoot u) := by
      unfold seqBoot
      split <;> exact rfl
    exact hboot.trans rfl
  have hstore (e : ErRec) (u : State) : LogsAlone u (erStore e u) := by
    unfold erStore
    split
    · exact rfl
    · split <;> exact rfl
  unfold Machine.takeRec
  split
  · refine .trans ?_ (MarksAlone.fullFlush _).1
    exact rfl
  · have htaken := (hseq s).trans (hstore ⟨(takeSeq s).1, r, (takeSeq s).2.node, 1, decide (r.sev ≠ 3), false, false⟩ _)
    dsimp only
    split
    · exact htaken.trans ((MarksAlone.afterClose _).1.trans (MarksAlone.startFlush _).1)
    · exact htaken.trans (MarksAlone.fullFlush _).1

theorem TakesAlone.handOver (s : State) : TakesAlone s (handOver s) := by
  unfold Machine.handOver
  split
  · exact rfl
  · dsimp only
    split
    · exact rfl
    · refine .trans ?_ (LogsAlone.takeRec _ _).takes
      exact rfl

theorem TakesAlone.handOverAll (s : State) : TakesAlone s (handOverAll s) := by
  have hfold (l : List Rec) (u : State) : TakesAlone u (l.foldl (fun s _ => Machine.handOver s) u) := by
    induction l generalizing u with
    | nil => exact rfl
    | cons r l ih => exact (TakesAlone.handOver u).trans (ih _)
  exact hfold _ s

theorem LogsAlone.flushAll (s : State) : LogsAlone s (flushAll s) := by
  have hfold (l : List ErRec) (u : State) : LogsAlone u (l.foldl (fun s e => mramWrite e s) u) := by
    induction l generalizing u with
    | nil => exact rfl
    | cons e l ih =>
      refine .trans ?_ (ih (mramWrite e u))
      exact rfl
  exact (hfold _ s).trans rfl

theorem LogsAlone.writeLast (s : State) : LogsAlone s (writeLast s) := by
  unfold Machine.writeLast seqBoot
  split <;> exact rfl

theorem TakesAlone.flushAtReset (s : State) : TakesAlone s (flushAtReset s) := by
  obtain ⟨u, hu⟩ : ∃ u, u = Machine.flushAll (Machine.closeAll (Machine.handOverAll s)) := ⟨_, rfl⟩
  have htaken : TakesAlone s u := by
    rw [hu]
    exact (TakesAlone.handOverAll s).trans (LogsAlone.takes ((MarksAlone.closeAll _).1.trans (.flushAll _)))
  have hflag : TakesAlone u (bump Cnt.erFlush { u with er := { u.er with flushing := false } }) := rfl
  rw [Machine.flushAtReset, ← hu]
  exact (htaken.trans hflag).trans (LogsAlone.writeLast _).takes

/-! What the flush writes. -/

/-- The buffer ends in a record that has not been written, of a SEQ and of what was handed over. -/
def LastIs (n : Nat) (r : Rec) (s : State) : Prop := ∃ pre e, s.er.buf = pre ++ [e] ∧ e.flushed = false ∧ e.seq = n ∧ e.r = r

theorem LastIs.of_marks {n : Nat} {r : Rec} (h : LastIs n r s) (hm : MarksAlone s t) : LastIs n r t := by
  obtain ⟨pre, e, hbuf, hfl, hseq, hr⟩ := h
  obtain ⟨-, -, -, f, hf, hb⟩ := hm
  obtain ⟨h1, h2, -, h4⟩ := hf e
  refine ⟨pre.map f, f e, by rw [hb, hbuf, List.map_append]; rfl, ?_, h1.trans hseq, h2.trans hr⟩
  exact eq_false_of_ne_true fun hx => by rw [h4 hx] at hfl; cases hfl

/-- A record that merges into none takes the next SEQ and the last place of a buffer with room (R533, R536). -/
theorem takeRec_last {r : Rec} (hsev : r.sev ≠ 3) (hnew : ∀ e ∈ s.er.buf, e.r.reason ≠ r.reason)
    (hroom : s.er.buf.length < 8192) : LastIs (seqNext s) r (takeRec r s) := by
  have hseq : seqNext (seqBoot s) = seqNext s ∧ (seqBoot s).er.buf = s.er.buf := by
    unfold seqBoot
    split
    · exact ⟨rfl, rfl⟩
    · exact ⟨rfl, rfl⟩
  obtain ⟨hnext, hbuf⟩ := hseq
  have hmerge : s.er.buf.any (mergesInto r) = false := by
    refine List.any_eq_false.mpr fun e he => ?_
    simp [mergesInto, hnew e he]
  have htake : (takeSeq s).1 = seqNext s ∧ (takeSeq s).2.er.buf = s.er.buf := ⟨hnext, hbuf⟩
  unfold takeRec
  rw [hmerge, Bool.and_false, if_neg Bool.false_ne_true]
  dsimp only
  rw [if_neg hsev]
  refine LastIs.of_marks ?_ (MarksAlone.fullFlush _)
  rw [erStore, htake.2, if_pos hroom]
  exact ⟨s.er.buf, _, rfl, rfl, htake.1, rfl⟩

theorem mramWrite_slot (e : ErRec) (s : State) :
    Tab.get none (mramWrite e s).er.mram.slots (mramSlot e.seq) = some e :=
  Tab.get_set_self none s.er.mram.slots (mramSlot e.seq) (some e)

/-- The flush writes the last record of the buffer into its slot (R537). -/
theorem flushAll_last {n : Nat} {r : Rec} (h : LastIs n r s) :
    ∃ e, e.seq = n ∧ e.r = r ∧ Tab.get none (flushAll s).er.mram.slots (mramSlot n) = some e := by
  obtain ⟨pre, e, hbuf, hfl, rfl, hr⟩ := h
  refine ⟨e, rfl, hr, ?_⟩
  have hlist : s.er.buf.filter (fun e => !e.flushed) = pre.filter (fun e => !e.flushed) ++ [e] := by
    rw [hbuf, List.filter_append]
    simp [hfl]
  unfold flushAll
  dsimp only
  rw [hlist, List.foldl_append, List.foldl_cons, List.foldl_nil]
  exact mramWrite_slot e _

/-! ### Module resets (R516–R518) -/

/-- The state that a module reset finds, with its recorder flushed or not. -/
def flushedBy (flush : Bool) (s : State) : State := if flush then flushAtReset (resetRecord s) else s

theorem TakesAlone.flushedBy (flush : Bool) (s : State) : TakesAlone s (flushedBy flush s) := by
  rw [Machine.flushedBy]
  split
  · exact TakesAlone.trans (t := resetRecord s) rfl (.flushAtReset _)
  · exact rfl

theorem moduleReset_eq {lc : LcState} {flush : Bool} (hu : u = flushedBy flush s) : moduleReset lc flush s =
    { State.boot s.build { s.mg.stored with lc := lc }
        (if lc = .retired ∧ s.mg.stored.lc ≠ .retired then MramSt.empty else u.er.mram)
        { PwSt.reset with straps := s.pw.straps, pin := s.pw.pin, stage := if s.pw.pin then .run else .held } s.freeCtr with
      pending := s.pending, out := u.out, tap := s.tap } := by
  have hrest : TakesAlone s u := hu ▸ .flushedBy flush s
  have hflush : moduleReset lc flush s = { State.boot u.build { u.mg.stored with lc := lc }
        (if lc = .retired ∧ u.mg.stored.lc ≠ .retired then MramSt.empty else u.er.mram)
        { PwSt.reset with straps := u.pw.straps, pin := u.pw.pin, stage := if u.pw.pin then .run else .held } u.freeCtr with
      pending := u.pending, out := u.out, tap := u.tap } := by
    rw [hu]
    rfl
  rw [TakesAlone] at hrest
  rw [hflush, hrest]

theorem moduleReset_into (lc : LcState) (flush : Bool) (s : State) : ResetInto s (moduleReset lc flush s) lc := by
  obtain ⟨u, hu⟩ : ∃ u, u = flushedBy flush s := ⟨_, rfl⟩
  rw [moduleReset_eq hu]
  exact rfl

theorem moduleReset_mram {lc : LcState} {flush : Bool} (hu : u = flushedBy flush s) : (moduleReset lc flush s).er.mram =
    if lc = .retired ∧ s.mg.stored.lc ≠ .retired then MramSt.empty else u.er.mram := by
  rw [moduleReset_eq hu]
  rfl

/-- The header that the flush leaves is valid (R533). -/
theorem flushAtReset_valid (s : State) : ∀ h, (flushAtReset s).er.mram.hdr = some h → h.valid = true := by
  intro h hh
  unfold flushAtReset writeLast at hh
  obtain ⟨g, -, rfl⟩ := Option.map_eq_some_iff.mp hh
  rfl

/-- The record of RESET_OPEN is the last that the flush writes (log entry 89). -/
theorem flushAtReset_record (hrun : s.pw.stage = .run) (hrecs : s.recs = []) (hroom : s.er.buf.length < 8192)
    (hno : ∀ e ∈ s.er.buf, e.r.reason ≠ 3) : ∃ e, e.seq = seqNext s ∧ e.r.reason = 3 ∧ e.r.sev = 1 ∧
      Tab.get none (flushAtReset (resetRecord s)).er.mram.slots (e.seq % 524287) = some e := by
  obtain ⟨r, hr⟩ : ∃ r, (resetRecord s).recs = s.recs ++ [r] ∧ r.reason = 3 ∧ r.sev = 1 := ⟨_, rfl, rfl, rfl⟩
  obtain ⟨hlist, hreason, hsev⟩ := hr
  rw [hrecs, List.nil_append] at hlist
  have hone : handOverAll (resetRecord s) = takeRec r { resetRecord s with recs := [] } := by
    have hstage : ¬ ((resetRecord s).pw.stage = .standby ∨ (resetRecord s).pw.stage = .off) := by
      show ¬ (s.pw.stage = .standby ∨ s.pw.stage = .off)
      simp [hrun]
    rw [handOverAll, hlist, List.foldl_cons, List.foldl_nil, handOver, hlist]
    exact if_neg hstage
  have hlast : LastIs (seqNext s) r (closeAll (handOverAll (resetRecord s))) := by
    rw [hone]
    exact LastIs.of_marks (takeRec_last (s := { resetRecord s with recs := [] }) (by rw [hsev]; decide)
      (by rw [hreason]; exact hno) hroom) (.closeAll _)
  obtain ⟨e, hseq, her, hslot⟩ := flushAll_last hlast
  refine ⟨e, hseq, her ▸ hreason, her ▸ hsev, ?_⟩
  rw [hseq]
  have hslots (u : State) : (writeLast (bump Cnt.erFlush { u with er := { u.er with flushing := false } })).er.mram.slots =
      u.er.mram.slots := by
    unfold writeLast seqBoot
    split <;> rfl
  rw [flushAtReset, hslots]
  exact hslot

/-! The commands that reset (R516, R551, R555, R556). -/

theorem exec_resetPin (high : Bool) (s : State) : exec (.resetPin high) s = .next (
    if !high then commandReset { s with pw := { s.pw with pin := high } }
    else if s.pw.stage = .held then { s with pw := { s.pw with pin := high, stage := .run } }
    else { s with pw := { s.pw with pin := high } }) := rfl

theorem exec_standbyRelease (s : State) : exec .standbyRelease s =
    .next (if s.pw.stage = .standby ∧ !s.pw.trip then moduleReset s.mg.stored.lc false s else s) := rfl

theorem exec_inputPowerUp (straps : BitVec 3) (pin : Bool) (s : State) : exec (.inputPowerUp straps pin) s = .next (
    if s.pw.stage = .off then
      { moduleReset s.mg.stored.lc false { s with pw := { s.pw with straps := straps, pin := pin } } with tap := TapSt.reset }
    else s) := rfl

theorem exec_inputDropout (s : State) : exec .inputDropout s = .next (
    if s.pw.stage = .shed ∨ s.pw.stage = .standby then
      { s with recs := [], er := ErSt.boot s.er.mram, pw := { s.pw with stage := .off } }
    else s) := rfl

/-- A reset by pin or command resets a module that runs, or whose thermal trip sheds without a warning. -/
theorem commandReset_resets (h : s.pw.stage = .run ∨ (s.pw.stage = .shed ∧ s.pw.trip = true ∧ s.pw.warned = false)) :
    commandReset s = moduleReset s.mg.stored.lc true s := by
  unfold commandReset
  rcases h with h | ⟨h, ht, hw⟩
  · rw [h]
  · rw [h]
    exact if_pos ⟨ht, by rw [hw]; rfl⟩

theorem commandReset_standby (h : s.pw.stage = .standby) :
    commandReset s = if s.pw.trip then moduleReset s.mg.stored.lc false s else s := by
  unfold commandReset
  rw [h]

/-- It is ignored without power, in a reset that is held, and after a warning while the module sheds. -/
theorem commandReset_ignored (h : s.pw.stage = .off ∨ s.pw.stage = .held ∨
    (s.pw.stage = .shed ∧ (s.pw.trip = false ∨ s.pw.warned = true))) : commandReset s = s := by
  unfold commandReset
  rcases h with h | h | ⟨h, hno⟩
  · rw [h]
  · rw [h]
  · rw [h]
    refine if_neg fun hboth => ?_
    rcases hno with hno | hno
    · rw [hno] at hboth
      cases hboth.1
    · rw [hno] at hboth
      cases hboth.2

/-- RESET# low holds the module's own reset (R551). -/
theorem moduleReset_held (lc : LcState) (flush : Bool) (h : s.pw.pin = false) : (moduleReset lc flush s).pw.stage = .held := by
  have hinto := congrArg (fun t => t.pw.stage) (moduleReset_into lc flush s)
  rw [h] at hinto
  exact hinto

/-- The state in which the input's first return finds the module (R551, R562). -/
theorem inputPowerUp_clause (straps : BitVec 3) (pin : Bool) (s : State) {t : State}
    (ht : t = { moduleReset s.mg.stored.lc false { s with pw := { s.pw with straps := straps, pin := pin } } with
      tap := TapSt.reset }) : t.pw.straps = straps ∧ t.pw.pin = pin ∧
      t.pw.stage = (if pin = true then .run else .held) ∧ pwrgd t = true ∧ alertLow t = false ∧ t.tap = TapSt.reset ∧
      t.er.mram = s.er.mram ∧ t.mg = MgSt.boot s.mg.stored s.freeCtr ∧ t.ctxs = [] ∧ t.hbm = [] ∧ t.cnt = [] := by
  have hmram := moduleReset_mram (s := { s with pw := { s.pw with straps := straps, pin := pin } }) (lc := s.mg.stored.lc)
    (flush := false) rfl
  rw [if_neg fun h => h.2 h.1] at hmram
  have hinto := moduleReset_into s.mg.stored.lc false { s with pw := { s.pw with straps := straps, pin := pin } }
  rw [ResetInto, hmram] at hinto
  rw [hinto] at ht
  subst ht
  refine ⟨rfl, rfl, rfl, ?_, ?_, rfl, rfl, rfl, rfl, rfl, rfl⟩
  · cases pin <;> rfl
  · cases pin <;> rfl

/-- The clause of module resets. -/
theorem moduleResets : Sys2Proof.Clause.ModuleResets := by
  refine ⟨fun s lc => ⟨moduleReset_into lc true s, moduleReset_into lc false s, fun hl hs => ?_, fun hl => ⟨?_, ?_, ?_⟩⟩,
    fun s low high straps pin hlow hhigh => ⟨fun hst => ⟨?_, ?_⟩, fun hst ht => ⟨?_, ?_, fun hl => ?_⟩, fun hst ht => ⟨?_, ?_⟩,
      fun hst => ?_, fun hst => ?_, fun hst => ?_, fun hst => ?_, fun ho => ⟨?_, fun a b hab => ?_⟩, fun hst => ?_,
      fun hst => ?_, fun hst => ?_, fun hst => ?_⟩⟩
  · rw [moduleReset_mram rfl, if_pos ⟨hl, hs⟩]
  · rw [moduleReset_mram rfl, if_neg fun h => hl h.1]
    rfl
  · rw [moduleReset_mram rfl, if_neg fun h => hl h.1]
    exact flushAtReset_valid _
  · intro hrun hrecs hroom hno
    rw [moduleReset_mram rfl, if_neg fun h => hl h.1]
    exact flushAtReset_record hrun hrecs hroom hno
  · rw [exec_resetPin, ← hlow, Bool.not_false, if_pos rfl, commandReset_resets (by rw [hlow]; exact hst), hlow]
  · exact moduleReset_held _ true (by rw [hlow])
  · rw [exec_resetPin, ← hlow, Bool.not_false, if_pos rfl, commandReset_standby (by rw [hlow]; exact hst),
      if_pos (by rw [hlow]; exact ht), hlow]
  · rw [exec_standbyRelease, if_neg (by simp [ht])]
  · have hserves : i2cServes s .reset = true := by
      simp [i2cServes, hst, hl, ht]
    rw [exec_i2cReset, onI2c_served (by simp [hst]) (by simp [hst]) rfl _ hserves]
    refine congrArg Host.Outcome.next ((if_pos ⟨rfl, rfl⟩).trans ?_)
    have hstage : (i2cResult [] s).pw.stage = .standby := hst
    have htrip : (i2cResult [] s).pw.trip = true := ht
    rw [commandReset_standby hstage, if_pos htrip]
    rfl
  · rw [exec_resetPin, ← hlow, Bool.not_false, if_pos rfl, commandReset_standby (by rw [hlow]; exact hst),
      if_neg (by rw [hlow]; simp [ht])]
  · rw [exec_standbyRelease, if_pos (by simp [hst, ht])]
  · rw [exec_resetPin, ← hlow, Bool.not_false, if_pos rfl, commandReset_ignored (by rw [hlow]; exact hst)]
  · rw [exec_resetPin, Bool.not_true, if_neg Bool.false_ne_true, if_pos hst]
  · rw [exec_resetPin, Bool.not_true, if_neg Bool.false_ne_true, if_neg hst, hhigh]
  · rw [exec_standbyRelease, if_neg fun h => hst h.1]
  · rw [exec_i2cReset, onI2c_served (by simp [ho.1]) (by simp [ho.1]) rfl _ (i2cServes_open ho _)]
    refine congrArg Host.Outcome.next ((if_pos ⟨rfl, rfl⟩).trans ?_)
    have hstage : (i2cResult [] s).pw.stage = .run := ho.1
    rw [commandReset_resets (.inl hstage)]
    rfl
  · rw [exec_i2cReset, onI2c_served (by simp [ho.1]) (by simp [ho.1]) rfl _ (i2cServes_open ho _)]
    refine congrArg Host.Outcome.next (if_neg fun h => ?_)
    exact hab.elim (fun ha => ha h.1) fun hb => hb h.2
  · rw [exec_inputPowerUp, if_neg hst]
  · rw [exec_inputPowerUp, if_pos hst]
    exact ⟨_, rfl, inputPowerUp_clause straps pin s rfl⟩
  · rw [exec_inputDropout, if_pos hst]
  · rw [exec_inputDropout, if_neg (by rcases hst with h | h <;> simp [h])]

end Sys2Proof.Machine
end

section
namespace Sys2Proof.Machine

/-! ### Every core in turn -/

/-- A step that changes cores alone. -/
def CoresAlone (s t : State) : Prop := t = { s with cores := t.cores }

variable {s t u : State}

theorem CoresAlone.trans (h : CoresAlone s t) (g : CoresAlone t u) : CoresAlone s u := by
  rw [CoresAlone] at h g ⊢
  rw [h] at g
  exact g

/-- A step at one core, which changes this core by g. -/
def StepAt (g : CoreSt → CoreSt) (k : CoreId) (s t : State) : Prop :=
  CoresAlone s t ∧ t.core k = g (s.core k) ∧ ∀ j, j ≠ k → t.core j = s.core j

/-- Steps at the cores in turn change every core by g. -/
theorem foldl_cores {f : State → CoreId → State} {g : CoreSt → CoreSt} (s : State)
    (hf : ∀ u k, CoresAlone s u → StepAt g k u (f u k)) (n : Nat) (hn : n ≤ 256) :
    CoresAlone s ((List.range n).foldl (fun s i => f s (BitVec.ofNat 8 i)) s) ∧
    ∀ k : CoreId, ((List.range n).foldl (fun s i => f s (BitVec.ofNat 8 i)) s).core k =
      if k.toNat < n then g (s.core k) else s.core k := by
  induction n with
  | zero => exact ⟨rfl, fun k => rfl⟩
  | succ n ih =>
    obtain ⟨hall, hcore⟩ := ih (by omega)
    rw [List.range_succ, List.foldl_append, List.foldl_cons, List.foldl_nil]
    obtain ⟨hstep, hself, hother⟩ := hf _ (BitVec.ofNat 8 n) hall
    have hnum : (BitVec.ofNat 8 n).toNat = n := by rw [BitVec.toNat_ofNat]; omega
    refine ⟨hall.trans hstep, fun k => ?_⟩
    by_cases hk : k = BitVec.ofNat 8 n
    · subst hk
      rw [hself, hcore, hnum, if_neg (Nat.lt_irrefl n), if_pos (Nat.lt_succ_self n)]
    · have hne : k.toNat ≠ n := fun h => hk (BitVec.eq_of_toNat_eq (h.trans hnum.symm))
      rw [hother k hk, hcore]
      exact if_congr (by omega) rfl rfl

/-- All 256 of them. -/
theorem foldl_allCores {f : State → CoreId → State} {g : CoreSt → CoreSt} (s : State)
    (hf : ∀ u k, CoresAlone s u → StepAt g k u (f u k)) :
    CoresAlone s ((List.range 256).foldl (fun s i => f s (BitVec.ofNat 8 i)) s) ∧
    ∀ k : CoreId, ((List.range 256).foldl (fun s i => f s (BitVec.ofNat 8 i)) s).core k = g (s.core k) := by
  obtain ⟨hall, hcore⟩ := foldl_cores s hf 256 (Nat.le_refl _)
  exact ⟨hall, fun k => (hcore k).trans (if_pos k.isLt)⟩

theorem stepAt_modCore (g : CoreSt → CoreSt) (k : CoreId) (s : State) : StepAt g k s (s.modCore k g) :=
  ⟨rfl, State.core_modCore s k g, fun _ h => State.core_modCore_ne s g h⟩

theorem allCores_all (f : Uc → Uc) (s : State) : CoresAlone s (allCores f s) ∧
    ∀ k, (allCores f s).core k = { s.core k with uc := f (s.core k).uc } := by
  unfold allCores
  exact foldl_allCores (f := fun s k => s.modUc k f) s fun u k _ => stepAt_modCore (fun x => { x with uc := f x.uc }) k u

/-- What boot leaves in a control store: the vendor patch is loaded, but not in RETIRED (11 R375). -/
def patchedUc (s : State) (patch : Option (List Byte)) (x : Uc) : Uc :=
  match patch with
  | none => x
  | some l => if s.mg.stored.lc ≠ .retired then loadPatch l x else x

theorem bootPatch_all (patch : Option (List Byte)) (s : State) : CoresAlone s (bootPatch patch s) ∧
    ∀ k, (bootPatch patch s).core k = { s.core k with uc := patchedUc s patch (s.core k).uc } := by
  cases patch with
  | none => exact ⟨rfl, fun _ => rfl⟩
  | some l =>
    by_cases hlc : s.mg.stored.lc ≠ .retired
    · have hload : bootPatch (some l) s = allCores (loadPatch l) s := if_pos hlc
      have huc (x : Uc) : patchedUc s (some l) x = loadPatch l x := if_pos hlc
      simp only [hload, huc]
      exact allCores_all (loadPatch l) s
    · have hnone : bootPatch (some l) s = s := if_neg hlc
      have huc (x : Uc) : patchedUc s (some l) x = x := if_neg hlc
      simp only [hnone, huc]
      exact ⟨rfl, fun _ => trivial⟩

/-- A core without a runnable context chooses none. -/
theorem resched_of_runnables {k : CoreId} (h : runnables s k = []) : resched k s = s := by
  unfold resched
  rw [h]
  split <;> rfl

/-- With the contexts wiped no context is runnable. -/
theorem runnables_wiped (h : s.ctxs = []) (k : CoreId) : runnables s k = [] := by
  have hctx (c : CtxId) : (s.ctx c).st = .empty := by
    unfold State.ctx
    rw [h]
    rfl
  unfold runnables
  simp [hctx]

/-- A sequencer in table mode enters service mode. -/
def servedUc (x : Uc) : Uc := if x.mode = .table then { x with mode := .service } else x

/-- Where events are allowed every core in table mode enters service mode; elsewhere none does. -/
theorem releaseCores_all (h : s.ctxs = []) : CoresAlone s (releaseCores s) ∧
    ∀ k, (releaseCores s).core k =
      { s.core k with uc := if eventsAllowed s = true then servedUc (s.core k).uc else (s.core k).uc } := by
  unfold releaseCores
  by_cases hev : eventsAllowed s = true
  · simp only [if_pos hev]
    refine foldl_allCores (f := fun s k =>
      if (s.core k).uc.mode = .table then resched k (s.modUc k fun u => { u with mode := .service }) else s)
      (g := fun x => { x with uc := servedUc x.uc }) s fun u k hu => ?_
    have hctxs : u.ctxs = [] := (congrArg State.ctxs hu).trans h
    by_cases hm : (u.core k).uc.mode = .table
    · have hidle : resched k (u.modUc k fun x => { x with mode := .service }) = u.modUc k fun x => { x with mode := .service } :=
        resched_of_runnables (runnables_wiped hctxs k)
      have huc : servedUc (u.core k).uc = { (u.core k).uc with mode := .service } := if_pos hm
      obtain ⟨hall, hself, hother⟩ := stepAt_modCore (fun x => { x with uc := { x.uc with mode := .service } }) k u
      rw [if_pos hm, hidle]
      exact ⟨hall, hself.trans (congrArg (fun y => { u.core k with uc := y }) huc.symm), hother⟩
    · have huc : servedUc (u.core k).uc = (u.core k).uc := if_neg hm
      rw [if_neg hm]
      exact ⟨rfl, (congrArg (fun y => { u.core k with uc := y }) huc).symm, fun _ _ => rfl⟩
  · simp only [if_neg hev]
    exact ⟨rfl, fun _ => trivial⟩

/-! ### The wipe of the SRAMs (17 Table 17-6) -/

theorem wipeSrams_core (k : CoreId) (s : State) : (wipeSrams s).core k = { CoreSt.reset with uc := (s.core k).uc } :=
  get_map CoreSt.reset s.cores (fun x => { CoreSt.reset with uc := x.uc }) rfl k.toNat

theorem wipeSrams_mc (c : Nat) (s : State) : (wipeSrams s).mc c = { s.mc c with dir := [], dirClock := 0, tagc := [] } :=
  get_map McSt.reset s.mcs (fun x => { x with dir := [], dirClock := 0, tagc := [] }) rfl c

theorem wipeSrams_entries (n : Nat) (s : State) :
    ((wipeSrams s).wick n).entries = (s.wick n).entries.map fun y => { y with frames := [] } :=
  have hwick := get_map WkSt.reset s.wk.wicks (fun x => { x with
    entries := x.entries.map fun y => { y with frames := [] }
    lanes := x.lanes.map fun (l : Nat × LaneRx) => (l.1, { l.2 with rx := none, skip := l.2.skip || l.2.rx.isSome }) }) rfl n
  congrArg WkSt.entries hwick

theorem wipeSrams_frames (n : Nat) (s : State) : ∀ e ∈ ((wipeSrams s).wick n).entries, e.frames = [] := by
  rw [wipeSrams_entries]
  intro e he
  obtain ⟨y, -, rfl⟩ := List.mem_map.mp he
  rfl

/-! ### BOOT_READY (17 R523–R525) -/

/-- The firmware slot b of the NOR verifies. -/
def slotOk (s : State) (b : Bool) : Bool := decide (fwCheck s (slotImage s b) (slotImage s b).length = none)

theorem execBootReady_idle {fail : Option (BitVec 4)} {speed : BitVec 4} {width : BitVec 5}
    (h : s.mg.ready = true ∨ s.mg.booterr = true ∨ s.mg.romOnly = true ∨ s.pw.stage ≠ .run) :
    exec (.bootReady fail speed width) s = .next s :=
  congrArg Host.Outcome.next (if_pos h)

/-- A boot that has neither ended nor failed. -/
def Booting (s : State) : Prop := ¬ (s.mg.ready = true ∨ s.mg.booterr = true ∨ s.mg.romOnly = true ∨ s.pw.stage ≠ .run)

section
variable {speed : BitVec 4} {width : BitVec 5} (h : Booting s)
include h

/-- Without a slot the module stays in the boot ROM. -/
theorem execBootReady_rom {fail : Option (BitVec 4)} (hslot : bootSlot s (slotOk s false) (slotOk s true) = none) :
    exec (.bootReady fail speed width) s = .next { s with mg := { s.mg with romOnly := true } } := by
  refine congrArg Host.Outcome.next ((if_neg h).trans ?_)
  unfold slotOk at hslot
  dsimp only
  rw [hslot]

/-- A step that fails leaves BOOTERR and its record. -/
theorem execBootReady_fails {step : BitVec 4} {v : Bool} (hslot : bootSlot s (slotOk s false) (slotOk s true) = some v) :
    exec (.bootReady (some step) speed width) s = .next (record 3 0x90 0x02 (step.setWidth 64) 0 0 0 0
      { bootFrom v s with mg := { (bootFrom v s).mg with booterr := true } }) := by
  refine congrArg Host.Outcome.next ((if_neg h).trans ?_)
  unfold slotOk at hslot
  dsimp only
  rw [hslot]

/-- Boot ends when the wipe of HBM has. -/
theorem execBootReady_ends {v : Bool} (hslot : bootSlot s (slotOk s false) (slotOk s true) = some v) :
    exec (.bootReady none speed width) s = .next (if (List.range 4).any (fun c => (s.mc c).wipeBusy) = true then s else
      bootDone v (imgVersion (slotImage s v))
        (bootPatch (patchOf s v) { bootFrom v s with hi := { s.hi with speed := speed, width := width } })) := by
  refine congrArg Host.Outcome.next ((if_neg h).trans ?_)
  unfold slotOk at hslot
  dsimp only
  rw [hslot]

end

/-- The state with the SRAMs wiped, before the cores are released. -/
def bootWiped (slot : Bool) (version : BitVec 16) (s : State) : State :=
  { wipeSrams s with mg := { s.mg with
    stored := { s.mg.stored with
      attemptA := if slot then s.mg.stored.attemptA else false
      attemptB := if slot then false else s.mg.stored.attemptB }
    ready := true, fwVersion := version } }

theorem bootDone_eq (slot : Bool) (version : BitVec 16) (s : State) : ∃ r : Rec, r.reason = 1 ∧ r.sev = 0 ∧ r.src = 0x90 ∧
    r.a0 = version.setWidth 64 ∧ CoresAlone
      { bootWiped slot version s with recs := s.recs ++ [r] } (bootDone slot version s) ∧
    ∀ k, (bootDone slot version s).core k = (releaseCores (bootWiped slot version s)).core k := by
  obtain ⟨hall, -⟩ := releaseCores_all (s := bootWiped slot version s) rfl
  have hdone : ∃ r : Rec, r.reason = 1 ∧ r.sev = 0 ∧ r.src = 0x90 ∧ r.a0 = version.setWidth 64 ∧ bootDone slot version s =
      { releaseCores (bootWiped slot version s) with recs := (releaseCores (bootWiped slot version s)).recs ++ [r] } :=
    ⟨_, rfl, rfl, rfl, rfl, rfl⟩
  obtain ⟨r, h1, h2, h3, h4, hdone⟩ := hdone
  refine ⟨r, h1, h2, h3, h4, ?_, fun k => by rw [hdone]; rfl⟩
  rw [CoresAlone] at hall ⊢
  rw [hdone, hall]
  rfl

/-- The state from which boot ends, before the patch. -/
def bootLinked (v : Bool) (speed : BitVec 4) (width : BitVec 5) (s : State) : State :=
  { bootFrom v s with hi := { s.hi with speed := speed, width := width } }

/-- What the end of boot leaves beside the cores. -/
theorem bootDone_rest {v : Bool} {speed : BitVec 4} {width : BitVec 5} {version : BitVec 16} {patch : Option (List Byte)}
    (ht : t = bootDone v version (bootPatch patch (bootLinked v speed width s))) :
    t.mg.ready = true ∧ t.mg.bootB = v ∧
      t.mg.fallback = decide (v ≠ activeSlot s) ∧ t.mg.fwVersion = version ∧ t.hi.speed = speed ∧ t.hi.width = width ∧
      (if v then t.mg.stored.attemptB else t.mg.stored.attemptA) = false ∧ t.mg.stored.lc = s.mg.stored.lc ∧
      (∃ r, t.recs = s.recs ++ [r] ∧ r.reason = 1 ∧ r.sev = 0 ∧ r.src = 0x90 ∧ r.a0 = version.setWidth 64) ∧
      t.ctxs = [] ∧ t.lans = [] ∧
      (∀ c, (t.mc c).dir = [] ∧ (t.mc c).tagc = []) ∧ (∀ n, ∀ e ∈ (t.wick n).entries, e.frames = []) := by
  obtain ⟨p, hp⟩ : ∃ p, p = bootPatch patch (bootLinked v speed width s) := ⟨_, rfl⟩
  have hpatch : CoresAlone (bootLinked v speed width s) p := hp ▸ (bootPatch_all patch _).1
  obtain ⟨r, hreason, hsev, hsrc, ha0, hdone, -⟩ := bootDone_eq v version p
  rw [← hp] at ht
  rw [← ht, CoresAlone] at hdone
  have hrest : t = { bootWiped v version { bootLinked v speed width s with cores := p.cores } with
      recs := s.recs ++ [r], cores := t.cores } := by
    rw [hdone, hpatch]
    rfl
  have hmc (c : Nat) : t.mc c = { s.mc c with dir := [], dirClock := 0, tagc := [] } :=
    (congrArg (fun t => t.mc c) hrest).trans (wipeSrams_mc c s)
  have hwick (n : Nat) : (t.wick n).entries = ((wipeSrams s).wick n).entries := congrArg (fun t => (t.wick n).entries) hrest
  have hmg : t.mg = { s.mg with
      stored := { s.mg.stored with
        attemptA := if v then s.mg.stored.attemptA else false
        attemptB := if v then false else s.mg.stored.attemptB }
      ready := true, fwVersion := version, fallback := decide (v ≠ activeSlot s), bootB := v } := by
    rw [hrest]
    rfl
  have hhi : t.hi = { s.hi with speed := speed, width := width } := by
    rw [hrest]
    rfl
  have hattempt : (if v then t.mg.stored.attemptB else t.mg.stored.attemptA) = false := by
    rw [hmg]
    cases v <;> rfl
  exact ⟨by rw [hmg], by rw [hmg], by rw [hmg], by rw [hmg], by rw [hhi], by rw [hhi], hattempt, by rw [hmg],
    ⟨r, congrArg State.recs hrest, hreason, hsev, hsrc, ha0⟩, congrArg State.ctxs hrest, congrArg State.lans hrest,
    fun c => ⟨by rw [hmc], by rw [hmc]⟩, fun n => by rw [hwick]; exact wipeSrams_frames n s⟩

/-- The control store of a core at the end of boot. -/
def bootedUc (s : State) (patch : Option (List Byte)) (x : Uc) : Uc :=
  if eventsAllowed s = true then servedUc (patchedUc s patch x) else patchedUc s patch x

/-- A core at the end of boot. -/
theorem bootDone_core {v : Bool} {speed : BitVec 4} {width : BitVec 5} {version : BitVec 16} {patch : Option (List Byte)}
    (ht : t = bootDone v version (bootPatch patch (bootLinked v speed width s))) (k : CoreId) :
    t.core k = { CoreSt.reset with uc := bootedUc s patch (s.core k).uc } := by
  obtain ⟨p, hp⟩ : ∃ p, p = bootPatch patch (bootLinked v speed width s) := ⟨_, rfl⟩
  obtain ⟨hpatch, hcore⟩ := bootPatch_all patch (bootLinked v speed width s)
  rw [← hp] at ht hpatch hcore
  obtain ⟨-, -, -, -, -, -, hdone⟩ := bootDone_eq v version p
  obtain ⟨-, hreleased⟩ := releaseCores_all (s := bootWiped v version p) rfl
  have hev : eventsAllowed (bootWiped v version p) = eventsAllowed s := by
    rw [hpatch]
    rfl
  have hwiped : (bootWiped v version p).core k = { CoreSt.reset with uc := (p.core k).uc } := wipeSrams_core k p
  rw [ht, hdone, hreleased, hev, hwiped, hcore]
  rfl

/-- Boot loads the patch and the hooks, and changes no other control store's words. -/
theorem bootedUc_patch (s : State) (patch : Option (List Byte)) (x : Uc) :
    (bootedUc s patch x).patch = (patchedUc s patch x).patch ∧ (bootedUc s patch x).hooks = (patchedUc s patch x).hooks := by
  unfold bootedUc servedUc
  split
  · split <;> exact ⟨rfl, rfl⟩
  · exact ⟨rfl, rfl⟩

theorem patchedUc_mode (s : State) (patch : Option (List Byte)) (x : Uc) : (patchedUc s patch x).mode = x.mode := by
  unfold patchedUc
  split
  · rfl
  · split <;> rfl

/-- The mode of a sequencer at the end of boot (17 Table 17-6, 11 Table 11-7). -/
theorem bootedUc_mode (s : State) (patch : Option (List Byte)) (x : Uc) : (bootedUc s patch x).mode =
    if eventsAllowed s = true ∧ x.mode = .table then .service else x.mode := by
  unfold bootedUc servedUc
  rw [patchedUc_mode]
  by_cases hev : eventsAllowed s = true
  · rw [if_pos hev]
    by_cases hm : x.mode = .table
    · rw [if_pos hm, if_pos ⟨hev, hm⟩]
    · rw [if_neg hm, if_neg fun h => hm h.2, patchedUc_mode]
  · rw [if_neg hev, if_neg fun h => hev h.1, patchedUc_mode]

theorem eventsAllowed_iff (s : State) : eventsAllowed s = true ↔ s.mg.stored.lc = .operational ∨ s.mg.stored.lc = .service := by
  simp [eventsAllowed]

/-- The slot that boot runs from, in the words of R523. -/
theorem bootSlot_eq (s : State) (okA okB : Bool) : bootSlot s okA okB =
    if s.mg.skip = false ∧ (if activeSlot s then okB else okA) = true then some (activeSlot s)
      else if (if activeSlot s then okA else okB) = true then some (!activeSlot s) else none := by
  unfold bootSlot
  cases activeSlot s
  · cases s.mg.skip <;> simp
  · cases s.mg.skip <;> simp

/-- The patch that boot loads. -/
theorem patchOf_of {s : State} {v : Bool} {l : List Byte} (h : (l = patchImage s v ∧ patchOk s (patchImage s v) = true) ∨
    (l = patchImage s (!v) ∧ patchOk s (patchImage s v) = false ∧ patchOk s (patchImage s (!v)) = true)) :
    patchOf s v = some l := by
  rcases h with ⟨rfl, h⟩ | ⟨rfl, h, h'⟩
  · simp [patchOf, h]
  · simp [patchOf, h, h']

/-- The clause of boots. -/
theorem boots : Sys2Proof.Clause.Boots := by
  intro s a b patA patB okA okB speed width slot ha hb hpa hpb hoka hokb hslot
  have hchosen : bootSlot s (slotOk s false) (slotOk s true) = slot := by
    have hA : slotOk s false = okA := by rw [hoka, ha]; rfl
    have hB : slotOk s true = okB := by rw [hokb, hb]; rfl
    rw [hA, hB, bootSlot_eq, ← hslot]
  refine ⟨fun i l h => by rw [MgStored.region, h]; rfl, fun h fail => execBootReady_idle h, fun hready herr hrom hrun => ?_⟩
  have hboot : Booting s := by simp [Booting, hready, herr, hrom, hrun]
  refine ⟨fun hnone fail => execBootReady_rom hboot (hchosen.trans hnone),
    fun v step hv => execBootReady_fails hboot (hchosen.trans hv), fun v hv hbusy => ?_,
    fun v version same other hv hversion hsame hother hwiped => ?_⟩
  · obtain ⟨c, hc, hbusy⟩ := hbusy
    rw [execBootReady_ends hboot (hchosen.trans hv), if_pos (List.any_eq_true.mpr ⟨c, List.mem_range.mpr hc, hbusy⟩)]
  · have hidle : ¬ (List.range 4).any (fun c => (s.mc c).wipeBusy) = true := by
      rw [List.any_eq_true]
      rintro ⟨c, hc, hbusy⟩
      rw [hwiped c (List.mem_range.mp hc)] at hbusy
      cases hbusy
    have himage : imgVersion (slotImage s v) = version := by
      rw [hversion, ha, hb]
      cases v <;> rfl
    have hsames : patchImage s v = same := by
      rw [hsame, hpa, hpb]
      cases v <;> rfl
    have hothers : patchImage s (!v) = other := by
      rw [hother, hpa, hpb]
      cases v <;> rfl
    obtain ⟨t, ht⟩ : ∃ t, t = bootDone v version (bootPatch (patchOf s v) (bootLinked v speed width s)) := ⟨_, rfl⟩
    obtain ⟨h1, h2, h3, h4, h5, h6, h7, h8, h9, h10, h11, h12, h13⟩ := bootDone_rest ht
    have hcore := bootDone_core ht
    have huc (k : CoreId) : (t.core k).uc = bootedUc s (patchOf s v) (s.core k).uc := congrArg CoreSt.uc (hcore k)
    refine ⟨t, ?_, h1, h2, h3, h4, h5, h6, h7, h8, h9, fun k => by rw [huc, hcore], h10, h11, h12, h13, fun l hl hlc k => ?_,
      fun ho hs k => ?_, fun hev k => ?_⟩
    · rw [execBootReady_ends hboot (hchosen.trans hv), if_neg hidle, himage, ht]
      rfl
    · have hpatch : patchOf s v = some l := patchOf_of (by rw [hsames, hothers]; exact hl)
      have hload : patchedUc s (some l) (s.core k).uc = loadPatch l (s.core k).uc := if_pos hlc
      rw [huc, hpatch, ← hload]
      exact bootedUc_patch s (some l) (s.core k).uc
    · rw [huc, bootedUc_mode, if_neg fun h => ((eventsAllowed_iff s).mp h.1).elim ho hs]
    · rw [huc, bootedUc_mode]
      exact if_congr (and_iff_right ((eventsAllowed_iff s).mpr hev)) rfl rfl

end Sys2Proof.Machine
end

section
namespace Sys2Proof.Machine

/-! ### Memory as a Taper engine reads and writes it -/

/-- An access that ends in whatever way beside the parts that accesses change. -/
def AsideRes {α : Type} (s : State) : Res α → Prop
  | .ok _ t => aside t = aside s
  | .trap _ t => aside t = aside s
  | .wait _ t => aside t = aside s

theorem AsideRes.bind {α β : Type} {s : State} {r : Res α} {f : α → State → Res β} (hr : AsideRes s r)
    (hf : ∀ a t, aside t = aside s → AsideRes s (f a t)) : AsideRes s (r.bind f) := by
  cases r with
  | ok a t => exact hf a t hr
  | trap _ _ => exact hr
  | wait _ _ => exact hr

variable {s t : State}

theorem aside_readPair (pa : PA) (h : aside t = aside s) : AsideRes s (readPair none pa t) := by
  have hread := (aside_snoopLine (lineNo pa) t).trans h
  unfold readPair
  dsimp only
  split
  · exact hread
  · exact hread

theorem aside_walkFail (p : PairIs) (h : aside t = aside s) : AsideRes s (walkFail p t) := by
  have hcount (k : Nat) (hk : hubCounter k = false) (u : State) (hu : aside u = aside s) : aside (bump k u) = aside s :=
    (aside_bump hk u).trans hu
  unfold walkFail
  split
  · show aside _ = aside s
    split
    · exact (aside_bumpBy rfl 4 _).trans (hcount _ rfl t h)
    · split
      · exact hcount _ rfl t h
      · exact hcount _ rfl t h
  · exact hcount _ rfl t h
  · exact h

theorem aside_walkLevel2 (table : PA) (va : Word) (h : aside t = aside s) : AsideRes s (walkLevel2 none table va t) := by
  unfold walkLevel2
  refine (aside_readPair _ h).bind fun p u hu => ?_
  split
  · exact hu
  · exact aside_walkFail _ hu

theorem aside_walkRoot (asid : BitVec 12) (va : Word) (h : aside t = aside s) : AsideRes s (walkRoot none asid va t) := by
  unfold walkRoot
  dsimp only
  split
  · exact h
  refine (aside_readPair _ h).bind fun p u hu => ?_
  split
  · refine (aside_readPair _ hu).bind fun q v hv => ?_
    split
    · refine (aside_walkLevel2 _ va hv).bind fun o w hw => ?_
      show aside (if _ then w else putWc none _ w) = aside s
      split
      · exact hw
      · exact hw
    · exact hv
    · exact aside_walkFail _ hv
  · exact aside_walkFail _ hu

theorem aside_walk (asid : BitVec 12) (va : Word) (s : State) : AsideRes s (walk none asid va s) :=
  (aside_walkRoot asid va rfl).bind fun _ u hu => (aside_bump (k := Cnt.mmWalks) rfl u).trans hu

/-- The engine's own TLB is written. -/
theorem aside_modEngine (s : State) (e : Nat) (f : List Tlb → List Tlb) :
    aside (s.modEngine e fun x => { x with tlb := f x.tlb }) = aside s := by
  refine Prod.ext rfl (Prod.ext rfl (Prod.ext rfl (Prod.ext rfl (funext fun j => ?_))))
  show { (s.modEngine e fun x => { x with tlb := f x.tlb }).engine j with tlb := [] } = { s.engine j with tlb := [] }
  by_cases h : j = e
  · subst h
    have hself : (s.modEngine j fun x => { x with tlb := f x.tlb }).engine j = { s.engine j with tlb := f (s.engine j).tlb } :=
      Tab.get_set_self _ _ _ _
    rw [hself]
  · have hother : (s.modEngine e fun x => { x with tlb := f x.tlb }).engine j = s.engine j := Tab.get_set_ne _ _ _ h
    rw [hother]

@[simp] theorem aside_recordFault (c : BitVec 8) (va : Word) (asid : BitVec 12) (src : BitVec 10) (taper : Bool) (s : State) :
    aside (recordFault c va asid src taper s) = aside s :=
  aside_bump (k := Cnt.mmFaults) rfl _

@[simp] theorem aside_taperXlate (e : Nat) (asid : BitVec 12) (priv : BitVec 2) (kind : AccKind) (va : Word) (s : State) :
    aside (taperXlate e asid priv kind va s).2 = aside s := by
  unfold taperXlate
  extract_lets l fail
  have hfail (k : BitVec 8) (u : State) : aside (fail k u).2 = aside u := aside_recordFault ..
  split
  · rename_i x _
    extract_lets u
    have hu : aside u = aside s := aside_modEngine s e fun _ => x :: l.filter (· ≠ x)
    split
    · exact hu
    · exact (hfail _ u).trans hu
  · have hwalk := aside_walk asid va s
    split <;> rename_i hw <;> rw [hw] at hwalk
    · split
      · exact (aside_modEngine _ e _).trans hwalk
      · exact (hfail _ _).trans hwalk
    · exact (hfail _ _).trans hwalk
    · exact hwalk
    · exact hwalk

/-! The words of a job. -/

section
variable (e : Nat) (j : Job)

theorem aside_jobRead (va : Word) (s : State) : aside (jobRead e j va s).2 = aside s := by
  have hx := aside_taperXlate e j.asid j.priv .load va s
  unfold jobRead
  split <;> rename_i h <;> rw [h] at hx
  · exact (aside_physRead _ _).trans hx
  · exact hx

theorem aside_jobWrite (va : Word) (w : MWord) (s : State) : aside (jobWrite e j va w s).2 = aside s := by
  have hx := aside_taperXlate e j.asid j.priv .store va s
  unfold jobWrite
  split <;> rename_i h <;> rw [h] at hx
  · exact (aside_physWrite _ _ _).trans hx
  · exact hx

theorem aside_jobWrites (va : Word) (l : List MWord) (s : State) : aside (jobWrites e j va l s).2 = aside s := by
  induction l generalizing va s with
  | nil => rfl
  | cons w r ih =>
    have hx := aside_jobWrite e j va w s
    rw [jobWrites]
    split <;> rename_i h <;> rw [h] at hx
    · exact (ih _ _).trans hx
    · exact hx

theorem aside_readElems (ty : Ty) (va : Word) (n : Nat) (s : State) : aside (readElems e j ty va n s).2.2 = aside s := by
  induction n generalizing va s with
  | zero => rfl
  | succ n ih =>
    have hx := aside_jobRead e j va s
    rw [readElems]
    split <;> rename_i h <;> rw [h] at hx
    · exact hx
    · split
      · exact (ih _ _).trans hx
      · exact hx

theorem aside_graphResult (p : JobPlan) (s : State) : aside (graphResult e j p s).2 = aside s := by
  have hv := aside_readElems e j Ty.fix (p.vtx + 4) p.v s
  unfold graphResult
  split
  · rfl
  split <;> rename_i h <;> rw [h] at hv
  · exact hv
  · rename_i u
    have hedges := aside_readElems e j Ty.raw (p.edge + 4) p.e u
    split <;> rename_i h' <;> rw [h'] at hedges
    · exact hedges.trans hv
    · exact hedges.trans hv

theorem aside_jobResult (p : JobPlan) (s : State) : aside (jobResult e j p s).2 = aside s := by
  unfold jobResult
  split
  · rfl
  split
  · rfl
  · exact aside_graphResult e j p s

theorem aside_stopJob (p : JobPlan) (s : State) : aside (stopJob e j p s).2 = aside s := by
  unfold stopJob
  split
  · rfl
  split
  · rfl
  dsimp only
  split
  · rw [aside_readElems, aside_readElems, aside_pick]
  · rw [aside_jobWrites, aside_jobResult, aside_pick, aside_readElems, aside_readElems, aside_pick]

end

/-- What an engine leaves when its job stops (06 R239). -/
theorem aside_runningStops (e : Nat) (s : State) : aside (runningStops e s) = aside s := by
  unfold runningStops
  split
  · rfl
  · rename_i j p _
    have hstop := (aside_stopJob e j p { s with miss := none }).trans (aside_missed s none)
    dsimp only
    split
    · rfl
    · rw [aside_bumpBy rfl]
      split
      · exact hstop
      · exact (aside_bumpBy rfl _ _).trans hstop

end Sys2Proof.Machine
end

section
namespace Sys2Proof.Machine

/-! ### What shedding keeps while it goes on (19 Table 19-5) -/

/-- A record of a source with a reason has been left. -/
def Left (src : BitVec 8) (reason : BitVec 16) (s : State) : Prop := ∃ r ∈ s.recs, r.src = src ∧ r.reason = reason

/-- A step that leaves power, management and what the wicks hold, and every record but those of memory. -/
def ShedsOn (s t : State) : Prop :=
  t.pf = s.pf ∧ t.pw = s.pw ∧ t.mg = s.mg ∧ (∀ n, n < 6 → (t.wick n).entries = (s.wick n).entries) ∧
    ∀ r ∈ s.recs, memReason r.reason = false → r ∈ t.recs

variable {s t u : State}

theorem ShedsOn.refl (s : State) : ShedsOn s s := ⟨rfl, rfl, rfl, fun _ _ => rfl, fun _ hr _ => hr⟩

theorem ShedsOn.trans (h : ShedsOn s t) (g : ShedsOn t u) : ShedsOn s u := by
  obtain ⟨h1, h2, h3, h4, h5⟩ := h
  obtain ⟨g1, g2, g3, g4, g5⟩ := g
  exact ⟨g1.trans h1, g2.trans h2, g3.trans h3, fun n hn => (g4 n hn).trans (h4 n hn), fun r hr hm => g5 r (h5 r hr hm) hm⟩

theorem ShedsOn.left {src : BitVec 8} {reason : BitVec 16} (h : ShedsOn s t) (hm : memReason reason = false)
    (hl : Left src reason s) : Left src reason t := by
  obtain ⟨-, -, -, -, hrecs⟩ := h
  obtain ⟨r, hr, hsrc, hreason⟩ := hl
  exact ⟨r, hrecs r hr (by rw [hreason]; exact hm), hsrc, hreason⟩

/-- A change of none of these parts. -/
theorem ShedsOn.of_beyond (h : beyond t = beyond s) : ShedsOn s t :=
  ⟨congrArg (fun p => p.1.pf) h, congrArg (fun p => p.1.pw) h, congrArg (fun p => p.1.mg) h,
    fun n _ => congrArg (fun w : WksSt => (Tab.get WkSt.reset w.wicks n).entries) (wk_of_beyond h),
    fun _ hr hm => (mem_recs_of_beyond h hm).mpr hr⟩

theorem ShedsOn.record (sev src reason a0 a1 a2 a3 a4) (s : State) : ShedsOn s (record sev src reason a0 a1 a2 a3 a4 s) :=
  ⟨rfl, rfl, rfl, fun _ _ => rfl, fun _ hr _ => List.mem_append_left _ hr⟩

theorem left_record (sev src reason a0 a1 a2 a3 a4) (s : State) : Left src reason (record sev src reason a0 a1 a2 a3 a4 s) :=
  ⟨_, List.mem_append_right _ (List.mem_singleton_self _), rfl, rfl⟩

/-- Steps in turn keep what each of them keeps. -/
theorem foldl_keeps {α : Type} {f : State → α → State} {P : State → Prop} (hkeep : ∀ s a, P s → P (f s a)) (l : List α)
    (hs : P s) : P (l.foldl f s) := by
  induction l generalizing s with
  | nil => exact hs
  | cons a l ih => exact ih (hkeep s a hs)

/-- And what each of them establishes for its own, when the others keep it. -/
theorem foldl_establishes {α : Type} {f : State → α → State} {P : α → State → Prop} (hdone : ∀ s a, P a (f s a))
    (hkeep : ∀ s a b, P b s → P b (f s a)) (l : List α) (s : State) : ∀ a ∈ l, P a (l.foldl f s) := by
  induction l generalizing s with
  | nil => exact fun a ha => nomatch ha
  | cons b l ih =>
    intro a ha
    rcases List.mem_cons.mp ha with rfl | ha
    · exact foldl_keeps (fun s b => hkeep s b a) l (hdone s a)
    · exact ih _ a ha

theorem ShedsOn.foldl {α : Type} {f : State → α → State} (h : ∀ s a, ShedsOn s (f s a)) (l : List α) (s : State) :
    ShedsOn s (l.foldl f s) :=
  foldl_keeps (P := ShedsOn s) (fun u a hu => hu.trans (h u a)) l (.refl s)

/-! ### The wicks (04 R176) -/

/-- A wick has discarded its burst buffer and recorded it. -/
def WickStopped (n : Nat) (s : State) : Prop :=
  (∀ e ∈ (s.wick n).entries, e.frames = []) ∧ Left (0x10 + BitVec.ofNat 8 n) 0x40 s

theorem wickStops_self (n : Nat) (s : State) : WickStopped n (wickStops n s) := by
  refine ⟨?_, left_record ..⟩
  unfold wickStops
  rw [wick_modWick, if_pos rfl]
  intro e he
  obtain ⟨y, -, rfl⟩ := List.mem_map.mp he
  rfl

theorem wickStops_other {n m : Nat} (h : WickStopped m s) : WickStopped m (wickStops n s) := by
  by_cases hm : m = n
  · rw [hm]
    exact wickStops_self n s
  · obtain ⟨hframes, r, hr, hleft⟩ := h
    refine ⟨?_, r, List.mem_append_left _ hr, hleft⟩
    unfold wickStops
    rw [wick_modWick, if_neg hm]
    exact hframes

/-- Shedding keeps that. -/
theorem WickStopped.keeps {n : Nat} (hn : n < 6) (hw : WickStopped n s) (h : ShedsOn s t) : WickStopped n t := by
  have hleft := h.left rfl hw.2
  obtain ⟨-, -, -, hentries, -⟩ := h
  exact ⟨by rw [hentries n hn]; exact hw.1, hleft⟩

def wicksStop (s : State) : State := (List.range 6).foldl (fun s n => wickStops n s) s

theorem wicksStop_all (s : State) : ∀ n, n < 6 → WickStopped n (wicksStop s) := fun n hn =>
  foldl_establishes (P := WickStopped) (fun s n => wickStops_self n s) (fun _ _ _ h => wickStops_other h) (List.range 6) s n
    (List.mem_range.mpr hn)

theorem wicksStop_rest (s : State) : (wicksStop s).pf = s.pf ∧ (wicksStop s).pw = s.pw ∧ (wicksStop s).mg = s.mg := by
  unfold wicksStop
  exact foldl_keeps (f := fun s n => wickStops n s) (P := fun t => t.pf = s.pf ∧ t.pw = s.pw ∧ t.mg = s.mg) (fun _ _ h => h) (List.range 6) ⟨rfl, rfl, rfl⟩

/-! ### The POWERFAIL decisions (01 R45) -/

theorem entries_decidedWith {n : Nat} (hn : n < 6) (h : BitVec 19) (reason : BitVec 4) (s : State) :
    ((decidedWith h reason s).wick n).entries = (s.wick n).entries := by
  have hbump (u : State) : ((bump (reasonCnt reason) u).wick n).entries = (u.wick n).entries := rfl
  rw [decidedWith, hbump]
  split
  · rw [wick_tellWicks hn]
    rfl
  · rfl

theorem ShedsOn.fixRecord (h : BitVec 19) (outcome reason : BitVec 4) (trigger : BitVec 64) (s : State) :
    ShedsOn s (fixRecord h outcome reason trigger s) := by
  obtain ⟨t, ht⟩ : ∃ t, t = Machine.fixRecord h outcome reason trigger s := ⟨_, rfl⟩
  have hwk : t.wk = (decidedWith h reason s).wk := by
    rw [ht, fixRecord_eq, (sendRec_rest _ _).1]
  have hpf := congrArg State.pf (fixRecord_rest ht)
  have hpw := congrArg State.pw (fixRecord_rest ht)
  have hmg := congrArg State.mg (fixRecord_rest ht)
  have hrecs := congrArg State.recs (fixRecord_rest ht)
  rw [← ht]
  refine ⟨hpf, hpw, hmg, fun n hn => ?_, fun r hr _ => hrecs.symm ▸ hr⟩
  rw [← entries_decidedWith hn h reason s, State.wick, hwk]
  rfl

theorem ShedsOn.modSlot (s : State) (i : Nat) (f : CnSlot → CnSlot) : ShedsOn s (s.modSlot i f) :=
  ⟨rfl, rfl, rfl, fun _ _ => rfl, fun _ hr _ => hr⟩

theorem ShedsOn.modEvent (s : State) (i : Nat) (f : EvSt → EvSt) : ShedsOn s (s.modEvent i f) :=
  ⟨rfl, rfl, rfl, fun _ _ => rfl, fun _ hr _ => hr⟩

theorem ShedsOn.fallback (h : BitVec 19) (reason : BitVec 4) (s : State) : ShedsOn s (fallback h reason s) := by
  obtain ⟨v, hv⟩ : ∃ v, v = (fallbackOutcome (s.event (hSlot h)).policy (s.event (hSlot h)).prescale s).2 := ⟨_, rfl⟩
  have hsn : ShedsOn s v := by
    rw [hv, (fallbackOutcome_rest _ _ s).1]
    exact .refl s
  obtain ⟨u, hu⟩ : ∃ u, u = snuffedWith h reason s := ⟨_, rfl⟩
  have hfixed : ShedsOn s u := by
    rw [hu, snuffedWith, ← hv]
    exact hsn.trans ((ShedsOn.fixRecord ..).trans (.modSlot ..))
  have hkilled : ShedsOn u (killEvent h u) := (ShedsOn.modEvent u _ _).trans (.of_beyond (beyond_killEvent h u))
  rw [fallback_eq, ← hu]
  exact (hfixed.trans hkilled).trans (.record ..)

/-- The POWERFAIL decisions, in crossing order. -/
def eventsStop (s : State) : State :=
  (undecidedSlots s).foldl (fun s i => fallback (slotHandle s i) 5 s)
    { s with pw := { s.pw with issued := (undecidedSlots s).length } }

theorem ShedsOn.eventsStop (s : State) :
    ShedsOn { s with pw := { s.pw with issued := (undecidedSlots s).length } } (eventsStop s) :=
  .foldl (fun s i => .fallback (slotHandle s i) 5 s) _ _

/-! ### Cores and windows -/

theorem ShedsOn.endWindowRead (c : CtxId) (v : Option (BitVec 64)) (s : State) : ShedsOn s (endWindowRead c v s) := by
  refine .of_beyond ?_
  unfold Machine.endWindowRead
  split
  · rfl
  split
  · rfl
  · have hwake (ws : List TWord) (u : State) : beyond (wakeCtx c (u.modCtx c fun x => { x with answer := ws })) = beyond u := by
      rw [wakeCtx, beyond_resched, beyond_modCtx, beyond_dropStall, beyond_modCtx]
    cases v with
    | none => exact (hwake _ _).trans (beyond_bump rfl s)
    | some v => exact hwake _ s

def windowsStop (s : State) : State := (s.ctxs.map Prod.fst).foldl (fun s c => endWindowRead (BitVec.ofNat 10 c) none s) s

def coresStop (s : State) : State := (s.cores.map Prod.fst).foldl (fun s k => coreStops (BitVec.ofNat 8 k) s) s

theorem ShedsOn.coreStops (k : CoreId) (s : State) : ShedsOn s (coreStops k s) := by
  refine .of_beyond ?_
  unfold Machine.coreStops
  rw [beyond_modCore]
  split
  · exact beyond_modCtx ..
  · rfl

/-- No core but the one named is touched, and that one runs no context. -/
theorem coreStops_running (k j : CoreId) (s : State) : ((coreStops k s).core j).running =
    if j = k then none else (s.core j).running := by
  have hmod (u : State) (hu : u.core j = s.core j) :
      ((u.modCore k fun x => { x with running := none, uc := { x.uc with mode := .table } }).core j).running =
        if j = k then none else (s.core j).running := by
    by_cases h : j = k
    · rw [if_pos h, h, State.core_modCore]
    · rw [if_neg h, State.core_modCore_ne _ _ h, hu]
  unfold coreStops
  split
  · exact hmod _ rfl
  · exact hmod s rfl

/-- A key that a table does not list has the default. -/
theorem get_of_not_listed {α : Type} (d : α) (t : Tab α) {k : Nat} (h : k ∉ t.map Prod.fst) : Tab.get d t k = d := by
  induction t with
  | nil => rfl
  | cons e r ih =>
    rw [List.map_cons, List.mem_cons, not_or] at h
    rw [Tab.get, if_neg fun he => h.1 he.symm, ih h.2]

/-- No core runs a context when every core has stopped. -/
theorem coresStop_running (s : State) (k : CoreId) : ((coresStop s).core k).running = none := by
  have hkeep (s : State) (a : Nat) (h : (s.core k).running = none) :
      ((coreStops (BitVec.ofNat 8 a) s).core k).running = none := by
    rw [coreStops_running, h, ite_self]
  by_cases hk : k.toNat ∈ s.cores.map Prod.fst
  · refine foldl_establishes (P := fun a t => BitVec.ofNat 8 a = k → (t.core k).running = none)
      (fun s a ha => ?_) (fun s a b h hb => hkeep s a (h hb)) (s.cores.map Prod.fst) s k.toNat hk (BitVec.ofNat_toNat ..)
    rw [ha, coreStops_running, if_pos rfl]
  · refine foldl_keeps (P := fun t => (t.core k).running = none) hkeep (s.cores.map Prod.fst) ?_
    exact congrArg CoreSt.running (get_of_not_listed CoreSt.reset s.cores hk)

/-! ### Engines (06 R239) -/

/-- An engine has no work. -/
def NoWork (g : EngSt) : Prop := g.run = none ∧ g.evac = none ∧ g.mark = false

theorem NoWork.of_tlb {g g' : EngSt} (h : { g' with tlb := [] } = { g with tlb := [] }) (hg : NoWork g) : NoWork g' := by
  have hrun := congrArg EngSt.run h
  have hevac := congrArg EngSt.evac h
  have hmark := congrArg EngSt.mark h
  obtain ⟨h1, h2, h3⟩ := hg
  exact ⟨hrun.trans h1, hevac.trans h2, hmark.trans h3⟩

/-- An engine has stopped and recorded it. -/
def EngineStopped (e : Nat) (s : State) : Prop := NoWork (s.engine e) ∧ Left (0x40 + BitVec.ofNat 8 e) 0x38 s

/-- The job that an engine runs is a move. -/
def runsMove (s : State) (e : Nat) : Bool :=
  match runningJob s e with
  | some (_, _, p) => decide (p.kind = 4)
  | none => false

theorem runsMove_iff (s : State) (e : Nat) : runsMove s e = true ↔ ∃ i j p, runningJob s e = some (i, j, p) ∧ p.kind = 4 := by
  unfold runsMove
  split
  · next i j p h =>
    rw [decide_eq_true_iff]
    refine ⟨fun hk => ⟨i, j, p, h, hk⟩, fun ⟨i', j', p', h', hk⟩ => ?_⟩
    rw [h] at h'
    cases h'
    exact hk
  · next h =>
    refine ⟨nofun, fun ⟨i, j, p, h', _⟩ => ?_⟩
    rw [h] at h'
    cases h'

/-- The record of an engine counts its graph, move, evacuation and mark jobs. -/
def engineRecord (e : Nat) (s : State) : Rec :=
  let one (b : Bool) : BitVec 64 := if b then 1 else 0
  ⟨0, 0x40 + BitVec.ofNat 8 e, 0x38, (runningStops e s).time, one ((s.engine e).run.isSome && !runsMove s e),
    one ((s.engine e).run.isSome && runsMove s e), one (s.engine e).evac.isSome, one (s.engine e).mark, 0⟩

theorem engineStops_eq (e : Nat) (s : State) : engineStops e s =
    { runningStops e s with recs := (runningStops e s).recs ++ [engineRecord e s] }.modEngine e fun g =>
      { g with run := none, evac := none, mark := false } := rfl

theorem engineRecord_mem (e : Nat) (s : State) : engineRecord e s ∈ (engineStops e s).recs := by
  rw [engineStops_eq]
  exact List.mem_append_right _ (List.mem_singleton_self _)

theorem engineStops_self (e : Nat) (s : State) : EngineStopped e (engineStops e s) := by
  refine ⟨?_, engineRecord e s, engineRecord_mem e s, rfl, rfl⟩
  rw [engineStops_eq]
  have hself (u : State) : (u.modEngine e fun g => { g with run := none, evac := none, mark := false }).engine e =
      { u.engine e with run := none, evac := none, mark := false } := Tab.get_set_self _ _ _ _
  rw [hself]
  exact ⟨rfl, rfl, rfl⟩

theorem ShedsOn.engineStops (e : Nat) (s : State) : ShedsOn s (engineStops e s) := by
  have hstop : ShedsOn s (runningStops e s) := .of_beyond (beyond_of_aside (aside_runningStops e s))
  rw [engineStops_eq]
  exact hstop.trans ⟨rfl, rfl, rfl, fun _ _ => rfl, fun _ hr _ => List.mem_append_left _ hr⟩

theorem engineStops_other {e k : Nat} (h : EngineStopped k s) : EngineStopped k (engineStops e s) := by
  refine ⟨?_, (ShedsOn.engineStops e s).left rfl h.2⟩
  by_cases hk : k = e
  · rw [hk]
    exact (engineStops_self e s).1
  · have hother : (engineStops e s).engine k = (runningStops e s).engine k := by
      rw [engineStops_eq]
      exact Tab.get_set_ne _ _ _ hk
    rw [hother]
    exact h.1.of_tlb (engine_of_aside (aside_runningStops e s) k)

theorem engineStops_running (e : Nat) (s : State) (k : CoreId) :
    ((engineStops e s).core k).running = (s.core k).running := by
  rw [engineStops_eq]
  exact running_of_aside (aside_runningStops e s) k

def enginesStop (s : State) : State := (List.range 8).foldl (fun s e => engineStops e s) s

theorem ShedsOn.enginesStop (s : State) : ShedsOn s (enginesStop s) := by
  unfold Machine.enginesStop
  exact .foldl (f := fun s e => Machine.engineStops e s) (fun s e => .engineStops e s) (List.range 8) s

theorem enginesStop_all (s : State) {e : Nat} (he : e < 8) : EngineStopped e (enginesStop s) := by
  unfold enginesStop
  exact foldl_establishes (f := fun s e => engineStops e s) (P := EngineStopped) (fun s e => engineStops_self e s)
    (fun _ _ _ h => engineStops_other h) (List.range 8) s e (List.mem_range.mpr he)

theorem enginesStop_running (s : State) (k : CoreId) : ((enginesStop s).core k).running = (s.core k).running := by
  unfold enginesStop
  exact foldl_keeps (f := fun s e => engineStops e s) (P := fun t => (t.core k).running = (s.core k).running)
    (fun u e h => (engineStops_running e u k).trans h) (List.range 8) rfl

/-! ### The fabric (14 R458) -/

/-- A step of the fabric: what it holds, counts, sends out and draws. -/
def FabricAlone (s t : State) : Prop := t = { s with bl := t.bl, cnt := t.cnt, out := t.out, freeCtr := t.freeCtr }

theorem FabricAlone.refl (s : State) : FabricAlone s s := rfl

theorem FabricAlone.trans (h : FabricAlone s t) (g : FabricAlone t u) : FabricAlone s u := by
  rw [FabricAlone] at h g ⊢
  rw [h] at g
  exact g

theorem FabricAlone.foldl {α : Type} {f : State → α → State} (h : ∀ s a, FabricAlone s (f s a)) (l : List α) (s : State) :
    FabricAlone s (l.foldl f s) :=
  foldl_keeps (P := FabricAlone s) (fun u a hu => hu.trans (h u a)) l (.refl s)

theorem FabricAlone.sendPkt (p : Nat) (q : Pkt) (s : State) : FabricAlone s (sendPkt p q s) := by
  unfold Machine.sendPkt
  extract_lets x v n own out fs w
  have hw : FabricAlone s w := rfl
  exact (hw.trans (.foldl (f := fun s f => sendFlit p f s) (fun _ _ => rfl) fs w)).trans rfl

theorem FabricAlone.servePort (p : Nat) (s : State) : FabricAlone s (servePort p s) := by
  have hserve (n : Nat) (u : State) : FabricAlone u (servePortN p n u) := by
    induction n generalizing u with
    | zero => exact .refl u
    | succ n ih =>
      rw [servePortN]
      split
      · exact (FabricAlone.sendPkt p _ u).trans (ih _)
      · split
        · exact rfl
        · exact .refl u
  unfold Machine.servePort
  split
  · exact hserve _ s
  · exact .refl s

theorem FabricAlone.dropPkt (cnt : Nat) (q : Pkt) (s : State) : FabricAlone s (dropPkt cnt q s) := by
  unfold Machine.dropPkt
  dsimp only
  split <;> exact rfl

theorem FabricAlone.sendTo (p : Nat) (dl : Bool) (q : Pkt) (s : State) : FabricAlone s (sendTo p dl q s) := by
  have hqueue (u v : State) (h : FabricAlone u v) : FabricAlone u (Machine.servePort p v) := h.trans (.servePort p v)
  unfold Machine.sendTo
  dsimp only
  split
  · exact hqueue _ _ rfl
  split
  · split
    · exact rfl
    · exact hqueue _ _ rfl
  · split <;> exact rfl

theorem FabricAlone.routePkt (q : Pkt) (s : State) : FabricAlone s (routePkt q s) := by
  unfold Machine.routePkt
  dsimp only
  split
  · exact rfl
  split
  · exact .dropPkt _ q s
  split
  · exact .dropPkt _ _ s
  split
  · exact .sendTo _ _ _ s
  split
  · exact .sendTo _ _ _ s
  · exact .dropPkt _ _ s

theorem FabricAlone.takeRoute (q : Pkt) (s : State) : FabricAlone s (takeRoute q s) := by
  unfold Machine.takeRoute leaveRx
  dsimp only
  split
  · refine .trans ?_ (.routePkt _ _)
    exact rfl
  · refine .trans ?_ (.routePkt _ _)
    exact rfl

theorem FabricAlone.routeTransit (s : State) : FabricAlone s (routeTransit s) :=
  .foldl (fun s q => .takeRoute q s) _ s

/-- The POWERFAIL notices of the ports that are UP. -/
def portsStop (s : State) : State :=
  ((List.range 16).filter fun p => (s.port p).st = .up).foldl (fun s p => linkFlit p 3 [] [] s) s

theorem FabricAlone.portsStop (s : State) : FabricAlone s (portsStop s) := by
  unfold Machine.portsStop
  exact .foldl (f := fun s p => linkFlit p 3 [] [] s) (fun _ _ => rfl) _ s

theorem ShedsOn.of_fabric (h : FabricAlone s t) : ShedsOn s t := by
  rw [h]
  exact ⟨rfl, rfl, rfl, fun _ _ => rfl, fun _ hr _ => hr⟩

/-! ### The end of the shedding (17 R529; 18 R538) -/

/-- The mailbox command and one of I2C are abandoned, and cores, wicks and engines stay as they are. -/
theorem mailboxStops_rest (ht : t = mailboxStops s) : t.pf = s.pf ∧ t.pw = s.pw ∧
    t.mg = { s.mg with go := false, ucWait := false, i2cSeq := none } ∧ t.wk = s.wk ∧ t.tp = s.tp ∧
    (∀ k, (t.core k).running = (s.core k).running) ∧ ∀ r ∈ s.recs, r ∈ t.recs := by
  obtain ⟨u, hu, hut⟩ : ∃ u, (u = s ∨ ∃ r, u = { s with recs := s.recs ++ [r] }) ∧
      t = { u with mg := { u.mg with go := false, ucWait := false, i2cSeq := none },
                   cores := u.cores.map fun e => (e.1, { e.2 with uc := { e.2.uc with commit := false } }) } := by
    refine ⟨_, ?_, ht⟩
    split
    · exact .inr ⟨_, rfl⟩
    · exact .inl rfl
  have hcore (k : CoreId) : t.core k = { u.core k with uc := { (u.core k).uc with commit := false } } := by
    rw [hut]
    exact get_map CoreSt.reset u.cores (fun x => { x with uc := { x.uc with commit := false } }) rfl k.toNat
  have hrun (k : CoreId) : (t.core k).running = (u.core k).running := by rw [hcore]
  rcases hu with rfl | ⟨r, rfl⟩
  · rw [hut] at hrun ⊢
    exact ⟨rfl, rfl, rfl, rfl, rfl, hrun, fun _ hr => hr⟩
  · rw [hut] at hrun ⊢
    exact ⟨rfl, rfl, rfl, rfl, rfl, hrun, fun _ hr => List.mem_append_left _ hr⟩

/-- The steps of the shedding up to the fabric's, in their order. -/
def blocksStop (a0 a1 a2 : BitVec 64) (s : State) : State :=
  portsStop (routeTransit (record 0 0x70 0x73 a2 0 0 0 0 (enginesStop (coresStop (windowsStop
    (record 0 0x30 0x33 a0 a1 0 0 0 (eventsStop (wicksStop { s with pf := true }))))))))

theorem shed_eq (h : s.pw.stage = .run ∨ s.pw.stage = .held) : ∃ a0 a1 a2, ∃ u, u = blocksStop a0 a1 a2 s ∧
    shed s = startFlush (mailboxStops { u with pw := { u.pw with stage := .shed } }) := by
  unfold shed
  rw [if_neg fun hno => h.elim hno.1 hno.2]
  extract_lets warned slots count wicks open' pw events noted windows cores engines listed routed ports
  have hwicks : wicks = wicksStop warned := rfl
  have hevents : events = eventsStop wicks := rfl
  have hwindows : windows = windowsStop noted := rfl
  have hcores : cores = coresStop windows := rfl
  have hengines : engines = enginesStop cores := rfl
  have hports : ports = portsStop routed := rfl
  refine ⟨count fun x => decide (x ≠ .free), count fun x => decide (x = .retiring), BitVec.ofNat 64 engines.bl.reqs.length,
    ports, ?_, rfl⟩
  rw [hports]
  show portsStop (routeTransit (record 0 0x70 0x73 (BitVec.ofNat 64 engines.bl.reqs.length) 0 0 0 0 engines)) = _
  generalize BitVec.ofNat 64 engines.bl.reqs.length = a2
  rw [hengines, hcores, hwindows]
  show portsStop (routeTransit (record 0 0x70 0x73 a2 0 0 0 0 (enginesStop (coresStop (windowsStop (record 0 0x30 0x33
    (count fun x => decide (x ≠ .free)) (count fun x => decide (x = .retiring)) 0 0 0 events)))))) = _
  rw [hevents, hwicks, blocksStop]

/-- The blocks stop: what they hold is given up and recorded, and power and management are as they were. -/
theorem blocksStop_rest {a0 a1 a2 : BitVec 64} (hu : u = blocksStop a0 a1 a2 s) : u.pf = true ∧
    (∃ n, u.pw = { s.pw with issued := n }) ∧ u.mg = s.mg ∧ (∀ k, (u.core k).running = none) ∧
    (∀ e, e < 8 → EngineStopped e u) ∧ (∀ n, n < 6 → WickStopped n u) ∧ Left 0x30 0x33 u ∧ Left 0x70 0x73 u := by
  obtain ⟨wicks, hwicks⟩ : ∃ t, t = wicksStop { s with pf := true } := ⟨_, rfl⟩
  obtain ⟨events, hevents⟩ : ∃ t, t = eventsStop wicks := ⟨_, rfl⟩
  obtain ⟨noted, hnoted⟩ : ∃ t, t = record 0 0x30 0x33 a0 a1 0 0 0 events := ⟨_, rfl⟩
  obtain ⟨windows, hwindows⟩ : ∃ t, t = windowsStop noted := ⟨_, rfl⟩
  obtain ⟨cores, hcores⟩ : ∃ t, t = coresStop windows := ⟨_, rfl⟩
  obtain ⟨engines, hengines⟩ : ∃ t, t = enginesStop cores := ⟨_, rfl⟩
  obtain ⟨listed, hlisted⟩ : ∃ t, t = record 0 0x70 0x73 a2 0 0 0 0 engines := ⟨_, rfl⟩
  have hlast : u = portsStop (routeTransit listed) := by
    rw [hlisted, hengines, hcores, hwindows, hnoted, hevents, hwicks, hu, blocksStop]
  have hfabric : FabricAlone listed u := hlast ▸ (FabricAlone.routeTransit listed).trans (.portsStop _)
  have hall : ∀ n, n < 6 → WickStopped n wicks := hwicks ▸ wicksStop_all _
  obtain ⟨wpf, wpw, wmg⟩ : wicks.pf = true ∧ wicks.pw = s.pw ∧ wicks.mg = s.mg := hwicks ▸ wicksStop_rest { s with pf := true }
  have hissued : ShedsOn { wicks with pw := { wicks.pw with issued := (undecidedSlots wicks).length } } events :=
    hevents ▸ ShedsOn.eventsStop wicks
  have h1 : ShedsOn events noted := hnoted ▸ .record ..
  have h2 : ShedsOn noted windows := hwindows ▸ .foldl (fun s c => .endWindowRead (BitVec.ofNat 10 c) none s) _ noted
  have h3 : ShedsOn windows cores := hcores ▸ .foldl (fun s k => .coreStops (BitVec.ofNat 8 k) s) _ windows
  have h4 : ShedsOn cores engines := hengines ▸ .enginesStop cores
  have h5 : ShedsOn engines listed := hlisted ▸ .record ..
  have hlistedu : ShedsOn listed u := .of_fabric hfabric
  have hengu : ShedsOn engines u := h5.trans hlistedu
  have hnotedu : ShedsOn noted u := (h2.trans (h3.trans h4)).trans hengu
  have heventsu : ShedsOn events u := h1.trans hnotedu
  have hsheds := hissued.trans heventsu
  have hwick (n : Nat) (hn : n < 6) : WickStopped n u :=
    WickStopped.keeps (s := { wicks with pw := { wicks.pw with issued := (undecidedSlots wicks).length } }) hn (hall n hn) hsheds
  obtain ⟨hpf, hpw, hmg, -, -⟩ := hsheds
  have hsame : (∀ k, (u.core k).running = (engines.core k).running) ∧ ∀ e, u.engine e = engines.engine e := by
    rw [hfabric, hlisted]
    exact ⟨fun _ => rfl, fun _ => rfl⟩
  refine ⟨hpf.trans wpf, ⟨_, hpw.trans (by rw [wpw])⟩, hmg.trans wmg, fun k => ?_, fun e he => ?_, hwick,
    hnotedu.left rfl (hnoted ▸ left_record ..), hlistedu.left rfl (hlisted ▸ left_record ..)⟩
  · rw [hsame.1, hengines, enginesStop_running, hcores]
    exact coresStop_running windows k
  · obtain ⟨hidle, hleft⟩ : EngineStopped e engines := hengines ▸ enginesStop_all cores he
    exact ⟨by rw [hsame.2]; exact hidle, hengu.left rfl hleft⟩

/-- The module has shed: no load has power or work, and the recorder flushes (19 R553). -/
theorem shed_rest (h : s.pw.stage = .run ∨ s.pw.stage = .held) (ht : t = shed s) : t.pf = true ∧
    (∃ n, t.pw = { s.pw with issued := n, stage := .shed }) ∧
    t.mg = { s.mg with go := false, ucWait := false, i2cSeq := none } ∧ t.er.flushing = true ∧
    (∀ e ∈ t.er.buf, e.opened = false) ∧ (∀ k, (t.core k).running = none) ∧ (∀ e, e < 8 → EngineStopped e t) ∧
    (∀ n, n < 6 → WickStopped n t) ∧ Left 0x30 0x33 t ∧ Left 0x70 0x73 t := by
  obtain ⟨a0, a1, a2, u, hu, hshed⟩ := shed_eq h
  obtain ⟨hpf, ⟨n, hpw⟩, hmg, hrun, hengines, hwicks, hcandles, hfabric⟩ := blocksStop_rest hu
  obtain ⟨v, hv⟩ : ∃ v, v = mailboxStops { u with pw := { u.pw with stage := .shed } } := ⟨_, rfl⟩
  obtain ⟨vpf, vpw, vmg, vwk, vtp, vrun, vrecs⟩ := mailboxStops_rest hv
  rw [← hv, ← ht] at hshed
  have hlogs : LogsAlone v t := hshed ▸ (MarksAlone.startFlush v).1
  have hleft {src : BitVec 8} {reason : BitVec 16} (hl : Left src reason u) : Left src reason t := by
    obtain ⟨r, hr, hparts⟩ := hl
    have hrecs := congrArg State.recs hlogs
    exact ⟨r, hrecs ▸ vrecs r hr, hparts⟩
  have htpf := congrArg State.pf hlogs
  have htpw := congrArg State.pw hlogs
  have htmg := congrArg State.mg hlogs
  have htcore := congrArg State.core hlogs
  have htwk := (congrArg State.wk hlogs).trans vwk
  have http := (congrArg State.tp hlogs).trans vtp
  refine ⟨htpf.trans (vpf.trans hpf), ⟨n, htpw.trans (vpw.trans ?_)⟩, htmg.trans (vmg.trans ?_), ?_, ?_, fun k => ?_,
    fun e he => ?_, fun n hn => ?_, hleft hcandles, hleft hfabric⟩
  · show { u.pw with stage := .shed } = _
    rw [hpw]
  · show { u.mg with go := false, ucWait := false, i2cSeq := none } = _
    rw [hmg]
  · rw [hshed]
    rfl
  · rw [hshed]
    exact closeAll_closed v
  · rw [htcore]
    exact (vrun k).trans (hrun k)
  · obtain ⟨hidle, hl⟩ := hengines e he
    refine ⟨?_, hleft hl⟩
    rw [State.engine, http]
    exact hidle
  · obtain ⟨hframes, hl⟩ := hwicks n hn
    refine ⟨?_, hleft hl⟩
    rw [State.wick, htwk]
    exact hframes

/-! ### POWER_FAIL_WARNING (19 R553, R556) -/

theorem exec_powerFailWarning_powered (h : ¬ (s.pw.stage = .off ∨ s.pw.stage = .standby)) :
    exec .powerFailWarning s = .next (shed { s with pw := { s.pw with warned := true } }) :=
  congrArg (fun u => Host.Outcome.next (shed u)) (if_neg h)

theorem shed_idle (h : ¬ (s.pw.stage = .run ∨ s.pw.stage = .held)) : shed s = s :=
  if_pos (not_or.mp h)

theorem exec_powerFailWarning_unpowered (h : s.pw.stage = .off ∨ s.pw.stage = .standby) :
    exec .powerFailWarning s = .next s := by
  refine (congrArg (fun u => Host.Outcome.next (shed u)) (if_pos h)).trans ?_
  rw [shed_idle (by rcases h with h | h <;> simp [h])]

/-- Each block's record, in the numbers of the record format. -/
theorem Left.numbers {src : BitVec 8} {reason : BitVec 16} {a b : Nat} (h : Left src reason s) (ha : src.toNat = a)
    (hb : reason.toNat = b) : ∃ r ∈ s.recs, r.src.toNat = a ∧ r.reason.toNat = b := by
  obtain ⟨r, hr, rfl, rfl⟩ := h
  exact ⟨r, hr, ha, hb⟩

/-- The records that the blocks leave. -/
theorem left_blocks (hengines : ∀ e, e < 8 → EngineStopped e s) (hwicks : ∀ n, n < 6 → WickStopped n s)
    (hcandles : Left 0x30 0x33 s) (hfabric : Left 0x70 0x73 s) (src reason : Nat)
    (h : (src, reason) ∈ ([(0x30, 0x33), (0x70, 0x73)] ++ ((List.range 6).map fun n => (0x10 + n, 0x40)) ++
      ((List.range 8).map fun e => (0x40 + e, 0x38)) : List (Nat × Nat))) :
    ∃ r ∈ s.recs, r.src.toNat = src ∧ r.reason.toNat = reason := by
  simp only [List.mem_append, List.mem_cons, List.not_mem_nil, or_false, List.mem_map, List.mem_range, Prod.mk.injEq] at h
  rcases h with ((⟨rfl, rfl⟩ | ⟨rfl, rfl⟩) | ⟨n, hn, rfl, rfl⟩) | ⟨e, he, rfl, rfl⟩
  · exact hcandles.numbers rfl rfl
  · exact hfabric.numbers rfl rfl
  · refine (hwicks n hn).2.numbers ?_ rfl
    rw [BitVec.toNat_add, BitVec.toNat_ofNat]
    show (16 + n % 256) % 256 = 16 + n
    omega
  · refine (hengines e he).2.numbers ?_ rfl
    rw [BitVec.toNat_add, BitVec.toNat_ofNat]
    show (64 + e % 256) % 256 = 64 + e
    omega

/-- The clause of power failure. -/
theorem powerFail : Sys2Proof.Clause.PowerFail := by
  refine ⟨fun s => ⟨fun h => ?_, fun h => ?_, fun h => exec_powerFailWarning_unpowered h.symm⟩,
    fun s e one moves he hone hmoves => ?_⟩
  · obtain ⟨t, ht⟩ : ∃ t, t = shed { s with pw := { s.pw with warned := true } } := ⟨_, rfl⟩
    obtain ⟨hpf, ⟨n, hpw⟩, hmg, hflush, hclosed, hrun, hengines, hwicks, hcandles, hfabric⟩ :=
      shed_rest (s := { s with pw := { s.pw with warned := true } }) h ht
    refine ⟨t, ?_, hpf, by rw [hpw], by rw [hpw], by rw [hpw], by rw [hmg], by rw [hmg], hflush, by rw [hmg], ?_, ?_, ?_, ?_,
      hclosed, hrun, fun e he => (hengines e he).1, fun n hn => (hwicks n hn).1, fun src reason hmem => ?_⟩
    · rw [exec_powerFailWarning_powered (by rcases h with h | h <;> simp [h]), ht]
    · rw [pcieUp, hpw]
      rfl
    · rw [opticsOn, hpw]
      rfl
    · rw [pwrgd, hpw]
      rfl
    · simp [alertLow, hpw]
    · exact left_blocks hengines hwicks hcandles hfabric src reason hmem
  · rw [exec_powerFailWarning_powered (by simp [h])]
    exact congrArg Host.Outcome.next (shed_idle (by simp [h]))
  · have hkind : runsMove s e = moves := Bool.eq_iff_iff.mpr ((runsMove_iff s e).trans hmoves.symm)
    refine ⟨engineRecord e s, engineRecord_mem e s, ?_, rfl, ?_⟩
    · show (64 + BitVec.ofNat 8 e).toNat = 64 + e
      rw [BitVec.toNat_add, BitVec.toNat_ofNat]
      show (64 + e % 256) % 256 = 64 + e
      omega
    · rw [hone, hone, hone, hone, ← hkind]
      exact ⟨rfl, rfl, rfl, rfl⟩

/-- Settles O59: a module reset is a boot that keeps fuses, NOR, floors and MRAM; boot ends by a fold over the cores; and what
a warning leaves is what each step of the shedding establishes and the later ones keep. -/
theorem resetsBoots : Obligations.ResetsBoots := ⟨moduleResets, boots, powerFail⟩

end Sys2Proof.Machine
end

section
namespace Sys2Proof.Machine

/-! ### Counters cleared -/

/-- A table of which the keys that fail a test have gone. -/
theorem get_filter_key {α : Type} (d : α) (t : Tab α) (p : Nat → Bool) (k : Nat) :
    Tab.get d (t.filter fun e => p e.1) k = if p k then Tab.get d t k else d := by
  induction t with
  | nil => simp
  | cons e r ih =>
    obtain ⟨a, v⟩ := e
    by_cases ha : a = k
    · subst ha
      cases hp : p a <;> simp [Tab.get, hp, ih]
    · cases hp : p a <;> simp [Tab.get, hp, ha, ih]

theorem counter_clearCounters (lo hi : Nat) (s : State) (off : Nat) :
    (clearCounters lo hi s).counter off = if lo ≤ off ∧ off ≤ hi then 0 else s.counter off := by
  refine (get_filter_key 0 s.cnt (fun k => k < lo || hi < k) off).trans ?_
  by_cases h : lo ≤ off ∧ off ≤ hi
  · rw [if_pos h, if_neg (by simp; omega)]
  · rw [if_neg h, if_pos (by simp; omega)]
    rfl

/-- Some ranges of counters cleared one after the other. -/
def clearAll (ranges : List (Nat × Nat)) (s : State) : State := ranges.foldl (fun s r => clearCounters r.1 r.2 s) s

/-- Ranges cleared one after the other are clear, and the rest is as it was. -/
theorem clearsTo_clearAll (ranges : List (Nat × Nat)) (s : State) : ClearsTo ranges s s (clearAll ranges s) := by
  induction ranges using List.reverseRecOn with
  | nil => exact ⟨fun off => rfl, rfl⟩
  | append_singleton rs r ih =>
    obtain ⟨hcount, hrest⟩ := ih
    have hlast : clearAll (rs ++ [r]) s = clearCounters r.1 r.2 (clearAll rs s) := by simp [clearAll]
    rw [hlast]
    refine ⟨fun off => ?_, hrest⟩
    have hany : ((rs ++ [r]).any fun r => decide (r.1 ≤ off ∧ off ≤ r.2)) = true ↔
        (rs.any fun r => decide (r.1 ≤ off ∧ off ≤ r.2)) = true ∨ r.1 ≤ off ∧ off ≤ r.2 := by simp
    rw [counter_clearCounters, hcount, if_congr hany rfl rfl]
    by_cases h : r.1 ≤ off ∧ off ≤ r.2
    · rw [if_pos h, if_pos (Or.inr h)]
    · rw [if_neg h]
      exact if_congr (or_iff_left h).symm rfl rfl

theorem clearsTo_one (lo hi : Nat) (s : State) : ClearsTo [(lo, hi)] s s (clearCounters lo hi s) :=
  clearsTo_clearAll [(lo, hi)] s

/-- The values that a CNTCLR clears beside the counters are no counters. -/
theorem ClearsTo.beside {ranges : List (Nat × Nat)} {s u t : State} (h : ClearsTo ranges s u t) {f : State → State}
    (hcnt : ∀ v, (f v).cnt = v.cnt)
    (hf : ∀ v, { f v with cnt := s.cnt, mg := { (f v).mg with seen := s.mg.seen, unsummed := s.mg.unsummed } } =
      f { v with cnt := s.cnt, mg := { v.mg with seen := s.mg.seen, unsummed := s.mg.unsummed } }) :
    ClearsTo ranges s (f u) (f t) := by
  obtain ⟨hcount, hrest⟩ := h
  refine ⟨fun off => ?_, by rw [hf, hrest]⟩
  rw [← hcount, State.counter, State.counter, hcnt]

/-- The counter ranges of a wick: its own, and those of its 16 lanes (Table 04-13). -/
theorem execWkCntclr_eq {n : BitVec 3} (hn : n.toNat < 6) (s : State) : execWkCntclr n s = .next
    ((clearAll ((0x100050 + 0x10000 * n.toNat, 0x10005C + 0x10000 * n.toNat) :: (List.range 16).map fun p =>
      (0x100108 + 0x10000 * n.toNat + 0x40 * p, 0x100134 + 0x10000 * n.toNat + 0x40 * p)) s).modWick n.toNat
        fun w => { w with bufHwm := 0 }) := by
  have hbase (a : Nat) : 0x100000 + 0x10000 * n.toNat + a = 0x100000 + a + 0x10000 * n.toNat := by omega
  simp only [execWkCntclr, onWick, hn, if_true, clearAll, List.foldl_cons, List.foldl_map, hbase]

/-- Settles O30: each CNTCLR clears its ranges one after the other, and then the values beside them. -/
theorem countersClear : Obligations.CountersClear := by
  intro s
  refine ⟨⟨_, rfl, clearsTo_one ..⟩, ⟨_, rfl, ?_⟩, fun n hn => ⟨_, execWkCntclr_eq hn s, ?_⟩, ⟨_, rfl, ?_⟩,
    ⟨_, rfl, clearsTo_one ..⟩, ⟨_, rfl, ?_⟩, ⟨_, rfl, clearsTo_one ..⟩, ⟨_, rfl, clearsTo_one ..⟩, ⟨_, rfl, clearsTo_one ..⟩,
    fun n => ⟨_, rfl, ?_⟩, ⟨_, rfl, clearsTo_one ..⟩, ⟨_, rfl, clearsTo_one ..⟩, ⟨_, rfl, clearsTo_one ..⟩,
    ⟨_, rfl, clearsTo_one ..⟩⟩
  · exact (clearsTo_one 0x3000C0 0x3000F4 s).beside
      (f := fun v => { v with cn := { v.cn with freeMin := BitVec.ofNat 16 (freeSpans v.cn) } }) (fun _ => rfl) fun _ => rfl
  · exact (clearsTo_clearAll _ s).beside (f := fun v => v.modWick n.toNat fun w => { w with bufHwm := 0 }) (fun _ => rfl)
      fun _ => rfl
  · exact clearsTo_clearAll [(0x200060, 0x20008C), (0x204040, 0x204060)] s
  · exact (clearsTo_clearAll [(0x208040, 0x20804C), (0x208060, 0x20807C)] s).beside
      (f := fun v => { v with dp := { v.dp with hwm := 0 } }) (fun _ => rfl) fun _ => rfl
  · exact (clearsTo_one (Cnt.mcCorr n.toNat) (Cnt.mcTagcMiss n.toNat) s).beside
      (f := fun v => v.modMc n.toNat fun m => { m with laste := 0 }) (fun _ => rfl) fun _ => rfl

end Sys2Proof.Machine
end

section
namespace Sys2Proof.Machine

/-! ### Instructions of tasks (09 R316) -/

theorem writeLoad_rest (c : CtxId) (p : PLoad) (s : State) :
    writeLoad c p s = { s with ctxs := (writeLoad c p s).ctxs, cores := (writeLoad c p s).cores } := by
  unfold writeLoad
  split <;> rfl

theorem writeLoads_rest (c : CtxId) (l : List PLoad) (s : State) :
    writeLoads c l s = { s with ctxs := (writeLoads c l s).ctxs, cores := (writeLoads c l s).cores } := by
  induction l generalizing s with
  | nil => rfl
  | cons p r ih =>
    rw [writeLoads, ih, writeLoad_rest]

/-- What arrives before an instruction is written into registers alone. -/
theorem found_rest (s : State) (iss : Iss) :
    found s iss = { s with ctxs := (found s iss).ctxs, cores := (found s iss).cores } := by
  unfold found beginIssue retireLoads
  rw [writeLoads_rest]
  rfl

theorem found_cn (s : State) (iss : Iss) : (found s iss).cn = s.cn := by rw [found_rest]
theorem found_bl (s : State) (iss : Iss) : (found s iss).bl = s.bl := by rw [found_rest]

/-! What the bodies answer. -/

section
variable {s u : State} {c : CtxId} {rs rt ru : R5} {a b : Word} {i : Nat}

theorem outcomeOk_iff (a : Word) : outcomeOk a = true ↔ a.toNat ≤ 1 ∨ 8 ≤ a.toNat ∧ a.toNat ≤ 15 := by simp [outcomeOk]

theorem checkTy_fixRaw {w : TWord} (hw : w.ty = Ty.fix ∨ w.ty = Ty.raw) : checkTy isFixRaw w s = .ok () s :=
  checkTy_plain (t := w.ty) (v := w.val) (by tauto) (by rcases hw with hw | hw <;> simp [isFixRaw, hw])

theorem decideBody_ok {pd : Option P3} {h : BitVec 19} (hh : handleOf s c = some h) (ht : (s.ctx c).task = some i)
    (hrs : opnd c rs s = TWord.fix a) (ho : outcomeOk a = true) (hrt : (opnd c rt s).ty = Ty.fix ∨ (opnd c rt s).ty = Ty.raw)
    (hru : (opnd c ru s).ty = Ty.fix ∨ (opnd c ru s).ty = Ty.raw) :
    decideBody pd rs rt ru c s = .ok (.away .stalled .decide) { s with ll := { s.ll with decides := s.ll.decides ++
      [⟨c, i, h, a.setWidth 4, (opnd c ru s).val ++ (opnd c rt s).val, pd, true⟩] } } := by
  have hval : (TWord.fix a).val = a := rfl
  simp [decideBody, hh, ht, hrs, hval, checkFix_fix, ho, checkTy_fixRaw hrt, checkTy_fixRaw hru]

variable {kind : BitVec 3} {id : BitVec 16} {cont : Bool} (ht : (s.ctx c).task = some i)
include ht

theorem waitBody_pend (hp : (s.task i).pend = true) : waitBody kind id cont c s =
    .ok .next (putTask i (fun t => { t with waitKind := kind, waitId := id, pend := false }) s) := by
  simp [waitBody, ht, hp]

theorem waitBody_goesOn (hp : (s.task i).pend = false) : waitBody kind id true c s =
    .ok .next (putTask i (fun t => { t with waitKind := kind, waitId := id }) s) := by
  simp [waitBody, ht, hp]

theorem waitBody_waits (hp : (s.task i).pend = false) : waitBody kind id false c s =
    .ok (.away .waiting .none) (putTask i (fun t => { t with waitKind := kind, waitId := id, st := .waiting }) s) := by
  simp [waitBody, ht, hp]

end

theorem notOnShadow_ok {c : CtxId} {s : State} (h : (s.ctx c).cstat.shadow = false) : notOnShadow c s = .ok () s := by
  simp [notOnShadow, h]

/-! What each instruction leaves. -/

section
variable {s u : State} {iss : Iss} {rs rt ru : R5} {len : Nat} {a b : Word} {i : Nat} {fl : Flow}

/-- WAITJ as the wait for the job that its operand names. -/
theorem waitj_waits (hi : issues s iss .nativeZekief [rs] len = true) (hs : (context s iss).cstat.shadow = false)
    (hrs : operand s iss rs = TWord.fix a) (ht : (context s iss).task = some i)
    (hw : waitBody 3 (a.setWidth 16) (!jobOutstanding (found s iss) i a) iss.ctx (found s iss) = .ok fl u) :
    exec (.waitj iss rs) s = .next (finish iss.ctx (s.ctx iss.ctx) len fl u) := by
  refine run_flow hi rfl rfl rfl rfl (heldBack_issues hi rfl rfl rfl) ?_
  have hval : (TWord.fix a).val = a := rfl
  have hns : notOnShadow iss.ctx (found s iss) = .ok () (found s iss) := notOnShadow_ok hs
  simp only [hns, opnd_found, hrs, Res.bind_ok, checkFix_fix, ctx_found, ht, hval]
  exact hw

/-- WAITR as the wait for the ring that its operand names, of which the task becomes the listener. -/
theorem waitr_waits {v : State} (hi : issues s iss .nativeZekief [rs] len = true) (hs : (context s iss).cstat.shadow = false)
    (hrs : operand s iss rs = TWord.fix a) (ht : (context s iss).task = some i) (hring : a.toNat < s.bl.ring.lv.cnt.toNat)
    (hv : v = { found s iss with ll := { (found s iss).ll with
      listeners := Tab.set none (found s iss).ll.listeners a.toNat (some i) } })
    (hw : waitBody 4 (a.setWidth 16) false iss.ctx v = .ok fl u) :
    exec (.waitr iss rs) s = .next (finish iss.ctx (s.ctx iss.ctx) len fl u) := by
  refine run_flow hi rfl rfl rfl rfl (heldBack_issues hi rfl rfl rfl) ?_
  have hval : (TWord.fix a).val = a := rfl
  have hcnt : ¬ (found s iss).bl.ring.lv.cnt.toNat ≤ a.toNat := by rw [found_bl]; omega
  have hns : notOnShadow iss.ctx (found s iss) = .ok () (found s iss) := notOnShadow_ok hs
  subst hv
  simp only [hns, opnd_found, hrs, Res.bind_ok, checkFix_fix, ctx_found, ht, hval, if_neg hcnt]
  exact hw

theorem spawn_queues {t : Templ} (hi : issues s iss .nativeOnly [rs, rt] len = true) (hrs : operand s iss rs = TWord.fix a)
    (hrt : operand s iss rt = TWord.fix b) (ht : templateAt (found s iss) a = some t)
    (hd : drainAll iss.ctx 8 (found s iss) = .ok () u) : exec (.spawn iss rs rt) s = .next (leaves s iss len
      { u with ll := { u.ll with spawns := u.ll.spawns ++
        [⟨a.toNat, TWord.fix b, handleOf u iss.ctx, spawnDeadline u (u.ctx iss.ctx).task t⟩] } }) := by
  refine run_leaves hi rfl rfl rfl rfl (heldBack_issues hi rfl rfl rfl) ?_
  have hval (a : Word) : (TWord.fix a).val = a := rfl
  simp only [opnd_found, hrs, hrt, Res.bind_ok, checkFix_fix, hval, ht, hd]

theorem cgrow_takes {h : BitVec 19} {n : Nat} (hi : issues s iss .nativeOnly [rs] len = true)
    (hrs : operand s iss rs = TWord.fix a) (hh : handleOf (found s iss) iss.ctx = some h) (ha : a.toNat ≤ 256)
    (hn : n = if a = 0 then s.cn.run.lv.growSpans.toNat else a.toNat) (hu : u = coolDue (found s iss))
    (hg : grantCause (hSlot h) n u = none) :
    exec (.cgrow iss rs) s = .next (leaves s iss len (takeSpans (hSlot h) true n u)) := by
  refine run_leaves hi rfl rfl rfl rfl (heldBack_issues hi rfl rfl rfl) ?_
  have hval : (TWord.fix a).val = a := rfl
  have hto : checkFixTo 256 (TWord.fix a) (found s iss) = .ok () (found s iss) := by
    rw [checkFixTo, checkFix_fix, Res.bind_ok, hval, if_neg (by omega)]
  rw [← found_cn s iss] at hn
  subst hu
  simp only [hh, opnd_found, hrs, Res.bind_ok, hto, hval, ← hn, hg]

end

/-- Settles O19: each instruction issues and goes where its body's flow says. -/
theorem taskInstructions : Obligations.TaskInstructions := by
  intro s u iss rs rt ru len a
  refine ⟨fun h i lo hi hh ht hrs ho hrt hlo hru hhi => ?_, fun b t hiss hrs hrt ht hd => spawn_queues hiss hrs hrt ht hd,
    fun i hiss hs hrs ht => ⟨fun hp => ?_, fun hp => ⟨fun hj => ?_, fun hj => ?_⟩, fun hring hu => ⟨fun hp => ?_, fun hp => ?_⟩⟩,
    fun hiss => ⟨fun i ht => ?_, ?_⟩, fun h n hiss hrs hh ha hn hu hg => cgrow_takes hiss hrs hh ha hn hu hg⟩
  · subst hrt hru
    have hbody (pd : Option P3) := decideBody_ok (pd := pd) hh ht hrs ((outcomeOk_iff a).mpr ho) hlo hhi
    exact ⟨fun pd hiss => run_flow hiss rfl rfl rfl rfl (heldBack_issues hiss rfl rfl rfl) (hbody (some pd)),
      fun hiss => run_flow hiss rfl rfl rfl rfl (heldBack_issues hiss rfl rfl rfl) (hbody none)⟩
  · exact waitj_waits hiss hs hrs ht (waitBody_pend ht hp)
  · exact waitj_waits hiss hs hrs ht (by rw [hj]; exact waitBody_goesOn ht hp)
  · exact waitj_waits hiss hs hrs ht (by rw [hj]; exact waitBody_waits ht hp)
  · exact waitr_waits hiss hs hrs ht hring hu (waitBody_pend (by subst hu; exact ht) (by subst hu; exact hp))
  · exact waitr_waits hiss hs hrs ht hring hu (waitBody_waits (by subst hu; exact ht) (by subst hu; exact hp))
  · refine run_flow (fl := .placed) (t := endTask i (found s iss)) hiss rfl rfl rfl rfl (heldBack_issues hiss rfl rfl rfl) ?_
    rw [ctx_found, ht]
  · exact run_flow (fl := .yielded) hiss rfl rfl rfl rfl (heldBack_issues hiss rfl rfl rfl) rfl

end Sys2Proof.Machine
end

section
namespace Sys2Proof.Machine

/-! ### Words and lines of HBM (02 R48, R57) -/

theorem MWord.ofTag_tag (w : MWord) : MWord.ofTag w.tag w.val = w := by
  obtain ⟨ty, imm, mark, v⟩ := w
  have hty (x : BitVec 2) : (x ++ ty).setWidth 6 = ty := BitVec.setWidth_append_eq_right
  have hbit (x : BitVec 2) (k : Nat) (hk : k < 2) : (x ++ ty).getLsbD (6 + k) = x.getLsbD k := by
    rw [BitVec.getLsbD_append, if_neg (by omega), Nat.add_sub_cancel_left]
  have himm (x : BitVec 2) : (x ++ ty).getLsbD 6 = x.getLsbD 0 := hbit x 0 (by omega)
  have hmark (x : BitVec 2) : (x ++ ty).getLsbD 7 = x.getLsbD 1 := hbit x 1 (by omega)
  unfold MWord.ofTag MWord.tag
  rw [hty, himm, hmark]
  cases imm <;> cases mark <;> simp

/-- A word put together from its bytes. -/
theorem bytes_append (v : Word) :
    v.extractLsb' 24 8 ++ v.extractLsb' 16 8 ++ v.extractLsb' 8 8 ++ v.extractLsb' 0 8 = v := by
  rw [BitVec.extractLsb'_append_extractLsb'_eq_extractLsb' (start₁ := 16) (len₁ := 8) rfl,
    BitVec.extractLsb'_append_extractLsb'_eq_extractLsb' (start₁ := 8) (len₁ := 8) rfl,
    BitVec.extractLsb'_append_extractLsb'_eq_extractLsb' (start₁ := 0) (len₁ := 8) rfl]
  exact BitVec.extractLsb'_eq_self

/-- The tag bytes lie in the sidecar in the order of their words (R57). -/
theorem tagAt_eq (s : State) (loc : Nat) : tagAt s loc = sidecarBase s.build + loc / 4 := by
  unfold tagAt
  omega

theorem sidecarBase_mod (b : Build) : sidecarBase b % 64 = 0 := by cases b <;> rfl

theorem sidecarBase_le (b : Build) : sidecarBase b ≤ 0x0CCCCCCC00 := by cases b <;> simp [sidecarBase]

section
variable {s : State} {a b : Nat} (ha : a % 4 = 0) (hd : a < sidecarBase s.build)
include ha hd

theorem hbmWord_setHbmWord_self (w : MWord) : hbmWord (setHbmWord a w s) a = w := by
  have hside := sidecarBase_mod s.build
  have htag := tagAt_eq s a
  have hbyte (i : Nat) (hi : i < 4) : a + i ≠ tagAt s a := by omega
  have hval : Memory.read (setHbmWord a w s).hbm (tagAt s a) = w.tag := Memory.read_write_self _ _ _
  have hread (i : Nat) (hi : i < 4) : Memory.read (setHbmWord a w s).hbm (a + i) = w.val.extractLsb' (8 * i) 8 := by
    rw [setHbmWord, Memory.read_write_ne _ _ (hbyte i hi)]
    have hcases : i = 0 ∨ i = 1 ∨ i = 2 ∨ i = 3 := by omega
    rcases hcases with rfl | rfl | rfl | rfl <;> simp [Memory.read_write_ne]
  have htagAt : tagAt (setHbmWord a w s) a = tagAt s a := rfl
  unfold hbmWord
  dsimp only
  rw [htagAt, hval, hread 3 (by omega), hread 2 (by omega), hread 1 (by omega), hread 0 (by omega), bytes_append,
    MWord.ofTag_tag]

theorem hbmWord_setHbmWord_ne (w : MWord) (hb : b % 4 = 0) (hdb : b < sidecarBase s.build) (hne : b ≠ a) :
    hbmWord (setHbmWord a w s) b = hbmWord s b := by
  have hside := sidecarBase_mod s.build
  have htag := tagAt_eq s a
  have htagb := tagAt_eq s b
  have hread (x : Nat) (h1 : ¬ (a ≤ x ∧ x < a + 4)) (h2 : x ≠ tagAt s a) :
      Memory.read (setHbmWord a w s).hbm x = Memory.read s.hbm x := setHbmWord_read_ne a w s x h1 h2
  have htagAt : tagAt (setHbmWord a w s) b = tagAt s b := rfl
  unfold hbmWord
  dsimp only
  rw [htagAt, hread _ (by omega) (by omega), hread (b + 3) (by omega) (by omega),
    hread (b + 2) (by omega) (by omega), hread (b + 1) (by omega) (by omega), hread (b + 0) (by omega) (by omega)]

end

/-- Words written in order read as written, and every other word as before. -/
theorem hbmWord_setHbmWords (l : Line) (loc : Nat) (s : State) (hl : loc % 4 = 0)
    (hd : loc + 4 * l.length ≤ sidecarBase s.build) {b : Nat} (hb : b % 4 = 0) (hdb : b < sidecarBase s.build) :
    hbmWord (setHbmWords loc l s) b =
      if loc ≤ b ∧ b < loc + 4 * l.length then lineWord l ((b - loc) / 4) else hbmWord s b := by
  induction l generalizing loc s with
  | nil => rw [setHbmWords, if_neg (by simp)]
  | cons w r ih =>
    have hlen : (w :: r).length = r.length + 1 := rfl
    rw [hlen] at hd ⊢
    rw [setHbmWords, ih (loc + 4) (setHbmWord loc w s) (by omega) (by show _ ≤ sidecarBase s.build; omega) hdb]
    by_cases hself : b = loc
    · subst hself
      rw [if_neg (by omega), if_pos (by omega), hbmWord_setHbmWord_self hl hdb, Nat.sub_self]
      rfl
    · rw [hbmWord_setHbmWord_ne hl (by omega) w hb hdb hself]
      by_cases hin : loc + 4 ≤ b ∧ b < loc + 4 + 4 * r.length
      · rw [if_pos hin, if_pos (by omega), show (b - loc) / 4 = (b - (loc + 4)) / 4 + 1 by omega]
        rfl
      · rw [if_neg hin, if_neg (by omega)]

theorem hbmLine_congr {s t : State} (hb : t.build = s.build) (hm : t.hbm = s.hbm) (loc : Nat) : hbmLine t loc = hbmLine s loc := by
  have hword (a : Nat) : hbmWord t a = hbmWord s a := by
    have htag : tagAt t a = tagAt s a := by rw [tagAt_eq, tagAt_eq, hb]
    rw [hbmWord, hbmWord, htag, hm]
  exact List.map_congr_left fun i _ => hword _

theorem lineWord_hbmLine (s : State) (loc : Nat) {i : Nat} (hi : i < 16) : lineWord (hbmLine s loc) i = hbmWord s (loc + 4 * i) := by
  simp [lineWord, hbmLine, List.getD, hi]

/-- Two lines of 16 words that have the same words. -/
theorem line_ext {l m : Line} (hl : l.length = 16) (hm : m.length = 16) (h : ∀ i, i < 16 → lineWord l i = lineWord m i) : l = m := by
  refine List.ext_getElem (hl.trans hm.symm) fun i h1 h2 => ?_
  have := h i (by omega)
  simpa [lineWord, List.getD, h1, h2] using this

theorem hbmLine_length (s : State) (loc : Nat) : (hbmLine s loc).length = 16 := by simp [hbmLine]

/-- A line of tagged data reads as it was written. -/
theorem hbmLine_setHbmLine {s : State} {loc : Nat} {l : Line} (hl : loc % 64 = 0) (hd : loc < sidecarBase s.build)
    (hlen : l.length = 16) : hbmLine (setHbmLine loc l s) loc = l := by
  have hside := sidecarBase_mod s.build
  refine line_ext (hbmLine_length _ _) hlen fun i hi => ?_
  rw [lineWord_hbmLine _ _ hi]
  show hbmWord (setHbmWords loc l s) (loc + 4 * i) = lineWord l i
  rw [hbmWord_setHbmWords l loc s (by omega) (by omega) (by omega) (by omega), if_pos (by omega)]
  congr 1
  omega

/-! ### Addresses of lines (13 R413) -/

section
variable (pa : PA)

theorem linePa_lineNo_toNat : (linePa (lineNo pa)).toNat = pa.toNat / 64 * 64 := by
  have hlt := pa.isLt
  rw [linePa, lineNo, BitVec.toNat_ofNat]
  omega

theorem nodeOf_toNat : (nodeOf pa).toNat = pa.toNat / 2 ^ 37 := by
  have hlt := pa.isLt
  rw [nodeOf, BitVec.extractLsb'_toNat, Nat.shiftRight_eq_div_pow]
  omega

theorem localOf_eq : localOf pa = pa.toNat % 2 ^ 37 := by
  rw [localOf, BitVec.extractLsb'_toNat, Nat.shiftRight_eq_div_pow]
  simp

theorem lineNode_lineNo : lineNode (lineNo pa) = nodeOf pa := by
  apply BitVec.eq_of_toNat_eq
  rw [lineNode, nodeOf_toNat, nodeOf_toNat, linePa_lineNo_toNat]
  omega

theorem lineLocal_lineNo : lineLocal (lineNo pa) = localOf pa / 64 * 64 := by
  rw [lineLocal, localOf_eq, localOf_eq, linePa_lineNo_toNat]
  omega

/-- The home agent of an address depends on bits 8 to 15 alone. -/
theorem homeAgent_congr {a b : Nat} (h : a / 2 ^ 8 % 2 ^ 8 = b / 2 ^ 8 % 2 ^ 8) : homeAgent a = homeAgent b := by
  have hbit (k : Nat) (hk : k < 8) : a.testBit (8 + k) = b.testBit (8 + k) := by
    have hsame := congrArg (fun n => n.testBit k) h
    simp only [Nat.testBit_mod_two_pow, Nat.testBit_div_two_pow, hk, decide_true, Bool.true_and] at hsame
    rwa [Nat.add_comm k 8] at hsame
  refine Nat.eq_of_testBit_eq fun k => ?_
  have hthree (k : Nat) : Nat.testBit 3 k = decide (k < 2) := by
    rw [show (3 : Nat) = 2 ^ 2 - 1 from rfl, Nat.testBit_two_pow_sub_one]
  simp only [homeAgent, Nat.testBit_and, Nat.testBit_xor, Nat.testBit_shiftRight, hthree]
  by_cases hk : k < 2
  · rw [hbit k (by omega), show 10 + k = 8 + (2 + k) by omega, hbit (2 + k) (by omega), show 12 + k = 8 + (4 + k) by omega,
      hbit (4 + k) (by omega), show 14 + k = 8 + (6 + k) by omega, hbit (6 + k) (by omega)]
  · simp [hk]

theorem lineAgent_eq : lineAgent (lineNo pa) = homeAgent (lineLocal (lineNo pa)) := by
  rw [lineAgent, lineLocal_lineNo, localOf_eq]
  refine homeAgent_congr ?_
  rw [lineNo]
  omega

end

end Sys2Proof.Machine
end

section
namespace Sys2Proof.Machine

/-! ### The barrier buffer and the escape log (03 R115, R116, R118) -/

theorem barrierBufferDrain_empty {s : State} {k : CoreId} (h : (s.core k).barrier = []) :
    exec (.barrierBufferDrain k) s = .next s := by
  show execBarrierBufferDrain k s = _
  rw [execBarrierBufferDrain, h]

section
variable {s u : State} {k : CoreId} {b : BarEnt} {bs : List BarEnt} (h : (s.core k).barrier = b :: bs)
include h

theorem barrierBufferDrain_full (hl : logEscape b s = none) : exec (.barrierBufferDrain k) s = .next s := by
  show execBarrierBufferDrain k s = _
  rw [execBarrierBufferDrain, h]
  dsimp only
  rw [hl]

theorem barrierBufferDrain_stored (hl : logEscape b s = some u) (hp : b.performed = false) :
    exec (.barrierBufferDrain k) s =
      .next (u.modCore k fun x => { x with barrier := bs, escWait := x.escWait ++ [b] }) := by
  show execBarrierBufferDrain k s = _
  rw [execBarrierBufferDrain, h]
  dsimp only
  rw [hl]
  dsimp only
  rw [hp]
  rfl

theorem barrierBufferDrain_performed (hl : logEscape b s = some u) (hp : b.performed = true) :
    exec (.barrierBufferDrain k) s =
      .next ((u.modCore k fun x => { x with barrier := bs }).modSlot b.slot fun t => { t with escCount := t.escCount - 1 }) := by
  show execBarrierBufferDrain k s = _
  rw [execBarrierBufferDrain, h]
  dsimp only
  rw [hl]
  dsimp only
  rw [hp]
  rfl

end

theorem eovf_physWrites (pa : PA) (ws : List MWord) (s : State) : (physWrites none pa ws s).cn.eovf = s.cn.eovf :=
  congrArg (fun p => p.1.cn.eovf) (aside_physWrites pa ws s)

theorem slot_physWrites (pa : PA) (ws : List MWord) (s : State) (i : Nat) : (physWrites none pa ws s).slot i = s.slot i := by
  rw [State.slot, slots_of_aside (aside_physWrites pa ws s)]
  rfl

/-- The candle's own ring has room. -/
theorem logEscape_ring (b : BarEnt) (s : State) (h : (s.slot b.slot).elogFill < 2 ^ s.cn.pool.lv.elogSize.toNat) :
    ∃ t, logEscape b s = some t ∧ (t.slot b.slot).elogFill = (s.slot b.slot).elogFill + 1 ∧ t.cn.eovf = s.cn.eovf := by
  refine ⟨_, if_pos h, ?_, eovf_physWrites ..⟩
  rw [State.slot_modSlot, slot_physWrites]

/-- The candle's own ring is full and the overflow ring has room. -/
theorem logEscape_overflow (b : BarEnt) (s : State) (h : 2 ^ s.cn.pool.lv.elogSize.toNat ≤ (s.slot b.slot).elogFill)
    (hr : s.cn.eovf.length < 2 ^ s.cn.pool.lv.eovfSize.toNat) :
    ∃ t, logEscape b s = some t ∧ (t.slot b.slot).elogFill = (s.slot b.slot).elogFill ∧ (t.slot b.slot).elogOvf = true ∧
      t.cn.eovf = s.cn.eovf ++ [⟨b.slot, b.gen, false⟩] := by
  unfold logEscape
  extract_lets p size d a i o hd v w
  rw [if_neg (Nat.not_lt.2 h), if_pos hr]
  have hslot : v.slot b.slot = s.slot b.slot := slot_physWrites ..
  have heovf : v.cn.eovf = s.cn.eovf := eovf_physWrites ..
  have hw : (w.slot b.slot).elogFill = (s.slot b.slot).elogFill ∧ (w.slot b.slot).elogOvf = true ∧ w.cn.eovf = s.cn.eovf := by
    by_cases ho : (s.slot b.slot).elogOvf = true
    · rw [show w = v from if_pos ho, hslot]
      exact ⟨rfl, ho, heovf⟩
    · rw [show w = bump Cnt.cnElogOvf (v.modSlot b.slot fun t => { t with elogOvf := true }) from if_neg ho]
      have hmod : (v.modSlot b.slot fun t => { t with elogOvf := true }).slot b.slot = { s.slot b.slot with elogOvf := true } := by
        rw [State.slot_modSlot, hslot]
      exact ⟨(congrArg CnSlot.elogFill hmod :), (congrArg CnSlot.elogOvf hmod :), heovf⟩
  obtain ⟨hfill, hovf, hring⟩ := hw
  exact ⟨_, rfl, hfill, hovf, congrArg (· ++ _) hring⟩

theorem logEscape_none (b : BarEnt) (s : State) (h : 2 ^ s.cn.pool.lv.elogSize.toNat ≤ (s.slot b.slot).elogFill)
    (hr : 2 ^ s.cn.pool.lv.eovfSize.toNat ≤ s.cn.eovf.length) : logEscape b s = none :=
  (if_neg (by omega)).trans (if_neg (by omega))

/-! ### Stores that wait, the merging buffer and the range engine (03 R121; 13 R406, R423) -/

theorem storeWaitResume_wakes {s : State} {c : CtxId} (h : (s.ctx c).st = .stalled)
    (hw : (s.ctx c).stall = .store ∨ (s.ctx c).stall = .escape ∨ (s.ctx c).stall = .mlog) :
    exec (.storeWaitResume c) s = .next (wakeCtx c { s with cn := { s.cn with
      slots := s.cn.slots.map fun e => (e.1, { e.2 with stall := e.2.stall.filter fun d => d ≠ c }) } }) :=
  congrArg Host.Outcome.next (if_pos ⟨h, hw⟩)

theorem storeWaitResume_idle {s : State} {c : CtxId}
    (h : (s.ctx c).st ≠ .stalled ∨ ((s.ctx c).stall ≠ .store ∧ (s.ctx c).stall ≠ .escape ∧ (s.ctx c).stall ≠ .mlog)) :
    exec (.storeWaitResume c) s = .next s := by
  refine congrArg Host.Outcome.next (if_neg ?_)
  rintro ⟨hst, hw⟩
  obtain hn | ⟨h1, h2, h3⟩ := h
  · exact hn hst
  · rcases hw with hw | hw | hw <;> contradiction

theorem mergeBufferDrain_empty {s : State} {k : CoreId} (f : Bool) (h : (s.core k).merge = []) :
    exec (.mergeBufferDrain k f) s = .next s := by
  show execMergeBufferDrain k f s = _
  rw [execMergeBufferDrain, h]

section
variable {s u : State} {k : CoreId} {m : MergeEnt} {ms : List MergeEnt} (h : (s.core k).merge = m :: ms)
include h

theorem mergeBufferDrain_written (ha : acquire (lanOfCore k) none true m.line s = .ok () u) :
    exec (.mergeBufferDrain k false) s = .next (performLine k m u) ∧
      exec (.mergeBufferDrain k true) s = .next (performLine k
        { m with words := m.words.map fun e => (e.1, TWord.poison 3) } (bump Cnt.ccMbUncorr u)) := by
  constructor <;>
  · show execMergeBufferDrain k _ s = _
    rw [execMergeBufferDrain, h]
    dsimp only
    rw [ha]
    rfl

theorem mergeBufferDrain_waits {on : StallOn} (f : Bool) (ha : acquire (lanOfCore k) none true m.line s = .wait on u) :
    exec (.mergeBufferDrain k f) s = .next u := by
  show execMergeBufferDrain k f s = _
  rw [execMergeBufferDrain, h]
  dsimp only
  rw [ha]

end

theorem rangeOpDone_idle {s : State} {l : Lan} (h : (s.lan l).ranges = []) : exec (.rangeOpDone l) s = .next s := by
  show execRangeOpDone l s = _
  rw [execRangeOpDone, h]

theorem rangeOpDone_ends {s u : State} {l : Lan} {r : RangeReq} {rs : List RangeReq} {lines : List Nat}
    (h : (s.lan l).ranges = r :: rs)
    (hl : rangeLines r ((r.base.toNat % 64 + r.len + 63) / 64) (r.base &&& 0xFFFFFFC0) 0 s = .ok lines u) :
    exec (.rangeOpDone l) s = .next (wakeRange l
      ((lines.foldl (fun s ln => rangeLine l r.op ln s) u).modLan l fun x => { x with ranges := rs })) := by
  show execRangeOpDone l s = _
  rw [execRangeOpDone, h]
  dsimp only
  rw [rangeCount, hl]

end Sys2Proof.Machine
end

section
namespace Sys2Proof.Machine

/-! ### The scrubber (13 R413, R427) -/

theorem homedLine_eq (c i : Nat) :
    homedLine c i = i / 4 * 1024 + (c ^^^ (i / 4 ^^^ i / 4 / 4 ^^^ i / 4 / 16)) % 4 * 256 + i % 4 * 64 := rfl

theorem homedLine_mod (c i : Nat) : homedLine c i % 64 = 0 := by
  rw [homedLine_eq]
  omega

theorem homedLine_lt (c : Nat) {i : Nat} (hi : i < 2 ^ 28) : homedLine c i < 2 ^ 37 := by
  rw [homedLine_eq]
  omega

/-- The home agent of an address by its bits 8 and 9 and the three pairs above. -/
theorem homeAgent_eq (a : Nat) :
    homeAgent a = a / 2 ^ 8 % 4 ^^^ a / 2 ^ 10 % 4 ^^^ a / 2 ^ 12 % 4 ^^^ a / 2 ^ 14 % 4 := by
  rw [homeAgent, show (3 : Nat) = 2 ^ 2 - 1 from rfl, Nat.and_two_pow_sub_one_eq_mod]
  simp only [Nat.xor_mod_two_pow, Nat.shiftRight_eq_div_pow]

/-- A controller is the home agent of the lines that it scrubs. -/
theorem homeAgent_homedLine {c : Nat} (hc : c < 4) (i : Nat) : homeAgent (homedLine c i) = c := by
  have hdig : homedLine c i / 2 ^ 8 % 4 = (c ^^^ (i / 4 ^^^ i / 4 / 4 ^^^ i / 4 / 16)) % 4 := by
    rw [homedLine_eq]
    omega
  have h10 : homedLine c i / 2 ^ 10 = i / 4 := by
    rw [homedLine_eq]
    omega
  have h12 : homedLine c i / 2 ^ 12 = i / 4 / 4 := by omega
  have h14 : homedLine c i / 2 ^ 14 = i / 4 / 16 := by omega
  rw [homeAgent_eq, hdig, h10, h12, h14]
  have hmod (a b : Nat) : (a ^^^ b) % 4 = a % 4 ^^^ b % 4 := Nat.xor_mod_two_pow (n := 2)
  simp only [hmod, Nat.mod_eq_of_lt hc, Nat.xor_assoc]
  generalize i / 4 % 4 = x, i / 4 / 4 % 4 = y, i / 4 / 16 % 4 = z
  rw [show y ^^^ (z ^^^ (x ^^^ (y ^^^ z))) = x by
    rw [Nat.xor_left_comm x, Nat.xor_left_comm z, Nat.xor_xor_cancel_left, Nat.xor_comm x, Nat.xor_xor_cancel_left]]
  rw [Nat.xor_self, Nat.xor_zero]

theorem nodeOf_mkPa (node : BitVec 16) (loc : Nat) : nodeOf (mkPa node loc) = node := by
  rw [nodeOf, mkPa]
  exact BitVec.extractLsb'_append_eq_left

theorem localOf_mkPa (node : BitVec 16) {loc : Nat} (h : loc < 2 ^ 37) : localOf (mkPa node loc) = loc := by
  rw [localOf, mkPa, BitVec.extractLsb'_append_eq_right, BitVec.toNat_ofNat, Nat.mod_eq_of_lt h]

theorem lineNode_mkPa (node : BitVec 16) (loc : Nat) : lineNode (lineNo (mkPa node loc)) = node := by
  rw [lineNode_lineNo, nodeOf_mkPa]

theorem lineLocal_mkPa (node : BitVec 16) {loc : Nat} (h : loc < 2 ^ 37) (hl : loc % 64 = 0) :
    lineLocal (lineNo (mkPa node loc)) = loc := by
  rw [lineLocal_lineNo, localOf_mkPa node h]
  omega

theorem lineAgent_mkPa (node : BitVec 16) {loc : Nat} (h : loc < 2 ^ 37) (hl : loc % 64 = 0) :
    lineAgent (lineNo (mkPa node loc)) = homeAgent loc := by
  rw [lineAgent_eq, lineLocal_mkPa node h hl]

/-- A scrub touches no copies: the home agent serves it at once. -/
theorem homeServe_scrub (req : Requester) (ln : Nat) (s : State) : homeServe req .scrub ln s = scrubLine ln s := by
  have hlost : lostOwner req .scrub ln s = s := if_neg (by simp)
  unfold homeServe
  extract_lets u e shared me
  rw [if_pos rfl]
  split
  rename_i data v hv
  obtain ⟨-, rfl⟩ := Prod.mk.inj hv
  extract_lets e' id fwd invs txn x y
  have hfwd : fwd = none := by
    show (match e'.owner with | some _ => _ | none => _) = _
    split
    · exact if_neg (by simp)
    · rfl
  have hinvs : invs = [] := if_pos (.inr rfl)
  rw [if_pos ⟨hfwd, hinvs⟩]
  exact congrArg (scrubLine ln) hlost

theorem dirVictim_scrub (s : State) (ln : Nat) : dirVictim s .scrub ln = none := by
  simp [dirVictim]

/-- What an access meets at home: nothing, an error that is corrected, or one that is not. -/
theorem meetHome_cases (src : BitVec 3) (corr uncorr loc : Nat) (s : State) :
    meetHome src (some corr) (some uncorr) loc s = s ∨
      (∃ l, meetHome src (some corr) (some uncorr) loc s = bump corr (setHbmLine loc l s)) ∨
      ∃ src', meetHome src (some corr) (some uncorr) loc s =
        homeUncorrectable (lineNo (mkPa s.node loc)) src' (bump uncorr s) := by
  unfold meetHome
  extract_lets c m ln count bad
  split
  · exact .inr (.inl ⟨_, rfl⟩)
  · exact .inr (.inr ⟨_, rfl⟩)
  · split
    · exact .inl rfl
    · exact .inr (.inl ⟨_, rfl⟩)
    · exact .inr (.inr ⟨_, rfl⟩)
    · exact .inr (.inr ⟨_, rfl⟩)

/-! What a scrub keeps of its controller and of the counters. -/

/-- What a scrub of a controller leaves as it is, beside its position. -/
def scrubFrame (c : Nat) (s : State) : Build × Tab Ctx × Bool := (s.build, s.ctxs, (s.mc c).scrubDone)

theorem scrubFrame_modMc (c d : Nat) {f : McSt → McSt} (hf : ∀ m, (f m).scrubDone = m.scrubDone) (s : State) :
    scrubFrame c (s.modMc d f) = scrubFrame c s := by
  have hdone : ((s.modMc d f).mc c).scrubDone = (s.mc c).scrubDone := by
    by_cases h : c = d
    · subst h
      rw [State.mc_modMc, hf]
    · rw [State.mc_modMc_ne _ _ h]
  simp [scrubFrame, hdone]

/-- Words written at home change the memory alone. -/
theorem setHbmWords_eq (loc : Nat) (l : Line) (s : State) : setHbmWords loc l s = { s with hbm := (setHbmWords loc l s).hbm } := by
  induction l generalizing loc s with
  | nil => rfl
  | cons w r ih =>
    rw [setHbmWords, ih]
    rfl

theorem scrubFrame_setHbmLine (c loc : Nat) (l : Line) (s : State) : scrubFrame c (setHbmLine loc l s) = scrubFrame c s := by
  rw [setHbmLine, setHbmWords_eq]
  refine (scrubFrame_modMc c _ ?_ _).trans rfl
  exact fun _ => rfl

theorem scrubFrame_bump (c k : Nat) (s : State) : scrubFrame c (bump k s) = scrubFrame c s := rfl

theorem scrubFrame_record (c : Nat) (sev src reason a0 a1 a2 a3 a4) (s : State) :
    scrubFrame c (record sev src reason a0 a1 a2 a3 a4 s) = scrubFrame c s := rfl

theorem scrubFrame_homeUncorrectable (c ln : Nat) (src : BitVec 3) (s : State) :
    scrubFrame c (homeUncorrectable ln src s) = scrubFrame c s := by
  have hspan (pa : PA) (u : State) : scrubFrame c (reportSpan pa u) = scrubFrame c u := by
    rw [reportSpan]
    split <;> rfl
  unfold homeUncorrectable
  extract_lets d loc u v
  refine (hspan _ _).trans ?_
  have hmc : scrubFrame c v = scrubFrame c u := by
    refine scrubFrame_modMc c _ ?_ _
    exact fun _ => rfl
  rw [scrubFrame_record, hmc, scrubFrame_setHbmLine, scrubFrame_bump]

theorem scrubFrame_meetHome (c : Nat) (src : BitVec 3) (corr uncorr loc : Nat) (s : State) :
    scrubFrame c (meetHome src (some corr) (some uncorr) loc s) = scrubFrame c s := by
  obtain h | ⟨l, h⟩ | ⟨src', h⟩ := meetHome_cases src corr uncorr loc s
  · rw [h]
  · rw [h]
    exact scrubFrame_setHbmLine ..
  · rw [h]
    exact scrubFrame_homeUncorrectable ..

/-- The error that a command puts at a line's home, before the home agent meets it. -/
def scrubStrike (ln : Nat) (err : CacheErr) (s : State) : State :=
  match err with
  | .homeCorr | .homeUncorr | .tagUncorr => strikeSome 0 ln err s
  | _ => s

/-- An error at home changes the state of one line's cells alone. -/
theorem scrubStrike_cases (ln : Nat) (err : CacheErr) (s : State) :
    scrubStrike ln err s = s ∨ scrubStrike ln err s = (s.pick 16).2 ∨
      ∃ e, scrubStrike ln err s = (s.pick 16).2.modMc (lineAgent ln) fun m =>
        { m with cells := Tab.set CellErr.clean m.cells (lineLocal ln / 64) e } := by
  have hhome {c : CellErr} (heq : scrubStrike ln err s = (if lineNode ln = s.node ∧ inData s (lineLocal ln) then
      (s.pick 16).2.modMc (lineAgent ln) fun m => { m with cells := Tab.set CellErr.clean m.cells (lineLocal ln / 64) c }
      else (s.pick 16).2)) : scrubStrike ln err s = (s.pick 16).2 ∨
        ∃ e, scrubStrike ln err s = (s.pick 16).2.modMc (lineAgent ln) fun m =>
          { m with cells := Tab.set CellErr.clean m.cells (lineLocal ln / 64) e } := by
    rw [heq]
    split
    · exact .inr ⟨c, rfl⟩
    · exact .inl rfl
  cases err with
  | homeCorr => exact .inr (hhome rfl)
  | homeUncorr => exact .inr (hhome rfl)
  | tagUncorr =>
    refine .inr ?_
    by_cases ht : (s.mc (lineAgent ln)).tagc.contains (lineLocal ln / 256) = true
    · exact hhome (if_pos ht)
    · exact .inl (if_neg ht)
  | _ => exact .inl rfl

theorem scrubFrame_strike (c ln : Nat) (err : CacheErr) (s : State) : scrubFrame c (scrubStrike ln err s) = scrubFrame c s := by
  obtain h | h | ⟨e, h⟩ := scrubStrike_cases ln err s
  · rw [h]
  · rw [h]
    rfl
  · rw [h]
    refine (scrubFrame_modMc c _ ?_ _).trans rfl
    exact fun _ => rfl

theorem node_strike (ln : Nat) (err : CacheErr) (s : State) : (scrubStrike ln err s).node = s.node := by
  obtain h | h | ⟨e, h⟩ := scrubStrike_cases ln err s <;> rw [h] <;> rfl

/-- A scrub finds its home agent as it was, whatever error it meets. -/
theorem homeBusy_strike (ln : Nat) (err : CacheErr) (r : HomeReq) (s : State) :
    homeBusy (scrubStrike ln err s) r = homeBusy s r := by
  have hmc (u : State) (c : Nat) (f : McSt → McSt) (hf : ∀ m, (f m).wipeBusy = m.wipeBusy) :
      homeBusy (u.modMc c f) r = homeBusy u r := by
    have hw : ((u.modMc c f).mc (lineAgent r.line)).wipeBusy = (u.mc (lineAgent r.line)).wipeBusy := by
      by_cases h : lineAgent r.line = c
      · rw [← h, State.mc_modMc, hf]
      · rw [State.mc_modMc_ne _ _ h]
    unfold homeBusy
    rw [hw]
    rfl
  obtain h | h | ⟨e, h⟩ := scrubStrike_cases ln err s
  · rw [h]
  · rw [h]
    rfl
  · rw [h]
    exact hmc _ _ _ fun _ => rfl

/-- A request at a home agent that is idle and serves nothing else. -/
theorem homeBusy_idle {s : State} {r : HomeReq} (ht : s.bl.txns = []) (hw : s.bl.homeWait = [])
    (hm : (s.mc (lineAgent r.line)).wipeBusy = false) : homeBusy s r = false := by
  simp [homeBusy, inFlight, ht, hw, hm]

/-- The position after a scrub. -/
def scrubNext (b : Build) (c p : Nat) (m : McSt) : McSt :=
  if homedLine c (p + 1) < sidecarBase b then { m with scrubPos := BitVec.ofNat 28 (p + 1) }
  else { m with scrubPos := 0, scrubDone := true }

theorem scrubRead_off {s : State} {n : BitVec 2} {err : CacheErr}
    (h : (s.mc n.toNat).scrubEn = false ∨ (s.mc n.toNat).wipeBusy = true ∨ s.pf = true) :
    exec (.scrubRead n err) s = .next s := by
  refine congrArg Host.Outcome.next (if_pos ?_)
  rcases h with h | h | h <;> simp [h]

section
variable {s : State} {n : BitVec 2} (he : (s.mc n.toNat).scrubEn = true) (hw : (s.mc n.toNat).wipeBusy = false)
  (hp : s.pf = false)
include he hw hp

theorem scrubRead_on (err : CacheErr) {ln : Nat} {u : State}
    (hln : ln = lineNo (mkPa s.node (homedLine n.toNat (s.mc n.toNat).scrubPos.toNat)))
    (hu : homeRequest ⟨s.node, 0, 0, none⟩ .scrub ln (scrubStrike ln err s) = u) :
    exec (.scrubRead n err) s = .next (u.modMc n.toNat (scrubNext u.build n.toNat (s.mc n.toNat).scrubPos.toNat)) := by
  rw [← node_strike ln err s] at hu
  subst hu hln
  refine congrArg Host.Outcome.next ((if_neg ?_).trans rfl)
  simp [he, hw, hp]

/-- A scrub that meets a request for its line waits its turn. -/
theorem scrubRead_waits {q : HomeReq}
    (hq : q = ⟨lineNo (mkPa s.node (homedLine n.toNat (s.mc n.toNat).scrubPos.toNat)), ⟨s.node, 0, 0, none⟩, .scrub⟩)
    (hb : homeBusy s q = true) :
    ∃ t, exec (.scrubRead n .none) s = .next t ∧ t.bl.homeWait = s.bl.homeWait ++ [q] ∧ t.hbm = s.hbm := by
  have hreq : homeRequest ⟨s.node, 0, 0, none⟩ .scrub q.line s =
      { s with bl := { s.bl with homeWait := s.bl.homeWait ++ [q] } } := by
    subst hq
    exact (if_pos hb).trans (if_neg fun h => absurd h.1 (by simp [forLantern]))
  exact ⟨_, scrubRead_on he hw hp .none (congrArg HomeReq.line hq) hreq, rfl, rfl⟩

end

/-! What a scrub of a line without an error finds, and what it finds of an error that is put there. -/

theorem scrubLine_eq {c loc ln : Nat} {v : State} (ha : lineAgent ln = c) (hl : lineLocal ln = loc) :
    scrubLine ln v = meetHome 2 (some (Cnt.mcScrubCorr c)) (some (Cnt.mcScrubUncorr c)) loc v := by
  subst ha hl
  rfl

section
variable {s : State} {c loc ln : Nat} (hc : homeAgent loc = c) (hn : lineNode ln = s.node) (ha : lineAgent ln = c)
  (hl : lineLocal ln = loc) (hin : inData s loc = true) (hraw : Tab.get none (s.mc c).rawChecks (loc / 64) = none)
include hc ha hl hraw

theorem scrubLine_clean (hcell : Tab.get CellErr.clean (s.mc c).cells (loc / 64) = .clean) : scrubLine ln s = s := by
  rw [scrubLine_eq ha hl]
  unfold meetHome
  simp only [hc, hraw, hcell, Option.map_none]

include hn hin

/-- The state in which the home agent meets an error that is put at a line's home. -/
theorem scrubStrike_home {err : CacheErr} {e : CellErr} (h : (err, e) = (.homeCorr, .corr) ∨ (err, e) = (.homeUncorr, .uncorr)) :
    ∃ v, scrubStrike ln err s = v ∧ v.hbm = s.hbm ∧ v.build = s.build ∧ v.node = s.node ∧ v.cnt = s.cnt ∧
      Tab.get none (v.mc c).rawChecks (loc / 64) = none ∧ Tab.get CellErr.clean (v.mc c).cells (loc / 64) = e := by
  have hat : lineNode ln = s.node ∧ inData s (lineLocal ln) = true := ⟨hn, hl ▸ hin⟩
  refine ⟨(s.pick 16).2.modMc c fun m => { m with cells := Tab.set CellErr.clean m.cells (loc / 64) e }, ?_, rfl, rfl, rfl, rfl, ?_, ?_⟩
  · subst ha hl
    rcases h with h | h
    all_goals
      obtain ⟨rfl, rfl⟩ := Prod.mk.inj h
      exact if_pos hat
  · rw [State.mc_modMc]
    exact hraw
  · rw [State.mc_modMc]
    exact Tab.get_set_self ..

theorem scrubLine_corrects : ∃ v, v.hbm = s.hbm ∧ v.build = s.build ∧ v.cnt = s.cnt ∧
    scrubLine ln (scrubStrike ln .homeCorr s) = bump (Cnt.mcScrubCorr c) (setHbmLine loc (hbmLine v loc) v) := by
  obtain ⟨v, hv, hhbm, hbuild, -, hcnt, hraw', hcell⟩ := scrubStrike_home hc hn ha hl hin hraw (.inl rfl)
  refine ⟨v, hhbm, hbuild, hcnt, ?_⟩
  rw [hv, scrubLine_eq ha hl]
  unfold meetHome
  simp only [hc, hraw', hcell, Option.map_none]

theorem scrubLine_poisons : ∃ v, v.hbm = s.hbm ∧ v.build = s.build ∧ v.cnt = s.cnt ∧ v.node = s.node ∧
    scrubLine ln (scrubStrike ln .homeUncorr s) =
      homeUncorrectable (lineNo (mkPa s.node loc)) 2 (bump (Cnt.mcScrubUncorr c) v) := by
  obtain ⟨v, hv, hhbm, hbuild, hnode, hcnt, hraw', hcell⟩ := scrubStrike_home hc hn ha hl hin hraw (.inr rfl)
  refine ⟨v, hhbm, hbuild, hcnt, hnode, ?_⟩
  rw [hv, scrubLine_eq ha hl]
  unfold meetHome
  simp only [hc, hraw', hcell, Option.map_none, hnode]

end

theorem cnt_setHbmLine (loc : Nat) (l : Line) (s : State) : (setHbmLine loc l s).cnt = s.cnt := by
  rw [setHbmLine, setHbmWords_eq]
  rfl

theorem build_setHbmLine (loc : Nat) (l : Line) (s : State) : (setHbmLine loc l s).build = s.build := by
  rw [setHbmLine, setHbmWords_eq]
  rfl

/-- The report of an error at home leaves the memory and the counters as they are. -/
theorem homeReport_keeps (pa : PA) (sev src reason a0 a1 a2 a3 a4) (c : Nat) (f : McSt → McSt) (s : State) :
    (reportSpan pa (record sev src reason a0 a1 a2 a3 a4 (s.modMc c f))).hbm = s.hbm ∧
      (reportSpan pa (record sev src reason a0 a1 a2 a3 a4 (s.modMc c f))).build = s.build ∧
      (reportSpan pa (record sev src reason a0 a1 a2 a3 a4 (s.modMc c f))).cnt = s.cnt := by
  rw [reportSpan]
  split <;> exact ⟨rfl, rfl, rfl⟩

/-- An uncorrectable error at home leaves POISON and one count. -/
theorem homeUncorrectable_leaves (ln : Nat) (src : BitVec 3) (s : State) :
    ∃ u, u = bump (Cnt.mcUncorr (lineAgent ln)) s ∧
      (homeUncorrectable ln src s).hbm = (setHbmLine (lineLocal ln) (lineOf (MWord.poison 1)) u).hbm ∧
      (homeUncorrectable ln src s).build = u.build ∧ (homeUncorrectable ln src s).cnt = u.cnt := by
  refine ⟨_, rfl, ?_⟩
  unfold homeUncorrectable
  dsimp only
  obtain ⟨hhbm, hbuild, hcnt⟩ := homeReport_keeps (linePa ln) 2 (0x80 + BitVec.ofNat 8 (lineAgent ln)) 0x60
    (BitVec.ofNat 64 (lineLocal ln)) (src.setWidth 64) 0 0 0 (lineAgent ln) (fun m =>
      { m with laste := (1 : BitVec 1) ++ (0 : BitVec 23) ++ src ++ BitVec.ofNat 37 (lineLocal ln / 64 * 64) })
    (setHbmLine (lineLocal ln) (lineOf (MWord.poison 1)) (bump (Cnt.mcUncorr (lineAgent ln)) s))
  exact ⟨hhbm, hbuild.trans (build_setHbmLine ..), hcnt.trans (cnt_setHbmLine ..)⟩

theorem hbmLine_bump (k : Nat) (s : State) (loc : Nat) : hbmLine (bump k s) loc = hbmLine s loc := hbmLine_congr rfl rfl loc

theorem build_bump (k : Nat) (s : State) : (bump k s).build = s.build := rfl

/-- A count by the counters alone. -/
theorem bump_counter_congr {s t : State} (h : t.cnt = s.cnt) (k j : Nat) : (bump k t).counter j = (bump k s).counter j := by
  simp only [bump, bumpBy, State.counter, h]

theorem counts_zero {s t : State} (k : Nat) (h : t.counter k = s.counter k) : Counts s t k 0 := by
  have hlt := (s.counter k).isLt
  rw [Counts, h, counter_bumpBy]
  apply BitVec.eq_of_toNat_eq
  rw [BitVec.toNat_ofNat]
  omega

theorem counter_of_cnt {s t : State} (h : t.cnt = s.cnt) (k : Nat) : t.counter k = s.counter k := by
  rw [State.counter, h]
  rfl

section
variable {s : State} {c loc ln : Nat} (hc : homeAgent loc = c) (hn : lineNode ln = s.node) (ha : lineAgent ln = c)
  (hl : lineLocal ln = loc) (hin : inData s loc = true) (hraw : Tab.get none (s.mc c).rawChecks (loc / 64) = none)
  (hmod : loc % 64 = 0) (hln : ln = lineNo (mkPa s.node loc))
  (hcell : Tab.get CellErr.clean (s.mc c).cells (loc / 64) = .clean)
include hc hn ha hl hin hraw hmod hln hcell

/-- What a scrub counts and leaves, by the error that the command puts at the line's home. -/
theorem scrubLine_counts {err : CacheErr} (he : err ≠ .tagUncorr) {t : State} (ht : scrubLine ln (scrubStrike ln err s) = t) :
    Counts s t (Cnt.mcScrubCorr c) (if err = .homeCorr then 1 else 0) ∧
      Counts s t (Cnt.mcScrubUncorr c) (if err = .homeUncorr then 1 else 0) ∧
      (err = .homeUncorr → hbmLine t loc = lineOf (MWord.poison 1)) ∧
      (err ≠ .homeUncorr → hbmLine t loc = hbmLine s loc) := by
  have hdata : loc < sidecarBase s.build := of_decide_eq_true hin
  have hsep : Cnt.mcScrubUncorr c ≠ Cnt.mcScrubCorr c ∧ Cnt.mcScrubUncorr c ≠ Cnt.mcUncorr c ∧
      Cnt.mcScrubCorr c ≠ Cnt.mcUncorr c := by
    simp only [Cnt.mcScrubUncorr, Cnt.mcScrubCorr, Cnt.mcUncorr]
    omega
  obtain ⟨hne, hneU, hneC⟩ := hsep
  by_cases h1 : err = .homeCorr
  · subst h1
    obtain ⟨v, hhbm, hbuild, hcnt, hv⟩ := scrubLine_corrects hc hn ha hl hin hraw
    rw [hv] at ht
    have hcount (j : Nat) : t.counter j = (bump (Cnt.mcScrubCorr c) s).counter j := by
      rw [← ht]
      exact bump_counter_congr ((cnt_setHbmLine ..).trans hcnt) ..
    have hsame : hbmLine t loc = hbmLine s loc := by
      rw [← ht]
      rw [hbmLine_bump, hbmLine_setHbmLine hmod (hbuild ▸ hdata) (hbmLine_length ..), hbmLine_congr hbuild hhbm]
    exact ⟨hcount _, counts_zero _ ((hcount _).trans (counter_bumpBy_ne s 1 hne)), nofun, fun _ => hsame⟩
  by_cases h2 : err = .homeUncorr
  · subst h2
    obtain ⟨v, hhbm, hbuild, hcnt, hnode, hv⟩ := scrubLine_poisons hc hn ha hl hin hraw
    obtain ⟨u, hu, huhbm, hubuild, hucnt⟩ := homeUncorrectable_leaves ln 2 (bump (Cnt.mcScrubUncorr c) v)
    rw [hv, ← hln] at ht
    rw [ht] at huhbm hubuild hucnt
    rw [ha] at hu
    rw [hl] at huhbm
    have hcount {j : Nat} (hj : j ≠ Cnt.mcUncorr c) : t.counter j = (bump (Cnt.mcScrubUncorr c) s).counter j := by
      rw [counter_of_cnt hucnt, hu]
      exact (counter_bumpBy_ne _ 1 hj).trans (bump_counter_congr hcnt ..)
    have hbad : hbmLine t loc = lineOf (MWord.poison 1) := by
      have hub : u.build = s.build := by rw [hu, build_bump, build_bump, hbuild]
      rw [hbmLine_congr (hubuild.trans (build_setHbmLine ..).symm) huhbm,
        hbmLine_setHbmLine (l := lineOf (MWord.poison 1)) hmod (hub ▸ hdata) List.length_replicate]
    exact ⟨counts_zero _ ((hcount hneC).trans (counter_bumpBy_ne s 1 hne.symm)), hcount hneU, fun _ => hbad, fun h => absurd rfl h⟩
  · have hstrike : scrubStrike ln err s = s := by
      cases err with
      | homeCorr => exact absurd rfl h1
      | homeUncorr => exact absurd rfl h2
      | tagUncorr => exact absurd rfl he
      | _ => rfl
    rw [hstrike, scrubLine_clean hc ha hl hraw hcell] at ht
    subst ht
    rw [if_neg h1, if_neg h2]
    exact ⟨counts_zero _ rfl, counts_zero _ rfl, fun h => absurd h h2, fun _ => rfl⟩

end

/-- The position after a scrub, and what it says of a pass. -/
theorem scrubNext_pos {b : Build} {c p : Nat} (m : McSt) :
    (homedLine c (p + 1) < sidecarBase b → p + 1 < 2 ^ 28 →
      (scrubNext b c p m).scrubPos.toNat = p + 1 ∧ (scrubNext b c p m).scrubDone = m.scrubDone) ∧
    (sidecarBase b ≤ homedLine c (p + 1) → (scrubNext b c p m).scrubPos = 0 ∧ (scrubNext b c p m).scrubDone = true) := by
  refine ⟨fun h hp => ?_, fun h => ?_⟩
  · rw [scrubNext, if_pos h]
    exact ⟨(BitVec.toNat_ofNat ..).trans (Nat.mod_eq_of_lt hp), rfl⟩
  · rw [scrubNext, if_neg (Nat.not_lt.2 h)]
    exact ⟨rfl, rfl⟩

section
variable {s : State} {n : BitVec 2} (he : (s.mc n.toNat).scrubEn = true) (hw : (s.mc n.toNat).wipeBusy = false)
  (hp : s.pf = false) (ht : s.bl.txns = []) (hq : s.bl.homeWait = [])
include he hw hp ht hq

/-- A scrub of an idle home agent. -/
theorem scrubRead_idle (err : CacheErr) {p loc : Nat} (hpos : p = (s.mc n.toNat).scrubPos.toNat) (hloc : loc = homedLine n.toNat p) :
    ∃ t, exec (.scrubRead n err) s = .next t ∧ t.ctxs = s.ctxs ∧
      (inData s loc = true → Tab.get none (s.mc n.toNat).rawChecks (loc / 64) = none →
        Tab.get CellErr.clean (s.mc n.toNat).cells (loc / 64) = .clean → err ≠ .tagUncorr →
        Counts s t (Cnt.mcScrubCorr n.toNat) (if err = .homeCorr then 1 else 0) ∧
        Counts s t (Cnt.mcScrubUncorr n.toNat) (if err = .homeUncorr then 1 else 0) ∧
        (err = .homeUncorr → hbmLine t loc = lineOf (MWord.poison 1)) ∧
        (err ≠ .homeUncorr → hbmLine t loc = hbmLine s loc)) ∧
      (homedLine n.toNat (p + 1) < sidecarBase s.build → p + 1 < 2 ^ 28 →
        (t.mc n.toNat).scrubPos.toNat = p + 1 ∧ (t.mc n.toNat).scrubDone = (s.mc n.toNat).scrubDone) ∧
      (sidecarBase s.build ≤ homedLine n.toNat (p + 1) → (t.mc n.toNat).scrubPos = 0 ∧ (t.mc n.toNat).scrubDone = true) := by
  have hlt : loc < 2 ^ 37 := hloc ▸ homedLine_lt _ (hpos ▸ (s.mc n.toNat).scrubPos.isLt)
  have hmod : loc % 64 = 0 := hloc ▸ homedLine_mod ..
  have hagent : homeAgent loc = n.toNat := hloc ▸ homeAgent_homedLine n.isLt p
  obtain ⟨ln, hln⟩ : ∃ ln, ln = lineNo (mkPa s.node loc) := ⟨_, rfl⟩
  have hlocal : lineLocal ln = loc := hln ▸ lineLocal_mkPa _ hlt hmod
  have hhome : lineAgent ln = n.toNat := by rw [hln, lineAgent_mkPa _ hlt hmod, hagent]
  have hnode : lineNode ln = s.node := hln ▸ lineNode_mkPa ..
  have hidle : homeBusy (scrubStrike ln err s) ⟨ln, ⟨s.node, 0, 0, none⟩, .scrub⟩ = false := by
    rw [homeBusy_strike]
    refine homeBusy_idle ht hq ?_
    rw [hhome, hw]
  obtain ⟨u, hu⟩ : ∃ u, scrubLine ln (scrubStrike ln err s) = u := ⟨_, rfl⟩
  have hreq : homeRequest ⟨s.node, 0, 0, none⟩ .scrub ln (scrubStrike ln err s) = u := by
    rw [homeRequest, hidle, dirVictim_scrub, homeServe_scrub, hu]
    rfl
  have hframe : scrubFrame n.toNat u = scrubFrame n.toNat s := by
    rw [← hu, ← scrubFrame_strike n.toNat ln err s]
    exact scrubFrame_meetHome ..
  have hbuild : u.build = s.build := congrArg (fun f => f.1) hframe
  have hctxs : u.ctxs = s.ctxs := congrArg (fun f => f.2.1) hframe
  have hdone : (u.mc n.toNat).scrubDone = (s.mc n.toNat).scrubDone := congrArg (fun f => f.2.2) hframe
  have hpos' := scrubNext_pos (b := u.build) (c := n.toNat) (p := p) (u.mc n.toNat)
  refine ⟨_, scrubRead_on he hw hp err (by rw [hln, hloc, hpos]) hreq, hctxs, fun hin hraw hcell herr => ?_, ?_, ?_⟩
  · have hcounts := scrubLine_counts hagent hnode hhome hlocal hin hraw hmod hln hcell herr hu
    exact hcounts
  · rw [← hpos, State.mc_modMc, ← hbuild, ← hdone]
    exact hpos'.1
  · rw [← hpos, State.mc_modMc, ← hbuild]
    exact hpos'.2

end

end Sys2Proof.Machine
end

section
open Sys2Proof.Machine

/-- Settles O41: each happening reads the buffer it drains; a scrub takes nothing from a cache and is served by its own
controller, because the lines that a controller homes hash to it. -/
theorem bufferDrains : Obligations.BufferDrains := by
  unfold Obligations.BufferDrains
  intro s u k c b bs m ms l r rs n err
  exact ⟨barrierBufferDrain_empty,
    fun h => ⟨barrierBufferDrain_full h, fun hl => ⟨barrierBufferDrain_stored h hl, barrierBufferDrain_performed h hl⟩⟩,
    logEscape_ring b s, fun h => ⟨logEscape_overflow b s h, logEscape_none b s h⟩,
    storeWaitResume_wakes, storeWaitResume_idle, mergeBufferDrain_empty,
    fun h => ⟨mergeBufferDrain_written h, fun _ f => mergeBufferDrain_waits h f⟩,
    rangeOpDone_idle, fun h _ => rangeOpDone_ends h, scrubRead_off,
    fun he hw hp _ => scrubRead_waits he hw hp,
    fun he hw hp ht hq _ _ => scrubRead_idle he hw hp ht hq err⟩

end

section
namespace Sys2Proof.Machine

/-! ### What the copies of lines leave as it is (13 R410, R411) -/

/-- The lines in the L2s, the controllers, the memory, the counters and the fabric. -/
structure Stores where
  l2 : Lan → Nat → L2Line
  mcs : Tab McSt
  hbm : List Host.Cell
  cnt : Tab Word
  build : Build
  node : BitVec 16
  bl : BlSt

def stores (s : State) : Stores := ⟨s.l2, s.mcs, s.hbm, s.cnt, s.build, s.node, s.bl⟩

theorem l2_of_stores {s t : State} (h : stores t = stores s) (l : Lan) (ln : Nat) : t.l2 l ln = s.l2 l ln :=
  congrFun (congrFun (congrArg Stores.l2 h) l) ln

theorem mcs_of_stores {s t : State} (h : stores t = stores s) : t.mcs = s.mcs := congrArg Stores.mcs h
theorem hbm_of_stores {s t : State} (h : stores t = stores s) : t.hbm = s.hbm := congrArg Stores.hbm h
theorem cnt_of_stores {s t : State} (h : stores t = stores s) : t.cnt = s.cnt := congrArg Stores.cnt h

theorem stores_foldl {α : Type} {f : State → α → State} (h : ∀ s a, stores (f s a) = stores s) (l : List α) (s : State) :
    stores (l.foldl f s) = stores s := by
  induction l generalizing s with
  | nil => rfl
  | cons a r ih => exact (ih _).trans (h s a)

theorem stores_dropL1d (l : Lan) (ln : Nat) (s : State) : stores (dropL1d l ln s) = stores s := by
  refine stores_foldl (fun s k => ?_) _ s
  split <;> rfl

theorem stores_fillL1 (k : CoreId) (code : Bool) (ln : Nat) (s : State) : stores (fillL1 k code ln s) = stores s := by
  unfold fillL1
  dsimp only
  split <;> rfl

/-- Changes of a lantern beside its lines. -/
theorem stores_modLan (s : State) (l : Lan) {f : LanSt → LanSt} (hf : ∀ a, (f a).l2 = a.l2) : stores (s.modLan l f) = stores s := by
  have hl2 : (s.modLan l f).l2 = s.l2 := by
    funext m ln
    by_cases h : m = l
    · subst h
      rw [State.l2, State.lan_modLan, hf]
      rfl
    · rw [State.l2, State.lan_modLan_ne _ _ h]
      rfl
  simp [stores, hl2]

theorem stores_touchL2 (l : Lan) (ln : Nat) (s : State) : stores (touchL2 l ln s) = stores s := by
  refine stores_modLan s l ?_
  exact fun _ => rfl

theorem stores_runFills (l : Lan) (ln : Nat) (s : State) : stores (runFills l ln s) = stores s := by
  unfold runFills
  dsimp only
  split
  · rfl
  · have hbook : stores (s.modLan l fun a => { a with fills := a.fills.filter fun f => f.1 ≠ ln }) = stores s := by
      refine stores_modLan s l ?_
      exact fun _ => rfl
    refine Eq.trans (stores_foldl ?_ _ _) hbook
    exact fun _ _ => stores_fillL1 ..

theorem stores_resched (k : CoreId) (s : State) : stores (resched k s) = stores s := by
  unfold resched
  split
  · rfl
  split
  · rfl
  split
  · rfl
  · split <;> rfl

theorem stores_wakeCtx (c : CtxId) (s : State) : stores (wakeCtx c s) = stores s :=
  stores_resched _ _

theorem stores_wakeRemote (l : Lan) (s : State) : stores (wakeRemote l s) = stores s := by
  refine stores_foldl (fun s c => ?_) _ s
  split
  · exact stores_wakeCtx c s
  · rfl

/-! ### Lines of an L2 and entries of a directory -/

theorem l2_of_lans {s t : State} (h : t.lans = s.lans) (l : Lan) (ln : Nat) : t.l2 l ln = s.l2 l ln := by
  rw [State.l2, State.lan, h]
  rfl

theorem l2_setDir (ln : Nat) (e : DirEnt) (s : State) (l : Lan) (k : Nat) : (setDir ln e s).l2 l k = s.l2 l k :=
  l2_of_lans rfl l k

theorem l2_setL2_self (l : Lan) (ln : Nat) (x : L2Line) (s : State) : (setL2 l ln x s).l2 l ln = x := by
  rw [State.l2, setL2, State.lan_modLan]
  exact Tab.get_set_self ..

theorem l2_setL2_ne {l m : Lan} {ln k : Nat} (x : L2Line) (s : State) (h : ¬ (m = l ∧ k = ln)) :
    (setL2 l ln x s).l2 m k = s.l2 m k := by
  by_cases hm : m = l
  · subst hm
    rw [State.l2, setL2, State.lan_modLan]
    exact Tab.get_set_ne _ _ _ fun hk => h ⟨rfl, hk⟩
  · rw [State.l2, setL2, State.lan_modLan_ne _ _ hm]
    rfl

theorem l2_invalidate_self (l : Lan) (ln : Nat) (s : State) : (invalidate l ln s).l2 l ln = L2Line.none := l2_setL2_self ..

theorem l2_invalidate_ne {l m : Lan} {ln k : Nat} (s : State) (h : ¬ (m = l ∧ k = ln)) :
    (invalidate l ln s).l2 m k = s.l2 m k :=
  (l2_setL2_ne _ _ h).trans (l2_of_stores (stores_dropL1d l ln s) m k)

/-- A line dropped from an L2 changes the lines of the lantern and the L1s of its cores alone. -/
theorem invalidate_keeps (l : Lan) (ln : Nat) (s : State) :
    (invalidate l ln s).mcs = s.mcs ∧ (invalidate l ln s).hbm = s.hbm ∧ (invalidate l ln s).build = s.build ∧
      (invalidate l ln s).node = s.node ∧ (invalidate l ln s).bl = s.bl := by
  have hset (u : State) (h : stores u = stores s) : (setL2 l ln L2Line.none u).mcs = s.mcs ∧
      (setL2 l ln L2Line.none u).hbm = s.hbm ∧ (setL2 l ln L2Line.none u).build = s.build ∧
      (setL2 l ln L2Line.none u).node = s.node ∧ (setL2 l ln L2Line.none u).bl = s.bl :=
    ⟨congrArg Stores.mcs h, congrArg Stores.hbm h, congrArg Stores.build h, congrArg Stores.node h, congrArg Stores.bl h⟩
  exact hset _ (stores_dropL1d l ln s)

theorem dirEnt_of_mcs {s t : State} (h : t.mcs = s.mcs) (ln : Nat) : t.dirEnt ln = s.dirEnt ln := by
  rw [State.dirEnt, State.mc, h]
  rfl

/-- An entry written to a directory, but for its order of use. -/
theorem dirEnt_setDir (ln : Nat) (e : DirEnt) (s : State) :
    ((setDir ln e s).dirEnt ln).owner = e.owner ∧ ((setDir ln e s).dirEnt ln).sharers = e.sharers := by
  have hent : (setDir ln e s).dirEnt ln = if e.owner = none ∧ e.sharers = [] ∧ e.coarse = none then DirEnt.none
      else { e with used := (s.mc (lineAgent ln)).dirClock + 1 } := by
    rw [State.dirEnt, setDir, State.mc_modMc]
    exact Tab.get_set_self ..
  rw [hent]
  split
  case isTrue h =>
    obtain ⟨ho, hs, -⟩ := h
    rw [ho, hs]
    exact ⟨rfl, rfl⟩
  case isFalse => exact ⟨rfl, rfl⟩

/-! A write of a line at home changes neither a lantern nor the fabric. -/

theorem lans_setHbmLine (loc : Nat) (l : Line) (s : State) : (setHbmLine loc l s).lans = s.lans := by
  rw [setHbmLine, setHbmWords_eq]
  rfl

theorem lans_touchTag (c loc : Nat) (s : State) : (touchTag c loc s).lans = s.lans := by
  unfold touchTag
  dsimp only
  split <;> rfl

/-- A line that an access of memory touches in the tag cache. -/
theorem touchTag_keeps (c loc : Nat) (s : State) :
    (touchTag c loc s).hbm = s.hbm ∧ (touchTag c loc s).build = s.build ∧ (touchTag c loc s).node = s.node ∧
      (touchTag c loc s).ctxs = s.ctxs := by
  unfold touchTag
  dsimp only
  split <;> exact ⟨rfl, rfl, rfl, rfl⟩

theorem takeInbox_nil {s : State} (ok : Pkt → Bool) (h : s.bl.inbox = []) : takeInbox ok s = s := by
  rw [takeInbox, h]
  rfl

/-- A line without an error is met as it is. -/
theorem meetL2_clean {l : Lan} {ln : Nat} {s : State} (he : (s.l2 l ln).errs = []) (hk : (s.l2 l ln).key = .clean) :
    meetL2 l ln s = s := if_pos (.inr ⟨he, hk⟩)

theorem evict_clean {l : Lan} {ln : Nat} {s : State} (he : (s.l2 l ln).errs = []) (hk : (s.l2 l ln).key = .clean) :
    evict l ln s = leaveL2 l ln s := congrArg (leaveL2 l ln) (meetL2_clean he hk)

/-! ### What leaves an L2 -/

theorem writeBack_unheld {s : State} {l : Lan} {pa : PA} {words : List MWord} (h : s.l2 l (lineNo pa) = L2Line.none) :
    exec (.writeBack s.node l pa words) s = .next s ∧ exec (.evictionNotice s.node l pa) s = .next s := by
  refine ⟨congrArg Host.Outcome.next ((if_pos rfl).trans (if_neg ?_)), congrArg Host.Outcome.next ((if_pos rfl).trans (if_neg ?_))⟩ <;>
  · rw [h]
    simp [L2Line.none]

section
variable {s : State} {l : Lan} {pa : PA} {ln : Nat} {d : Line} (hln : ln = lineNo pa) (hnode : lineNode ln = s.node)
  (ho : (s.dirEnt ln).owner = some ⟨s.node, l⟩)
include hln hnode ho

/-- A line in M is written home as it leaves (R410). -/
theorem writeBack_leaves {words : List MWord} (hl2 : s.l2 l ln = ⟨.M, d, [], .clean⟩) (hd : d.length = 16)
    (hdata : localOf pa < sidecarBase s.build) :
    ∃ t, exec (.writeBack s.node l pa words) s = .next t ∧ (t.l2 l ln).st = .I ∧ (t.dirEnt ln).owner = none ∧
      hbmLine t (lineLocal ln) = d := by
  have hst : (s.l2 l ln).st = .M := by rw [hl2]
  have hwords : (s.l2 l ln).words = d := by rw [hl2]
  obtain ⟨v, hv⟩ : ∃ v, v = invalidate l ln s := ⟨_, rfl⟩
  have hvl2 : v.l2 l ln = L2Line.none := hv ▸ l2_invalidate_self ..
  obtain ⟨hmcs, -, hvbuild, -, -⟩ := invalidate_keeps l ln s
  rw [← hv] at hmcs hvbuild
  have hvdir : v.dirEnt ln = s.dirEnt ln := dirEnt_of_mcs hmcs ln
  have hexec : exec (.writeBack s.node l pa words) s = .next (homeWriteBack ⟨s.node, l⟩ ln d .I v) := by
    refine congrArg Host.Outcome.next ((if_pos rfl).trans ((if_pos (.inl (hln ▸ hst))).trans ?_))
    rw [← hln, evict_clean (by rw [hl2]) (by rw [hl2])]
    unfold leaveL2
    dsimp only
    rw [hst, hwords]
    dsimp only
    rw [if_pos hnode, hv]
    rfl
  have hback : homeWriteBack ⟨s.node, l⟩ ln d .I v = setDir ln { s.dirEnt ln with owner := none } (homeWrite (lineLocal ln) d v) := by
    rw [homeWriteBack, hvdir, if_pos ho]
  obtain ⟨hhbm, hbuild, -, -⟩ := touchTag_keeps (homeAgent (lineLocal ln)) (lineLocal ln) v
  refine ⟨_, hexec, ?_⟩
  rw [hback]
  refine ⟨?_, (dirEnt_setDir ..).1, ?_⟩
  · have hlans : (homeWrite (lineLocal ln) d v).lans = v.lans := (lans_setHbmLine ..).trans (lans_touchTag ..)
    rw [l2_setDir, l2_of_lans hlans, hvl2]
    rfl
  · have hlt : lineLocal ln < sidecarBase v.build := by
      rw [hln, lineLocal_lineNo, hvbuild]
      omega
    have hmod : lineLocal ln % 64 = 0 := by
      rw [hln, lineLocal_lineNo]
      omega
    rw [← hbuild] at hlt
    exact (hbmLine_congr rfl rfl _).trans (hbmLine_setHbmLine hmod hlt hd)

/-- The home is told of a clean line that leaves (R410). -/
theorem evictionNotice_leaves (hl2 : s.l2 l ln = ⟨.E, d, [], .clean⟩) :
    ∃ t, exec (.evictionNotice s.node l pa) s = .next t ∧ (t.l2 l ln).st = .I ∧ (t.dirEnt ln).owner = none ∧ t.hbm = s.hbm := by
  have hst : (s.l2 l ln).st = .E := by rw [hl2]
  obtain ⟨v, hv⟩ : ∃ v, v = invalidate l ln s := ⟨_, rfl⟩
  have hvl2 : v.l2 l ln = L2Line.none := hv ▸ l2_invalidate_self ..
  obtain ⟨hmcs, hhbm, -, -, -⟩ := invalidate_keeps l ln s
  rw [← hv] at hmcs hhbm
  have hvdir : v.dirEnt ln = s.dirEnt ln := dirEnt_of_mcs hmcs ln
  have hexec : exec (.evictionNotice s.node l pa) s = .next (homeNotice ⟨s.node, l⟩ ln v) := by
    refine congrArg Host.Outcome.next ((if_pos rfl).trans ((if_pos (.inl (hln ▸ hst))).trans ?_))
    rw [← hln, evict_clean (by rw [hl2]) (by rw [hl2])]
    unfold leaveL2
    dsimp only
    rw [hst]
    dsimp only
    rw [if_pos hnode, hv]
    rfl
  refine ⟨_, hexec, ?_, ?_, hhbm⟩
  · rw [l2_of_lans (show (homeNotice _ ln v).lans = v.lans from rfl), hvl2]
    rfl
  · refine (dirEnt_setDir ..).1.trans ?_
    rw [hvdir, ho]
    exact if_pos rfl

end

end Sys2Proof.Machine
end

section
namespace Sys2Proof.Machine

/-! ### Writes at home (R414, R416, R418) -/

theorem putWords_length (ws : Tab (Option MWord)) (l : Line) : (putWords ws l).length = 16 := by
  simp [putWords]

theorem lineWord_putWords (ws : Tab (Option MWord)) (l : Line) {k : Nat} (hk : k < 16) :
    lineWord (putWords ws l) k = (Tab.get none ws k).getD (lineWord l k) := by
  simp [lineWord, putWords, List.getD, hk]

/-- A block's write, an exchange or a hinted write of a line without copies completes at once. -/
theorem homeServe_unheld {req : Requester} {kind : HomeKind} {ln : Nat} {s : State} (hd : s.dirEnt ln = DirEnt.none)
    (hl : forLantern kind = false) (hs : kind ≠ .scrub) :
    ∃ id, homeServe req kind ln s = homeFinish ⟨id, ln, req, kind, false, 0, none⟩ s := by
  have hshared : kind ≠ .shared := fun h => by simp [h, forLantern] at hl
  have hlost : lostOwner req kind ln s = s := by
    rw [lostOwner, hd]
    exact if_neg fun h => nomatch h.2.1
  have htake : takeLocal none false ln s = (none, s) := by
    simp [takeLocal, hd, DirEnt.none, localHolders]
  refine ⟨s.bl.txNext, ?_⟩
  unfold homeServe
  simp only [hlost, hs, hshared, hl, htake, hd, DirEnt.none, decide_false, Bool.false_eq_true, if_false, if_true, false_or]
  simp [remoteHolders]

theorem homeRequest_served {s : State} {req : Requester} {kind : HomeKind} {ln : Nat} (ht : s.bl.txns = [])
    (hw : s.bl.homeWait = []) (hm : (s.mc (lineAgent ln)).wipeBusy = false) (hr : (s.mc (lineAgent ln)).dir.length < 16) :
    homeRequest req kind ln s = homeServe req kind ln s := by
  have hbusy : homeBusy s ⟨ln, req, kind⟩ = false := homeBusy_idle ht hw hm
  have hvictim : dirVictim s kind ln = none := if_pos (.inr (.inl hr))
  rw [homeRequest, hbusy, hvictim]
  rfl

theorem mc_touchTag (c loc : Nat) (s : State) : ∃ x, (touchTag c loc s).mcs = (s.setMc c { s.mc c with tagc := x }).mcs := by
  unfold touchTag
  dsimp only
  split <;> exact ⟨_, rfl⟩

/-- A line without an error reads as it is. -/
theorem homeRead_clean {s : State} {loc : Nat} (hraw : Tab.get none (s.mc (homeAgent loc)).rawChecks (loc / 64) = none)
    (hcell : Tab.get CellErr.clean (s.mc (homeAgent loc)).cells (loc / 64) = .clean) :
    homeRead loc s = (hbmLine s loc, touchTag (homeAgent loc) loc s) := by
  obtain ⟨x, hx⟩ := mc_touchTag (homeAgent loc) loc s
  have hmc : (touchTag (homeAgent loc) loc s).mc (homeAgent loc) = { s.mc (homeAgent loc) with tagc := x } := by
    rw [State.mc, hx]
    exact Tab.get_set_self ..
  obtain ⟨hhbm, hbuild, -, -⟩ := touchTag_keeps (homeAgent loc) loc s
  have hmeet : meetHome 1 (some (Cnt.mcCorr (homeAgent loc))) none loc (touchTag (homeAgent loc) loc s) =
      touchTag (homeAgent loc) loc s := by
    unfold meetHome
    simp only [hmc, hraw, hcell, Option.map_none]
  rw [homeRead, hmeet, hbmLine_congr hbuild hhbm]

section
variable {s : State} {pa : PA} (h : Served s pa)
include h

/-- What a line at home holds, for a transaction that has no data from a copy. -/
theorem txnData_served {t : HomeTxn} (hd : t.data = none) (hl : t.line = lineNo pa) :
    txnData t s = (hbmLine s (lineLocal (lineNo pa)), touchTag (lineAgent (lineNo pa)) (lineLocal (lineNo pa)) s) := by
  obtain ⟨hraw, hcell⟩ := h.clean
  rw [lineAgent_eq] at hraw hcell ⊢
  rw [txnData, hd, hl]
  exact homeRead_clean hraw hcell

theorem lineLocal_served : lineLocal (lineNo pa) % 64 = 0 ∧ lineLocal (lineNo pa) < sidecarBase s.build := by
  have hdata := h.data
  rw [lineLocal_lineNo]
  omega

theorem request_served (req : Requester) (kind : HomeKind) : homeRequest req kind (lineNo pa) s = homeServe req kind (lineNo pa) s :=
  homeRequest_served h.txns h.waits h.wipe h.room

end

theorem agentWriteLine_kept {s : State} {ln : Nat} (h : lateSpan s (linePa ln) = false) (keep : Bool) (hint : Option Lan)
    (ws : Tab (Option MWord)) : agentWriteLine keep hint ln ws s = physWriteKeep keep hint ln ws s := by
  rw [agentWriteLine, h]
  rfl

/-- A span that no candle has takes no write (R111). -/
theorem uncachedWrite_late {s : State} {pa : PA} (h : lateSpan s (linePa (lineNo pa)) = true) (txid : BitVec 16)
    (ws : List (BitVec 4 × MWord)) : exec (.uncachedWrite s.node txid pa ws) s = .next (bump Cnt.cnLateWrite s) :=
  congrArg Host.Outcome.next ((if_pos rfl).trans (if_pos h))

theorem line_here {s : State} {pa : PA} {ln : Nat} (hln : ln = lineNo pa) (h : Served s pa) :
    nodeOf (linePa ln) = s.node ∧ inDevice (localOf (linePa ln)) = false ∧ inData s (localOf (linePa ln)) = true := by
  obtain ⟨-, hlt⟩ := lineLocal_served h
  have hbase := sidecarBase_le s.build
  refine ⟨?_, decide_eq_false ?_, decide_eq_true ?_⟩
  · rw [hln, ← h.here]
    exact lineNode_lineNo pa
  · rw [hln]
    show ¬ _ ≤ lineLocal (lineNo pa)
    omega
  · rw [hln]
    exact hlt

/-- A write of a block to a line of this node's tagged data is a request to the home agent. -/
theorem physWriteKeep_here {s : State} {pa : PA} {ln : Nat} (hln : ln = lineNo pa) (h : Served s pa) (keep : Bool)
    (ws : Tab (Option MWord)) :
    physWriteKeep keep none ln ws s = homeRequest ⟨s.node, 0, 0, none⟩ (.uncached keep ws) ln s := by
  obtain ⟨hnode, hdevice, hdata⟩ := line_here hln h
  unfold physWriteKeep
  simp [hnode, hdevice, hdata]

/-- A hinted write takes the line for its lantern (R416). -/
theorem physWriteKeep_hinted {s : State} {pa : PA} {ln : Nat} (hln : ln = lineNo pa) (h : Served s pa) (hh : s.cc.hints = true)
    (keep : Bool) (l : Lan) (ws : Tab (Option MWord)) :
    physWriteKeep keep (some l) ln ws s = homeRequest ⟨s.node, l, 0, none⟩ (.hinted l keep ws) ln (bump Cnt.ccHint s) := by
  obtain ⟨hnode, hdevice, hdata⟩ := line_here hln h
  unfold physWriteKeep
  simp [hnode, hdevice, hdata, hh]

theorem ackTo_here {r : Requester} {s : State} (h : r.node = s.node) (ln : Nat) : ackTo r ln s = s := if_pos h

theorem setHbmLine_keeps (loc : Nat) (l : Line) (s : State) :
    (setHbmLine loc l s).node = s.node ∧ (setHbmLine loc l s).ctxs = s.ctxs := by
  rw [setHbmLine, setHbmWords_eq]
  exact ⟨rfl, rfl⟩

/-- Every word of a partial or a whole write of a line without copies comes from the line at home. -/
theorem uncached_data {t : HomeTxn} {s : State} {pa : PA} (h : Served s pa) (hd : t.data = none) (hl : t.line = lineNo pa)
    (n : Nat) : (if n = 16 then wholeLine t s else txnData t s) =
      (hbmLine s (lineLocal (lineNo pa)), touchTag (lineAgent (lineNo pa)) (lineLocal (lineNo pa)) s) := by
  split
  · rw [wholeLine, hd, hl]
    rfl
  · exact txnData_served h hd hl

/-- A line written at home without copies. -/
def homeWritten (ln : Nat) (l : Line) (s : State) : State :=
  setDir ln DirEnt.none (setHbmLine (lineLocal ln) l (touchTag (lineAgent ln) (lineLocal ln) s))

theorem homeWritten_keeps {s : State} {pa : PA} (h : Served s pa) {l : Line} (hl : l.length = 16) :
    hbmLine (homeWritten (lineNo pa) l s) (lineLocal (lineNo pa)) = l ∧ (homeWritten (lineNo pa) l s).ctxs = s.ctxs ∧
      (homeWritten (lineNo pa) l s).node = s.node := by
  obtain ⟨hmod, hlt⟩ := lineLocal_served h
  obtain ⟨-, hbuild, hnode, hctxs⟩ := touchTag_keeps (lineAgent (lineNo pa)) (lineLocal (lineNo pa)) s
  obtain ⟨hnode', hctxs'⟩ := setHbmLine_keeps (lineLocal (lineNo pa)) l (touchTag (lineAgent (lineNo pa)) (lineLocal (lineNo pa)) s)
  rw [← hbuild] at hlt
  exact ⟨(hbmLine_congr rfl rfl _).trans (hbmLine_setHbmLine hmod hlt hl), hctxs'.trans hctxs, hnode'.trans hnode⟩

section
variable {s : State} {pa : PA} {ln : Nat} (hln : ln = lineNo pa) (h : Served s pa) (hd : s.dirEnt ln = DirEnt.none)
include hln h hd

theorem finish_uncached {id : BitVec 16} {req : Requester} (hreq : req.node = s.node) (keep : Bool) (ws : Tab (Option MWord)) :
    homeFinish ⟨id, ln, req, .uncached keep ws, false, 0, none⟩ s =
      homeWritten ln (putWords (keepMarks keep ws (hbmLine s (lineLocal ln))) (hbmLine s (lineLocal ln))) s := by
  subst hln
  have hdata := uncached_data (t := ⟨id, lineNo pa, req, .uncached keep ws, false, 0, none⟩) h rfl rfl ws.length
  obtain ⟨-, -, hnode⟩ := homeWritten_keeps h
    (putWords_length (keepMarks keep ws (hbmLine s (lineLocal (lineNo pa)))) (hbmLine s (lineLocal (lineNo pa))))
  unfold homeFinish
  simp only [hdata, gatheredWrite, Option.isSome_none, Bool.false_eq_true, if_false, ite_self]
  exact ackTo_here (hreq.trans hnode.symm) _

theorem finish_retag {id : BitVec 16} {req : Requester} (hreq : req.node = s.node) (i : Nat) (tag : Byte) :
    homeFinish ⟨id, ln, req, .retag i tag, false, 0, none⟩ s =
      homeWritten ln (putWords [(i, some (MWord.ofTag tag (lineWord (hbmLine s (lineLocal ln)) i).val))] (hbmLine s (lineLocal ln))) s := by
  subst hln
  have hdata := txnData_served (t := ⟨id, lineNo pa, req, .retag i tag, false, 0, none⟩) h rfl rfl
  obtain ⟨-, -, hnode⟩ := homeWritten_keeps h
    (putWords_length [(i, some (MWord.ofTag tag (lineWord (hbmLine s (lineLocal (lineNo pa))) i).val))] (hbmLine s (lineLocal (lineNo pa))))
  unfold homeFinish
  simp only [hdata, gatheredWrite, Option.isSome_none, Bool.false_eq_true, if_false]
  exact ackTo_here (hreq.trans hnode.symm) _

theorem uncachedWrite_served (hlate : lateSpan s (linePa ln) = false) (txid : BitVec 16) (ws : List (BitVec 4 × MWord)) :
    ∃ t, exec (.uncachedWrite s.node txid pa ws) s = .next t ∧
      hbmLine t (lineLocal ln) = putWords (keepMarks false (lineTab ws) (hbmLine s (lineLocal ln))) (hbmLine s (lineLocal ln)) ∧
      t.ctxs = s.ctxs := by
  obtain ⟨id, hserve⟩ := homeServe_unheld (req := ⟨s.node, 0, 0, none⟩) (kind := .uncached false (lineTab ws)) hd rfl nofun
  have hwrite : physWriteKeep false none ln (lineTab ws) s =
      homeWritten ln (putWords (keepMarks false (lineTab ws) (hbmLine s (lineLocal ln))) (hbmLine s (lineLocal ln))) s := by
    rw [physWriteKeep_here hln h, hln, request_served h, ← hln, hserve]
    exact finish_uncached hln h hd rfl false (lineTab ws)
  have hexec : exec (.uncachedWrite s.node txid pa ws) s = .next (physWriteKeep false none ln (lineTab ws) s) := by
    rw [hln] at hlate ⊢
    exact congrArg Host.Outcome.next ((if_pos rfl).trans (agentWriteLine_kept hlate ..))
  obtain ⟨hline, hctxs, -⟩ := homeWritten_keeps h
    (putWords_length (keepMarks false (lineTab ws) (hbmLine s (lineLocal ln))) (hbmLine s (lineLocal ln)))
  rw [hwrite] at hexec
  rw [← hln] at hline hctxs
  exact ⟨_, hexec, hline, hctxs⟩

/-- An exchange of one tag in the memory (R418). -/
theorem exchangeAtHome_served (txid : BitVec 16) (i : BitVec 4) (tag : Byte) :
    ∃ t, exec (.exchangeAtHome s.node txid pa i tag) s = .next t ∧ ∀ k, k < 16 →
      lineWord (hbmLine t (lineLocal ln)) k = if k = i.toNat then MWord.ofTag tag (lineWord (hbmLine s (lineLocal ln)) k).val
        else lineWord (hbmLine s (lineLocal ln)) k := by
  obtain ⟨id, hserve⟩ := homeServe_unheld (req := ⟨s.node, 0, txid, none⟩) (kind := .retag i.toNat tag) hd rfl nofun
  have hexec : exec (.exchangeAtHome s.node txid pa i tag) s =
      .next (homeRequest ⟨s.node, 0, txid, none⟩ (.retag i.toNat tag) ln s) := by
    show execExchangeAtHome s.node txid pa i tag s = _
    unfold execExchangeAtHome
    simp [h.here, inData, h.data, hln]
  rw [hln, request_served h, ← hln, hserve, finish_retag hln h hd rfl] at hexec
  obtain ⟨hline, -, -⟩ := homeWritten_keeps h
    (putWords_length [(i.toNat, some (MWord.ofTag tag (lineWord (hbmLine s (lineLocal ln)) i.toNat).val))] (hbmLine s (lineLocal ln)))
  rw [← hln] at hline
  refine ⟨_, hexec, fun k hk => ?_⟩
  rw [hline, lineWord_putWords _ _ hk]
  by_cases hi : k = i.toNat
  · rw [if_pos hi, hi]
    simp [Tab.get]
  · rw [if_neg hi]
    simp [Tab.get, Ne.symm hi]

end

/-! ### Hinted writes (R416) -/

theorem counter_touchTag {k : Nat} (hk : k < 0x800000) (c loc : Nat) (s : State) : (touchTag c loc s).counter k = s.counter k := by
  have hhit : k ≠ Cnt.mcTagcHit c := by
    unfold Cnt.mcTagcHit
    omega
  have hmiss : k ≠ Cnt.mcTagcMiss c := by
    unfold Cnt.mcTagcMiss
    omega
  unfold touchTag
  dsimp only
  split
  · exact counter_bumpBy_ne _ 1 hhit
  · exact counter_bumpBy_ne _ 1 hmiss

theorem served_bump {s : State} {pa : PA} (h : Served s pa) (k : Nat) : Served (bump k s) pa :=
  ⟨h.here, h.data, h.txns, h.waits, h.wipe, h.room, h.inbox, h.clean⟩

/-- A line enters an L2 whose set has room. -/
theorem stores_install {l : Lan} {ln : Nat} {s : State} (h : SetRoom s l ln) (st : Moesi) (words : Line) :
    stores (install l ln st words s) = stores (setL2 l ln { st := st, words := words } s) := by
  rw [SetRoom] at h
  unfold install
  dsimp only
  rw [if_pos h]
  exact (stores_runFills ..).trans (stores_touchL2 ..)

theorem setRoom_of_lans {s t : State} (h : t.lans = s.lans) {l : Lan} {ln : Nat} (hr : SetRoom s l ln) : SetRoom t l ln := by
  have hlan : t.lan l = s.lan l := by
    rw [State.lan, h]
    rfl
  rwa [SetRoom, hlan]

/-- What a hinted write of a line without copies stores. -/
theorem stores_finish_hinted {s : State} {pa : PA} {ln : Nat} (hln : ln = lineNo pa) (h : Served s pa) {l : Lan} (hr : SetRoom s l ln)
    (id : BitVec 16) (req : Requester) (keep : Bool) (ws : Tab (Option MWord)) :
    stores (homeFinish ⟨id, ln, req, .hinted l keep ws, false, 0, none⟩ s) =
      stores (setL2 l ln ⟨.M, putWords (keepMarks keep ws (hbmLine s (lineLocal ln))) (hbmLine s (lineLocal ln)), [], .clean⟩
        (setDir ln { DirEnt.none with owner := some ⟨s.node, l⟩ } (touchTag (lineAgent ln) (lineLocal ln) s))) := by
  subst hln
  have hdata := uncached_data (t := ⟨id, lineNo pa, req, .hinted l keep ws, false, 0, none⟩) h rfl rfl ws.length
  obtain ⟨-, -, hnode, -⟩ := touchTag_keeps (lineAgent (lineNo pa)) (lineLocal (lineNo pa)) s
  unfold homeFinish
  simp only [hdata, hnode]
  refine (stores_wakeRemote ..).trans (stores_install (setRoom_of_lans ?_ hr) ..)
  exact lans_touchTag ..

theorem hintedWrite_served {s : State} {pa : PA} {ln : Nat} (hln : ln = lineNo pa) (h : Served s pa) (hd : s.dirEnt ln = DirEnt.none)
    (hlate : lateSpan s (linePa ln) = false) (hh : s.cc.hints = true) {l : Lan} (hr : SetRoom s l ln) (ws : List (BitVec 4 × MWord)) :
    ∃ t, exec (.hintedWrite l pa ws) s = .next t ∧
      t.l2 l ln = ⟨.M, putWords (keepMarks false (lineTab ws) (hbmLine s (lineLocal ln))) (hbmLine s (lineLocal ln)), [], .clean⟩ ∧
      (t.dirEnt ln).owner = some ⟨s.node, l⟩ ∧ t.hbm = s.hbm ∧ Counts s t Cnt.ccHint 1 := by
  obtain ⟨u, hu⟩ : ∃ u, u = bump Cnt.ccHint s := ⟨_, rfl⟩
  have hserved : Served u pa := hu ▸ served_bump h Cnt.ccHint
  have hdir : u.dirEnt ln = DirEnt.none := hu ▸ hd
  have hroom : SetRoom u l ln := hu ▸ hr
  have hline : hbmLine u (lineLocal ln) = hbmLine s (lineLocal ln) := hu ▸ hbmLine_bump ..
  have hnode : u.node = s.node := hu ▸ rfl
  have hhbm : u.hbm = s.hbm := hu ▸ rfl
  obtain ⟨id, hserve⟩ := homeServe_unheld (req := ⟨s.node, l, 0, none⟩) (kind := .hinted l false (lineTab ws)) hdir rfl nofun
  have hexec : exec (.hintedWrite l pa ws) s =
      .next (homeFinish ⟨id, ln, ⟨s.node, l, 0, none⟩, .hinted l false (lineTab ws), false, 0, none⟩ u) := by
    refine congrArg Host.Outcome.next ?_
    rw [← hln, agentWriteLine_kept hlate, physWriteKeep_hinted hln h hh, ← hserve, hln, ← hu, request_served hserved]
  have hstores := stores_finish_hinted hln hserved hroom id ⟨s.node, l, 0, none⟩ false (lineTab ws)
  rw [hline, hnode] at hstores
  obtain ⟨htag, -, -, -⟩ := touchTag_keeps (lineAgent ln) (lineLocal ln) u
  refine ⟨_, hexec, (l2_of_stores hstores l ln).trans (l2_setL2_self ..), ?_, ?_, ?_⟩
  · rw [dirEnt_of_mcs (mcs_of_stores hstores)]
    exact (dirEnt_setDir ..).1
  · exact (hbm_of_stores hstores).trans (htag.trans hhbm)
  · have hlow : Cnt.ccHint < 0x800000 := by
      unfold Cnt.ccHint
      omega
    refine (counter_of_cnt (cnt_of_stores hstores) _).trans ?_
    refine (counter_touchTag hlow (lineAgent ln) (lineLocal ln) u).trans ?_
    rw [hu]
    rfl

/-! ### Forwards and invalidates (R421, R422) -/

theorem takeFrom_nil {s : State} (h : s.bl.inbox = []) (op : BitVec 8) (src txid : BitVec 16) : takeFrom op src txid s = s :=
  takeInbox_nil _ h

section
variable {s : State} {l : Lan} {pa : PA} {ln : Nat} (hln : ln = lineNo pa) (hin : s.bl.inbox = [])
include hln hin

/-- A forward without an error meets its line as it is. -/
theorem forward_answers {own : Bool} {txid : BitVec 16} {w : Line} {v : State} (he : (s.l2 l ln).errs = [])
    (hk : (s.l2 l ln).key = .clean) (hv : supply l ln own s = (some w, v)) : forward own l pa txid .none s =
      post (nodeOf pa) txid 0x20 (paWords (linePa ln) ++ [stateWord (v.l2 l ln).st]) w v := by
  unfold forward
  simp only [takeFrom_nil hin, ← hln, meetL2_clean he hk, hv]

theorem forward_noData {own : Bool} {txid : BitVec 16} {v : State} (he : (s.l2 l ln).errs = [])
    (hk : (s.l2 l ln).key = .clean) (hv : supply l ln own s = (none, v)) : forward own l pa txid .none s =
      post (nodeOf pa) txid 0x22 (paWords (linePa ln)) [] v := by
  unfold forward
  simp only [takeFrom_nil hin, ← hln, meetL2_clean he hk, hv]

theorem forwardShared_unheld {txid : BitVec 16} (h : s.l2 l ln = L2Line.none) :
    ∃ t, exec (.forwardShared l pa txid .none) s = .next t ∧
      t.bl = { s.bl with pkts := s.bl.pkts ++ [packet s (nodeOf pa) txid 0x22 (paWords (linePa ln)) []] } := by
  have hsupply : supply l ln false s = (none, s) := by
    rw [supply, h]
    rfl
  exact ⟨_, congrArg Host.Outcome.next (forward_noData hln hin (by rw [h]; rfl) (by rw [h]; rfl) hsupply), rfl⟩

section
variable {d : Line} (h : s.l2 l ln = ⟨.M, d, [], .clean⟩)
include h

theorem forwardShared_owner {txid : BitVec 16} :
    ∃ t, exec (.forwardShared l pa txid .none) s = .next t ∧ t.l2 l ln = ⟨.O, d, [], .clean⟩ ∧
      t.bl = { s.bl with pkts := s.bl.pkts ++ [packet s (nodeOf pa) txid 0x20 (paWords (linePa ln) ++ [rawM 1]) d] } := by
  have hsupply : supply l ln false s = (some d, setL2 l ln ⟨.O, d, [], .clean⟩ s) := by
    rw [supply, h]
    rfl
  have hl2 := l2_setL2_self l ln ⟨.O, d, [], .clean⟩ s
  have hforward := forward_answers (txid := txid) hln hin (by rw [h]) (by rw [h]) hsupply
  rw [hl2] at hforward
  exact ⟨_, congrArg Host.Outcome.next hforward, hl2, rfl⟩

theorem forwardOwn_owner {txid : BitVec 16} :
    ∃ t, exec (.forwardOwn l pa txid .none) s = .next t ∧ t.l2 l ln = L2Line.none ∧
      t.bl = { s.bl with pkts := s.bl.pkts ++ [packet s (nodeOf pa) txid 0x20 (paWords (linePa ln) ++ [rawM 4]) d] } := by
  obtain ⟨v, hv⟩ : ∃ v, v = invalidate l ln s := ⟨_, rfl⟩
  have hsupply : supply l ln true s = (some d, v) := by
    rw [supply, h, hv]
    rfl
  have hl2 := l2_invalidate_self l ln s
  obtain ⟨-, -, -, hnode, hbl⟩ := invalidate_keeps l ln s
  rw [← hv] at hl2 hnode hbl
  have hforward := forward_answers (txid := txid) hln hin (by rw [h]) (by rw [h]) hsupply
  rw [hl2] at hforward
  refine ⟨_, congrArg Host.Outcome.next hforward, hl2, ?_⟩
  rw [packet, ← hnode, ← hbl]
  rfl

end

end

theorem invalidates_l2 (ls : List Lan) (ln : Nat) (s : State) (m : Lan) (k : Nat) :
    (ls.foldl (fun s l => invalidate l ln s) s).l2 m k = if m ∈ ls ∧ k = ln then L2Line.none else s.l2 m k := by
  induction ls generalizing s with
  | nil => simp
  | cons l r ih =>
    rw [List.foldl_cons, ih]
    by_cases hr : m ∈ r ∧ k = ln
    · rw [if_pos hr, if_pos ⟨List.mem_cons_of_mem _ hr.1, hr.2⟩]
    · rw [if_neg hr]
      by_cases hl : m = l ∧ k = ln
      · obtain ⟨rfl, rfl⟩ := hl
        rw [if_pos ⟨List.mem_cons_self, rfl⟩, l2_invalidate_self]
      · rw [l2_invalidate_ne _ hl, if_neg]
        rintro ⟨hm, hk⟩
        rcases List.mem_cons.1 hm with hm | hm
        · exact hl ⟨hm, hk⟩
        · exact hr ⟨hm, hk⟩

theorem invalidates_keep (ls : List Lan) (ln : Nat) (s : State) :
    (ls.foldl (fun s l => invalidate l ln s) s).node = s.node ∧ (ls.foldl (fun s l => invalidate l ln s) s).bl = s.bl := by
  induction ls generalizing s with
  | nil => exact ⟨rfl, rfl⟩
  | cons l r ih =>
    obtain ⟨-, -, -, hnode, hbl⟩ := invalidate_keeps l ln s
    rw [List.foldl_cons, ← hnode, ← hbl]
    exact ih _

theorem lanterns_complete (m : Lan) : m ∈ (List.range 32).map (BitVec.ofNat 5) :=
  List.mem_map.2 ⟨m.toNat, List.mem_range.2 m.isLt, by simp⟩

/-- An invalidate ends the shared copies and leaves an owner's (R421). -/
theorem invalidate_shared {s : State} {pa : PA} {ln : Nat} (hln : ln = lineNo pa) (hin : s.bl.inbox = []) (txid : BitVec 16) :
    ∃ t, exec (.invalidate pa txid) s = .next t ∧ (∀ m, (s.l2 m ln).st = .S → t.l2 m ln = L2Line.none) ∧
      (∀ m, (s.l2 m ln).st ≠ .S → t.l2 m ln = s.l2 m ln) ∧ (∀ m k, k ≠ ln → t.l2 m k = s.l2 m k) ∧
      t.bl = { s.bl with pkts := s.bl.pkts ++ (if nodeOf pa = s.node then []
        else [packet s (nodeOf pa) txid 0x21 (paWords (linePa ln)) []]) } := by
  obtain ⟨ls, hls⟩ : ∃ ls, ls = ((List.range 32).map (BitVec.ofNat 5)).filter fun l => (s.l2 l ln).st = .S := ⟨_, rfl⟩
  have hmem (m : Lan) : m ∈ ls ↔ (s.l2 m ln).st = .S := by
    rw [hls, List.mem_filter]
    exact ⟨fun h => of_decide_eq_true h.2, fun h => ⟨lanterns_complete m, decide_eq_true h⟩⟩
  obtain ⟨v, hv⟩ : ∃ v, v = ls.foldl (fun s l => invalidate l ln s) s := ⟨_, rfl⟩
  have hl2 (m : Lan) (k : Nat) := invalidates_l2 ls ln s m k
  obtain ⟨hnode, hbl⟩ := invalidates_keep ls ln s
  rw [← hv] at hnode hbl
  simp only [← hv] at hl2
  have hexec : exec (.invalidate pa txid) s =
      .next (if nodeOf pa = v.node then v else post (nodeOf pa) txid 0x21 (paWords (linePa ln)) [] v) := by
    show execInvalidate pa txid s = _
    unfold execInvalidate
    simp only [takeFrom_nil hin, ← hln, ← hls, ← hv]
  have hpost : (if nodeOf pa = v.node then v else post (nodeOf pa) txid 0x21 (paWords (linePa ln)) [] v).l2 = v.l2 := by
    split <;> rfl
  refine ⟨_, hexec, ?_⟩
  rw [hpost]
  refine ⟨fun m hm => ?_, fun m hm => ?_, fun m k hk => ?_, ?_⟩
  · rw [hl2, if_pos ⟨(hmem m).2 hm, rfl⟩]
  · rw [hl2, if_neg fun h => hm ((hmem m).1 h.1)]
  · rw [hl2, if_neg fun h => hk h.2]
  · rw [hnode]
    split
    · rw [List.append_nil, hbl]
    · rw [packet, ← hnode, ← hbl]
      rfl

end Sys2Proof.Machine
end

section
open Sys2Proof.Machine

/-- Settles O44: a line that leaves an L2 is written or noticed home by the directory entry that names its holder; a line
without copies is served at once; an invalidate is a fold over the lanterns. -/
theorem writesForwards : Obligations.WritesForwards := by
  unfold Obligations.WritesForwards
  rintro s l pa txid ln d words ws i tag hln hin
  refine ⟨fun h => ?_, fun _ hnode => ⟨fun hl2 ho => writeBack_leaves hln hnode ho hl2,
      fun hl2 ho _ => evictionNotice_leaves hln hnode ho hl2⟩,
    fun h hu hlate => ⟨uncachedWrite_served hln h hu.1 hlate txid ws, fun hh hr => hintedWrite_served hln h hu.1 hlate hh hr ws,
      exchangeAtHome_served hln h hu.1 txid i tag⟩,
    fun hlate => uncachedWrite_late (hln ▸ hlate) txid ws,
    fun h => ⟨forwardShared_owner hln hin h, forwardOwn_owner hln hin h⟩, invalidate_shared hln hin txid⟩
  obtain ⟨hback, hnotice⟩ := writeBack_unheld (words := words) (hln ▸ h)
  exact ⟨hback, hnotice, forwardShared_unheld hln hin h⟩

end

section
namespace Sys2Proof.Machine

/-! ### Candle spans (03 R96–R98, Table 03-2) -/

theorem span_setSpan_self (i : Nat) (e : SpanEnt) (s : State) : (setSpan i e s).cn.span i = e := Tab.get_set_self ..

theorem span_setSpan_ne {i j : Nat} (e : SpanEnt) (s : State) (h : j ≠ i) : (setSpan i e s).cn.span j = s.cn.span j :=
  Tab.get_set_ne _ _ _ h

/-- A span that is written as another is moves alone. -/
theorem spanMoves_setSpan {s t : State} (i : Nat) (e : SpanEnt) (h : t.cn.spans = (setSpan i e s).cn.spans) :
    SpanMoves s t i e.st ∧ t.cn.span i = e := by
  have hspan (j : Nat) : t.cn.span j = (setSpan i e s).cn.span j := by
    rw [CnSt.span, h]
    rfl
  have hself : t.cn.span i = e := (hspan i).trans (span_setSpan_self i e s)
  exact ⟨⟨congrArg SpanEnt.st hself, fun j hj => (hspan j).trans (span_setSpan_ne e s hj)⟩, hself⟩

theorem noteFree_keeps (s : State) : (noteFree s).cn.spans = s.cn.spans ∧ (noteFree s).cn.cooling = s.cn.cooling := by
  unfold noteFree
  generalize freeSpans s.cn = n
  dsimp only
  split <;> exact ⟨rfl, rfl⟩

/-- A span whose time has come is free, or retired with a record. -/
theorem expireSpan_moves (i : Nat) (s : State) :
    (expireSpan i s).cn.cooling = s.cn.cooling ∧ SpanMoves s (expireSpan i s) i (if (s.cn.span i).retpend then .retired else .free) ∧
      (expireSpan i s).recs = s.recs ++ (if (s.cn.span i).retpend then
        [⟨1, 0x30, 0x30, s.time, BitVec.ofNat 64 i, 0, 0, 0, 0⟩] else []) := by
  unfold expireSpan
  dsimp only
  cases h : (s.cn.span i).retpend
  · exact ⟨rfl, (spanMoves_setSpan i _ rfl).1, (List.append_nil _).symm⟩
  · exact ⟨rfl, (spanMoves_setSpan i _ rfl).1, rfl⟩

section
variable {s : State} {i : Nat} {at_ : BitVec 64} {r : List (Nat × BitVec 64)}

theorem coolingExpiry_empty (h : s.cn.cooling = []) : exec .coolingExpiry s = .next s := by
  refine congrArg Host.Outcome.next ?_
  rw [expireDue, h]

theorem coolingExpiry_early (h : s.cn.cooling = (i, at_) :: r) (ht : s.time < at_) : exec .coolingExpiry s = .next s := by
  refine congrArg Host.Outcome.next ?_
  rw [expireDue, h]
  exact if_pos ht

theorem coolingExpiry_due (h : s.cn.cooling = (i, at_) :: r) (ht : at_ ≤ s.time) :
    ∃ t, exec .coolingExpiry s = .next t ∧ t.cn.cooling = r ∧
      SpanMoves s t i (if (s.cn.span i).retpend then .retired else .free) ∧
      t.recs = s.recs ++ (if (s.cn.span i).retpend then [⟨1, 0x30, 0x30, s.time, BitVec.ofNat 64 i, 0, 0, 0, 0⟩] else []) := by
  have hexec : exec .coolingExpiry s = .next (expireSpan i { s with cn := { s.cn with cooling := r } }) := by
    refine congrArg Host.Outcome.next ?_
    rw [expireDue, h]
    exact if_neg (BitVec.not_lt.2 ht)
  exact ⟨_, hexec, expireSpan_moves i { s with cn := { s.cn with cooling := r } }⟩

end

/-! The span commands by what they answer. -/

theorem cnSpanClaim_cmd (now : Bool) (s : State) : exec (.cnSpanClaim now) s =
    spanCmd (fun t => if now && t = .candle then 2 else 1) (· = .free) (fun i s => noteFree (setSpan i
      { s.cn.span i with st := .persistent, newborn := (s.cn.span i).newborn || decide (s.cn.phase ≠ .idle) } s)) s := rfl

theorem cnSpanRetire_cmd (s : State) : exec .cnSpanRetire s =
    spanCmd (fun _ => 1) (fun t => t = .free || t = .persistent)
      (fun i s => noteFree (setSpan i { s.cn.span i with st := .retired } s)) s := rfl

theorem cnSpanRelease_cmd (s : State) : exec .cnSpanRelease s = spanCmd (fun _ => 1) (· = .persistent) coolSpan s := rfl

section
variable {s : State} {wrong : SpanSt → BitVec 2} {ok : SpanSt → Bool} {f : Nat → State → State}

theorem spanCmd_outside (h : inPool s.cn s.cn.spanSel.toNat = false) :
    spanCmd wrong ok f s = .next { s with cn := { s.cn with spanResult := 3 } } := by
  refine congrArg Host.Outcome.next (if_pos ?_)
  rw [h]
  rfl

variable (hp : inPool s.cn s.cn.spanSel.toNat = true)
include hp

theorem spanCmd_wrong (h : ok (s.cn.span s.cn.spanSel.toNat).st = false) : spanCmd wrong ok f s =
    .next { s with cn := { s.cn with spanResult := wrong (s.cn.span s.cn.spanSel.toNat).st } } := by
  refine congrArg Host.Outcome.next ((if_neg ?_).trans (if_pos ?_))
  · simp [hp]
  · simp [h]

theorem spanCmd_ok (h : ok (s.cn.span s.cn.spanSel.toNat).st = true) {t : State} (ht : f s.cn.spanSel.toNat s = t) :
    spanCmd wrong ok f s = .next { t with cn := { t.cn with spanResult := 0 } } := by
  subst ht
  refine congrArg Host.Outcome.next ((if_neg ?_).trans (if_neg ?_))
  · simp [hp]
  · simp [h]

end

section
variable {s : State} {i : Nat} (hi : i = s.cn.spanSel.toNat) (hp : inPool s.cn i = true)
include hi hp

theorem cnSpanClaim_free (now : Bool) (h : (s.cn.span i).st = .free) :
    ∃ t, exec (.cnSpanClaim now) s = .next t ∧ t.cn.spanResult = 0 ∧ SpanMoves s t i .persistent ∧
      (t.cn.span i).newborn = ((s.cn.span i).newborn || decide (s.cn.phase ≠ .idle)) ∧ t.cn.cooling = s.cn.cooling := by
  subst hi
  obtain ⟨hspans, hcool⟩ := noteFree_keeps (setSpan s.cn.spanSel.toNat { s.cn.span s.cn.spanSel.toNat with
    st := .persistent, newborn := (s.cn.span s.cn.spanSel.toNat).newborn || decide (s.cn.phase ≠ .idle) } s)
  have hexec := (cnSpanClaim_cmd now s).trans (spanCmd_ok hp (decide_eq_true h) rfl)
  exact ⟨_, hexec, rfl, (spanMoves_setSpan _ _ hspans).1, (congrArg SpanEnt.newborn (spanMoves_setSpan _ _ hspans).2 :), hcool⟩

theorem cnSpanRetire_moves (h : (s.cn.span i).st = .free ∨ (s.cn.span i).st = .persistent) :
    ∃ t, exec .cnSpanRetire s = .next t ∧ t.cn.spanResult = 0 ∧ SpanMoves s t i .retired := by
  subst hi
  obtain ⟨hspans, -⟩ := noteFree_keeps (setSpan s.cn.spanSel.toNat { s.cn.span s.cn.spanSel.toNat with st := .retired } s)
  have hexec := (cnSpanRetire_cmd s).trans (spanCmd_ok hp (by rcases h with h | h <;> simp [h]) rfl)
  exact ⟨_, hexec, rfl, (spanMoves_setSpan _ _ hspans).1⟩

theorem cnSpanRelease_persistent (h : (s.cn.span i).st = .persistent) :
    ∃ t, exec .cnSpanRelease s = .next t ∧ t.cn.spanResult = 0 ∧ SpanMoves s t i .cooling ∧
      t.cn.cooling = s.cn.cooling ++ [(i, coolUntil s)] := by
  subst hi
  have hexec := (cnSpanRelease_cmd s).trans (spanCmd_ok hp (decide_eq_true h) rfl)
  exact ⟨_, hexec, rfl, (spanMoves_setSpan _ { s.cn.span s.cn.spanSel.toNat with st := .cooling } rfl).1, rfl⟩

end

/-- What the three commands do to a span that is in no state for them (Table 03-13). -/
theorem spanCommands_refuse {s : State} {i : Nat} (hi : i = s.cn.spanSel.toNat) (hp : inPool s.cn i = true) :
    ((s.cn.span i).st ≠ .persistent → exec .cnSpanRelease s = .next { s with cn := { s.cn with spanResult := 1 } }) ∧
      ((s.cn.span i).st ≠ .free → (s.cn.span i).st ≠ .persistent →
        exec .cnSpanRetire s = .next { s with cn := { s.cn with spanResult := 1 } }) ∧
      ((s.cn.span i).st ≠ .free → ∀ now, exec (.cnSpanClaim now) s =
        .next { s with cn := { s.cn with spanResult := if now = true ∧ (s.cn.span i).st = .candle then 2 else 1 } }) := by
  subst hi
  refine ⟨fun h => (cnSpanRelease_cmd s).trans (spanCmd_wrong hp (decide_eq_false h)),
    fun h1 h2 => (cnSpanRetire_cmd s).trans (spanCmd_wrong hp (by simp [h1, h2])), fun h now => ?_⟩
  refine ((cnSpanClaim_cmd now s).trans (spanCmd_wrong hp (decide_eq_false h))).trans ?_
  simp

theorem spanCommands_outside {s : State} (hp : inPool s.cn s.cn.spanSel.toNat = false) {c : Instr} {now : Bool}
    (hc : c = Instr.cnSpanClaim now ∨ c = .cnSpanRelease ∨ c = .cnSpanRetire) :
    exec c s = .next { s with cn := { s.cn with spanResult := 3 } } := by
  rcases hc with rfl | rfl | rfl
  · exact (cnSpanClaim_cmd now s).trans (spanCmd_outside hp)
  · exact (cnSpanRelease_cmd s).trans (spanCmd_outside hp)
  · exact (cnSpanRetire_cmd s).trans (spanCmd_outside hp)

/-! Chunks (R102). -/

theorem allocChunkRefill_none {s : State} {slot : BitVec 11} (l : Lan)
    (h : (s.slot slot.toNat).st = .free ∨ (s.slot slot.toNat).st = .retiring) : exec (.allocChunkRefill l slot) s = .next s := by
  show execAllocChunkRefill l slot s = _
  rcases h with h | h <;> rw [execAllocChunkRefill, h]

/-- A chunk comes from the current span while it has room. -/
theorem carveChunk_current {s : State} {slot idx off size : Nat} (h : (s.slot slot).cur = some (idx, off)) (hr : off + size ≤ 0x100000) :
    carveChunk slot size s = (.inr (spanVirt idx + BitVec.ofNat 32 off),
      s.modSlot slot fun t => { t with cur := some (idx, off + size), fresh := (s.slot slot).fresh }) := by
  unfold carveChunk
  simp only [h]
  exact if_pos hr

theorem allocChunkRefill_carves {s : State} {slot : BitVec 11} (l : Lan) (hf : (s.slot slot.toNat).st ≠ .free)
    (hr : (s.slot slot.toNat).st ≠ .retiring) (idx off size va : Nat) (hs : size = 4096 * 2 ^ s.cn.run.lv.chunk.toNat)
    (hc : (s.slot slot.toNat).cur = some (idx, off)) (hroom : off + size ≤ 0x100000)
    (hva : va = (spanVirt idx + BitVec.ofNat 32 off).toNat) :
    ∃ t, exec (.allocChunkRefill l slot) s = .next t ∧ t.slot slot.toNat = { s.slot slot.toNat with cur := some (idx, off + size) } ∧
      (t.lan l).cursors = (⟨slot.toNat, va, va + size⟩ :: (s.lan l).cursors.filter fun c => c.slot ≠ slot.toNat).take 8 := by
  have hsize : chunkBytes s = size := hs.symm
  have hrefill := carveChunk_current hc hroom
  obtain ⟨v, hv⟩ : ∃ v, v = s.modSlot slot.toNat fun t =>
      { t with cur := some (idx, off + size), fresh := (s.slot slot.toNat).fresh } := ⟨_, rfl⟩
  rw [← hv] at hrefill
  have hslot : v.slot slot.toNat = { s.slot slot.toNat with cur := some (idx, off + size) } := by
    rw [hv, State.slot_modSlot]
  have hchunk : chunkBytes v = size := hv ▸ hsize
  have hlan : v.lan l = s.lan l := hv ▸ rfl
  have hexec : exec (.allocChunkRefill l slot) s = .next (v.modLan l fun a =>
      { a with cursors := (⟨slot.toNat, va, va + size⟩ :: a.cursors.filter fun c => c.slot ≠ slot.toNat).take 8 }) := by
    have hcur : refillCursor l slot.toNat s = (none, v.modLan l fun a =>
        { a with cursors := (⟨slot.toNat, va, va + size⟩ :: a.cursors.filter fun c => c.slot ≠ slot.toNat).take 8 }) := by
      rw [refillCursor, hsize, hrefill]
      dsimp only
      rw [hchunk, hva]
    show execAllocChunkRefill l slot s = _
    unfold execAllocChunkRefill
    rw [hcur]
    split
    · contradiction
    · contradiction
    · rfl
  refine ⟨_, hexec, hslot, ?_⟩
  rw [State.lan_modLan, hlan]

end Sys2Proof.Machine
end

section
open Sys2Proof.Machine

theorem spansClause : Sys2Proof.Clause.Spans := by
  intro s i at_ r l slot now
  refine ⟨coolingExpiry_empty, fun h => ⟨coolingExpiry_early h, coolingExpiry_due h⟩, fun hi => ⟨fun hp c hc => ?_, fun hp => ?_⟩,
    allocChunkRefill_none l, allocChunkRefill_carves l⟩
  · exact spanCommands_outside (hi ▸ hp) hc
  obtain ⟨hrelease, hretire, hclaim⟩ := spanCommands_refuse hi hp
  refine ⟨fun h => ⟨cnSpanClaim_free hi hp now h, cnSpanRetire_moves hi hp (.inl h), hrelease (by simp [h])⟩,
    fun h => ⟨cnSpanRelease_persistent hi hp h, cnSpanRetire_moves hi hp (.inr h), ?_⟩, fun h => ?_⟩
  · refine (hclaim (by simp [h]) now).trans ?_
    simp [h]
  · have hst : (s.cn.span i).st ≠ .free ∧ (s.cn.span i).st ≠ .persistent := by
      rcases h with h | h | h <;> rw [h] <;> exact ⟨nofun, nofun⟩
    obtain ⟨hfree, hpers⟩ := hst
    refine ⟨fun c hc => ?_, hclaim hfree now⟩
    rcases hc with rfl | rfl
    · exact hrelease hpers
    · exact hretire hfree hpers

end

section
namespace Sys2Proof.Machine

/-! ### Evacuation jobs (03 R120, R122; 06 R219, R231) -/

theorem pick_fst_lt (s : State) {n : Nat} (h : 0 < n) : (s.pick n).1 < n := by
  rw [State.pick]
  split
  · exact h
  · exact Nat.mod_lt _ h

theorem pick_snd (s : State) (n : Nat) : (s.pick n).2 = { s with freeCtr := (s.pick n).2.freeCtr } := by
  rw [State.pick]
  split <;> rfl

theorem engine_modEngine_self (s : State) (e : Nat) (f : EngSt → EngSt) : (s.modEngine e f).engine e = f (s.engine e) :=
  Tab.get_set_self ..

theorem engine_modEngine_ne (s : State) {e m : Nat} (f : EngSt → EngSt) (h : m ≠ e) : (s.modEngine e f).engine m = s.engine m :=
  Tab.get_set_ne _ _ _ h

theorem engine_setEvacOwner (s : State) (i : Nat) (h : Option (BitVec 19)) (e : Nat) :
    (setEvacOwner i h s).engine e = s.engine e := rfl

theorem evacOwner_setEvacOwner_self (s : State) (i : Nat) (h : Option (BitVec 19)) : evacOwner (setEvacOwner i h s) i = h :=
  Tab.get_set_self ..

theorem evacOwner_setEvacOwner_ne (s : State) {i m : Nat} (h : Option (BitVec 19)) (hm : m ≠ i) :
    evacOwner (setEvacOwner i h s) m = evacOwner s m :=
  Tab.get_set_ne _ _ _ hm

/-- The free entries of the job table that an evacuation may take. -/
theorem mem_freeEntries {s : State} {k : Nat} :
    k ∈ (List.range 128).filter (fun i => (evacOwner s i).isNone) ↔ k < 128 ∧ evacOwner s k = none := by
  simp

theorem takeEvacEntry_none {s : State} (h : ∀ k, k < 128 → (evacOwner s k).isSome = true) : (takeEvacEntry s).1 = none := by
  have hempty : (List.range 128).filter (fun i => (evacOwner s i).isNone) = [] := by
    refine List.filter_eq_nil_iff.2 fun k hk => ?_
    have hsome := h k (List.mem_range.1 hk)
    simp [Option.isSome_iff_ne_none.1 hsome]
  rw [takeEvacEntry, hempty]
  rfl

/-- A job takes a free entry and its next generation (R219). -/
theorem takeEvacEntry_some {s : State} (h : ∃ k, k < 128 ∧ evacOwner s k = none) :
    ∃ k v, takeEvacEntry s = (some k, v) ∧ k < 128 ∧ evacOwner s k = none ∧
      v = { s with freeCtr := v.freeCtr, tp := { s.tp with gens := Tab.set 0 s.tp.gens k (Tab.get 0 s.tp.gens k + 1) } } := by
  obtain ⟨m, hm⟩ := h
  obtain ⟨l, hl⟩ : ∃ l, l = (List.range 128).filter (fun i => (evacOwner s i).isNone) := ⟨_, rfl⟩
  have hpos : 0 < l.length := List.length_pos_of_mem (hl ▸ mem_freeEntries.2 hm)
  have hlt := pick_fst_lt s hpos
  have hmem : l[(s.pick l.length).1] ∈ l := List.getElem_mem hlt
  obtain ⟨hk, hfree⟩ := mem_freeEntries.1 (Eq.subst (motive := (l[(s.pick l.length).1] ∈ ·)) hl hmem)
  refine ⟨l[(s.pick l.length).1], { s with
    freeCtr := (s.pick l.length).2.freeCtr
    tp := { s.tp with gens := Tab.set 0 s.tp.gens l[(s.pick l.length).1] (Tab.get 0 s.tp.gens l[(s.pick l.length).1] + 1) } },
    ?_, hk, hfree, rfl⟩
  unfold takeEvacEntry
  rw [← hl]
  dsimp only
  rw [List.getElem?_eq_getElem hlt, pick_snd]

/-- The engine with the least load. -/
theorem leastNat_le (f : Nat → Nat) {l : List Nat} (h : l ≠ []) : leastNat f l ∈ l ∧ ∀ m ∈ l, f (leastNat f l) ≤ f m := by
  induction l with
  | nil => exact absurd rfl h
  | cons e r ih =>
    cases r with
    | nil => simp [leastNat]
    | cons e' r =>
      obtain ⟨hmem, hle⟩ := ih (List.cons_ne_nil _ _)
      have hstep : leastNat f (e :: e' :: r) = if f (leastNat f (e' :: r)) < f e then leastNat f (e' :: r) else e := rfl
      rw [hstep]
      split
      · next hlt =>
        refine ⟨List.mem_cons_of_mem _ hmem, fun m hm => ?_⟩
        rcases List.mem_cons.1 hm with rfl | hm
        · exact hlt.le
        · exact hle m hm
      · next hge =>
        refine ⟨List.mem_cons_self, fun m hm => ?_⟩
        rcases List.mem_cons.1 hm with rfl | hm
        · exact le_rfl
        · exact (Nat.not_lt.1 hge).trans (hle m hm)

/-- An evacuation joins an engine with the fewest. -/
theorem evacEngine_fewest (s : State) : evacEngine s < 8 ∧ ∀ m, m < 8 → evacsOn s (evacEngine s) ≤ evacsOn s m := by
  obtain ⟨hmem, hle⟩ := leastNat_le (fun e => 2 * evacsOn s e + (if (s.engine e).evac.isSome then 1 else 0))
    (l := List.range 8) (by decide)
  refine ⟨List.mem_range.1 hmem, fun m hm => ?_⟩
  have hload := hle m (List.mem_range.2 hm)
  rw [← evacEngine] at hload
  split at hload <;> split at hload <;> omega

theorem evacJobQueue_refuses {s : State} {i : BitVec 11} (h : (s.slot i.toNat).st ≠ .retiring ∨ (s.slot i.toNat).escCount ≠ 0 ∨
    evacKnown s (mkHandle i.toNat (s.slot i.toNat).gen) = true ∨ s.pf = true) : exec (.evacJobQueue i) s = .next s :=
  congrArg Host.Outcome.next (if_pos h)

theorem evacJobQueue_full {s : State} {i : BitVec 11} (h : ∀ k, k < 128 → (evacOwner s k).isSome = true) :
    exec (.evacJobQueue i) s = .next s := by
  have hnone := takeEvacEntry_none h
  show execEvacJobQueue i s = _
  unfold execEvacJobQueue
  dsimp only
  split
  · rfl
  · generalize takeEvacEntry s = p at hnone
    obtain ⟨o, v⟩ := p
    obtain rfl : o = none := hnone
    rfl

section
variable {s : State} {i : BitVec 11} {h : BitVec 19} (hst : (s.slot i.toNat).st = .retiring) (hesc : (s.slot i.toNat).escCount = 0)
  (hpf : s.pf = false) (hh : h = mkHandle i.toNat (s.slot i.toNat).gen)
include hst hesc hpf hh

theorem evacJobQueue_queues (hk : evacKnown s h = false) (hfree : ∃ k, k < 128 ∧ evacOwner s k = none) :
    ∃ t k, exec (.evacJobQueue i) s = .next t ∧
      k < 128 ∧ evacOwner s k = none ∧ evacOwner t k = some h ∧ (∀ m, m ≠ k → evacOwner t m = evacOwner s m) ∧
      Tab.get 0 t.tp.gens k = Tab.get 0 s.tp.gens k + 1 ∧
      (∀ l, (t.lan l).cursors = (s.lan l).cursors.filter fun c => c.slot ≠ i.toNat) ∧
      (∃ n, n < 8 ∧ (t.engine n).evacQ = (s.engine n).evacQ ++ [k] ∧
        ∀ m, m < 8 → evacsOn s n ≤ evacsOn s m ∧ (m ≠ n → t.engine m = s.engine m)) ∧
      t.cn = s.cn ∧ t.ev = s.ev ∧ t.hbm = s.hbm := by
  obtain ⟨k, v, htake, hlt, hown, hv⟩ := takeEvacEntry_some hfree
  obtain ⟨w, hw⟩ : ∃ w, w = { v with lans := v.lans.map fun (e : Nat × LanSt) =>
      (e.1, { e.2 with cursors := e.2.cursors.filter fun c => c.slot ≠ i.toNat }) } := ⟨_, rfl⟩
  have hexec : exec (.evacJobQueue i) s =
      .next (setEvacOwner k (some h) (w.modEngine (evacEngine w) fun x => { x with evacQ := x.evacQ ++ [k] })) := by
    subst hh hw
    refine congrArg Host.Outcome.next ((if_neg ?_).trans ?_)
    · simp [hst, hesc, hpf, hk]
    · rw [htake]
  have heng (e : Nat) : w.engine e = s.engine e := by
    rw [hw, hv]
    rfl
  have hload : evacEngine w = evacEngine s := by
    simp only [evacEngine, evacsOn, heng]
  have howner (m : Nat) : evacOwner w m = evacOwner s m := by
    rw [hw, hv]
    rfl
  have hgens : Tab.get 0 w.tp.gens k = Tab.get 0 s.tp.gens k + 1 := by
    rw [hw, hv]
    exact Tab.get_set_self ..
  have hcursors (l : Lan) : (w.lan l).cursors = (s.lan l).cursors.filter fun c => c.slot ≠ i.toNat := by
    have hlans : v.lans = s.lans := by rw [hv]
    rw [hw, State.lan, hlans]
    exact congrArg LanSt.cursors
      (get_map LanSt.reset s.lans (fun x => { x with cursors := x.cursors.filter fun c => c.slot ≠ i.toNat }) rfl l.toNat)
  have hrest : w.cn = s.cn ∧ w.ev = s.ev ∧ w.hbm = s.hbm := by
    rw [hw, hv]
    exact ⟨rfl, rfl, rfl⟩
  rw [hload] at hexec
  obtain ⟨hn, hfewest⟩ := evacEngine_fewest s
  refine ⟨_, k, hexec, hlt, hown, evacOwner_setEvacOwner_self .., fun m hm => ?_, hgens, hcursors,
    ⟨evacEngine s, hn, ?_, fun m hm => ⟨hfewest m hm, fun hne => ?_⟩⟩, hrest⟩
  · exact (evacOwner_setEvacOwner_ne _ _ hm).trans (howner m)
  · rw [engine_setEvacOwner, engine_modEngine_self, heng]
  · rw [engine_setEvacOwner, engine_modEngine_ne w _ hne, heng]

end

section
variable {s : State} {e : BitVec 3}

theorem evacJobStart_idle (h : (s.engine e.toNat).evac.isSome = true ∨ (s.engine e.toNat).evacQ = [] ∨ s.pf = true) :
    exec (.evacJobStart e) s = .next s := by
  show execEvacJobStart e s = _
  unfold execEvacJobStart
  dsimp only
  split
  · next ha hq =>
    rcases h with h | h | h
    · rw [ha] at h
      exact absurd h Bool.false_ne_true
    · rw [hq] at h
      exact absurd h (List.cons_ne_nil _ _)
    · rw [h]
      rfl
  · rfl

theorem evacJobStart_starts {j : Nat} {q : List Nat} {h : BitVec 19} (ha : (s.engine e.toNat).evac = none)
    (hq : (s.engine e.toNat).evacQ = j :: q) (hpf : s.pf = false) (ho : evacOwner s j = some h) :
    exec (.evacJobStart e) s = .next (withLines (evacStart e.toNat j q) s) ∧
      (Reads (evacStart e.toNat j q) s → exec (.evacJobStart e) s = .next (evacuate e.toNat h
        ({ s with miss := none }.modEngine e.toNat fun x => { x with evac := some j, evacQ := q }))) := by
  have hexec : exec (.evacJobStart e) s = .next (withLines (evacStart e.toNat j q) s) := by
    show execEvacJobStart e s = _
    unfold execEvacJobStart
    dsimp only
    rw [ha, hq, hpf]
    rfl
  refine ⟨hexec, fun hr => hexec.trans (congrArg _ ((withLines_reads hr).trans ?_))⟩
  rw [evacStart]
  have howner : evacOwner ({ s with miss := none }.modEngine e.toNat fun x => { x with evac := some j, evacQ := q }) j = some h := ho
  rw [howner]

theorem evacJobDone_idle (h : (s.engine e.toNat).evac = none ∨ s.pf = true) : exec (.evacJobDone e) s = .next s := by
  show execEvacJobDone e s = _
  unfold execEvacJobDone
  split
  · next j ha =>
    rcases h with h | h
    · rw [ha] at h
      exact nomatch h
    · rw [h]
      rfl
  · rfl

end

/-- Overflow entries that leave change the overflow ring alone. -/
theorem advanceEovf_eq (n : Nat) (s : State) : advanceEovf n s = { s with cn := { s.cn with
    eovf := (advanceEovf n s).cn.eovf, eovfHead := (advanceEovf n s).cn.eovfHead } } := by
  induction n generalizing s with
  | zero => rfl
  | succ n ih =>
    rw [advanceEovf]
    split
    · split
      · rw [ih]
      · rfl
    · rfl

theorem span_coolSpan (i j : Nat) (s : State) :
    (coolSpan i s).cn.span j = (setSpan i { s.cn.span i with st := .cooling } s).cn.span j := rfl

/-- Spans that enter COOLING (R98). -/
theorem coolSpans_eq (l : List Nat) (s : State) : l.foldl (fun s i => coolSpan i s) s = { s with cn := { s.cn with
    spans := (l.foldl (fun s i => coolSpan i s) s).cn.spans,
    cooling := s.cn.cooling ++ l.map fun j => (j, coolUntil s) } } := by
  induction l generalizing s with
  | nil => simp
  | cons i r ih =>
    rw [List.foldl_cons, ih]
    simp [coolSpan, setSpan, coolUntil]

theorem coolSpans_spans (l : List Nat) (s : State) (j : Nat) :
    (j ∈ l → ((l.foldl (fun s i => coolSpan i s) s).cn.span j).st = .cooling) ∧
      (j ∉ l → (l.foldl (fun s i => coolSpan i s) s).cn.span j = s.cn.span j) := by
  induction l generalizing s with
  | nil => exact ⟨fun h => absurd h List.not_mem_nil, fun _ => rfl⟩
  | cons i r ih =>
    obtain ⟨hin, hout⟩ := ih (coolSpan i s)
    rw [List.foldl_cons]
    have hself : (coolSpan i s).cn.span i = { s.cn.span i with st := .cooling } := by
      rw [span_coolSpan, span_setSpan_self]
    have hne (h : j ≠ i) : (coolSpan i s).cn.span j = s.cn.span j := by
      rw [span_coolSpan, span_setSpan_ne _ s h]
    refine ⟨fun h => ?_, fun h => ?_⟩
    · by_cases hr : j ∈ r
      · exact hin hr
      · obtain rfl := (List.mem_cons.1 h).resolve_right hr
        rw [hout hr, hself]
    · obtain ⟨hi, hr⟩ := not_or.1 (mt List.mem_cons.2 h)
      rw [hout hr, hne hi]

/-- A slot that has been evacuated is FREE with its generation, at the tail of the free list (R122). -/
theorem retireSlot_leaves (h : BitVec 19) (s : State) :
    (retireSlot h s).slot (hSlot h) = { CnSlot.reset with gen := (s.slot (hSlot h)).gen } ∧
      (retireSlot h s).cn.freeTail = s.cn.freeTail ++ [hSlot h] ∧
      (retireSlot h s).cn.cooling = s.cn.cooling ++ (s.slot (hSlot h)).spans.map (fun j => (j, coolUntil s)) ∧
      (∀ j ∈ (s.slot (hSlot h)).spans, ((retireSlot h s).cn.span j).st = .cooling) ∧
      (∀ j, j ∉ (s.slot (hSlot h)).spans → (retireSlot h s).cn.span j = s.cn.span j) ∧ (retireSlot h s).tp = s.tp := by
  have hcool := coolSpans_spans (s.slot (hSlot h)).spans s
  have heq := coolSpans_eq (s.slot (hSlot h)).spans s
  unfold retireSlot
  dsimp only
  generalize (s.slot (hSlot h)).spans.foldl (fun s i => coolSpan i s) s = u at hcool heq
  rw [advanceEovf_eq]
  have hcooling : u.cn.cooling = s.cn.cooling ++ (s.slot (hSlot h)).spans.map fun j => (j, coolUntil s) := by rw [heq]
  have htail : u.cn.freeTail = s.cn.freeTail := by rw [heq]
  have htp : u.tp = s.tp := by rw [heq]
  refine ⟨Tab.get_set_self .., ?_, hcooling, fun j hj => (hcool j).1 hj, fun j hj => (hcool j).2 hj, htp⟩
  exact congrArg (· ++ [hSlot h]) htail

/-- The end of an evacuation. -/
theorem evacJobDone_ends {s : State} {e : BitVec 3} {h : BitVec 19} {j : Nat} (ha : (s.engine e.toNat).evac = some j)
    (ho : evacOwner s j = some h) (hpf : s.pf = false) : ∃ t, exec (.evacJobDone e) s = .next t ∧
      t.slot (hSlot h) = { CnSlot.reset with gen := (s.slot (hSlot h)).gen } ∧
      t.cn.freeTail = s.cn.freeTail ++ [hSlot h] ∧
      t.cn.cooling = s.cn.cooling ++ (s.slot (hSlot h)).spans.map (fun j => (j, coolUntil s)) ∧
      (∀ j ∈ (s.slot (hSlot h)).spans, (t.cn.span j).st = .cooling) ∧
      (∀ j, j ∉ (s.slot (hSlot h)).spans → t.cn.span j = s.cn.span j) ∧ (t.engine e.toNat).evac = none ∧
      evacOwner t j = none := by
  obtain ⟨u, hu⟩ : ∃ u, u = setEvacOwner j none (s.modEngine e.toNat fun x => { x with evac := none }) := ⟨_, rfl⟩
  have hexec : exec (.evacJobDone e) s = .next (retireSlot h u) := by
    show execEvacJobDone e s = _
    unfold execEvacJobDone
    rw [ha, hpf]
    dsimp only
    rw [ho, hu]
    rfl
  have hengine : (u.engine e.toNat).evac = none := by
    rw [hu, engine_setEvacOwner, engine_modEngine_self]
  have howner : evacOwner u j = none := hu ▸ evacOwner_setEvacOwner_self ..
  obtain ⟨hslot, htail, hcooling, hin, hout, htp⟩ := retireSlot_leaves h u
  have hslots : u.slot (hSlot h) = s.slot (hSlot h) := by
    rw [hu]
    rfl
  rw [hslots] at hslot hcooling hin hout
  have hkeep : u.cn = s.cn ∧ coolUntil u = coolUntil s := by
    rw [hu]
    exact ⟨rfl, rfl⟩
  obtain ⟨hcn, huntil⟩ := hkeep
  rw [hcn] at htail hcooling hout
  rw [huntil] at hcooling
  refine ⟨_, hexec, hslot, htail, hcooling, hin, hout, ?_, ?_⟩
  · rw [State.engine, htp]
    exact hengine
  · rw [evacOwner, htp]
    exact howner

end Sys2Proof.Machine
end

section
open Sys2Proof.Machine

theorem evacuationsClause : Sys2Proof.Clause.Evacuations := by
  intro s i e h j q
  refine ⟨fun hr => evacJobQueue_refuses ?_, evacJobQueue_full, fun hst hesc hpf hh => ⟨fun hk => evacJobQueue_refuses ?_,
      fun hk hfree => evacJobQueue_queues hst hesc hpf hh hk hfree⟩, evacJobStart_idle,
    fun ha hq hpf ho => evacJobStart_starts ha hq hpf ho, evacJobDone_idle, fun ha ho hpf => evacJobDone_ends ha ho hpf⟩
  · exact hr.imp_right fun hr => hr.imp_right .inr
  · exact .inr (.inr (.inl (hh ▸ hk)))

end

section
namespace Sys2Proof.Machine

/-! ### Reads of memory and the states of spans (13 R424) -/

/-- The state of every span. -/
def spanSts (s : State) : Nat → SpanSt := fun i => (s.cn.span i).st

@[simp] theorem spanSts_record (sev src reason a0 a1 a2 a3 a4) (s : State) :
    spanSts (record sev src reason a0 a1 a2 a3 a4 s) = spanSts s := rfl
@[simp] theorem spanSts_bumpBy (k n : Nat) (s : State) : spanSts (bumpBy k n s) = spanSts s := rfl
@[simp] theorem spanSts_bump (k : Nat) (s : State) : spanSts (bump k s) = spanSts s := rfl
@[simp] theorem spanSts_modMc (s : State) (c : Nat) (f : McSt → McSt) : spanSts (s.modMc c f) = spanSts s := rfl
@[simp] theorem spanSts_setL2 (l : Lan) (ln : Nat) (x : L2Line) (s : State) : spanSts (setL2 l ln x s) = spanSts s := rfl
@[simp] theorem spanSts_setDir (ln : Nat) (e : DirEnt) (s : State) : spanSts (setDir ln e s) = spanSts s := rfl
@[simp] theorem spanSts_post (dest txid op head body) (s : State) : spanSts (post dest txid op head body s) = spanSts s := rfl

theorem spanSts_foldl {α : Type} {f : State → α → State} (h : ∀ s a, spanSts (f s a) = spanSts s) (l : List α) (s : State) :
    spanSts (l.foldl f s) = spanSts s := by
  induction l generalizing s with
  | nil => rfl
  | cons a r ih => exact (ih _).trans (h s a)

@[simp] theorem spanSts_dropL1d (l : Lan) (ln : Nat) (s : State) : spanSts (dropL1d l ln s) = spanSts s := by
  refine spanSts_foldl (fun s k => ?_) _ s
  split <;> rfl

@[simp] theorem spanSts_writeL2 (l : Lan) (ln : Nat) (st : Moesi) (ws : Tab (Option MWord)) (s : State) :
    spanSts (writeL2 l ln st ws s) = spanSts s := by
  refine (spanSts_foldl (fun s k => ?_) _ _).trans rfl
  split <;> rfl

@[simp] theorem spanSts_setHbmLine (loc : Nat) (l : Line) (s : State) : spanSts (setHbmLine loc l s) = spanSts s := by
  rw [setHbmLine, setHbmWords_eq]
  rfl

@[simp] theorem spanSts_homeWrite (loc : Nat) (l : Line) (s : State) : spanSts (homeWrite loc l s) = spanSts s := by
  rw [homeWrite, spanSts_setHbmLine, touchTag]
  split <;> rfl

@[simp] theorem spanSts_shareDir (h : Holder) (ln : Nat) (e : DirEnt) (s : State) : spanSts (shareDir h ln e s) = spanSts s := by
  rw [shareDir, spanSts_setDir]
  split <;> rfl

theorem spanSts_leaveL2 (l : Lan) (ln : Nat) (s : State) : spanSts (leaveL2 l ln s) = spanSts s := by
  have hback (h : Holder) (d : Line) (k : Moesi) (u : State) : spanSts (homeWriteBack h ln d k u) = spanSts u := by
    rw [homeWriteBack]
    split
    · cases k <;> simp
    · rfl
  have hnotice (h : Holder) (u : State) : spanSts (homeNotice h ln u) = spanSts u := rfl
  have hpick (u : State) : spanSts (u.pick 2).2 = spanSts u := rfl
  rw [leaveL2]
  cases (s.l2 l ln).st <;> dsimp only
  case S =>
    split
    · simp [hnotice]
    · split <;> simp [hpick]
  all_goals split <;> simp [hback, hnotice]

theorem spanSts_meetL2 (l : Lan) (ln : Nat) (s : State) : spanSts (meetL2 l ln s) = spanSts s := by
  rw [meetL2]
  split
  · rfl
  split
  · split <;> simp [spanSts_leaveL2]
  split
  · split <;> simp [spanSts_leaveL2]
  · simp

theorem spanSts_supply (l : Lan) (ln : Nat) (own : Bool) (s : State) : spanSts (supply l ln own s).2 = spanSts s := by
  rw [supply]
  split <;> cases own <;> simp

/-- A span of whose memory an error is reported keeps its state (R424). -/
theorem spanSts_reportSpan (pa : PA) (s : State) : spanSts (reportSpan pa s) = spanSts s := by
  rw [reportSpan]
  split
  · next i _ =>
    funext j
    by_cases h : j = i
    · subst h
      rw [spanSts, span_setSpan_self]
      rfl
    · rw [spanSts, span_setSpan_ne _ s h]
      rfl
  · rfl

theorem spanSts_homeRead (loc : Nat) (s : State) : spanSts (homeRead loc s).2 = spanSts s := by
  have hbad (ln : Nat) (src : BitVec 3) (u : State) : spanSts (homeUncorrectable ln src u) = spanSts u := by
    simp [homeUncorrectable, spanSts_reportSpan]
  have htouch : spanSts (touchTag (homeAgent loc) loc s) = spanSts s := by
    rw [touchTag]
    split <;> rfl
  rw [homeRead, ← htouch]
  show spanSts (meetHome 1 _ none loc _) = _
  rw [meetHome]
  dsimp only
  split
  · simp
  · exact hbad ..
  · split
    · rfl
    · simp
    · exact hbad ..
    · exact hbad ..

/-- What a home agent takes from its node's own copies, for a reader that shares the line. -/
theorem spanSts_takeLocal (req : Option Holder) (ln : Nat) (s : State) : spanSts (takeLocal req true ln s).2 = spanSts s := by
  unfold takeLocal
  extract_lets t e
  have hmet : spanSts t = spanSts s := by
    unfold t
    split
    · split
      · exact spanSts_meetL2 ..
      · rfl
    · rfl
  rw [← hmet, if_pos rfl]
  split
  · next o _ =>
    have hsupply := spanSts_supply o.lan ln false t
    split
    · split
      · next h =>
        rw [h] at hsupply
        dsimp only at hsupply ⊢
        split <;> simp [hsupply]
      · next h =>
        rw [h] at hsupply
        simpa using hsupply
    · rfl
  · rfl

theorem spanSts_snoopLine (ln : Nat) (s : State) : spanSts (snoopLine ln s).2 = spanSts s := by
  rw [snoopLine]
  split
  · rfl
  split
  · dsimp only
    split
    · exact spanSts_meetL2 ..
    · exact spanSts_meetL2 0 ln s
  split
  · rfl
  · have htake := spanSts_takeLocal (some ⟨s.node, 0⟩) ln s
    split
    · next h =>
      rw [h] at htake
      exact htake
    · next h =>
      rw [h] at htake
      exact (spanSts_homeRead ..).trans htake

/-! ### The sweep (03 R131; 06 R235) -/

/-- What a sweep keeps: the slots, and without AUTOFREE the state of every span. -/
def SweepKeeps (s t : State) : Prop :=
  t.cn.slots = s.cn.slots ∧ t.cn.autofree = s.cn.autofree ∧ (s.cn.autofree = false → spanSts t = spanSts s)

theorem SweepKeeps.refl (s : State) : SweepKeeps s s := ⟨rfl, rfl, fun _ => rfl⟩

theorem SweepKeeps.trans {s t u : State} (h : SweepKeeps s t) (g : SweepKeeps t u) : SweepKeeps s u := by
  obtain ⟨hslots, hauto, hst⟩ := h
  obtain ⟨gslots, gauto, gst⟩ := g
  exact ⟨gslots.trans hslots, gauto.trans hauto, fun ha => (gst (hauto.trans ha)).trans (hst ha)⟩

theorem SweepKeeps.snoopLine (ln : Nat) (s : State) : SweepKeeps s (snoopLine ln s).2 :=
  ⟨slots_of_aside (aside_snoopLine ln s), congrArg (fun p => p.1.cn.autofree) (aside_snoopLine ln s), fun _ => spanSts_snoopLine ln s⟩

theorem SweepKeeps.markedLines (sense : Bool) (ln n : Nat) (s : State) : SweepKeeps s (markedLines sense ln n s).2 := by
  induction n generalizing ln s with
  | zero => exact .refl s
  | succ n ih => exact (SweepKeeps.snoopLine ln s).trans (ih _ _)

theorem SweepKeeps.liveWords (i : Nat) (s : State) : SweepKeeps s (liveWords i s).2 := by
  rw [Machine.liveWords]
  exact .markedLines ..

/-- A sweep of one span by a function that counts its live words. The count is kept opaque: where a comparison meets it the
kernel would evaluate it for the 16,384 lines of a span. -/
theorem sweepSpan_def : ∃ live, live = liveWords ∧ sweepSpan = fun i s =>
    let (n, s) := live i s
    let s := { s with cn := { s.cn with spanLive := Tab.set 0 s.cn.spanLive i n } }
    if n = 0 ∧ !(s.cn.span i).newborn ∧ s.cn.autofree ∧ !s.tp.incomplete then coolSpan i s else s := by
  refine ⟨liveWords, rfl, ?_⟩
  delta sweepSpan
  with_reducible rfl

theorem SweepKeeps.sweepSpan (i : Nat) (s : State) : SweepKeeps s (sweepSpan i s) := by
  obtain ⟨live, hdef, hsweep⟩ := sweepSpan_def
  have hlive : SweepKeeps s (live i s).2 := hdef ▸ SweepKeeps.liveWords i s
  rw [hsweep]
  beta_reduce
  generalize live i s = p at hlive ⊢
  obtain ⟨n, u⟩ := p
  dsimp only at hlive ⊢
  refine hlive.trans ?_
  split
  · next h =>
    obtain ⟨-, -, hauto, -⟩ := h
    exact ⟨rfl, rfl, fun ha => absurd (hauto.symm.trans ha) Bool.noConfusion⟩
  · exact ⟨rfl, rfl, fun _ => rfl⟩

theorem SweepKeeps.sweepSpans (l : List Nat) (s : State) : SweepKeeps s (l.foldl (fun s i => Machine.sweepSpan i s) s) := by
  induction l generalizing s with
  | nil => exact .refl s
  | cons i r ih =>
    rw [List.foldl_cons]
    exact (SweepKeeps.sweepSpan i s).trans (ih _)

/-- The end of a sweep. -/
theorem sweepAll_leaves (s : State) :
    (sweepAll s).cn.phase = .idle ∧ (sweepAll s).cn.slots = s.cn.slots ∧ (∀ x ∈ (sweepAll s).cn.spans, x.2.newborn = false) ∧
      (s.cn.autofree = false → ∀ i, ((sweepAll s).cn.span i).st = (s.cn.span i).st) := by
  have hkeeps := SweepKeeps.sweepSpans
    (s.cn.spans.filterMap fun (e : Nat × SpanEnt) => if e.2.st = .persistent then some e.1 else none) s
  unfold sweepAll
  dsimp only
  generalize List.foldl (fun s i => Machine.sweepSpan i s) s _ = u at hkeeps
  obtain ⟨hslots, -, hst⟩ := hkeeps
  refine ⟨rfl, hslots, fun x hx => ?_, fun ha i => ?_⟩
  · obtain ⟨y, -, rfl⟩ := List.mem_map.1 hx
    rfl
  · refine (congrArg SpanEnt.st (get_map SpanEnt.free u.cn.spans (fun e => { e with newborn := false }) rfl i)).trans ?_
    exact congrFun (hst ha) i

theorem markSweepDone_ends {s : State} (hp : s.cn.phase = .sweep) (hr : Reads sweepAll s) :
    ∃ t, exec .markSweepDone s = .next t ∧ t.cn.phase = .idle ∧ t.cn.slots = s.cn.slots ∧
      (∀ x ∈ t.cn.spans, x.2.newborn = false) ∧
      (s.cn.autofree = false → ∀ i, (t.cn.span i).st = (s.cn.span i).st) := by
  have hexec : exec .markSweepDone s = .next (sweepAll { s with miss := none }) :=
    congrArg Host.Outcome.next ((if_neg (not_not.2 hp)).trans (withLines_reads hr))
  exact ⟨_, hexec, sweepAll_leaves { s with miss := none }⟩

theorem markSweepDone_idle {s : State} (hp : s.cn.phase ≠ .sweep) : exec .markSweepDone s = .next s :=
  congrArg Host.Outcome.next (if_pos hp)

/-! ### The mark stack (06 R232, R235) -/

/-- What mark work keeps of the candle manager and of the stack: it only pushes. -/
def OnlyPushes (s t : State) : Prop :=
  { t.cn with spans := [] } = { s.cn with spans := [] } ∧ s.tp.mstkUsed ≤ t.tp.mstkUsed

theorem OnlyPushes.trans {s t u : State} (h : OnlyPushes s t) (g : OnlyPushes t u) : OnlyPushes s u :=
  ⟨g.1.trans h.1, h.2.trans g.2⟩

theorem cn_of_aside {s t : State} (h : aside t = aside s) : { t.cn with spans := [] } = { s.cn with spans := [] } :=
  congrArg (fun p => p.1.cn) h

theorem tp_of_aside {s t : State} (h : aside t = aside s) : { t.tp with engines := [] } = { s.tp with engines := [] } :=
  congrArg (fun p => p.1.tp) h

theorem OnlyPushes.of_aside {s t : State} (h : aside t = aside s) : OnlyPushes s t :=
  ⟨cn_of_aside h, (congrArg TpSt.mstkUsed (tp_of_aside h)).ge⟩

/-- A push on a full stack is discarded and the cycle is incomplete; another enters (R235). -/
theorem pushMark_leaves (w : TWord) (asid : BitVec 12) (s : State) :
    { (pushMark w asid s).cn with spans := [] } = { s.cn with spans := [] } ∧
      (s.tp.mstkUsed < mstkSize s → (pushMark w asid s).tp.mstkUsed = s.tp.mstkUsed + 1) ∧
      (mstkSize s ≤ s.tp.mstkUsed → (pushMark w asid s).tp.mstkUsed = s.tp.mstkUsed ∧ (pushMark w asid s).tp.incomplete = true) := by
  unfold pushMark
  split
  · next h => exact ⟨rfl, fun hlt => absurd h (Nat.not_le.2 hlt), fun _ => ⟨rfl, rfl⟩⟩
  · next h =>
    have hcn := cn_of_aside (aside_physWrites (mstkAt s (s.tp.mstkHead + s.tp.mstkUsed)) [w.m, rawM (asid.setWidth 32)] s)
    exact ⟨hcn, fun _ => rfl, fun hle => absurd hle h⟩

theorem OnlyPushes.pushMark (w : TWord) (asid : BitVec 12) (s : State) : OnlyPushes s (pushMark w asid s) := by
  obtain ⟨hcn, hroom, hfull⟩ := pushMark_leaves w asid s
  refine ⟨hcn, ?_⟩
  rcases Nat.lt_or_ge s.tp.mstkUsed (mstkSize s) with h | h
  · exact (hroom h).ge.trans' (Nat.le_succ _)
  · exact (hfull h).1.ge

theorem OnlyPushes.markXlate (e : Nat) (asid : BitVec 12) (va : Word) (s : State) : OnlyPushes s (markXlate e asid va s).2 :=
  .of_aside (aside_taperXlate e asid 1 .mark va s)

theorem OnlyPushes.pushRoots (e : Nat) (asid : BitVec 12) (va : Word) (n : Nat) (s : State) :
    OnlyPushes s (pushRoots e asid va n s) := by
  induction n generalizing va s with
  | zero => exact ⟨rfl, le_rfl⟩
  | succ n ih =>
    have hwalk := OnlyPushes.markXlate e asid va s
    rw [Machine.pushRoots]
    split
    · next h =>
      rw [h] at hwalk
      exact hwalk.trans (ih _ _)
    · next pa v h =>
      rw [h] at hwalk
      exact (hwalk.trans (.of_aside (aside_physRead pa v))).trans ((OnlyPushes.pushMark ..).trans (ih _ _))

/-! ### The phases (03 Table 03-8) -/

theorem traceStart_pushes (s : State) : OnlyPushes { s with cn := { s.cn with phase := .trace } } (traceStart s) := by
  unfold traceStart
  dsimp only
  have hwalk := OnlyPushes.markXlate (markEngine { s with cn := { s.cn with phase := .trace } }) s.cn.rootAsid s.cn.rootVa
    { s with cn := { s.cn with phase := .trace } }
  split
  · next h =>
    rw [h] at hwalk
    exact hwalk
  · next pa v h =>
    rw [h] at hwalk
    have hread : OnlyPushes v (physRead pa v).2 := .of_aside (aside_physRead pa v)
    split
    · exact (hwalk.trans hread).trans (.pushRoots ..)
    · exact hwalk.trans hread

theorem markStart_refused {s : State} (h : s.cn.phase ≠ .idle) : exec .markStart s = .next s :=
  congrArg Host.Outcome.next (if_pos h)

theorem markStart_starts {s : State} (h : s.cn.phase = .idle) : ∃ t, exec .markStart s = .next t ∧ t.cn.phase = .grace ∧
    t.cn.sense = !s.cn.sense ∧ t.tp.incomplete = false ∧ t.tp.mstkUsed = 0 ∧
    (∀ i, t.slot i = { s.slot i with precycle := (s.slot i).precycle || decide ((s.slot i).st ≠ .free) }) ∧
    t.cn.spans = s.cn.spans ∧ t.hbm = s.hbm := by
  show ∃ t, execMarkStart s = .next t ∧ _
  unfold execMarkStart
  rw [if_neg (not_not.2 h)]
  refine ⟨_, rfl, rfl, rfl, rfl, rfl, fun i => ?_, rfl, rfl⟩
  have hmark : (s.cn.slots.map fun (e : Nat × CnSlot) => if e.2.st = .free then e else (e.1, { e.2 with precycle := true })) =
      s.cn.slots.map fun e => (e.1, { e.2 with precycle := e.2.precycle || decide (e.2.st ≠ .free) }) := by
    refine List.map_congr_left fun e _ => ?_
    by_cases hf : e.2.st = .free
    · rw [if_pos hf, decide_eq_false (not_not.2 hf), Bool.or_false]
    · rw [if_neg hf, decide_eq_true hf, Bool.or_true]
  show Tab.get CnSlot.reset (s.cn.slots.map _) i = _
  rw [hmark]
  exact get_map CnSlot.reset s.cn.slots (fun x => { x with precycle := x.precycle || decide (x.st ≠ .free) }) rfl i

theorem markTraceStart_refused {s : State} (h : s.cn.phase ≠ .grace ∨ ∃ x ∈ s.cn.slots, x.2.precycle = true) :
    exec .markTraceStart s = .next s :=
  congrArg Host.Outcome.next (if_pos (h.imp_right List.any_eq_true.2))

theorem markTraceStart_starts {s : State} (h : s.cn.phase = .grace) (hs : ∀ x ∈ s.cn.slots, x.2.precycle = false)
    (hr : Reads traceStart s) : exec .markTraceStart s = .next (traceStart { s with miss := none }) ∧
      (traceStart { s with miss := none }).cn.phase = .trace ∧ (traceStart { s with miss := none }).cn.slots = s.cn.slots ∧
      s.tp.mstkUsed ≤ (traceStart { s with miss := none }).tp.mstkUsed := by
  have hno : ¬ (s.cn.phase ≠ .grace ∨ s.cn.slots.any (fun (e : Nat × CnSlot) => e.2.precycle) = true) := by
    rintro (hp | ha)
    · exact hp h
    · obtain ⟨x, hx, hpre⟩ := List.any_eq_true.1 ha
      exact absurd ((hs x hx).symm.trans hpre) Bool.false_ne_true
  obtain ⟨hcn, hused⟩ := traceStart_pushes { s with miss := none }
  exact ⟨congrArg Host.Outcome.next ((if_neg hno).trans (withLines_reads hr)), (congrArg CnSt.phase hcn :), (congrArg CnSt.slots hcn :),
    hused⟩

theorem markFinish_idle {s : State} (h : s.cn.phase = .idle) : exec .markFinish s = .next (bump Cnt.cnMarkErr s) := by
  refine congrArg Host.Outcome.next ?_
  rw [h]

theorem markFinish_other {s : State} (h : s.cn.phase = .grace ∨ s.cn.phase = .sweep) : exec .markFinish s = .next s := by
  refine congrArg Host.Outcome.next ?_
  rcases h with h | h <;> rw [h]

theorem quiescent_iff {s : State} (h : s.cn.phase = .trace) : quiescent s = true ↔ s.tp.mstkUsed = 0 ∧ s.cn.mlogUsed = 0 ∧
    ¬ ((∃ p ∈ s.bl.inbox, p.op = 0x30) ∨ (∃ p ∈ s.bl.pkts, p.op = 0x30 ∧ p.src = s.node) ∨
      ∃ x ∈ s.bl.ports, ∃ p ∈ x.2.txq, p.op = 0x30 ∧ p.src = s.node) := by
  simp only [quiescent, h, decide_true, Bool.true_and, Bool.and_eq_true, decide_eq_true_eq, Bool.not_eq_true', List.any_eq_false,
    List.any_eq_true, not_or, not_exists, not_and]
  tauto

theorem markFinish_trace {s : State} (h : s.cn.phase = .trace) (waits : Prop) (hw : waits =
      ((∃ p ∈ s.bl.inbox, p.op = 0x30) ∨ (∃ p ∈ s.bl.pkts, p.op = 0x30 ∧ p.src = s.node) ∨
        ∃ x ∈ s.bl.ports, ∃ p ∈ x.2.txq, p.op = 0x30 ∧ p.src = s.node)) :
    (s.tp.mstkUsed = 0 → s.cn.mlogUsed = 0 → ¬waits → exec .markFinish s = .next { s with cn := { s.cn with phase := .sweep } }) ∧
      (s.tp.mstkUsed ≠ 0 ∨ s.cn.mlogUsed ≠ 0 ∨ waits → exec .markFinish s = .next (bump Cnt.cnMarkErr s)) := by
  have hexec : exec .markFinish s =
      .next (if quiescent s then { s with cn := { s.cn with phase := .sweep } } else bump Cnt.cnMarkErr s) := by
    refine congrArg Host.Outcome.next ?_
    rw [h]
  rw [hexec, hw]
  refine ⟨fun hm hl hno => congrArg _ (if_pos ((quiescent_iff h).2 ⟨hm, hl, hno⟩)), fun hsome => congrArg _ (if_neg fun hq => ?_)⟩
  obtain ⟨hm, hl, hno⟩ := (quiescent_iff h).1 hq
  rcases hsome with hsome | hsome | hsome
  · exact hsome hm
  · exact hsome hl
  · exact hno hsome

/-! ### Mark work (03 R130, R133, R134; 06 R232–R234) -/

theorem markPop_refused {s : State} {e : BitVec 3} (h : s.tp.mstkUsed = 0 ∨ s.pf = true ∨ markFree s e.toNat = false) :
    exec (.markPop e) s = .next s := by
  refine congrArg Host.Outcome.next (if_pos ?_)
  rcases h with h | h | h
  · exact .inl h
  · exact .inr (.inr h)
  · exact .inr (.inl (by rw [h]; rfl))

section
variable {s u : State} {e : BitVec 3} {k : Nat} (hu : s.tp.mstkUsed ≠ 0) (hpf : s.pf = false) (hf : markFree s e.toNat = true)
  (ht : takeEvacEntry s = (some k, u))
include hu hpf hf ht

theorem markPop_pops : exec (.markPop e) s = .next (popLines e.toNat u) := by
  refine congrArg Host.Outcome.next ((if_neg ?_).trans ?_)
  · simp [hu, hpf, hf]
  · rw [ht]

/-- An entry whose lines are all there is acted on at once. -/
theorem markPop_acts (hr : Reads (popEntry e.toNat) u) : ∃ a v, popMark { u with miss := none } = (a, v) ∧
    exec (.markPop e) s = .next ((markAct e.toNat a.1 a.2 v).modEngine e.toNat fun g => { g with mark := false }) := by
  obtain ⟨⟨a, v⟩, hp⟩ : ∃ p, popMark { u with miss := none } = p := ⟨_, rfl⟩
  have hentry : popEntry e.toNat { u with miss := none } = markAct e.toNat a.1 a.2 v := by rw [popEntry, hp]
  have hmiss : (markAct e.toNat a.1 a.2 v).miss.isSome = false := by
    rw [← hentry, hr]
    rfl
  refine ⟨a, v, hp, (markPop_pops hu hpf hf ht).trans (congrArg Host.Outcome.next ?_)⟩
  rw [popLines, hentry, hmiss]
  rfl

/-- While a line has to come the job waits at its engine (log entry 77). -/
theorem markPop_waits (hr : ¬Reads (popEntry e.toNat) u) :
    ∃ t, exec (.markPop e) s = .next (t.modEngine e.toNat fun g => { g with mark := true }) ∧
      t = withLines (fun _ => popEntry e.toNat { u with miss := none }) u := by
  refine ⟨_, (markPop_pops hu hpf hf ht).trans (congrArg Host.Outcome.next ?_), rfl⟩
  have hmiss : (popEntry e.toNat { u with miss := none }).miss.isSome = true := Option.isSome_iff_ne_none.2 hr
  unfold popLines
  dsimp only
  rw [hmiss]
  rfl

end

/-! The action of an entry by where its target lies (Table 06-6). -/

theorem markAct_ignored {u : State} {e : Nat} {w : TWord} {asid : BitVec 12}
    (h : isPointer w.ty = false ∨ windowAddr u asid w.val = true) : markAct e w asid u = u := by
  refine if_pos ?_
  rcases h with h | h <;> simp [h]

section
variable {u v : State} {e : Nat} {w : TWord} {asid : BitVec 12} (hp : isPointer w.ty = true) (hw : windowAddr u asid w.val = false)
include hp hw

theorem markAct_unreached (hx : markXlate e asid w.val u = (none, v)) : markAct e w asid u = bump Cnt.tpMarkStale v := by
  unfold markAct
  simp [hp, hw, hx]

variable {pa : PA} (hx : markXlate e asid w.val u = (some pa, v))
include hx

theorem markAct_away (hn : nodeOf pa ≠ v.node) : markAct e w asid u = requestMark (nodeOf pa) w asid v := by
  unfold markAct
  simp [hp, hw, hx, hn]

theorem markAct_persistent (hn : nodeOf pa = v.node) (i : Nat) (hi : poolIndex v pa = some i)
    (hst : (v.cn.span i).st = .persistent) : markAct e w asid u = markTarget e w asid (v.cn.span i).newborn pa v := by
  unfold markAct
  simp [hp, hw, hx, hn, hi, hst]

theorem markAct_outside (hn : nodeOf pa = v.node) (hi : poolIndex v pa = none) : markAct e w asid u = v := by
  unfold markAct
  simp [hp, hw, hx, hn, hi]

end

/-! The mark log (R133). -/

theorem markLogConsume_idle {s : State} (h : s.cn.mlogUsed = 0 ∨ s.pf = true) : exec .markLogConsume s = .next s :=
  congrArg Host.Outcome.next (if_pos h)

/-- The oldest entry of the log leaves it and is pushed. -/
theorem consumeLog_leaves (s : State) :
    (consumeLog s).cn.mlogHead = (s.cn.mlogHead + 1) % 2 ^ s.cn.pool.lv.mlogSize.toNat ∧
      (consumeLog s).cn.mlogUsed = s.cn.mlogUsed - 1 ∧
      (s.tp.mstkUsed < mstkSize s → (consumeLog s).tp.mstkUsed = s.tp.mstkUsed + 1) ∧
      (mstkSize s ≤ s.tp.mstkUsed → (consumeLog s).tp.mstkUsed = s.tp.mstkUsed ∧ (consumeLog s).tp.incomplete = true) := by
  obtain ⟨at_, hat⟩ : ∃ at_, at_ = s.cn.pool.lv.mlogBase + BitVec.ofNat 53 (8 * s.cn.mlogHead) := ⟨_, rfl⟩
  obtain ⟨⟨w, s1⟩, h1⟩ : ∃ p, physRead at_ s = p := ⟨_, rfl⟩
  obtain ⟨⟨a, v⟩, h2⟩ : ∃ p, physRead (at_ + 4) s1 = p := ⟨_, rfl⟩
  have haside : aside v = aside s := by
    have hfirst := aside_physRead at_ s
    have hsecond := aside_physRead (at_ + 4) s1
    rw [h1] at hfirst
    rw [h2] at hsecond
    exact hsecond.trans hfirst
  have hcn := cn_of_aside haside
  have htp := tp_of_aside haside
  have hhead : v.cn.mlogHead = s.cn.mlogHead := (congrArg CnSt.mlogHead hcn :)
  have hused : v.cn.mlogUsed = s.cn.mlogUsed := (congrArg CnSt.mlogUsed hcn :)
  have hstack : v.tp.mstkUsed = s.tp.mstkUsed := (congrArg TpSt.mstkUsed htp :)
  have hsize : mstkSize v = mstkSize s := (congrArg (fun t : TpSt => 2 ^ t.mark.lv.log2.toNat) htp :)
  obtain ⟨x, hx⟩ : ∃ x, x = { v with cn := { v.cn with
    mlogHead := (v.cn.mlogHead + 1) % 2 ^ s.cn.pool.lv.mlogSize.toNat, mlogUsed := v.cn.mlogUsed - 1 } } := ⟨_, rfl⟩
  have hpush : consumeLog s = pushMark w.t (a.val.setWidth 12) x := by
    rw [consumeLog]
    dsimp only
    rw [← hat, h1]
    dsimp only
    rw [h2, hx]
  rw [hpush]
  obtain ⟨pcn, proom, pfull⟩ := pushMark_leaves w.t (a.val.setWidth 12) x
  have hxh : x.cn.mlogHead = (s.cn.mlogHead + 1) % 2 ^ s.cn.pool.lv.mlogSize.toNat := by rw [hx, ← hhead]
  have hxu : x.cn.mlogUsed = s.cn.mlogUsed - 1 := by rw [hx, ← hused]
  have hxs : x.tp.mstkUsed = s.tp.mstkUsed := by rw [hx, ← hstack]
  have hxz : mstkSize x = mstkSize s := by
    rw [hx, ← hsize]
    rfl
  rw [hxs, hxz] at proom pfull
  have hph : (pushMark w.t (a.val.setWidth 12) x).cn.mlogHead = x.cn.mlogHead := (congrArg CnSt.mlogHead pcn :)
  have hpu : (pushMark w.t (a.val.setWidth 12) x).cn.mlogUsed = x.cn.mlogUsed := (congrArg CnSt.mlogUsed pcn :)
  exact ⟨hph.trans hxh, hpu.trans hxu, proom, pfull⟩

theorem markLogConsume_consumes {s : State} (hu : s.cn.mlogUsed ≠ 0) (hpf : s.pf = false) (hr : Reads consumeLog s) :
    ∃ t, exec .markLogConsume s = .next t ∧
      t.cn.mlogHead = (s.cn.mlogHead + 1) % 2 ^ s.cn.pool.lv.mlogSize.toNat ∧ t.cn.mlogUsed = s.cn.mlogUsed - 1 ∧
      (s.tp.mstkUsed < mstkSize s → t.tp.mstkUsed = s.tp.mstkUsed + 1) ∧
      (mstkSize s ≤ s.tp.mstkUsed → t.tp.mstkUsed = s.tp.mstkUsed ∧ t.tp.incomplete = true) := by
  have hexec : exec .markLogConsume s = .next (consumeLog { s with miss := none }) := by
    refine congrArg Host.Outcome.next ((if_neg ?_).trans (withLines_reads hr))
    simp [hu, hpf]
  exact ⟨_, hexec, consumeLog_leaves { s with miss := none }⟩

/-! Requests of other nodes (R131, R234). -/

section
variable {s u : State} {w : TWord} {asid : BitVec 12} (hin : s.bl.inbox = [])
  (hu : u = { s with miss := none, cn := { s.cn with reqIn := s.cn.reqIn + 1 } }) (hr : Reads (pushRequest w asid) s)
include hin hu hr

/-- A request whose packet is not kept is counted and answered by the phase and its target. -/
theorem markRequest_asks : exec (.markRequest w asid) s = .next (if u.cn.phase = .idle then bump Cnt.cnMarkErr u else
    match markXlate (markEngine u) asid w.val u with
    | (some pa, s) => if nodeOf pa = s.node then pushMark w asid s else bump Cnt.cnMarkErr (bump Cnt.tpMarkStale s)
    | (none, s) => bump Cnt.cnMarkErr (bump Cnt.tpMarkStale s)) := by
  refine congrArg Host.Outcome.next ((withLines_reads hr).trans ?_)
  rw [pushRequest, takeInbox_nil (s := { s with miss := none }) _ hin]
  subst hu
  rfl

theorem markRequest_idle (h : s.cn.phase = .idle) : exec (.markRequest w asid) s = .next (bump Cnt.cnMarkErr u) := by
  refine (markRequest_asks hin hu hr).trans (congrArg _ (if_pos ?_))
  rw [hu]
  exact h

variable (h : s.cn.phase ≠ .idle) {v : State}
include h

theorem markRequest_pushes {pa : PA} (hx : markXlate (markEngine s) asid w.val u = (some pa, v)) (hn : nodeOf pa = s.node) :
    exec (.markRequest w asid) s = .next (pushMark w asid v) := by
  have hnode : v.node = s.node := by
    have haside := aside_taperXlate (markEngine s) asid 1 .mark w.val u
    rw [← markXlate, hx] at haside
    refine (congrArg (fun p => p.1.node) haside).trans ?_
    rw [hu]
    rfl
  have hengine : markEngine u = markEngine s := hu ▸ rfl
  refine (markRequest_asks hin hu hr).trans (congrArg _ ((if_neg (hu ▸ h)).trans ?_))
  rw [hengine, hx]
  exact if_pos (hn.trans hnode.symm)

theorem markRequest_unreached (hx : markXlate (markEngine s) asid w.val u = (none, v)) :
    exec (.markRequest w asid) s = .next (bump Cnt.cnMarkErr (bump Cnt.tpMarkStale v)) := by
  have hengine : markEngine u = markEngine s := hu ▸ rfl
  refine (markRequest_asks hin hu hr).trans (congrArg _ ((if_neg (hu ▸ h)).trans ?_))
  rw [hengine, hx]

end

end Sys2Proof.Machine
end

section
open Sys2Proof.Machine

theorem markCycleClause : Sys2Proof.Clause.MarkCycle := by
  intro s u e w asid pa k
  exact ⟨markStart_refused, markStart_starts, markTraceStart_refused, markTraceStart_starts, markFinish_idle, markFinish_trace,
    markFinish_other, markSweepDone_idle, markSweepDone_ends, markPop_refused,
    fun hu hpf hf ht => ⟨markPop_acts hu hpf hf ht, markPop_waits hu hpf hf ht⟩, markAct_ignored,
    fun hp hw _ => ⟨fun hx => ⟨markAct_away hp hw hx, markAct_persistent hp hw hx, markAct_outside hp hw hx⟩,
      markAct_unreached hp hw⟩,
    markLogConsume_idle, markLogConsume_consumes,
    fun hin hu hr => ⟨markRequest_idle hin hu hr, fun h _ => markRequest_pushes hin hu hr h,
      fun h _ => markRequest_unreached hin hu hr h⟩⟩

end

section
open Sys2Proof.Machine

/-- Settles O40: the span commands by what they answer; a job takes a free entry and joins the engine with the least load; mark
work only pushes, and a sweep without AUTOFREE moves no span, since a read of memory reports a span and never moves it. -/
theorem spansMarking : Obligations.SpansMarking :=
  ⟨spansClause, evacuationsClause, markCycleClause⟩

end
